-- ==== Sys2Proof/Word.lean ====
section
/-! DEFINITION. The word types of the FL5125 model: octets, 32-bit register words, the packed 64-bit stamp, and the
sorted association table that holds everything the spec numbers. -/

namespace Sys2Proof

/-- An octet of a wire format, a record or a memory. -/
abbrev Byte := BitVec 8

/-- A 32-bit register or custody core word (R7). -/
abbrev Word := BitVec 32

/-- A byte string in network order (R7). -/
abbrev Bytes := List (BitVec 8)

/-- A sparse table: key and value pairs, keys strictly rising, no pair whose value is what an unlisted key reads as. -/
abbrev Tab (α : Type) := List (Nat × α)

end Sys2Proof
end

