-- ==== Sys2Proof/Syntax.lean ====
section
/-! DEFINITION. The syntax of the commands the FL5125 takes, one constructor for each row of spec/opcode_table.json. A row's
operands say what the outside world brings: the fields of a host command, the bytes of a frame, the result of a measurement,
the instant of an event. -/

namespace Sys2Proof

/-- The fields of a host command entry that no opcode owns (R69): the function and queue it came through, its identifier,
whether it is the expert form, its profile, FENCE, the output bytes available (0 = no output), whether the host's memory
answers the parameter read and the output write, the raw parameter bytes that precede the ticket, and the ticket itself
when TICKET is set. The typed operands beside it are the fields its parameters carry (log entry 2). -/
structure HostCmd where
  fn : Fin 513
  queue : Fin 8
  ident : BitVec 16
  expert : Bool
  profile : BitVec 8
  fence : Bool
  outAddr : BitVec 64
  outLen : Nat
  paramOk : Bool
  outOk : Bool
  params : Bytes
  ticket : Option Bytes
  deriving DecidableEq, Repr

/-- How an engine ends a computation: well, with a read refused, with a fault of the engine, or with comparators that disagree. -/
inductive EngineResult where
  | good | readFail | fault | disagree
  deriving DecidableEq, Repr

/-- How an update engine job ends: well, or with a read refused, a tag that fails, or a flash program that fails (UPD_JOB_STAT). -/
inductive UpdResult where
  | good | readFail | tagFail | flashFail
  deriving DecidableEq, Repr

/-- How a public-key operation ends: well, with an invariant check that fails, with comparators that disagree, at the bound of ML-DSA signing, or
with a read or write of memory refused. -/
inductive PkeResult where
  | good | fault | disagree | iter | readFail
  deriving DecidableEq, Repr

/-- A beat of an interconnect path as its bus integrity code covers it (R525). -/
structure BusBeat where
  data : BitVec 64
  addr : Word
  master : BitVec 11
  ring : BitVec 2
  colour : BitVec 10
  deriving DecidableEq, Repr

/-- The path on which a beat fails its bus integrity code (R526): a key path or the custody interconnect with the master, a custody link with its tile
and whether the tile sent the beat, the tile-to-tile link from one tile to another, an engine, a terminal register line read for a cluster,
or another DRAM read with the master. -/
inductive BicPath where
  | keyPath (master : BitVec 11)
  | custody (master : BitVec 11)
  | custodyLink (tile : Fin 4) (fromTile : Bool)
  | tileLink (a b : Fin 4)
  | engine (e : Fin 1152)
  | termLine (cluster : Fin 64) (tenant : Fin 512) (terminal : BitVec 24)
  | dram (master : BitVec 11)
  deriving DecidableEq, Repr

/-- A beat that arrives on a path with the code it carries (R525, R526). -/
structure BadBeat where
  path : BicPath
  beat : BusBeat
  code : BitVec 10
  deriving DecidableEq, Repr

/-- A change to a tenant's configuration as the mirror link carries it (R549): the tenant created or destroyed, a region created or rolled, the
generation of its keys rolled, a terminal profile, its register range, its retention settings, or a game. -/
inductive PairConfig where
  | create (t : Fin 512) (domain : Fin 16) (word : Word) (m regMin : BitVec 8)
  | destroy (t : Fin 512)
  | region (t : Fin 512) (r : Fin 4096) (preload : Bool) (gen : BitVec 8)
  | roll (t : Fin 512) (gen : BitVec 8)
  | profile (t : Fin 512) (n : Fin 16) (classes : BitVec 16) (actions : BitVec 7) (egress : Fin 512) (zones : List (BitVec 8 × BitVec 8)) (notice : Bool)
  | quota (t : Fin 512) (base quota : BitVec 11)
  | retention (t : Fin 512) (lo hi : Word)
  | game (t : Fin 512) (g : Word) (valid : Bool) (close : BitVec 64) (margin : BitVec 16)
  deriving DecidableEq, Repr

/-- A message of the pair handshake (R559): the ephemeral ECDH and ML-KEM keys, or the partner's identity keys, its identity statement and the two
signatures. -/
inductive PairShake where
  | keys (ecdh mlkem : Bytes)
  | statement (ids stmt sigE sigM : Bytes)
  deriving DecidableEq, Repr

/-- What a seal tag answers (R512): an inventory round with the handles of the tags that answered, AUTH_READ with the tag's handle, its state block and
its CMAC, or RELEASE_KEY with the key (none: the tag answers an error). -/
inductive TagAnswer where
  | inventory (handles : List Bytes)
  | authRead (handle block mac : Bytes)
  | releaseKey (key : Option Bytes)
  deriving DecidableEq, Repr

/-- A field of configuration space that the host asks for (R63, R65): the SR-IOV capability, ARI, the number of MSI-X vectors, and FLR. -/
inductive CfgItem where
  | totalVfs | firstVfOffset | vfStride | ari | msixVectors | flr
  deriving DecidableEq, Repr

/-- A configuration request to a function (R48, R63). -/
structure CfgRequest where
  fn : Fin 513
  item : CfgItem
  deriving DecidableEq, Repr

/-- The word that the host writes to MBX_Q_CTL, with the IDE stream it comes through (R66, R68). -/
structure CtlWrite where
  value : BitVec 32
  stream : Option (Fin 8)
  deriving DecidableEq, Repr

/-- A byte offset of BAR0, or of BAR2 (R64). -/
structure BarOffset where
  bar2 : Bool
  offset : Fin 65536
  deriving DecidableEq, Repr

/-- Who makes an access of the custody interconnect: its ring, its master number and its colour. -/
structure BusSender where
  ring : Fin 4
  master : BitVec 11
  colour : BitVec 10
  deriving DecidableEq, Repr

/-- The port at which a frame begins, and the codewords its decoder has corrected and lost since the last one (R176). -/
structure PortStart where
  port : Fin 512
  corrected : BitVec 16
  lost : BitVec 16
  deriving DecidableEq, Repr

/-- The attributes of a key made from components: class, length code, attributes and LIMIT_EXP (R243, R253). -/
structure CompKey where
  cls : BitVec 8
  len : BitVec 8
  attr : BitVec 8
  limit : BitVec 8
  deriving DecidableEq, Repr

/-- A unit of a tile's public-key engine: 0 to 15, and 16 its spare (R11, R440). -/
structure TileUnitId where
  tile : Fin 4
  unit : Fin 17
  deriving DecidableEq, Repr

/-- A span of the flash window. -/
structure FlashSpan where
  addr : BitVec 25
  len : BitVec 7
  deriving DecidableEq, Repr

/-- What the check bits of a span show: how many single-bit errors, and the word with a double-bit error, if one has it (R448). -/
structure FlashEcc where
  corrected : BitVec 5
  uncorrected : Option (BitVec 5)
  deriving DecidableEq, Repr

/-- A page read of a ledger flash block: a scrub read, or one that a command needs (R463). -/
structure BlockRead where
  block : BitVec 18
  scrub : Bool
  deriving DecidableEq, Repr

/-- What other parts of the device and the host bring to an access of a register block (log entry 52): the bytes that host memory answers, the
words that the software port has received and the events a Tally counter has counted since they were last read, and for a TPR_COMMIT with ARM the
loops that match and their delays in ns. -/
structure BusEnv where
  host : Bytes
  refill : Fin 65
  counted : Word
  matched : BitVec 4
  delays : Vector (BitVec 11) 4
  deriving DecidableEq, Repr

/-- A mismatch as the comparator finds it (R336): the PC of core A, how many of its posted stores still lie in its output delay, and what the stores
that had left meet. -/
structure Mismatch where
  pc : BitVec 32
  held : Fin 3
  env : BusEnv
  deriving DecidableEq, Repr

/-- The commands of the FL5125: one constructor for each row of the opcode table, in its order. -/
inductive Instr where
  /-- SHIP_FUSE_BLOW: Talique blows the ship fuse, which fuses off the test buses, generates L0 and makes the next power-on start in NOTARY. (R33) -/
  | shipFuseBlow
  /-- POWER_ON: PWR_OK rises, which clears the cores, SRAM and tiles and starts the start-up sequence. (R41) -/
  | powerOn (off : Nat) (smbAddr : Fin 4)
  /-- POWER_FAIL: PWR_OK falls: hold-up clearing of the main bank, SRAM and caches begins and the keeper domain switches to VKEEP. (R529) -/
  | powerFail (levels : BitVec 8)
  /-- WARM_RESET_PIN: SYS_RESET_N held low for at least 10 µs performs a warm reset. (R41) -/
  | warmResetPin (low : Bool)
  /-- SYS_RESET_CTL_WARM: A ring 0 write of SYS_RESET_CTL with KIND 1 and the correct key requests a warm reset. (R61) -/
  | sysResetCtlWarm (ring : Fin 4) (value : Word)
  /-- SYS_RESET_CTL_CUSTODY: A ring 0 write of SYS_RESET_CTL with KIND 2 and the correct key requests a custody reset. (R61) -/
  | sysResetCtlCustody (ring : Fin 4) (value : Word)
  /-- SYS_RESET_CTL_TILE: A ring 0 write of SYS_RESET_CTL with KIND 3, a tile number and the correct key requests a tile reset. (R61) -/
  | sysResetCtlTile (ring : Fin 4) (value : Word)
  /-- CUSTODY_RESET_DONE: Firmware restarts after a custody reset, replies 0x4101 to outstanding commands and resumes fetching. (R42) -/
  | custodyResetDone (detected : BitVec 5)
  /-- UNCORRECTABLE_TILE_FAULT: An uncorrectable fault in a tile starts a tile reset, or a warm reset when the fault lies in a ledger pipe or tree unit. (R44) -/
  | uncorrectableTileFault (tile : Fin 4) (ledger : Bool)
  /-- TILE_RELEASE: The reset tile completes its reload, repair and known-answer steps and is released. (R44) -/
  | tileRelease (tile : Fin 4) (pass : Bool) (badEngines : List (Fin 1152)) (badUnits : List (Fin 68))
  /-- PCIE_FLR: A function-level reset clears that function's ring state and outstanding table and discards its commands. (R94) -/
  | pcieFlr (fn : Fin 513)
  /-- PERST_N_ASSERT: PERST_N asserted at run time resets only the PCIe endpoint, as an FLR of every function. (R590) -/
  | perstNAssert
  /-- PCIE_CONFIG_REQUEST: A PCIe configuration request is answered with Request Retry Status until start-up stage 2 completes. (R48) -/
  | pcieConfigRequest (request : CfgRequest)
  /-- BOOT_STAGE_0: The boot ROM completes the lockstep test, fuse read, Assay start-up tests and the stage 1 header check. (R46) -/
  | bootStage0 (detected : BitVec 5) (mv : BitVec 16)
  /-- BOOT_STAGE_1: The anti-rollback boot stage checks and loads custody firmware, falling back to the other bank or to recovery. (R46) -/
  | bootStage1
  /-- BOOT_STAGE_2: Custody firmware releases the PCIe endpoint and locks the register blocks. (R46) -/
  | bootStage2 (pass : Bool)
  /-- BOOT_STAGE_3: Tile microcode, tile PKE firmware and SerDes firmware are loaded, checked and measured in all four tiles. (R46) -/
  | bootStage3 (acks : BitVec 4) (loaded : BitVec 4)
  /-- BOOT_STAGE_4: The repair map is applied and every engine and tile PKE unit runs its known-answer test. (R46) -/
  | bootStage4 (badEngines : List (Fin 1152)) (badUnits : List (Fin 68)) (badCustody : List (Fin 8)) (mint : Bool) (badLeaf : List (Fin 64))
  /-- BOOT_STAGE_5: Start-mode selection runs, the configuration is loaded and measurement registers 16 to 23 are extended. (R46) -/
  | bootStage5 (pass : Bool)
  /-- BOOT_STAGE_6: Link training of every port enabled in the selected mode completes. (R46) -/
  | bootStage6
  /-- BOOT_STAGE_7: Ports are released, after the chartered checks, key distribution and game-table loading in a chartered start. (R46) -/
  | bootStage7
  /-- MODE_COMMIT: An accepted mode transition is committed atomically to the keeper-domain mode record. (R36) -/
  | modeCommit
  /-- SYS_MODE_REQ_WRITE: A ring 0 write of SYS_MODE_REQ requests a mode transition as though the matching command had been accepted. (R62) -/
  | sysModeReqWrite (value : BitVec 32)
  /-- GET_STATUS: Returns device status, and in expert form a Tally snapshot. (R58) -/
  | getStatus (c : HostCmd) (selector : BitVec 8)
  /-- GET_IDENTITY: Returns the identity public keys, or in expert form a signed identity statement over a nonce. (R249) -/
  | getIdentity (c : HostCmd) (nonce : Bytes)
  /-- ENTER_MAINTENANCE: Adds the whole device or tenants to the maintenance set, entering MAINTENANCE from SERVICE. (R33) -/
  | enterMaintenance (c : HostCmd) (map : BitVec 512)
  /-- EXIT_MAINTENANCE: Removes tenants from the maintenance set, returning to SERVICE when it empties and no hold reason is present. (R33) -/
  | exitMaintenance (c : HostCmd) (map : BitVec 512)
  /-- RESET: Requests a warm, custody or tile reset. (R58) -/
  | reset (c : HostCmd) (kind tile : BitVec 8)
  /-- SQ_TAIL_DOORBELL: A host write of MBX_SQ_TAIL_DB places the new submission tail in the queue's mailbox channel and updates the shadow. (R76) -/
  | sqTailDoorbell (fn : Fin 513) (queue : Fin 8) (value : BitVec 16) (stream : Option (Fin 8))
  /-- CQ_HEAD_DOORBELL: A host write of MBX_CQ_HEAD_DB places the new completion head in the queue's mailbox channel and updates the shadow. (R76) -/
  | cqHeadDoorbell (fn : Fin 513) (queue : Fin 8) (value : BitVec 16) (stream : Option (Fin 8))
  /-- QUEUE_ENABLE: Setting MBX_Q_CTL.ENABLE makes the queue live, or sets BAD_CFG when the configuration is invalid. (R68) -/
  | queueEnable (fn : Fin 513) (queue : Fin 8) (ctl : CtlWrite)
  /-- QUEUE_DISABLE: Clearing MBX_Q_CTL.ENABLE stops the queue, clears ERROR and discards the completions of commands already fetched. (R68) -/
  | queueDisable (fn : Fin 513) (queue : Fin 8) (ctl : CtlWrite)
  /-- HOST_REGISTER_ACCESS: A host TLP to another BAR0 register is served, or refused for width. (R67) -/
  | hostRegisterAccess (fn : Fin 513) (write : Bool) (offset : BarOffset) (value : BitVec 32) (dws : Nat) (stream : Option (Fin 8))
  /-- COMMAND_FETCH: Firmware fetches a command entry and applies the fetch checks in order. (R83) -/
  | commandFetch (fn : Fin 513) (queue : Fin 8) (entry : Bytes) (dmaOk : Bool) (params : Option Bytes) (named : List Nat)
  /-- COMMAND_RESERVE: A waiting command obtains all its resources at once and begins running. (R84) -/
  | commandReserve (fn : Fin 513) (queue : Fin 8) (ident : BitVec 16) (free : Bool)
  /-- COMMAND_WATCHDOG: Every 100 ms the oldest WAITING command older than the watchdog period completes with 0x3F01. (R85) -/
  | commandWatchdog (dt : Nat)
  /-- REPLY_WRITE: A reply held in the backlog is written once the completion ring has room. (R73) -/
  | replyWrite (fn : Fin 513) (queue : Fin 8) (ok : Bool)
  /-- INTERRUPT_COALESCE_TIMEOUT: COAL_US expires after the first unsignalled completion and the queue's MSI-X vector is signalled. (R67) -/
  | interruptCoalesceTimeout (fn : Fin 513) (queue : Fin 8)
  /-- MBX_SEND_COMMIT: A write of MBX_SEND_HI commits an internal mailbox entry, or sets REFUSED when the channel is full. (R81) -/
  | mbxSendCommit (sender : BusSender) (hi : BitVec 32)
  /-- MBX_RECV_POP: A read of MBX_RECV_LO pops the selected channel's entry and snapshots the high word, or sets EMPTY_READ. (R95) -/
  | mbxRecvPop
  /-- REGISTER_WRITE: A write to any register that has no row of its own, applied by its access code, lock and gate rules. (R8) -/
  | registerWrite (ring : Fin 4) (master : BitVec 11) (colour : BitVec 10) (size : Fin 5) (addr value : Word) (env : BusEnv)
  /-- FRAME_START: A frame begins to arrive at a MAC, which applies the start-of-frame rules of release, buffer and engine. (R140) -/
  | frameStart (dt : Nat) (start : PortStart)
  /-- FRAME_BEAT: A 16-byte beat is handed from the MAC to its cluster, with giant and over-length checks. (R129) -/
  | frameBeat (port : Fin 512) (bytes : Bytes)
  /-- HEADER_BEAT: The header beat drives parse, lookup, stage C checks and the decide stage of the pipeline. (R131) -/
  | headerBeat (port : Fin 512) (bytes : Bytes)
  /-- FRAME_TAIL: The last beat arrives and the stage D checks decide the frame within 4 tile cycles. (R138) -/
  | frameTail (port : Fin 512) (bytes : Bytes)
  /-- FABRIC_TRANSFER: A frame crosses the fabric once the egress buffer can reserve its full length. (R155) -/
  | fabricTransfer (cluster : Fin 64) (dst : Fin 512)
  /-- EGRESS_FRAME_START: At a frame boundary on the wire the egress MAC begins the head of the urgent or normal queue. (R145) -/
  | egressFrameStart (port : Fin 512)
  /-- EGRESS_UNDERRUN: An egress buffer running dry mid-frame ends the frame with a STALL trailer and poisoned FCS. (R151) -/
  | egressUnderrun (port : Fin 512) (sent : Nat)
  /-- STALL_TIMER_EXPIRY: The stall timer of an incomplete frame expires and the frame is ended as STALL. (R150) -/
  | stallTimerExpiry (port : Fin 512) (sent : Nat)
  /-- PAUSE_FRAME: A received PAUSE frame pauses the port transmitter when PAUSE_RX is 1. (R141) -/
  | pauseFrame (port : Fin 512) (quanta : BitVec 16)
  /-- PAUSE_EXPIRY: The requested pause quanta elapse and the transmitter resumes. (R141) -/
  | pauseExpiry (port : Fin 512)
  /-- PORT_LINK_UP: A training port's link comes up and the port becomes HELD or RELEASED. (R169) -/
  | portLinkUp (port : Fin 512)
  /-- PORT_LINK_LOST: A port loses its link, ending frames in progress and refusing its queued frames with EGRESS. (R153) -/
  | portLinkLost (port : Fin 512)
  /-- PORT_RESET: A write of PRT_RESET with GO and the correct key resets the port's PMA, PCS and MAC. (R178) -/
  | portReset (port : Fin 512) (value : BitVec 32)
  /-- PORT_ENABLE: Setting PRT_CTL.ENABLE starts link training of an OFF port. (R169) -/
  | portEnable (port : Fin 512)
  /-- PORT_DISABLE: Clearing PRT_CTL.ENABLE takes the port OFF as for a lost link. (R169) -/
  | portDisable (port : Fin 512)
  /-- PORT_RELEASE: Setting PRT_CTL.RELEASE moves a HELD port to RELEASED from the next start of frame. (R169) -/
  | portRelease (port : Fin 512)
  /-- PORT_HOLD: Clearing PRT_CTL.RELEASE moves a RELEASED port to HELD after frames in progress complete. (R169) -/
  | portHold (port : Fin 512)
  /-- PORT_COUNTER_CLEAR: Setting PRT_CTL.CNT_CLR clears every counter of the port. (R176) -/
  | portCounterClear (port : Fin 512)
  /-- PORT_GROUP_WRITE: A write changing PRT_CTL.GROUP takes effect only while every member lane is OFF. (R177) -/
  | portGroupWrite (port : Fin 512) (value : BitVec 32)
  /-- ENGINE_KAT_WINDOW: Each engine runs its known-answer vector in each 100 ms window, taking cycles at 90 ms if it found none idle. (R163) -/
  | engineKatWindow (cluster : Fin 64)
  /-- ENGINE_FAILURE: An engine fails by known-answer result, integrity code or context parity and its frames end as ENGINE. (R164) -/
  | engineFailure (engine : Fin 1152) (cause : Fin 3)
  /-- SPARE_TAKEOVER: At the next frame boundary the hardware moves a failed engine's port to the cluster spare. (R165) -/
  | spareTakeover (port : Fin 512)
  /-- TILE_LINK_FAULT: A tile-to-tile link loses lock or delivers a bad beat and enters retraining. (R161) -/
  | tileLinkFault (a b : Fin 4)
  /-- TILE_LINK_RETRAINED: Retraining succeeds and queued frames are sent in order. (R161) -/
  | tileLinkRetrained (a b : Fin 4)
  /-- TILE_LINK_RETRAIN_TIMEOUT: Retraining has not succeeded after 1 ms and frames still queued are refused with EGRESS. (R161) -/
  | tileLinkRetrainTimeout (a b : Fin 4)
  /-- EGRESS_KEY_DELIVERED: The Leaf Mint delivers the successor egress key and later frames bind to it. (R149) -/
  | egressKeyDelivered (cluster : Fin 64) (tenant : Fin 512) (terminal : BitVec 24)
  /-- LEAF_PIPE_OUTPUT: A leaf digest leaves the leaf pipe and enters the chunk of its stream. (R259) -/
  | leafPipeOutput (cluster : Fin 64)
  /-- CHUNK_ROOT_DELIVERED: A chunk root reaches the tile tree unit and receives its tile index. (R263) -/
  | chunkRootDelivered (cluster : Fin 64)
  /-- FLOW_SETUP_START: A missed frame takes a free set-up slot and set-up begins. (R191) -/
  | flowSetupStart (cluster : Fin 64) (tenant : Fin 512) (terminal : BitVec 24) (dir : Fin 2) (macOk : Bool)
  /-- FLOW_SETUP_DONE: Set-up completes, key contexts are loaded and the frame rejoins the pipeline at Lookup. (R191) -/
  | flowSetupDone (cluster : Fin 64) (tenant : Fin 512) (terminal : BitVec 24) (dir : Fin 2)
  /-- FLOW_SETUP_TIMEOUT: Set-up work lasting more than 1 ms fails the frame with SETUP. (R191) -/
  | flowSetupTimeout (dt : Nat) (cluster : Fin 64) (tenant : Fin 512) (terminal : BitVec 24) (dir : Fin 2)
  /-- MIGRATION_REQUEST: A cluster receives a migration request for a flow, marking it MIGRATING or answering NOT_HELD. (R192) -/
  | migrationRequest (cluster : Fin 64) (tenant : Fin 512) (terminal : BitVec 24) (dir : Fin 2)
  /-- MIGRATION_DRAINED: INFLIGHT of a migrating flow reaches 0 and the holder writes back, clears the home and evicts. (R192) -/
  | migrationDrained (cluster : Fin 64) (tenant : Fin 512) (terminal : BitVec 24) (dir : Fin 2)
  /-- FLOW_WAY_DRAINED: A way drains to INFLIGHT 0 and a waiting set-up takes it. (R193) -/
  | flowWayDrained (cluster : Fin 64) (tenant : Fin 512) (terminal : BitVec 24) (dir : Fin 2)
  /-- IMAGE_PAGE_READ_DONE: An on-demand read of a register image page completes and waiting set-ups proceed. (R186) -/
  | imagePageReadDone
  /-- IMAGE_BACKGROUND_LOAD: The background load of a register image page into DRAM completes. (R186) -/
  | imageBackgroundLoad (page : Fin 32768)
  /-- FLOW_IDLE_SWEEP: The once-a-second sweep evicts idle flows and ends quarantine windows. (R193) -/
  | flowIdleSweep (cluster : Fin 64)
  /-- GRACE_EXPIRY: The grace period ends and the previous session generation is no longer accepted. (R199) -/
  | graceExpiry (cluster : Fin 64) (tenant : Fin 512) (terminal : BitVec 24)
  /-- FLOW_NOTICE: A cached DIR = 1 flow receives notice of a new SGEN or attach port. (R199) -/
  | flowNotice (cluster : Fin 64) (tenant : Fin 512) (terminal : BitVec 24)
  /-- EXCHANGE_DONE: A tile PKE unit completes a hybrid exchange for a queued HELLO. (R204) -/
  | exchangeDone (tile : Fin 4) (unit : Fin 17) (fault : Bool)
  /-- EXCHANGE_WAIT_TIMEOUT: A HELLO that waits longer than TRM_XCHG_WAIT is discarded. (R203) -/
  | exchangeWaitTimeout (dt : Nat) (tile : Fin 4)
  /-- REGISTER_WRITEBACK: Dirty terminal register lines are written back to the image at TRM_WB_RATE. (R185) -/
  | registerWriteback (slot : Fin 8388608)
  /-- FLUSH_DONE: A flush of the register image completes and the CLEAN flag is set when nothing changed. (R185) -/
  | flushDone
  /-- GET_FLOW: Reads a flow at its home cluster or at a named cluster. (R211) -/
  | getFlow (c : HostCmd) (tenant : Fin 512) (terminal : BitVec 24) (dir : Fin 2) (cluster : Fin 64)
  /-- GET_TERMINAL: Reads a terminal register entry. (R210) -/
  | getTerminal (c : HostCmd) (tenant : Fin 512) (terminal : BitVec 24)
  /-- GET_QUOTA: Returns the slot ranges of tenants. (R211) -/
  | getQuota (c : HostCmd) (tenant : Fin 512)
  /-- GET_SETUP_STATS: Returns set-up statistics. (R210) -/
  | getSetupStats (c : HostCmd) (tile : Fin 4)
  /-- ALLOC_TERMINALS: Allocates a range of terminals and writes them through to the image. (R211) -/
  | allocTerminals (c : HostCmd) (first : BitVec 24) (count : BitVec 24) (hybrid : Bool) (profile : Fin 16) (region : Fin 4096) (l4ver : BitVec 16)
  /-- FREE_TERMINALS: Evicts flows, frees and zeroes a range of terminals and writes them through. (R211) -/
  | freeTerminals (c : HostCmd) (first : BitVec 24) (count : BitVec 24)
  /-- SET_PROFILE: Sets a terminal profile of the tenant. (R195) -/
  | setProfile (c : HostCmd) (number : Fin 16) (classes : BitVec 16) (actions : BitVec 8) (egress : BitVec 16) (zones : List (BitVec 8 × BitVec 8)) (notice : Bool)
  /-- QUARANTINE: Quarantines a terminal by command. (R209) -/
  | quarantine (c : HostCmd) (tenant : Fin 512) (terminal : BitVec 24)
  /-- RELEASE: Returns a quarantined terminal to ACTIVE, with a ticket for QREASON 0xF. (R209) -/
  | release (c : HostCmd) (tenant : Fin 512) (terminal : BitVec 24)
  /-- EVICT_FLOW: Evicts a flow of a terminal. (R210) -/
  | evictFlow (c : HostCmd) (terminal : BitVec 24) (dir : Fin 2)
  /-- SET_VERDICT: Sets the tenant's verdict setting and, in expert form, the monitor port and template. (R211) -/
  | setVerdict (c : HostCmd) (setting : BitVec 8) (port : BitVec 16) (enable : Bool) (template : Bytes)
  /-- SET_QUOTA: Sets a tenant's base and quota of terminal units. (R211) -/
  | setQuota (c : HostCmd) (tenant : Fin 512) (base quota : BitVec 16)
  /-- REKEY: Requests a new session generation from the terminal, or advances the egress key. (R211) -/
  | rekey (c : HostCmd) (terminal : BitVec 24) (egress : Bool)
  /-- REENROL: Raises L4VER and resets generations and counts of a terminal. (R201) -/
  | reenrol (c : HostCmd) (terminal : BitVec 24) (l4ver : BitVec 16)
  /-- FLUSH_REGISTER: Flushes the terminal register to its image. (R185) -/
  | flushRegister (c : HostCmd)
  /-- SET_FLOW_TIMERS: Sets flow timeout, grace period and quarantine thresholds. (R210) -/
  | setFlowTimers (c : HostCmd) (timeout grace : BitVec 16) (tagCount tagWindow replayCount replayWindow : BitVec 8)
  /-- VAULT_REFRESH_ROUND: A refresh round re-randomises the shares of every Vault slot. (R225) -/
  | vaultRefreshRound
  /-- VAULT_REFRESH_LATE: A refresh round not finished within 10 ms sets REFRESH_LATE and raises an alarm. (R225) -/
  | vaultRefreshLate
  /-- MINT_DERIVATION: The Mint completes a 256-bit derivation for the request of highest rank. (R235) -/
  | mintDerivation
  /-- L3_DELIVERY: An L3 key requested on a Leaf Mint miss arrives as shares and the entry becomes valid. (R236) -/
  | l3Delivery (cluster : Fin 64)
  /-- LEAF_MINT_DERIVATION: A Leaf Mint completes a derivation of L4, S, E or H. (R237) -/
  | leafMintDerivation (cluster : Fin 64) (tenant : Fin 512) (terminal : BitVec 24) (dir : Fin 2)
  /-- MINT_KAT: The Mint and every Leaf Mint run their 100 ms known-answer derivation and stop on failure. (R238) -/
  | mintKat (unit : Option (Fin 64)) (pass : Bool)
  /-- PURGE_ACK: A tile acknowledges a purge; the change commits when every tile has acknowledged. (R239) -/
  | purgeAck (tile : Fin 4)
  /-- GRANT_ISSUE: The Mint issues a usage grant of a zone or monitor key to a cluster. (R234) -/
  | grantIssue (cluster : Fin 64)
  /-- FINGERPRINT_KEY_DELIVERY: The notary fingerprint key of the next epoch is derived and delivered to every engine. (R239) -/
  | fingerprintKeyDelivery
  /-- GET_SLOT: Returns a slot's metadata. (R230) -/
  | getSlot (c : HostCmd) (handle : BitVec 32)
  /-- GET_KCV: Returns a slot's key check value. (R245) -/
  | getKcv (c : HostCmd) (handle : BitVec 32)
  /-- GET_PUBKEYS: Returns the public keys expanded from a tenant's seeds. (R220) -/
  | getPubkeys (c : HostCmd) (tenant : Fin 512) (which : Fin 3)
  /-- GET_REGIONS: Returns entries of the tenant's region table. (R252) -/
  | getRegions (c : HostCmd) (first count : BitVec 16)
  /-- ATTEST: Answers a challenge with a statement MACed under an ATTEST slot. (R247) -/
  | attest (c : HostCmd) (handle : BitVec 32) (challenge : Bytes)
  /-- GENERATE_KEY: Fills a pool slot from the central DRBG. (R244) -/
  | generateKey (c : HostCmd) (cls len : BitVec 8) (attr : BitVec 8) (limit : BitVec 8)
  /-- IMPORT_COMPONENTS: Creates a key from card components under dual control. (R243) -/
  | importComponents (c : HostCmd) (key : CompKey) (count : BitVec 8) (kcv : Bytes)
  /-- IMPORT_WRAPPED: Imports a key block under a KEK slot. (R241) -/
  | importWrapped (c : HostCmd) (kek : BitVec 32) (block : Bytes)
  /-- EXPORT_WRAPPED: Exports an exportable slot as a key block. (R242) -/
  | exportWrapped (c : HostCmd) (handle kek : BitVec 32)
  /-- DESTROY_KEY: Zeroes a slot, removes its store record and increments its incarnation. (R244) -/
  | destroyKey (c : HostCmd) (handle : BitVec 32)
  /-- BIND_ZONE: Binds or unbinds a zone to a ZONE slot. (R246) -/
  | bindZone (c : HostCmd) (zone : BitVec 16) (handle : BitVec 32)
  /-- CREATE_REGION: Marks a region as existing. (R252) -/
  | createRegion (c : HostCmd) (region : BitVec 16) (preload : Bool)
  /-- SET_USAGE_LIMIT: Sets CHILD_EXP or a slot's usage limit. (R254) -/
  | setUsageLimit (c : HostCmd) (childExp : BitVec 8) (handle : BitVec 32) (limit : BitVec 8)
  /-- ROLL_PURPOSE: Rolls a tenant purpose seed to a new generation. (R254) -/
  | rollPurpose (c : HostCmd) (which : Fin 3)
  /-- ROLL_HIERARCHY: Rolls a tenant or region generation under a ticket. (R254) -/
  | rollHierarchy (c : HostCmd) (region : Option (BitVec 16))
  /-- EPOCH_CUT: The timebase seconds count advances, cutting epoch n from epoch n + 1. (R266) -/
  | epochCut (dt : Nat)
  /-- EPOCH_CLOSE: 50 ms after the cut the epoch closes and its open chunks are closed. (R266) -/
  | epochClose (dt : Nat)
  /-- TILE_ROOT_FORM: 20 µs after close the tree units form their tile roots. (R263) -/
  | tileRootForm (tile : Fin 4)
  /-- ROOTS_FORMED: With all tile roots in, the sequencer forms tenant and device roots. (R270) -/
  | rootsFormed
  /-- ROOT_SIGN_DONE: A custody PKE unit completes a root signature. (R273) -/
  | rootSignDone
  /-- EVENT_ENQUEUE: An event report enters the event queue, or is dropped or held when it is full. (R278) -/
  | eventEnqueue (code src tenant : BitVec 16) (data : Bytes)
  /-- JOURNAL_PAGE_TIMER: 100 ms after its first record, a journal staging page is programmed. (R279) -/
  | journalPageTimer
  /-- JOURNAL_PAGE_PROGRAM_DONE: A journal page program completes or fails. (R279) -/
  | journalPageProgramDone (ok : Bool)
  /-- RECEIPT_PAGE_PROGRAM_DONE: A receipt page program into ledger flash completes. (R285) -/
  | receiptPageProgramDone (ok : Bool)
  /-- JOURNAL_SCAN_DONE: The start scan finds the last valid journal record and the chain continues. (R280) -/
  | journalScanDone (torn : Option (BitVec 64 × BitVec 32))
  /-- LFLASH_BLOCK_ERASE_DONE: A ledger flash block erase completes or fails. (R460) -/
  | lflashBlockEraseDone (block : BitVec 18) (ok : Bool)
  /-- ERASE_COUNT_CHECKPOINT: Every 60 s the erase counters are checkpointed into custody flash. (R461) -/
  | eraseCountCheckpoint
  /-- GET_LEDGER_STATUS: Returns ledger status. (R293) -/
  | getLedgerStatus (c : HostCmd) (tenant : Fin 512)
  /-- READ_JOURNAL: Reads journal records. (R293) -/
  | readJournal (c : HostCmd) (first : BitVec 64) (limit : BitVec 32) (typeMask : BitVec 32)
  /-- READ_RECEIPTS: Reads receipt pages. (R293) -/
  | readReceipts (c : HostCmd) (tenant : Fin 512) (first : BitVec 64) (count : Nat)
  /-- GET_ROOT: Returns a root record of an epoch. (R293) -/
  | getRoot (c : HostCmd) (tenant : Fin 512) (epoch : BitVec 64)
  /-- GET_PROOF: Returns the proof blob of a retained leaf. (R292) -/
  | getProof (c : HostCmd) (epoch : BitVec 64) (cluster : BitVec 8) (seq : BitVec 24) (position : BitVec 8)
  /-- GET_RETENTION: Returns retention settings and receipt quotas. (R293) -/
  | getRetention (c : HostCmd) (tenant : Fin 512)
  /-- ACK_JOURNAL: Acknowledges journal records, making pages reclaimable. (R288) -/
  | ackJournal (c : HostCmd) (seq : BitVec 64)
  /-- ACK_RECEIPTS: Acknowledges receipt pages, reclaiming blocks. (R287) -/
  | ackReceipts (c : HostCmd) (tenant : Fin 512) (seq : BitVec 64)
  /-- SET_RETENTION: Sets the RETAIN mask and FULL policy. (R286) -/
  | setRetention (c : HostCmd) (retain : BitVec 32) (full : BitVec 8)
  /-- SET_RECEIPT_QUOTA: Sets a tenant's receipt quota. (R293) -/
  | setReceiptQuota (c : HostCmd) (tenant : BitVec 16) (blocks : BitVec 32)
  /-- APPEND_NOTE: Appends a tenant NOTE event. (R293) -/
  | appendNote (c : HostCmd) (note : Bytes)
  /-- SECOND_PULSE: A SECPULSE edge is judged against the window and aligns, steps or is rejected. (R300) -/
  | secondPulse (dt width : Nat)
  /-- HOLDOVER_TIMEOUT: No pulse accepted within a second plus U plus 1 µs moves the timebase to HOLDOVER. (R299) -/
  | holdoverTimeout (dt : Nat)
  /-- UNCERTAINTY_UPDATE: At each interval boundary the Strongroom recomputes and distributes U. (R301) -/
  | uncertaintyUpdate (dt : Nat)
  /-- TIME_REQUEST_TIMEOUT: A SET_TIME or REALIGN not applied within 2 s is withdrawn with 0x2503. (R619) -/
  | timeRequestTimeout (dt : Nat)
  /-- GAME_CHANGE_ACTIVATE: At activation stamp A each cluster applies a staged game table change. (R306) -/
  | gameChangeActivate (dt : Nat)
  /-- GAME_CHANGE_ACK: A cluster acknowledgement arrives; the command completes when all are in. (R306) -/
  | gameChangeAck (cluster : Fin 64)
  /-- GAME_CHANGE_TIMEOUT: Acknowledgements missing 10 ms after A withdraw the change with 0x4501. (R306) -/
  | gameChangeTimeout (dt : Nat)
  /-- GET_TIME: Returns the current stamp, state and uncertainty. (R309) -/
  | getTime (c : HostCmd)
  /-- GET_GAME: Returns a game table entry. (R309) -/
  | getGame (c : HostCmd) (tenant : Fin 512) (game : BitVec 32)
  /-- LIST_GAMES: Lists the tenant's games. (R309) -/
  | listGames (c : HostCmd) (tenant : Fin 512) (first count : Nat)
  /-- SET_TIME: Stages the seconds to be applied at the next pulse. (R619) -/
  | setTime (c : HostCmd) (seconds : BitVec 64)
  /-- SET_TIME_PARAMS: Sets drift, base uncertainty and maximum uncertainty. (R309) -/
  | setTimeParams (c : HostCmd) (drift base maxUnc : Nat)
  /-- REALIGN: Takes the next pulse without the window, under a ticket. (R619) -/
  | realign (c : HostCmd)
  /-- ADD_GAME: Adds a game above the high-water mark. (R304) -/
  | addGame (c : HostCmd) (game : BitVec 32) (close : BitVec 64) (margin : BitVec 16)
  /-- SET_CLOSE: Moves a game's close time or margin. (R307) -/
  | setClose (c : HostCmd) (game : BitVec 32) (close : BitVec 64) (margin : BitVec 16)
  /-- CLOSE_NOW: Sets a game's close to the activation stamp. (R307) -/
  | closeNow (c : HostCmd) (game : BitVec 32)
  /-- DELETE_GAME: Removes a game entry. (R307) -/
  | deleteGame (c : HostCmd) (game : BitVec 32)
  /-- ADD: Adds two registers and sets Z, S, K and O. (R316) -/
  | add (rd ra rb : Fin 16)
  /-- SUB: Subtracts two registers and sets flags. (R316) -/
  | sub (rd ra rb : Fin 16)
  /-- AND: Bitwise AND of two registers. (R316) -/
  | and (rd ra rb : Fin 16)
  /-- OR: Bitwise OR of two registers. (R316) -/
  | or (rd ra rb : Fin 16)
  /-- XOR: Bitwise XOR of two registers. (R316) -/
  | xor (rd ra rb : Fin 16)
  /-- ANDN: Bitwise AND with complement. (R316) -/
  | andn (rd ra rb : Fin 16)
  /-- MOV: Copies a register, leaving flags unchanged. (R316) -/
  | mov (rd ra : Fin 16)
  /-- CMP: Compares by subtraction, setting flags only. (R316) -/
  | cmp (ra rb : Fin 16)
  /-- TST: Tests by AND, setting flags only. (R316) -/
  | tst (ra rb : Fin 16)
  /-- NEG: Subtracts a register from 0. (R316) -/
  | neg (rd ra : Fin 16)
  /-- NOT: Bitwise complement of a register. (R316) -/
  | not (rd ra : Fin 16)
  /-- SHL: Shifts left by rb[4:0]. (R316) -/
  | shl (rd ra rb : Fin 16)
  /-- SHR: Logical right shift by rb[4:0]. (R316) -/
  | shr (rd ra rb : Fin 16)
  /-- SAR: Arithmetic right shift by rb[4:0]. (R316) -/
  | sar (rd ra rb : Fin 16)
  /-- ROR: Rotates right by rb[4:0]. (R316) -/
  | ror (rd ra rb : Fin 16)
  /-- SHL_BY_AUX: Shifts left by AUX[4:0]. (R315) -/
  | shlByAux (rd ra : Fin 16) (aux : BitVec 8)
  /-- SHR_BY_AUX: Logical right shift by AUX[4:0]. (R315) -/
  | shrByAux (rd ra : Fin 16) (aux : BitVec 8)
  /-- SAR_BY_AUX: Arithmetic right shift by AUX[4:0]. (R315) -/
  | sarByAux (rd ra : Fin 16) (aux : BitVec 8)
  /-- ROR_BY_AUX: Rotates right by AUX[4:0]. (R315) -/
  | rorByAux (rd ra : Fin 16) (aux : BitVec 8)
  /-- ADDI: Adds a sign-extended immediate. (R316) -/
  | addi (rd ra : Fin 16) (imm : BitVec 16)
  /-- ANDI: ANDs a zero-extended immediate. (R316) -/
  | andi (rd ra : Fin 16) (imm : BitVec 16)
  /-- ORI: ORs a zero-extended immediate. (R316) -/
  | ori (rd ra : Fin 16) (imm : BitVec 16)
  /-- XORI: XORs a zero-extended immediate. (R316) -/
  | xori (rd ra : Fin 16) (imm : BitVec 16)
  /-- LUI: Loads an immediate shifted left by 16. (R315) -/
  | lui (rd : Fin 16) (imm : BitVec 16)
  /-- CMPI: Compares with a sign-extended immediate. (R316) -/
  | cmpi (ra : Fin 16) (imm : BitVec 16)
  /-- MUL: Low 32 bits of the product. (R318) -/
  | mul (rd ra rb : Fin 16)
  /-- MULHS: High 32 bits of the signed product. (R318) -/
  | mulhs (rd ra rb : Fin 16)
  /-- MULHU: High 32 bits of the unsigned product. (R318) -/
  | mulhu (rd ra rb : Fin 16)
  /-- DIVS: Signed division with defined results for zero and overflow. (R318) -/
  | divs (rd ra rb : Fin 16)
  /-- DIVU: Unsigned division with a defined result for zero. (R318) -/
  | divu (rd ra rb : Fin 16)
  /-- REMS: Signed remainder. (R318) -/
  | rems (rd ra rb : Fin 16)
  /-- REMU: Unsigned remainder. (R318) -/
  | remu (rd ra rb : Fin 16)
  /-- SADD: Saturating signed addition. (R319) -/
  | sadd (rd ra rb : Fin 16)
  /-- SSUB: Saturating signed subtraction. (R319) -/
  | ssub (rd ra rb : Fin 16)
  /-- UADDS: Saturating unsigned addition. (R319) -/
  | uadds (rd ra rb : Fin 16)
  /-- USUBS: Saturating unsigned subtraction. (R319) -/
  | usubs (rd ra rb : Fin 16)
  /-- SMULQS: Saturating rounded fixed-point multiply with f fraction bits. (R319) -/
  | smulqs (rd ra rb : Fin 16) (aux : BitVec 8)
  /-- SSHL: Saturating left shift. (R319) -/
  | sshl (rd ra : Fin 16) (aux : BitVec 8)
  /-- SNEG: Saturating negation. (R319) -/
  | sneg (rd ra : Fin 16)
  /-- SABS: Saturating absolute value. (R319) -/
  | sabs (rd ra : Fin 16)
  /-- SNARROW: Saturates to a narrower signed width and sign-extends. (R319) -/
  | snarrow (rd ra : Fin 16) (aux : BitVec 8)
  /-- LD: Loads a zero-extended byte, halfword or word. (R320) -/
  | ld (rd base : Fin 16) (size : Fin 4) (off : BitVec 16) (env : BusEnv)
  /-- LDS: Loads a sign-extended byte, halfword or word. (R320) -/
  | lds (rd base : Fin 16) (size : Fin 4) (off : BitVec 16) (env : BusEnv)
  /-- ST: Stores a byte, halfword or word, posted outside SRAM. (R321) -/
  | st (rs base : Fin 16) (size : Fin 4) (off : BitVec 16) (env : BusEnv)
  /-- BUS_RESPONSE: A target's response to a waiting load arrives and the load completes or faults. (R359) -/
  | busResponse (env : BusEnv)
  /-- B: Branches on a condition. (R316) -/
  | b (cond : Fin 16) (off : BitVec 22)
  /-- CALL: Pushes the return address and jumps. (R322) -/
  | call (off : BitVec 26) (env : BusEnv)
  /-- JMP: Jumps by a signed word offset. (R314) -/
  | jmp (off : BitVec 26)
  /-- CALLR: Pushes the return address and jumps to a register. (R322) -/
  | callr (ra : Fin 16) (env : BusEnv)
  /-- JMPR: Jumps to a register. (R315) -/
  | jmpr (ra : Fin 16)
  /-- RET: Pops the return address and releases n further words. (R322) -/
  | ret (n : BitVec 8) (env : BusEnv)
  /-- PUSH: Pushes a register, checking the stack bound. (R322) -/
  | push (ra : Fin 16) (env : BusEnv)
  /-- POP: Pops a register. (R322) -/
  | pop (rd : Fin 16) (env : BusEnv)
  /-- BCOPY: Copies elements from g2 to g3. (R324) -/
  | bcopy (rpt : Bool) (size : Fin 4) (upto : Nat) (env : BusEnv)
  /-- BFILL: Fills elements at g3 with ra. (R324) -/
  | bfill (rpt : Bool) (size : Fin 4) (ra : Fin 16) (upto : Nat) (env : BusEnv)
  /-- BCMP: Compares strings, stopping at the first difference. (R325) -/
  | bcmp (rpt : Bool) (size : Fin 4) (upto : Nat) (env : BusEnv)
  /-- BSEEK: Seeks an element equal to ra. (R325) -/
  | bseek (rpt : Bool) (size : Fin 4) (ra : Fin 16) (upto : Nat) (env : BusEnv)
  /-- BCMPC: Compares strings in constant time, clearing Z on difference. (R325) -/
  | bcmpc (rpt : Bool) (size : Fin 4) (upto : Nat) (env : BusEnv)
  /-- BGCOPY: Copies 64-byte granules, keeping destination tags. (R326) -/
  | bgcopy (rpt : Bool) (size : Fin 4) (upto : Nat) (env : BusEnv)
  /-- NOP: Does nothing. (R315) -/
  | nop
  /-- MFS: Moves a special register to a general register. (R317) -/
  | mfs (rd : Fin 16) (index : BitVec 12)
  /-- MTS: Moves a general register to a special register. (R317) -/
  | mts (index : BitVec 12) (ra : Fin 16)
  /-- RDFEAT: Reads a feature register. (R317) -/
  | rdfeat (rd : Fin 16) (imm : BitVec 12)
  /-- WAIT: Stops the cores until an enabled source is eligible. (R364) -/
  | wait
  /-- WAIT_WAKE: An enabled source becomes eligible and WAIT retires. (R364) -/
  | waitWake
  /-- FENCE: Retires after every earlier store is acknowledged, reporting refusals. (R321) -/
  | fence
  /-- GATE: Calls a gate into a more privileged ring through its link. (R346) -/
  | gate (imm : BitVec 12)
  /-- GRET: Returns through a link, exception or interrupt context. (R349) -/
  | gret (imm : BitVec 12)
  /-- UNDEFINED_INSTRUCTION: An undefined encoding, including floating point, raises UNDEF. (R315) -/
  | undefinedInstruction (word : Word)
  /-- INTERRUPT_ENTRY: A takeable interrupt saves the context at its level and vectors to ring 0. (R362) -/
  | interruptEntry
  /-- LOCKSTEP_MISMATCH: The comparator finds a difference, stops the cores and starts a custody reset or zeroization. (R336) -/
  | lockstepMismatch (groups : BitVec 5) (found : Mismatch)
  /-- LOCKSTEP_TEST_INJECT: A boot ROM write of CUS_LS_TEST injects a difference in one group. (R337) -/
  | lockstepTestInject (rom : Bool) (ring : Fin 4) (value : Word)
  /-- ROM_DISABLE: Clearing CUS_BOOT.ROM_EN unmaps the boot ROM and arms the comparator. (R313) -/
  | romDisable (ring : Fin 4)
  /-- GTE_SEL_LOAD: A write of GTE_SEL loads the selected region into the staging registers. (R380) -/
  | gteSelLoad (value : BitVec 32)
  /-- GTE_COMMIT: A write of GTE_COMMIT commits the staged region or reports the failing condition. (R380) -/
  | gteCommit (value : BitVec 32)
  /-- GTE_DPAGE_WRITE: A write of a GTE_DPAGE entry remaps a DRAM window page. (R385) -/
  | gteDpageWrite (page : Fin 256) (value : BitVec 32)
  /-- TAG_RETAG_START: Setting GTE_TAG_CTL.GO starts a retag, or sets ERROR for a reserved colour. (R371) -/
  | tagRetagStart (value : BitVec 32)
  /-- TAG_RETAG_DONE: The tag engine finishes retagging and zeroing the range. (R371) -/
  | tagRetagDone
  /-- GTE_VIO_POP: A read of GTE_VIO3 removes the head violation record. (R384) -/
  | gteVioPop
  /-- DIG_GO_OPEN: Opens a digest session in the selected context. (R390) -/
  | digGoOpen
  /-- DIG_GO_FEED: Starts a DMA feed into a session. (R390) -/
  | digGoFeed
  /-- DIG_GO_ABORT: Aborts the selected context. (R406) -/
  | digGoAbort
  /-- DIG_GO_EXPORT: Exports a session as an escrow blob and closes it. (R394) -/
  | digGoExport
  /-- DIG_GO_IMPORT: Imports an escrow blob after its checks. (R394) -/
  | digGoImport (host : Bytes)
  /-- DIGEST_FEED_DONE: A feed completes, finishing the digest when the declared total is reached. (R390) -/
  | digestFeedDone (host : Bytes) (r : EngineResult)
  /-- FLASH_WINDOW_READ: A read of the custody flash window is served, waiting for or suspending an operation and feeding the snoop. (R453) -/
  | flashWindowRead (span : FlashSpan) (ecc : FlashEcc) (dt : BitVec 32)
  /-- MR_EXTEND_START: A write of DIG_MR_CTL starts an extension of a measurement register. (R397) -/
  | mrExtendStart (ring : Fin 4) (value : Word)
  /-- MR_EXTEND_DONE: Context 7 completes a measurement register extension. (R395) -/
  | mrExtendDone
  /-- MR_VALUE_SNAPSHOT: A read of DIG_MR_VAL0 snapshots the rest of the selected register. (R397) -/
  | mrValueSnapshot
  /-- CPH_JOB_START: A write of CPH_GO starts the staged CMAC or KCV job. (R401) -/
  | cphJobStart (ring : Fin 4)
  /-- CPH_JOB_DONE: A cipher job completes and reports its tag or comparison. (R403) -/
  | cphJobDone (host : Bytes) (r : EngineResult)
  /-- CPH_WKEY_WRITE: A write of a register-key word loads the register key. (R401) -/
  | cphWkeyWrite (share : Bool) (word : Fin 8) (value : Word)
  /-- CPH_WKEY_CLEAR: A write of CPH_WKEY_CLR clears the register key. (R402) -/
  | cphWkeyClear
  /-- GET_DIGEST_SESSIONS: Returns the caller's digest sessions. (R404) -/
  | getDigestSessions (c : HostCmd)
  /-- DIGEST: Computes a one-shot digest or HMAC. (R404) -/
  | digest (c : HostCmd) (alg : Fin 3) (addr len : BitVec 64) (handle : Option (BitVec 32)) (expect : Option Bytes)
  /-- DIGEST_OPEN: Opens a digest session with a declared total. (R390) -/
  | digestOpen (c : HostCmd) (alg : Fin 3) (total : BitVec 64) (handle : Option (BitVec 32))
  /-- DIGEST_FEED: Feeds data into a session. (R390) -/
  | digestFeed (c : HostCmd) (session : BitVec 16) (addr : BitVec 64) (len : BitVec 32) (expect : Option Bytes)
  /-- DIGEST_EXPORT: Exports a session as an escrow blob. (R394) -/
  | digestExport (c : HostCmd) (session : BitVec 16)
  /-- DIGEST_IMPORT: Imports an escrow blob as a new session. (R394) -/
  | digestImport (c : HostCmd) (blob : Bytes)
  /-- DIGEST_CLOSE: Closes a session. (R404) -/
  | digestClose (c : HostCmd) (session : BitVec 16)
  /-- CMAC: Computes an AES-CMAC under a slot. (R400) -/
  | cmac (c : HostCmd) (handle : BitVec 32) (addr : BitVec 64) (len : BitVec 32) (expect : Option Bytes)
  /-- NOISE_BLOCK: A noise source completes a 1,024-bit block, which the Assay tests and the conditioner absorbs. (R410) -/
  | noiseBlock (source : Fin 3) (block : BitVec 1024) (dt : BitVec 32)
  /-- SOURCE_RESTART: A stopped source restarts after 10 µs and begins its start-up test. (R411) -/
  | sourceRestart (source : Fin 3) (dt : BitVec 32)
  /-- DRBG_SCHEDULED_RESEED: The 100 ms or request-count schedule calls for a central DRBG reseed. (R416) -/
  | drbgScheduledReseed (dt : BitVec 32)
  /-- DRBG_RESEED: A reseed completes once its entropy input is available. (R416) -/
  | drbgReseed
  /-- DRBG_RESEED_TIMEOUT: A reseed that cannot complete within 1 s puts the subsystem in FAILED. (R417) -/
  | drbgReseedTimeout (dt : BitVec 32)
  /-- CLUSTER_DRBG_RESEED: A cluster DRBG requests and receives its periodic reseed. (R419) -/
  | clusterDrbgReseed (cluster : Fin 64) (requests : BitVec 21)
  /-- RNG_DATA_READ: A read of RNG_DATA pops a word of the software port, or sets EMPTY_READ. (R420) -/
  | rngDataRead (ring : Fin 4) (refill : Fin 65)
  /-- RNG_RESEED_WRITE: A write of RNG_RESEED requests a reseed with optional additional input. (R416) -/
  | rngReseedWrite (ring : Fin 4) (value : Word)
  /-- PORT_STARVED: A rank 7 request that waits 1 ms sets PORT_STARVED. (R420) -/
  | portStarved (dt : BitVec 32)
  /-- DRBG_REINSTANTIATE: After zeroization the central DRBG is re-instantiated from fresh entropy. (R421) -/
  | drbgReinstantiate
  /-- CALIBRATION_PASS_DONE: An idle or ballast calibration pass ends, void or complete. (R423) -/
  | calibrationPassDone (h0 h1 h2 : BitVec 16) (thermal : Bytes) (dt : BitVec 64)
  /-- GET_RANDOM: Returns random bytes from the central DRBG. (R424) -/
  | getRandom (c : HostCmd) (len : BitVec 32) (extra : Bytes) (predict : Bool)
  /-- RESEED: Requests a reseed of the central DRBG. (R424) -/
  | reseed (c : HostCmd) (extra : Bytes)
  /-- CALIBRATE: Runs the calibration passes. (R423) -/
  | calibrate (c : HostCmd)
  /-- PKE_START: A START write starts the staged operation on a custody PKE unit. (R432) -/
  | pkeStart (unit : Fin 8)
  /-- PKE_ABORT: An ABORT write stops the unit and begins clearing. (R437) -/
  | pkeAbort (unit : Fin 8)
  /-- PKE_OPERATION_DONE: A PKE unit completes its operation after its invariant checks. (R436) -/
  | pkeOperationDone (unit : Fin 8) (host : Bytes) (r : PkeResult)
  /-- PKE_CLEAR_DONE: Clearing after an abort ends and the unit becomes IDLE. (R437) -/
  | pkeClearDone (unit : Fin 8)
  /-- PKE_LAYOUT_WRITE: A write of PKE_U_LAYOUT7 applies the whole slot layout and clears memory. (R429) -/
  | pkeLayoutWrite (unit : Fin 8) (ring : Fin 4) (value : Word)
  /-- VERIFY_BATCH_START: A mailbox entry on a tile channel starts a verification batch. (R442) -/
  | verifyBatchStart (tile : Fin 4)
  /-- VERIFY_BATCH_DONE: The last job of a batch is done and a completion entry is written. (R442) -/
  | verifyBatchDone (unit : TileUnitId)
  /-- PKE_KAT_WINDOW: Each PKE unit runs its known-answer operation in each 1 s window. (R570) -/
  | pkeKatWindow (unit : Fin 76) (pass : Bool)
  /-- PKE_SPARE_TAKEOVER: The tile spare takes over a failed tile PKE unit within 100 µs. (R570) -/
  | pkeSpareTakeover (unit : Fin 64)
  /-- GET_PKE_STATUS: Returns PKE unit status. (R444) -/
  | getPkeStatus (c : HostCmd)
  /-- KEYPAIR: Generates a key pair. (R444) -/
  | keypair (c : HostCmd)
  /-- SIGN: Signs a message or digest. (R444) -/
  | sign (c : HostCmd)
  /-- VERIFY: Verifies a signature. (R444) -/
  | verify (c : HostCmd)
  /-- SHARED: Computes an ECDH shared secret. (R444) -/
  | shared (c : HostCmd)
  /-- ENCAPS: Performs an ML-KEM encapsulation. (R444) -/
  | encaps (c : HostCmd)
  /-- DECAPS: Performs an ML-KEM decapsulation. (R444) -/
  | decaps (c : HostCmd)
  /-- RSA_PUBLIC: Performs an RSA public operation. (R444) -/
  | rsaPublic (c : HostCmd)
  /-- RSA_PRIVATE: Performs an RSA private operation by CRT. (R444) -/
  | rsaPrivate (c : HostCmd)
  /-- MODEXP: Performs a modular exponentiation. (R444) -/
  | modexp (c : HostCmd)
  /-- FLASH_PROGRAM: FSH_CMD PROGRAM starts a page or word program. (R448) -/
  | flashProgram
  /-- FLASH_ERASE: FSH_CMD ERASE starts a sector erase. (R452) -/
  | flashErase
  /-- FLASH_SUSPEND: FSH_CMD SUSPEND suspends an erase once its minimum run time is reached. (R453) -/
  | flashSuspend
  /-- FLASH_RESUME: FSH_CMD RESUME resumes a suspended erase. (R453) -/
  | flashResume
  /-- FLASH_OP_DONE: A custody flash program or erase completes with its result. (R448) -/
  | flashOpDone (fails : List (BitVec 13))
  /-- FLASH_AUTO_RESUME: A suspended erase resumes when the window has been idle for 5 µs. (R453) -/
  | flashAutoResume (dt : BitVec 32)
  /-- GET_FLASH_STATUS: Returns flash status. (R464) -/
  | getFlashStatus (c : HostCmd)
  /-- GET_LFLASH_BLOCKS: Returns ledger flash block information. (R464) -/
  | getLflashBlocks (c : HostCmd) (first count : BitVec 32)
  /-- ERASE_SECTOR: Erases a permitted custody flash sector. (R464) -/
  | eraseSector (c : HostCmd) (first : BitVec 16) (count : BitVec 8)
  /-- UPD_GO_START: A START write runs the staged update engine job. (R471) -/
  | updGoStart
  /-- UPD_GO_ABORT: An ABORT write stops the update engine job. (R481) -/
  | updGoAbort
  /-- UPD_JOB_DONE: An update engine job completes or reports an error. (R471) -/
  | updJobDone (host : Bytes) (r : UpdResult)
  /-- UPD_BANK_SET_WRITE: A keyed write of UPD_BANK_SET changes the bank record. (R475) -/
  | updBankSetWrite (ring : Fin 4) (value : Word)
  /-- UPD_ARB_BLOW_WRITE: A keyed write of UPD_ARB_BLOW blows anti-rollback fuses during a trial. (R481) -/
  | updArbBlowWrite (ring : Fin 4) (value : Word)
  /-- GET_IMAGES: Returns image headers, the bank record and counters. (R478) -/
  | getImages (c : HostCmd)
  /-- UPDATE_BEGIN: Opens a staging session and erases the inactive bank. (R477) -/
  | updateBegin (c : HostCmd)
  /-- UPDATE_WRITE: Writes image data into the inactive bank after header checks. (R473) -/
  | updateWrite (c : HostCmd) (kind : Fin 5) (offset : BitVec 32) (data : Bytes) (fail : Bool)
  /-- UPDATE_COPY: Copies an image kind from the running bank. (R473) -/
  | updateCopy (c : HostCmd) (kind : Fin 5)
  /-- UPDATE_END: Validates the staged bank. (R473) -/
  | updateEnd (c : HostCmd)
  /-- UPDATE_ABORT: Closes the staging session. (R478) -/
  | updateAbort (c : HostCmd)
  /-- ACTIVATE: Sets the trial bank record and starts a warm reset. (R475) -/
  | activate (c : HostCmd) (tries : BitVec 8)
  /-- CONFIRM: Clears TRIAL and raises the anti-rollback counters. (R474) -/
  | confirm (c : HostCmd)
  /-- GET_CEREMONY: Returns ceremony state. (R506) -/
  | getCeremony (c : HostCmd)
  /-- GET_NONCE: Issues a nonce bound to the function. (R484) -/
  | getNonce (c : HostCmd)
  /-- GET_ROSTER: Returns roster entries. (R506) -/
  | getRoster (c : HostCmd) (scope : BitVec 16) (first : BitVec 16)
  /-- GET_CARDS: Returns card slot states. (R506) -/
  | getCards (c : HostCmd)
  /-- OPEN_CEREMONY: Opens a ceremony, re-chartering from ZEROIZED. (R489) -/
  | openCeremony (c : HostCmd) (journalOk : Bool)
  /-- CLOSE_CEREMONY: Closes the ceremony when the policies can be met. (R494) -/
  | closeCeremony (c : HostCmd) (journalOk : Bool)
  /-- ABORT_CEREMONY: Aborts the ceremony and restores the prior state. (R490) -/
  | abortCeremony (c : HostCmd)
  /-- ENROL_CUSTODIAN: Enrols the card in a slot as a custodian. (R491) -/
  | enrolCustodian (c : HostCmd) (slot : BitVec 8) (scope : BitVec 16) (flags : BitVec 8)
  /-- REVOKE_CUSTODIAN: Revokes a custodian. (R491) -/
  | revokeCustodian (c : HostCmd) (number : BitVec 16)
  /-- SET_POLICY: Sets M and REG_MIN of a scope. (R491) -/
  | setPolicy (c : HostCmd) (scope : BitVec 16) (m regMin : BitVec 8)
  /-- CREATE_DOMAIN: Creates an L1 custody domain key. (R492) -/
  | createDomain (c : HostCmd) (domain : BitVec 8) (profile : Fin 3) (count : BitVec 8) (slots : List (Fin 5)) (kcv : Bytes)
  /-- CREATE_TENANT: Creates a tenant with its L2 key, region, charter and policy. (R491) -/
  | createTenant (c : HostCmd) (tenant : BitVec 16) (domain : BitVec 8) (word : BitVec 32) (m regMin : BitVec 8)
  /-- DESTROY_TENANT: Removes a tenant. (R491) -/
  | destroyTenant (c : HostCmd) (tenant : BitVec 16)
  /-- SET_OWNER_PERM: Sets the permission word of PF0. (R491) -/
  | setOwnerPerm (c : HostCmd) (word : BitVec 32)
  /-- CEREMONY_CLOSED: The roster copy is written, permission words set and the mode committed. (R490) -/
  | ceremonyClosed
  /-- CEREMONY_RESTORED: Every step has been undone and the ceremony returns to IDLE. (R498) -/
  | ceremonyRestored
  /-- CEREMONY_IDLE_TIMEOUT: No step for CRD_CER_IDLE aborts the ceremony. (R495) -/
  | ceremonyIdleTimeout
  /-- CARD_STEP_WAIT_TIMEOUT: A step waiting for a card past CRD_STEP_WAIT fails with 0x1903. (R493) -/
  | cardStepWaitTimeout
  /-- NONCE_EXPIRY: A nonce expires after 600 s. (R484) -/
  | nonceExpiry (fn : Fin 513)
  /-- CARD_INSERT: A debounced card insertion is detected in a slot. (R501) -/
  | cardInsert (slot : Fin 4)
  /-- CARD_REMOVE: Opening of the presence contact begins deactivation at once. (R501) -/
  | cardRemove (slot : Fin 4)
  /-- CARD_ACTIVATE: CRD_S_CTL.ACTIVATE begins activation at the selected class. (R501) -/
  | cardActivate (slot : Fin 4) (value : BitVec 32)
  /-- CARD_DEACTIVATE: CRD_S_CTL.DEACTIVATE begins the deactivation sequence. (R599) -/
  | cardDeactivate (slot : Fin 4) (value : BitVec 32)
  /-- ATR_TIMEOUT: No ATR within 40,000 clock cycles reactivates at the next class. (R501) -/
  | atrTimeout (slot : Fin 4)
  /-- CARD_WAIT_TIMEOUT: A card waiting time expires and the card is deactivated. (R503) -/
  | cardWaitTimeout (slot : Fin 4) (character : Bool)
  /-- CARD_RESPONSE: A card's response to an APDU arrives whole. (R505) -/
  | cardResponse (slot : Fin 5) (sw : BitVec 16) (data : Bytes)
  /-- CARD_TX_WRITE: A write of CRD_S_TXDATA queues a character to the card. (R507) -/
  | cardTxWrite (slot : Fin 4) (value : BitVec 32)
  /-- CARD_RX_POP: A read of CRD_S_RXDATA pops a received character. (R507) -/
  | cardRxPop (slot : Fin 4)
  /-- CARD_OVERCURRENT: CARD_FAULT_N low for 1 µs deactivates the slot. (R599) -/
  | cardOvercurrent (slot : Fin 4)
  /-- GET_SEALS: Returns seal states. (R518) -/
  | getSeals (c : HostCmd)
  /-- ENROL_SEAL: Enrols a seal tag and records its baseline. (R514) -/
  | enrolSeal (c : HostCmd) (num : BitVec 8)
  /-- RETIRE_SEAL: Destroys a seal key and empties its record. (R514) -/
  | retireSeal (c : HostCmd) (num : BitVec 8)
  /-- RELEASE_SEAL_FAIL: Clears SEAL_FAIL under a ticket, optionally rebasing. (R517) -/
  | releaseSealFail (c : HostCmd) (rebase : Bool)
  /-- CHECK_SEALS: Runs the seal check. (R515) -/
  | checkSeals (c : HostCmd)
  /-- SEAL_CHECK_DONE: The seal check ends, judging every seal and setting or leaving SEAL_FAIL. (R515) -/
  | sealCheckDone
  /-- TAG_RESPONSE: A seal tag answers an inventory, AUTH_READ or RELEASE_KEY command. (R512) -/
  | tagResponse (answer : TagAnswer)
  /-- TOKEN_ACTIVATE: A token completes anticollision and becomes slot 4. (R509) -/
  | tokenActivate (typeB : Bool)
  /-- TOKEN_PRESENCE_CHECK: Every 100 ms an active token's presence is checked, and it is removed on failure. (R510) -/
  | tokenPresenceCheck (answered : Bool)
  /-- CAPACITIVE_SENSE: Every 10 ms the antenna capacitance is sensed for a wake. (R511) -/
  | capacitiveSense (value : BitVec 8) (antennaFault : Bool)
  /-- NFC_POLL: The reader polls with REQA and REQB. (R511) -/
  | nfcPoll
  /-- NFC_POLL_TIMEOUT: 2 s without an answer returns the reader to sensing. (R511) -/
  | nfcPollTimeout
  /-- TAMPER_DETECTION: A detector confirms a detection, logged and answered with an alarm or zeroization. (R520) -/
  | tamperDetection (kind : Fin 13) (index : BitVec 8)
  /-- ZEROIZATION_COMPLETE: The read-back of every erased store ends and the zero level is released or held. (R528) -/
  | zeroizationComplete (failing : Fin 5)
  /-- LOOP_WORD_COMPARE: A 32-bit comparison word of a loop or mesh net completes. (R521) -/
  | loopWordCompare (net : Fin 20) (word : Word)
  /-- KEEPER_LOOP_BURST: Under keeper power every 8 ms each loop is checked with a 64-bit burst. (R521) -/
  | keeperLoopBurst (net : Fin 20) (burst : BitVec 64)
  /-- SERVICE_WINDOW_END: The service window times out and switches not at their level confirm a detection. (R523) -/
  | serviceWindowEnd (dt : Nat) (levels : BitVec 8)
  /-- KEEPER_ENERGY_TEST: Every 60 s under main power the keeper cell is load-tested. (R534) -/
  | keeperEnergyTest (mv : BitVec 16)
  /-- KEEPER_UNPOWERED_TEST: Every 600 s under keeper power the cell is tested and the keeper bank zeroized if too low. (R535) -/
  | keeperUnpoweredTest (mv : BitVec 16)
  /-- KEEPER_VOLTAGE_CHANGE: VKEEP crosses a charge threshold and KEEP_CHG_EN changes. (R533) -/
  | keeperVoltageChange (mv : BitVec 16)
  /-- THERMAL_SAMPLE: Temperature and flow readings update the pump governor. (R536) -/
  | thermalSample (tj : Vector (BitVec 17) 4) (sr coldest inlet outlet : BitVec 17) (tach : BitVec 16) (duty : BitVec 7)
  /-- HOT_HOLD_ENTER: A tile at 105 °C for 1 ms enters hot hold. (R537) -/
  | hotHoldEnter (tile : Fin 4)
  /-- HOT_HOLD_CLEAR: A tile below THM_TJ_WARN for 1 s leaves hot hold. (R537) -/
  | hotHoldClear (tile : Fin 4)
  /-- FLOW_LOW: Flow below 1.5 L/min for 2 s raises an alarm and full duty. (R537) -/
  | flowLow (low : Bool)
  /-- PUMP_FAIL: A stopped tachometer for 2 s raises PUMP_FAIL. (R537) -/
  | pumpFail
  /-- LEAK: LEAK_SENSE asserted for 100 ms raises the LEAK alarm. (R537) -/
  | leak
  /-- BUS_INTEGRITY_FAILURE: A beat fails its bus integrity code and is handled by its path's rule. (R526) -/
  | busIntegrityFailure (dt : Nat) (failed : BadBeat)
  /-- ALARM_REPORT: A block sends an alarm report, which folds into an open record or opens one. (R540) -/
  | alarmReport (cls : Fin 12) (detail : BitVec 8) (security : Bool) (src transmitter tenant : BitVec 16) (data : Word)
  /-- ALARM_RECORD_CLOSE: A record with no identical report for 10 µs closes and passes to the Ledger. (R542) -/
  | alarmRecordClose (dt : Nat)
  /-- DROP_SUMMARY: Each second, clusters report per-port drop and timeout counts as summaries. (R543) -/
  | dropSummary (cluster : Fin 64)
  /-- TAMPER_LOG_TRANSFER: An untransferred tamper log entry is written as a TAMPER event. (R532) -/
  | tamperLogTransfer
  /-- TPR_COMMIT_ARM: A keyed write of TPR_COMMIT with ARM arms the staged loops and switches. (R546) -/
  | tprCommitArm (ring : Fin 4) (value : Word) (matched : BitVec 4) (delays : Vector (BitVec 11) 4)
  /-- TPR_COMMIT_WINDOW: A keyed write of TPR_COMMIT with WINDOW opens the service window. (R523) -/
  | tprCommitWindow (ring : Fin 4) (value : Word)
  /-- TPR_ZERO_REQ: A keyed write of TPR_ZERO_REQ asserts the zero level. (R546) -/
  | tprZeroReq (ring : Fin 4) (value : Word)
  /-- TPR_LOG_XFER: A write of TPR_LOG_XFER marks the selected entry transferred. (R532) -/
  | tprLogXfer (ring : Fin 4) (value : Word)
  /-- ALM_HEAD_POP: A read of ALM_HEAD7 pops the head alarm record. (R548) -/
  | almHeadPop (ring : Fin 4)
  /-- ALM_ACK: A write of ALM_ACK empties the first records of the classes named. (R548) -/
  | almAck (ring : Fin 4) (value : Word)
  /-- GET_TAMPER: Returns tamper state. (R545) -/
  | getTamper (c : HostCmd)
  /-- READ_TAMPER_LOG: Reads tamper log entries. (R545) -/
  | readTamperLog (c : HostCmd) (first count : BitVec 8)
  /-- GET_ALARMS: Returns alarm state and queued records. (R545) -/
  | getAlarms (c : HostCmd)
  /-- GET_THERMAL: Returns thermal readings. (R545) -/
  | getThermal (c : HostCmd)
  /-- GET_KEEPER: Returns keeper battery state. (R545) -/
  | getKeeper (c : HostCmd)
  /-- ZEROIZE: Zeroizes the device under a ticket. (R545) -/
  | zeroize (c : HostCmd)
  /-- SET_TAMPER_CFG: Arms switches and loops under a ticket. (R522) -/
  | setTamperCfg (c : HostCmd) (cfg : Word)
  /-- SERVICE_WINDOW: Opens a service window under a ticket. (R523) -/
  | serviceWindow (c : HostCmd) (mask : BitVec 8) (minutes : BitVec 16)
  /-- CLOSE_WINDOW: Ends the service window. (R523) -/
  | closeWindow (c : HostCmd) (levels : BitVec 8)
  /-- SET_THERMAL: Sets the thermal setpoint and warning level. (R545) -/
  | setThermal (c : HostCmd) (setpoint warn : BitVec 16) (duty : BitVec 8) (flowK : BitVec 16)
  /-- ACK_ALARMS: Acknowledges alarm classes. (R545) -/
  | ackAlarms (c : HostCmd) (mask : BitVec 16)
  /-- SET_KEEPER: Sets the keeper thresholds. (R535) -/
  | setKeeper (c : HostCmd) (zthr low vfull : BitVec 16)
  /-- MIRROR_LINK_UP: The mirror link comes up and the generation exchange follows. (R549) -/
  | mirrorLinkUp (lanes : BitVec 8)
  /-- MIRROR_LINK_DOWN: The mirror link goes down and each role acts as the link-down table states. (R549) -/
  | mirrorLinkDown
  /-- GENERATION_EXCHANGE: Both sides exchange charter generations and a stale holder becomes DORMANT. (R554) -/
  | generationExchange (gens : List (Fin 512 × BitVec 32 × BitVec 64))
  /-- LEASE_TIMER: Every 50 ms a STANDBY or TAKING side sends LEASE to the holder. (R551) -/
  | leaseTimer (dt : Nat)
  /-- LEASE_RECEIVED: A holder receives a LEASE message. (R551) -/
  | leaseReceived (dt : Nat) (map : BitVec 512) (expiry : BitVec 64)
  /-- LEASE_EXPIRY: A RELEASING holder reaches its lease expiry and stops sealing. (R551) -/
  | leaseExpiry (dt : Nat) (tenant : Fin 512)
  /-- TAKE_REQUEST_RECEIVED: The holder receives a take request, becomes RELEASING and sets the cut E. (R552) -/
  | takeRequestReceived (dt : Nat) (tenant : Fin 512)
  /-- TAKE_ACK_RECEIVED: The taker receives the acknowledgement with E and becomes TAKING. (R552) -/
  | takeAckReceived (dt : Nat) (tenant : Fin 512) (cut : BitVec 64)
  /-- TAKE_ACK_TIMEOUT: No acknowledgement within 100 ms fails the take with 0x2B03. (R552) -/
  | takeAckTimeout (dt : Nat) (tenant : Fin 512)
  /-- HANDOVER_CUT: The cut E passes and the holder stops sealing and sends FINAL. (R552) -/
  | handoverCut (dt : Nat) (tenant : Fin 512)
  /-- FINAL_RECEIVED: The taker receives FINAL and becomes HOLDER after E plus PAI_GUARD. (R552) -/
  | finalReceived (dt : Nat) (tenant : Fin 512)
  /-- ROOT_MESSAGE: The partner receives a replicated tenant root record. (R557) -/
  | rootMessage (tenant : Fin 512) (epoch : BitVec 64) (record : Bytes)
  /-- ROOT_ACK: The holder receives the partner's acknowledgement and programs the root. (R557) -/
  | rootAck (tenant : Fin 512) (epoch : BitVec 64)
  /-- ROOT_ACK_TIMEOUT: 1 s without acknowledgement, the holder programs the root anyway. (R557) -/
  | rootAckTimeout (dt : Nat) (tenant : Fin 512) (epoch : BitVec 64)
  /-- LINE_MESSAGE: The partner receives replicated terminal register entries. (R557) -/
  | lineMessage (slot : Fin 8388608) (entry : Bytes)
  /-- PAGE_MESSAGE: The partner receives a replicated receipt page. (R557) -/
  | pageMessage (tenant : Fin 512) (seq : BitVec 64) (page : Bytes)
  /-- CONFIG_MESSAGE: A side receives replicated tenant, game or region configuration. (R549) -/
  | configMessage (change : PairConfig)
  /-- DOMAIN_MESSAGE: A receiver places a shared L1 key block when its KCV matches. (R559) -/
  | domainMessage (domain : Fin 16) (block : Bytes)
  /-- GET_PAIR: Returns pair state. (R561) -/
  | getPair (c : HostCmd)
  /-- GET_CHARTERS: Returns charter records. (R561) -/
  | getCharters (c : HostCmd) (first count : BitVec 16)
  /-- PAIR_JOIN: Forms a pair and derives the pair key. (R559) -/
  | pairJoin (c : HostCmd) (serial : BitVec 64) (digest : Bytes)
  /-- SHARE_DOMAIN: Sends the L1 keys of a domain to the partner. (R559) -/
  | shareDomain (c : HostCmd) (domain : BitVec 8)
  /-- TAKE_CHARTER: Takes a tenant's charter, cleanly or by force. (R552) -/
  | takeCharter (c : HostCmd) (tenant : BitVec 16) (force : Bool)
  /-- RESUME_SOLO: Restores charter records of the previous start without the partner. (R556) -/
  | resumeSolo (c : HostCmd)
  /-- SET_REPLICATION: Sets a tenant's REPLICATE bit. (R561) -/
  | setReplication (c : HostCmd) (tenant : BitVec 16) (on : Bool)
  /-- PAIR_DISSOLVE: Destroys the pair key and removes non-holder records. (R560) -/
  | pairDissolve (c : HostCmd)
  /-- LEND_REQUEST: A write of RPR_LEND_REQ starts a lend of a spare engine. (R568) -/
  | lendRequest (ring : Fin 4) (value : Word)
  /-- LEND_DONE: The repair controller completes or refuses a lend request. (R568) -/
  | lendDone (fail : Bool)
  /-- GET_REPAIR: Returns repair state. (R578) -/
  | getRepair (c : HostCmd)
  /-- GET_TALLY: Returns Tally counters of a block. (R578) -/
  | getTally (c : HostCmd) (block : BitVec 8)
  /-- RETEST: Retests a failed resource. (R578) -/
  | retest (c : HostCmd) (kind : BitVec 8) (res : BitVec 16) (pass : Bool)
  /-- DISABLE_RESOURCE: Fails a resource by command. (R578) -/
  | disableResource (c : HostCmd) (kind : BitVec 8) (res : BitVec 16)
  /-- RESET_PORT: Resets a port and clears DISABLED when it has both engines. (R578) -/
  | resetPort (c : HostCmd) (port : BitVec 16)
  /-- SET_TALLY: Selects a Tally counter's event. (R578) -/
  | setTally (c : HostCmd) (block counter : BitVec 8) (event : BitVec 16) (selector : BitVec 8) (chain : Bool)
  /-- CLEAR_TALLY: Clears Tally counters. (R578) -/
  | clearTally (c : HostCmd) (block : BitVec 8) (mask : BitVec 16)
  /-- TALLY_RUN: A write of TLY_GCTL with RUN requests that every counter start. (R577) -/
  | tallyRun (ring : Fin 4)
  /-- TALLY_STOP: A write of TLY_GCTL with STOP requests that every counter stop. (R577) -/
  | tallyStop (ring : Fin 4)
  /-- TALLY_GCTL_APPLY: At the next microsecond boundary at least 2 µs later every block starts or stops. (R577) -/
  | tallyGctlApply (dt : BitVec 32)
  /-- TALLY_CLEAR: A write of TLY_CLR or TLY_CL_CLR clears counters. (R580) -/
  | tallyClear (ring : Fin 4) (block : Fin 65) (mask : BitVec 16)
  /-- TALLY_COUNTER_READ: A read of an even counter snapshots its chained partner. (R576) -/
  | tallyCounterRead (block : Fin 65) (counter : Fin 16) (master : BitVec 11) (counted : Word)
  /-- PMBUS_POLL: Every 100 ms the device reads voltage and current of each tile regulator. (R588) -/
  | pmbusPoll (silent : BitVec 4) (vout iout : Vector (BitVec 16) 4)
  /-- SMB_ALERT_RESPONSE: The target answers the Alert Response Address with its own address. (R597) -/
  | smbAlertResponse
  /-- SMB_READ_SYS_MODE: SMBus command 0x01 returns SYS_MODE. (R598) -/
  | smbReadSysMode (pec : Bool)
  /-- SMB_READ_SYS_STATUS: SMBus command 0x02 returns SYS_STATUS. (R598) -/
  | smbReadSysStatus (pec : Bool)
  /-- SMB_READ_SYS_HOLD: SMBus command 0x03 returns SYS_HOLD. (R598) -/
  | smbReadSysHold (pec : Bool)
  /-- SMB_READ_SYS_BOOT_STAGE: SMBus command 0x04 returns SYS_BOOT_STAGE. (R598) -/
  | smbReadSysBootStage (pec : Bool)
  /-- SMB_READ_SYS_RESET_CAUSE: SMBus command 0x05 returns SYS_RESET_CAUSE. (R598) -/
  | smbReadSysResetCause (pec : Bool)
  /-- SMB_READ_TPR_STATUS: SMBus command 0x06 returns TPR_STATUS. (R598) -/
  | smbReadTprStatus (pec : Bool)
  /-- SMB_READ_THM_STATUS: SMBus command 0x07 returns THM_STATUS. (R598) -/
  | smbReadThmStatus (pec : Bool)
  /-- SMB_READ_HOTTEST_TILE: SMBus command 0x08 returns the hottest tile junction. (R598) -/
  | smbReadHottestTile (pec : Bool)
  /-- SMB_READ_THM_TJ_SR: SMBus command 0x09 returns THM_TJ_SR. (R598) -/
  | smbReadThmTjSr (pec : Bool)
  /-- SMB_READ_THM_INLET: SMBus command 0x0A returns THM_INLET. (R598) -/
  | smbReadThmInlet (pec : Bool)
  /-- SMB_READ_THM_FLOW: SMBus command 0x0B returns THM_FLOW. (R598) -/
  | smbReadThmFlow (pec : Bool)
  /-- SMB_READ_THM_KEEP_V: SMBus command 0x0C returns THM_KEEP_V. (R598) -/
  | smbReadThmKeepV (pec : Bool)
  /-- SMB_READ_TIM_STATUS: SMBus command 0x0D returns TIM_STATUS. (R598) -/
  | smbReadTimStatus (pec : Bool)
  /-- SMB_READ_ALM_STATUS: SMBus command 0x0E returns ALM_STATUS. (R598) -/
  | smbReadAlmStatus (pec : Bool)
  /-- SMB_READ_SYS_SERIAL_LO: SMBus command 0x10 returns SYS_SERIAL_LO. (R598) -/
  | smbReadSysSerialLo (pec : Bool)
  /-- SMB_READ_SYS_SERIAL_HI: SMBus command 0x11 returns SYS_SERIAL_HI. (R598) -/
  | smbReadSysSerialHi (pec : Bool)
  /-- SMB_READ_SYS_ORDER: SMBus command 0x12 returns SYS_ORDER. (R598) -/
  | smbReadSysOrder (pec : Bool)
  /-- SMB_READ_TILE_VOLTAGES: SMBus command 0x13 returns the fused tile voltages and regulator acknowledgement. (R598) -/
  | smbReadTileVoltages (pec : Bool)
  /-- SMB_UNDEFINED_COMMAND: An undefined SMBus command or any write is NACKed. (R597) -/
  | smbUndefinedCommand
  /-- TAP_RESET: TRST_N or five TCK cycles with TMS high reset the TAP to IDCODE. (R609) -/
  | tapReset
  /-- EXTEST: Drives pins from the boundary register while SYS_RESET_N is low. (R610) -/
  | extest (sample values : BitVec 81)
  /-- IDCODE: Selects the device identification register. (R609) -/
  | idcode
  /-- SAMPLE_PRELOAD: Samples and preloads the boundary register. (R609) -/
  | samplePreload (sample values : BitVec 81)
  /-- CLAMP: Holds pins from the boundary register and selects bypass, while SYS_RESET_N is low. (R610) -/
  | clamp
  /-- HIGHZ: Disables every boundary output, while SYS_RESET_N is low. (R610) -/
  | highz
  /-- TESTLOCK: Selects the TESTLOCK register. (R613) -/
  | testlock
  /-- BYPASS: Selects the bypass register. (R609) -/
  | bypass
  /-- KEEPER_POWER_LOSS: VKEEP is lost while main power is absent, so the keeper bank, mode record and the rest of the keeper record are lost and the next start counts as zeroized. (R531) -/
  | keeperPowerLoss
  /-- PERST_N_DEASSERT: PERST_N rises and PCIe link training begins at that edge when it rises later than 20 ms after PWR_OK. (R590) -/
  | perstNDeassert
  /-- SPDM_DOE_REQUEST: An SPDM or IDE_KM request arrives over DOE on PF0 and the responder answers it or programs IDE stream keys. (R65) -/
  | spdmDoeRequest (measure : Option (Fin 16)) (auth : Bool) (ide : Option (Fin 8 × Bool × Bool))
  /-- VERDICT_TOKEN_REFILL: The per-port verdict token bucket regains tokens at 100,000 records per second, up to 64. (R124) -/
  | verdictTokenRefill (port : Fin 512) (n : Nat)
  /-- FABRIC_ACKNOWLEDGEMENT: The egress cluster's acknowledgement of a frame's last beat reaches the ingress cluster, which drops its record of the frame. (R160) -/
  | fabricAcknowledgement (src : Fin 4) (dst : Fin 512)
  /-- ERASE_SUSPEND_POINT: A custody flash erase with a pending suspend reaches its 2.0 ms minimum run time and, after the suspend latency, suspends and serves the waiting reads. (R453) -/
  | eraseSuspendPoint (dt : BitVec 32)
  /-- LFLASH_READ_DONE: A ledger flash page read for a proof, journal read, receipt read or scrub completes, corrected or uncorrectable. (R463) -/
  | lflashReadDone (read : BlockRead) (corrected : Nat) (ok : Bool)
  /-- STORE_ACKNOWLEDGEMENT: A target acknowledges or refuses a posted store, letting a waiting FENCE retire or recording a refusal to report. (R321) -/
  | storeAcknowledgement (gate : Fin 33) (env : BusEnv)
  /-- CUSTODY_LINK_RETRAINED: A custody link that entered retraining after an integrity failure completes its retraining and carries traffic again. (R526) -/
  | custodyLinkRetrained (tile : Fin 4)
  /-- CARD_ATR_RECEIVED: A card's ATR arrives whole, and the class, protocol and PPS proposal are chosen from it. (R501) -/
  | cardAtrReceived (slot : Fin 4) (atr : Bytes)
  /-- CARD_PPS_RESPONSE: The card's PPS response arrives, confirming the proposal or causing deactivation and reactivation at default values. (R502) -/
  | cardPpsResponse (slot : Fin 4) (response : Bytes)
  /-- CARD_PARITY_ERROR: A character or T=1 block is received or signalled with a parity or EDC error, leading to repetition, R-block, S(RESYNCH) or deactivation. (R504) -/
  | cardParityError (slot : Fin 4) (same : Bool)
  /-- TOKEN_FRAME_WAIT_TIMEOUT: An I-block to an active token gets no valid answer within FWT times any WTX after two retransmissions, and the token is removed. (R510) -/
  | tokenFrameWaitTimeout
  /-- LEAK_CLEAR: LEAK_SENSE deasserts and the LEAK alarm condition clears. (R537) -/
  | leakClear
  /-- TAKING_GUARD_END: The taking side reaches E plus PAI_GUARD and, after FINAL or in a forced or link-down take, begins sealing as HOLDER. (R552) -/
  | takingGuardEnd (dt : Nat) (tenant : Fin 512)
  /-- PAIR_HANDSHAKE_RECEIVED: The partner's ephemeral keys or signed identity statement arrive over the mirror link during PAIR_JOIN, and the pair key is derived or the join fails. (R559) -/
  | pairHandshakeReceived (msg : PairShake)
  /-- LOCKSTEP_MISMATCH_AGEOUT: A counted lockstep mismatch leaves the 60 s window and SYS_LOCKSTEP_CNT falls. (R43) -/
  | lockstepMismatchAgeout (dt : Nat)
  deriving DecidableEq, Repr

end Sys2Proof
end

