-- ==== Sys2Proof/Decode.lean ====
section
/-! DEFINITION. Commands from words. The opcode table gives no row any bits: a command reaches the device through its registers, rings, pins and
links, and no word spells one. -/

namespace Sys2Proof

/-- The command a word spells by the table's bits: none, since no row of the table carries bits. -/
def decodeTableWord (_nbits _w : Nat) : Option Instr := none

end Sys2Proof
end

