-- ==== Sys2Proof/Machine/Bytes.lean ====
section
/-! DEFINITION. Byte order, bit fields, padding and the two check codes the spec computes over bytes: the network order of
records (R7), the little-endian order of registers (R7), the CRC-32C of R104 and the CRC-10 of R525. -/

namespace Sys2Proof.Machine

/-- `n` bytes of `v`, most significant first (R7, wire formats and records). -/
def be (n v : Nat) : Bytes :=
  match n with
  | 0 => []
  | n + 1 => BitVec.ofNat 8 (v / 256 ^ n) :: be n v

/-- The number a big-endian byte string spells. -/
def ofBe (b : Bytes) : Nat := b.foldl (fun a x => a * 256 + x.toNat) 0

/-- `n` bytes of `v`, least significant first (R7, registers and the custody core's memory). -/
def le : Nat → Nat → Bytes
  | 0, _ => []
  | n + 1, v => BitVec.ofNat 8 v :: le n (v / 256)

/-- The number a little-endian byte string spells. -/
def ofLe : Bytes → Nat
  | [] => 0
  | x :: r => x.toNat + 256 * ofLe r

/-- `n` zero bytes. -/
def zeros (n : Nat) : Bytes := List.replicate n 0

/-- A byte string cut or padded with zeros to exactly `n` bytes. -/
def fit (n : Nat) (b : Bytes) : Bytes := (b ++ zeros n).take n

/-- Bytes `[a, a+n)` of a string, zero beyond its end. -/
def slice (b : Bytes) (a n : Nat) : Bytes := fit n (b.drop a)

/-- The big-endian field of `n` bytes at byte `a` of a record. -/
def field (b : Bytes) (a n : Nat) : Nat := ofBe (slice b a n)

/-- Bit range `[hi:lo]` of a word, as a number (R6). -/
def bits (w : Word) (hi lo : Nat) : Nat := (w.toNat / 2 ^ lo) % 2 ^ (hi - lo + 1)

/-- Bit `i` of a word. -/
def bit (w : Word) (i : Nat) : Bool := w.getLsbD i

/-- A word whose bits `[hi:lo]` hold `v`, all others 0. -/
def mask (hi lo : Nat) : Word := BitVec.ofNat 32 ((2 ^ (hi - lo + 1) - 1) * 2 ^ lo)

/-- Replace bit range `[hi:lo]` of `w` by `v`. -/
def setBits (w : Word) (hi lo v : Nat) : Word :=
  (w &&& ~~~(mask hi lo)) ||| (BitVec.ofNat 32 (v % 2 ^ (hi - lo + 1) * 2 ^ lo))

/-- Set or clear bit `i`. -/
def setBit (w : Word) (i : Nat) (b : Bool) : Word := setBits w i i (if b then 1 else 0)

/-- A Boolean as a number. -/
def b2n (b : Bool) : Nat := if b then 1 else 0

/-- Bit `i` of a number. -/
def nbit (n i : Nat) : Bool := n.testBit i

/-- A saturating count: `n` limited to `m`. -/
def sat (m n : Nat) : Nat := min m n

/-- One bit step of a reflected CRC register with polynomial `p`. -/
def crcBit (p : BitVec 32) (c : BitVec 32) : BitVec 32 :=
  if c.getLsbD 0 then (c >>> 1) ^^^ p else c >>> 1

/-- One byte of a reflected CRC with polynomial `p`. -/
def crcByte (p c : BitVec 32) (b : Byte) : BitVec 32 :=
  (List.range 8).foldl (fun c _ => crcBit p c) (c ^^^ b.setWidth 32)

/-- CRC-32C of R104: reflected polynomial 0x82F6_3B78, initial value and final exclusive OR all ones. -/
def crc32c (b : Bytes) : BitVec 32 := ~~~(b.foldl (crcByte 0x82F63B78) 0xFFFFFFFF)

/-- One bit step of the CRC-10 register of R525: polynomial 0x233, most significant bit first. -/
def crc10Bit (c : BitVec 10) (b : Bool) : BitVec 10 :=
  if c.getLsbD 9 != b then (c <<< 1) ^^^ 0x233 else c <<< 1

/-- The bits of the low `n` bits of a number, most significant first. -/
def bitsMsb (n v : Nat) : List Bool := (List.range n).map (fun i => v.testBit (n - 1 - i))

/-- The bus integrity code of R525 over the 119 bits data, address, master, ring and colour. -/
def busIntegrityCode (data : BitVec 64) (addr : BitVec 32) (master : BitVec 11) (ring : BitVec 2)
    (colour : BitVec 10) : BitVec 10 :=
  (bitsMsb 64 data.toNat ++ bitsMsb 32 addr.toNat ++ bitsMsb 11 master.toNat ++ bitsMsb 2 ring.toNat
    ++ bitsMsb 10 colour.toNat).foldl crc10Bit 0x3FF

end Sys2Proof.Machine
end

