-- ==== Sys2Proof/Machine/Crypto.lean ====
section
/-! DEFINITION. The published functions the spec names by their standards and whose value those standards fix: SHA-256,
SHA-384 and SHA-512 (FIPS 180-4), HMAC, AES (FIPS 197), GCM and GMAC (SP 800-38D), CMAC (SP 800-38B), AES key wrap is not used,
the Ethernet FCS (IEEE 802.3), modular exponentiation. Lattice and curve functions stand in Config.lean as uninterpreted
constants. -/

namespace Sys2Proof.Machine

/-- Rotate right. -/
def rotr {w : Nat} (x : BitVec w) (n : Nat) : BitVec w := x.rotateRight n

/-- The first `n` primes' bound is never needed beyond 80 of them. -/
def primes80 : List Nat :=
  [2, 3, 5, 7, 11, 13, 17, 19, 23, 29, 31, 37, 41, 43, 47, 53, 59, 61, 67, 71, 73, 79, 83, 89, 97, 101, 103, 107, 109, 113,
   127, 131, 137, 139, 149, 151, 157, 163, 167, 173] ++
  [179, 181, 191, 193, 197, 199, 211, 223, 227, 229, 233, 239, 241, 251, 257, 263, 269, 271, 277, 281, 283, 293, 307, 311,
   313, 317, 331, 337, 347, 349, 353, 359, 367, 373, 379, 383, 389, 397, 401, 409]

/-- The greatest `r` with `p r`, built bit by bit from bit `n - 1` down (`p` is downward closed). -/
def greatest (p : Nat → Bool) : Nat → Nat → Nat
  | 0, r => r
  | n + 1, r => greatest p n (if p (r + 2 ^ n) then r + 2 ^ n else r)

/-- The first 64 fraction bits of the cube root of `q`, as FIPS 180-4 builds its round constants. -/
def cubeFrac (q : Nat) : Nat := greatest (fun r => r ^ 3 ≤ q * 2 ^ 192) 68 0 % 2 ^ 64

/-- The first 64 fraction bits of the square root of `q`, as FIPS 180-4 builds its initial hash values. -/
def sqrtFrac (q : Nat) : Nat := greatest (fun r => r ^ 2 ≤ q * 2 ^ 128) 70 0 % 2 ^ 64

/-- Round constants of SHA-256. -/
def k256 : List (BitVec 32) := (primes80.take 64).map (fun q => BitVec.ofNat 32 (cubeFrac q / 2 ^ 32))

/-- Round constants of SHA-384 and SHA-512. -/
def k512 : List (BitVec 64) := primes80.map (fun q => BitVec.ofNat 64 (cubeFrac q))

/-- Initial value of SHA-256. -/
def iv256 : List (BitVec 32) := (primes80.take 8).map (fun q => BitVec.ofNat 32 (sqrtFrac q / 2 ^ 32))

/-- Initial value of SHA-512. -/
def iv512 : List (BitVec 64) := (primes80.take 8).map (fun q => BitVec.ofNat 64 (sqrtFrac q))

/-- Initial value of SHA-384. -/
def iv384 : List (BitVec 64) := ((primes80.drop 8).take 8).map (fun q => BitVec.ofNat 64 (sqrtFrac q))

/-- The rotation and shift amounts that tell SHA-256 from SHA-512. -/
structure ShaParams where
  s0 : Nat × Nat × Nat
  s1 : Nat × Nat × Nat
  b0 : Nat × Nat × Nat
  b1 : Nat × Nat × Nat

/-- Amounts of SHA-256. -/
def sha256Params : ShaParams := ⟨(7, 18, 3), (17, 19, 10), (2, 13, 22), (6, 11, 25)⟩

/-- Amounts of SHA-512. -/
def sha512Params : ShaParams := ⟨(1, 8, 7), (19, 61, 6), (28, 34, 39), (14, 18, 41)⟩

/-- Message schedule: `acc` holds the words so far, newest first. -/
def shaSchedule {w : Nat} (p : ShaParams) : Nat → List (BitVec w) → List (BitVec w)
  | 0, acc => acc
  | n + 1, acc =>
    let g := fun i => acc.getD i 0
    let s0 := rotr (g 14) p.s0.1 ^^^ rotr (g 14) p.s0.2.1 ^^^ (g 14 >>> p.s0.2.2)
    let s1 := rotr (g 1) p.s1.1 ^^^ rotr (g 1) p.s1.2.1 ^^^ (g 1 >>> p.s1.2.2)
    shaSchedule p n ((g 15 + s0 + g 6 + s1) :: acc)

/-- One round on the eight working variables. -/
def shaRound {w : Nat} (p : ShaParams) (v : List (BitVec w)) (kw : BitVec w × BitVec w) : List (BitVec w) :=
  match v with
  | [a, b, c, d, e, f, g, h] =>
    let t1 := h + (rotr e p.b1.1 ^^^ rotr e p.b1.2.1 ^^^ rotr e p.b1.2.2) + ((e &&& f) ^^^ (~~~e &&& g)) + kw.1 + kw.2
    let t2 := (rotr a p.b0.1 ^^^ rotr a p.b0.2.1 ^^^ rotr a p.b0.2.2) + ((a &&& b) ^^^ (a &&& c) ^^^ (b &&& c))
    [t1 + t2, a, b, c, d + t1, e, f, g]
  | v => v

/-- Compress one block into a chaining value. -/
def shaBlock {w : Nat} (p : ShaParams) (k : List (BitVec w)) (h : List (BitVec w)) (blk : Bytes) : List (BitVec w) :=
  let m := (List.range 16).map (fun i => BitVec.ofNat w (field blk (i * (w / 8)) (w / 8)))
  let ws := (shaSchedule p (k.length - 16) m.reverse).reverse
  List.zipWith (· + ·) h ((k.zip ws).foldl (shaRound p) h)

/-- Compress every whole block of `b`, `n` blocks of `w * 2` bytes. -/
def shaBlocks {w : Nat} (p : ShaParams) (k : List (BitVec w)) : Nat → List (BitVec w) → Bytes → List (BitVec w)
  | 0, h, _ => h
  | n + 1, h, b => shaBlocks p k n (shaBlock p k h (b.take (w * 2))) (b.drop (w * 2))

/-- The padding of FIPS 180-4 for a message of `len` bytes with blocks of `blk` bytes. -/
def shaPad (blk len : Nat) : Bytes :=
  let l := blk / 8
  0x80 :: (zeros ((blk - (len + 1 + l) % blk) % blk) ++ be l (len * 8))

/-- Hash a message of `len` bytes in all whose tail `b` follows an already compressed prefix, from chaining value `h`. -/
def shaFinish {w : Nat} (p : ShaParams) (k h : List (BitVec w)) (len : Nat) (b : Bytes) : Bytes :=
  let m := b ++ shaPad (w * 2) len
  (shaBlocks p k (m.length / (w * 2)) h m).flatMap (fun x => be (w / 8) x.toNat)

/-- SHA-256. -/
def sha256 (b : Bytes) : Bytes := shaFinish sha256Params k256 iv256 b.length b

/-- SHA-384. -/
def sha384 (b : Bytes) : Bytes := (shaFinish sha512Params k512 iv384 b.length b).take 48

/-- SHA-512. -/
def sha512 (b : Bytes) : Bytes := shaFinish sha512Params k512 iv512 b.length b

/-- Exclusive OR of two byte strings of one length. -/
def xorB (a b : Bytes) : Bytes := List.zipWith (· ^^^ ·) a b

/-- HMAC with hash `h` of block size `blk`. -/
def hmac (h : Bytes → Bytes) (blk : Nat) (key m : Bytes) : Bytes :=
  let k := fit blk (if key.length > blk then h key else key)
  h (k.map (· ^^^ 0x5C) ++ h (k.map (· ^^^ 0x36) ++ m))

/-- Doubling in GF(2^8) modulo x^8 + x^4 + x^3 + x + 1. -/
def xtime (b : Byte) : Byte := if b.getLsbD 7 then (b <<< 1) ^^^ 0x1B else b <<< 1

/-- Multiplication in GF(2^8). -/
def gmul (a b : Byte) : Byte :=
  ((List.range 8).foldl (fun (acc : Byte × Byte) i =>
    (if b.getLsbD i then acc.1 ^^^ acc.2 else acc.1, xtime acc.2)) (0, a)).1

/-- The inverse in GF(2^8), 0 for 0: the 254th power. -/
def ginv (a : Byte) : Byte :=
  let a2 := gmul a a
  let a4 := gmul a2 a2
  let a8 := gmul a4 a4
  let a16 := gmul a8 a8
  let a32 := gmul a16 a16
  let a64 := gmul a32 a32
  let a128 := gmul a64 a64
  gmul (gmul (gmul a2 a4) (gmul a8 a16)) (gmul (gmul a32 a64) a128)

/-- The AES substitution of FIPS 197. -/
def sbox (a : Byte) : Byte :=
  let x := ginv a
  x ^^^ x.rotateLeft 1 ^^^ x.rotateLeft 2 ^^^ x.rotateLeft 3 ^^^ x.rotateLeft 4 ^^^ 0x63

/-- The inverse substitution. -/
def invSbox (a : Byte) : Byte := ginv (a.rotateLeft 1 ^^^ a.rotateLeft 3 ^^^ a.rotateLeft 6 ^^^ 0x05)

/-- Key expansion: `acc` holds the words so far, newest first; `nk` is the key length in words. -/
def aesExpand (nk : Nat) : Nat → Byte → List Bytes → List Bytes
  | 0, _, acc => acc
  | n + 1, rc, acc =>
    let i := acc.length
    let t := acc.headD []
    let t' := if i % nk = 0 then
        xorB ((t.drop 1 ++ t.take 1).map sbox) [rc, 0, 0, 0]
      else if nk > 6 ∧ i % nk = 4 then t.map sbox else t
    aesExpand nk n (if i % nk = 0 then xtime rc else rc) (xorB (acc.getD (nk - 1) []) t' :: acc)

/-- The round keys of a 16-, 24- or 32-byte key, 16 bytes each. -/
def aesRoundKeys (key : Bytes) : List Bytes :=
  let nk := key.length / 4
  let ws := (aesExpand nk (4 * (nk + 7) - nk) 1 ((List.range nk).map (fun i => slice key (4 * i) 4)).reverse).reverse
  (List.range (nk + 7)).map (fun i => ((ws.drop (4 * i)).take 4).flatten)

/-- Shift the rows of a state held column by column. -/
def shiftRows (s : Bytes) : Bytes := (List.range 16).map (fun i => s.getD ((i + 4 * (i % 4)) % 16) 0)

/-- The inverse row shift. -/
def invShiftRows (s : Bytes) : Bytes := (List.range 16).map (fun i => s.getD ((i + 12 * (i % 4)) % 16) 0)

/-- Multiply every column by the circulant matrix whose first row is `m`. -/
def mixWith (m : List Byte) (s : Bytes) : Bytes :=
  (List.range 16).map (fun i => (List.range 4).foldl (fun acc j =>
    acc ^^^ gmul (m.getD ((j + 4 - i % 4) % 4) 0) (s.getD (i / 4 * 4 + j) 0)) 0)

/-- AES encipherment of one block. -/
def aesEnc (key blk : Bytes) : Bytes :=
  match aesRoundKeys key with
  | [] => blk
  | k0 :: ks =>
    let s := (ks.dropLast).foldl (fun s k => xorB (mixWith [2, 3, 1, 1] (shiftRows (s.map sbox))) k) (xorB blk k0)
    xorB (shiftRows (s.map sbox)) (ks.getLastD [])

/-- AES decipherment of one block. -/
def aesDec (key blk : Bytes) : Bytes :=
  match (aesRoundKeys key).reverse with
  | [] => blk
  | k0 :: ks =>
    let s := (ks.dropLast).foldl (fun s k => mixWith [14, 11, 13, 9] (xorB ((invShiftRows s).map invSbox) k)) (xorB blk k0)
    xorB ((invShiftRows s).map invSbox) (ks.getLastD [])

/-- Multiplication in GF(2^128) in the bit order of SP 800-38D (bit 127 of the number is the string's first bit). -/
def ghashMul (x y : BitVec 128) : BitVec 128 :=
  ((List.range 128).foldl (fun (acc : BitVec 128 × BitVec 128) i =>
    (if x.getLsbD (127 - i) then acc.1 ^^^ acc.2 else acc.1,
     if acc.2.getLsbD 0 then (acc.2 >>> 1) ^^^ (0xE1 : BitVec 128) <<< 120 else acc.2 >>> 1)) (0, y)).1

/-- GHASH over whole 16-byte blocks. -/
def ghash (h : BitVec 128) : Nat → Bytes → BitVec 128 → BitVec 128
  | 0, _, y => y
  | n + 1, b, y => ghash h n (b.drop 16) (ghashMul (y ^^^ BitVec.ofNat 128 (ofBe (b.take 16))) h)

/-- Pad with zeros to whole blocks of 16. -/
def pad16 (b : Bytes) : Bytes := b ++ zeros ((16 - b.length % 16) % 16)

/-- Counter-mode encipherment from the 16-byte counter block `c` (the low 32 bits count). -/
def ctr32 (key : Bytes) : Nat → Nat → Bytes → Bytes → Bytes
  | 0, _, _, _ => []
  | n + 1, i, iv, b =>
    xorB (b.take 16) (aesEnc key (iv ++ be 4 i)) ++ ctr32 key n ((i + 1) % 2 ^ 32) iv (b.drop 16)

/-- Encipher (or decipher) the payload of GCM with a 96-bit IV. -/
def gcmCrypt (key iv b : Bytes) : Bytes := ctr32 key ((b.length + 15) / 16) 2 iv b

/-- The 16-byte GCM tag over additional data `aad` and ciphertext `c`, with a 96-bit IV. -/
def gcmTag (key iv aad c : Bytes) : Bytes :=
  let h := BitVec.ofNat 128 (ofBe (aesEnc key (zeros 16)))
  let m := pad16 aad ++ pad16 c ++ be 8 (aad.length * 8) ++ be 8 (c.length * 8)
  xorB (be 16 (ghash h (m.length / 16) m 0).toNat) (aesEnc key (iv ++ be 4 1))

/-- Multiply an XTS tweak by the primitive element: bytes in little-endian order (IEEE 1619). -/
def xtsDouble (b : Bytes) : Bytes :=
  let v := ofLe b * 2
  le 16 (if v < 2 ^ 128 then v else (v % 2 ^ 128) ^^^ 0x87)

/-- AES-XTS of whole blocks under a data key, from a tweak already enciphered. -/
def xtsBlocks (key : Bytes) : Nat → Bytes → Bytes → Bytes
  | 0, _, _ => []
  | n + 1, tw, b => xorB (aesEnc key (xorB (b.take 16) tw)) tw ++ xtsBlocks key n (xtsDouble tw) (b.drop 16)

/-- AES-XTS of whole blocks for data unit `unit` (NIST SP 800-38E). -/
def xtsEnc (key tweakKey : Bytes) (unit : Nat) (b : Bytes) : Bytes := xtsBlocks key (b.length / 16) (aesEnc tweakKey (le 16 unit)) b

/-- Doubling in GF(2^128) as SP 800-38B makes its subkeys. -/
def cmacDbl (b : Bytes) : Bytes :=
  let x := BitVec.ofNat 128 (ofBe b)
  be 16 (if x.getLsbD 127 then (x <<< 1) ^^^ 0x87 else x <<< 1).toNat

/-- Cipher block chaining of whole blocks, answering the last block. -/
def cbcMac (key : Bytes) : Nat → Bytes → Bytes → Bytes
  | 0, _, c => c
  | n + 1, b, c => cbcMac key n (b.drop 16) (aesEnc key (xorB c (b.take 16)))

/-- AES-CMAC of SP 800-38B. -/
def cmac (key m : Bytes) : Bytes :=
  let k1 := cmacDbl (aesEnc key (zeros 16))
  let n := if m.length = 0 then 1 else (m.length + 15) / 16
  let last := m.drop (16 * (n - 1))
  let lb := if last.length = 16 then xorB last k1 else xorB (fit 16 (last ++ [0x80])) (cmacDbl k1)
  cbcMac key n (m.take (16 * (n - 1)) ++ lb) (zeros 16)

/-- The Ethernet frame check sequence over `b`, in the order it is sent (IEEE 802.3). -/
def fcs (b : Bytes) : Bytes := le 4 (~~~(b.foldl (crcByte 0xEDB88320) 0xFFFFFFFF)).toNat

/-- Modular exponentiation by squaring, `n` exponent bits. -/
def powMod (m : Nat) : Nat → Nat → Nat → Nat → Nat
  | 0, _, _, acc => acc
  | n + 1, b, e, acc => powMod m n (b * b % m) (e / 2) (if e % 2 = 1 then acc * b % m else acc)

end Sys2Proof.Machine
end

