-- ==== Sys2Proof/Config.lean ====
section
/-! DEFINITION. What an implementation fixes and what the spec leaves open: uninterpreted constants. Each is named in the
assumption log; no proof can see a value of one. -/

namespace Sys2Proof.Config

/-- Random bits and every other value the spec leaves undefined, one fresh value for each count (log entry 1). -/
opaque freeBits : Nat → BitVec 256

/-- The fingerprint key that engines use for an epoch whose key none has been delivered for: not stated (log entry 13). -/
opaque absentFpKey : Nat → BitVec 256

/-- The device serial number, from fuses (R249, SYS_SERIAL). -/
opaque serial : BitVec 64

/-- The ordering code fuse: true for FL5125-L4, false for FL5125-L1 (R2). -/
opaque isL4 : Bool

/-- The fused 256-bit Device Identity Seed (R248). -/
opaque identitySeed : BitVec 256

/-- Whether a block of ledger flash is marked bad at the factory (R463), from the grown table. -/
opaque factoryBad : Nat → Bool

/-- The blocks of ledger flash fabricated (R459). -/
def lflashFabricated : Nat := if isL4 then 262144 else 65536

/-- The boot ROM entry, and the other addresses of the boot ROM's private port (R313): the spec gives neither. -/
opaque romEntry : BitVec 32
opaque romHolds : BitVec 32 → Bool

/-- The resources failed at the factory (R565), by kind (1 engine, 2 tile unit, 3 custody unit) and number, from fuses. -/
opaque factoryFailed : (kind res : Nat) → Bool

/-- Granules of custody flash mapped to spares from fuses (R458). -/
opaque flashFactoryBad : List (BitVec 13)

/-- The stored bits of a custody flash byte whose erase or program was interrupted: not stated (log entry 1). -/
opaque indetByte : (which offset : Nat) → BitVec 8

/-- The 256-bit conditioned output of the passing blocks absorbed (R414): how 256 bits come of CMAC is not stated (log entry 40). -/
opaque condition : List (BitVec 8) → BitVec 256

/-- The adaptive proportion cutoff for a min-entropy in units of 2^-16 (R410): SP 800-90B gives it as a critical binomial value. -/
opaque aptCutoff : Nat → BitVec 11

/-- The image transport key (R471), and AES-256-XTS under the image storage key with a flash offset as tweak (R471): the spec does not say how a
256-bit storage key gives the two keys of XTS. -/
opaque transportKey : BitVec 256
opaque xtsEncrypt : (offset : Nat) → List (BitVec 8) → List (BitVec 8)
opaque xtsDecrypt : (offset : Nat) → List (BitVec 8) → List (BitVec 8)

/-- A slot's entry enciphered under the register image key (R185): the spec does not name the mode (log entry 334). -/
opaque imageCipher : (key : List (BitVec 8)) → (slot : Nat) → List (BitVec 8) → List (BitVec 8)

/-- The keyed permutations of R226 over a number of cells: the spec does not name the function (log entry 339). -/
opaque cellOf : (cells : Nat) → (key : BitVec 256) → Nat → Nat

/-- What the update engine makes of the bytes of a register job of an encrypted kind (R471): its registers carry no IV. -/
opaque updTransform : (op : Nat) → (src dst : Nat) → List (BitVec 8) → List (BitVec 8)

/-- The four Talique release key pairs of sector 8 (R470): ECDSA and ML-DSA public key of an index; and whether the fused digest matches. -/
opaque releaseKey : Nat → List (BitVec 8) × List (BitVec 8)
opaque sector8Ok : Bool

/-- What the boot stages extend registers 2 to 7 with, from the digests of the two images they load: not stated (R46). -/
opaque bootMeasure : (reg : Nat) → List (BitVec 8) → List (BitVec 8)

/-- The fused regulator voltage of tile `t` as (mV - 700) / 2 (R588). -/
opaque tileVoltage : Nat → BitVec 7

/-- ECDSA P-384 (FIPS 186-5): public key of a scalar, signature of a digest with a nonce, and verification. -/
opaque ecdsaPublic : (scalar : List (BitVec 8)) → List (BitVec 8)
opaque ecdsaSign : (scalar digest nonce : List (BitVec 8)) → List (BitVec 8)
opaque ecdsaVerify : (pub digest sig : List (BitVec 8)) → Bool

/-- ML-DSA-65 (FIPS 204): public key of a seed, signature with a context string, and verification. -/
opaque mldsaPublic : (seed : List (BitVec 8)) → List (BitVec 8)
opaque mldsaSign : (seed ctx msg rnd : List (BitVec 8)) → List (BitVec 8)
opaque mldsaVerify : (pub ctx msg sig : List (BitVec 8)) → Bool

/-- The public-key algorithms of R432 by the code of PKE_U_JOB.ALG: key pair of a seed (public key, then private key), signature of a message (or
digest, or mu) with context and randomness, verification, shared secret, encapsulation (ciphertext, then secret), decapsulation, and
whether an encapsulation or decapsulation key passes its check. -/
opaque pkKeypair : (alg : Nat) → (seed : List (BitVec 8)) → List (BitVec 8)
opaque pkSign : (alg hash : Nat) → (key msg ctx rnd : List (BitVec 8)) → List (BitVec 8)
opaque pkVerify : (alg hash : Nat) → (pub msg sig ctx : List (BitVec 8)) → Bool
opaque pkShared : (alg : Nat) → (scalar pub : List (BitVec 8)) → List (BitVec 8)
opaque pkEncaps : (alg : Nat) → (key rnd : List (BitVec 8)) → List (BitVec 8)
opaque pkDecaps : (alg : Nat) → (key ct : List (BitVec 8)) → List (BitVec 8)
opaque pkKeyOk : (alg : Nat) → (key : List (BitVec 8)) → Bool

/-- X25519 (RFC 7748). -/
opaque x25519 : (scalar u : List (BitVec 8)) → List (BitVec 8)

/-- ML-KEM-768 (FIPS 203): key generation from `d` and `z`, encapsulation and decapsulation. -/
opaque mlkemPublic : (d z : List (BitVec 8)) → List (BitVec 8)
opaque mlkemEncaps : (pub rnd : List (BitVec 8)) → List (BitVec 8) × List (BitVec 8)
opaque mlkemDecaps : (d z ct : List (BitVec 8)) → List (BitVec 8)
opaque mlkemRejects : (d z ct : List (BitVec 8)) → Bool

/-- The secure messaging key of an ECDH secret (R505) and the pair key of an ECDH secret followed by an ML-KEM secret (R559): R217 with purpose 0x70,
whose other label fields the spec does not give for these uses. -/
opaque smKey : (secret : List (BitVec 8)) → List (BitVec 8)
opaque pairKey : (secret : List (BitVec 8)) → List (BitVec 8)

/-- The link keys that both sides derive from the pair key at a start, which the number stands for: the spec gives no derivation (R549). -/
opaque linkKey : (pairKey : List (BitVec 8)) → Nat → List (BitVec 8)

/-- The ML-KEM-768 secret of a pair handshake, from this side's seed and the partner's key: the spec does not say which side encapsulates (R559). -/
opaque pairSecret : (seed partner : List (BitVec 8)) → List (BitVec 8)

/-- ECDH on P-384 (SP 800-56A): the shared secret of a scalar and a public point. -/
opaque ecdhP384 : (scalar pub : List (BitVec 8)) → List (BitVec 8)

end Sys2Proof.Config
end

