-- ==== Sys2Proof/Machine/Registers.lean ====
section
/-! DEFINITION. Every register of the custody address map (R28) with its address, access code (R8), reset value and writable
bits, one row per register of the spec's register summaries. Registers whose reset value the spec takes from fuses, the keeper
record or a scan are given in State.lean and Base.lean (log entries named there). -/

namespace Sys2Proof.Machine

/-- Who may write a register, as its chapter's fixed rule says (R378): the highest ring number allowed. -/
abbrev RingLimit := Nat

/-- One row of a register summary: name, offset in its block, number of words and their stride, reset value (and the words
whose reset differs), writable bits of each access code of R8, the highest ring that may write it, and its half of a 64-bit
pair (1 low, 2 high, 0 none), whether it is a counter (CTR), and the words of which fewer bits can be written. -/
structure RegRow where
  name : String
  off : Nat
  count : Nat
  stride : Nat
  reset : Word
  resets : List (Nat × Word)
  rw : Word
  rwl : Word
  w1c : Word
  w1s : Word
  wo : Word
  ring : RingLimit
  pair : Nat
  ctr : Bool
  narrow : List (Nat × Word)
  deriving DecidableEq, Repr

/-- A register block: base address, the nested instances (count and stride, widest first), the offset of its LOCK register
if it has one, and its rows. -/
structure RegBlock where
  name : String
  base : Nat
  dims : List (Nat × Nat)
  lock : Option Nat
  rows : List RegRow
  deriving DecidableEq, Repr

namespace Reg

/-- The window of cluster `c`, numbered package-wide (R12, R28). -/
def clusterBase (c : Nat) : Nat := 0x20000000 + c / 16 * 0x4000000 + c % 16 * 0x100000

/-- The window of tile `t` (R28). -/
def tileBase (t : Nat) : Nat := 0x20000000 + t * 0x4000000

/-- The PRT block of port `p` (R12, R28). -/
def portBase (p : Nat) : Nat := clusterBase (p / 8) + 0x10000 * (1 + p % 8)

/-- SYS_ID, RO. -/
def SYS_ID : Nat := 0x10000000
/-- SYS_STEP, RO. -/
def SYS_STEP : Nat := 0x10000004
/-- SYS_ORDER, RO. -/
def SYS_ORDER : Nat := 0x10000008
/-- SYS_MODE, RO. -/
def SYS_MODE : Nat := 0x1000000C
/-- SYS_MODE_REQ, RW. -/
def SYS_MODE_REQ : Nat := 0x10000010
/-- SYS_STATUS, RO. -/
def SYS_STATUS : Nat := 0x10000014
/-- SYS_HOLD, RO. -/
def SYS_HOLD : Nat := 0x10000018
/-- SYS_BOOT_STAGE, RO. -/
def SYS_BOOT_STAGE : Nat := 0x1000001C
/-- SYS_RESET_CAUSE, W1C. -/
def SYS_RESET_CAUSE : Nat := 0x10000020
/-- SYS_RESET_CTL, WO. -/
def SYS_RESET_CTL : Nat := 0x10000024
/-- SYS_LOCKSTEP_CNT, CTR. -/
def SYS_LOCKSTEP_CNT : Nat := 0x10000028
/-- SYS_BOOT_TIME, RO. -/
def SYS_BOOT_TIME : Nat := 0x1000002C
/-- SYS_UPTIME_LO, CTR. -/
def SYS_UPTIME_LO : Nat := 0x10000030
/-- SYS_UPTIME_HI, CTR. -/
def SYS_UPTIME_HI : Nat := 0x10000034
/-- SYS_TNT_MAINT, RO. -/
def SYS_TNT_MAINT (n : Nat) : Nat := 0x10000040 + 0x4 * n
/-- SYS_LOCK, W1S. -/
def SYS_LOCK : Nat := 0x10000080
/-- SYS_SERIAL_LO, RO. -/
def SYS_SERIAL_LO : Nat := 0x10000100
/-- SYS_SERIAL_HI, RO. -/
def SYS_SERIAL_HI : Nat := 0x10000104
/-- GTE_ID, RO. -/
def GTE_ID : Nat := 0x10010000
/-- GTE_STATUS, RO. -/
def GTE_STATUS : Nat := 0x10010004
/-- GTE_SEL, RW. -/
def GTE_SEL : Nat := 0x10010008
/-- GTE_RGN_BASE, RW. -/
def GTE_RGN_BASE : Nat := 0x10010010
/-- GTE_RGN_LIMIT, RW. -/
def GTE_RGN_LIMIT : Nat := 0x10010014
/-- GTE_RGN_ATTR, RW. -/
def GTE_RGN_ATTR : Nat := 0x10010018
/-- GTE_RGN_COLR, RW. -/
def GTE_RGN_COLR : Nat := 0x1001001C
/-- GTE_COMMIT, WO. -/
def GTE_COMMIT : Nat := 0x10010020
/-- GTE_CFG_STAT, RO. -/
def GTE_CFG_STAT : Nat := 0x10010024
/-- GTE_RING_COL, RO, RW. -/
def GTE_RING_COL (n : Nat) : Nat := 0x10010030 + 0x4 * n
/-- GTE_LOCK, W1S. -/
def GTE_LOCK : Nat := 0x10010040
/-- GTE_IRQ_STATUS, W1C. -/
def GTE_IRQ_STATUS : Nat := 0x10010044
/-- GTE_IRQ_EN, RW. -/
def GTE_IRQ_EN : Nat := 0x10010048
/-- GTE_TAG_ADDR_LO, RW. -/
def GTE_TAG_ADDR_LO : Nat := 0x10010050
/-- GTE_TAG_ADDR_HI, RW. -/
def GTE_TAG_ADDR_HI : Nat := 0x10010054
/-- GTE_TAG_LEN, RW. -/
def GTE_TAG_LEN : Nat := 0x10010058
/-- GTE_TAG_CTL, RW. -/
def GTE_TAG_CTL : Nat := 0x1001005C
/-- GTE_TAG_PEEK, RW. -/
def GTE_TAG_PEEK : Nat := 0x10010060
/-- GTE_VIO_COUNT, CTR. -/
def GTE_VIO_COUNT : Nat := 0x10010080
/-- GTE_VIO_LOST, CTR. -/
def GTE_VIO_LOST : Nat := 0x10010084
/-- GTE_VIO_DEPTH, RO. -/
def GTE_VIO_DEPTH : Nat := 0x10010088
/-- GTE_VIO, RO. -/
def GTE_VIO (n : Nat) : Nat := 0x10010090 + 0x4 * n
/-- GTE_GATE_VIO, CTR. -/
def GTE_GATE_VIO (n : Nat) : Nat := 0x10010100 + 0x4 * n
/-- GTE_DPAGE, RW. -/
def GTE_DPAGE (n : Nat) : Nat := 0x10010200 + 0x4 * n
/-- MBX_CTL, RWL. -/
def MBX_CTL : Nat := 0x10020000
/-- MBX_LOCK, W1S. -/
def MBX_LOCK : Nat := 0x10020004
/-- MBX_WDOG, RW. -/
def MBX_WDOG : Nat := 0x10020008
/-- MBX_IDE_REJECT, CTR. -/
def MBX_IDE_REJECT : Nat := 0x1002000C
/-- MBX_HOST_WIDTH, CTR. -/
def MBX_HOST_WIDTH : Nat := 0x10020010
/-- MBX_RECV_SEL, RW. -/
def MBX_RECV_SEL : Nat := 0x10020020
/-- MBX_RECV_LO, RO. -/
def MBX_RECV_LO : Nat := 0x10020024
/-- MBX_RECV_HI, RO. -/
def MBX_RECV_HI : Nat := 0x10020028
/-- MBX_RECV_STAT, RO. -/
def MBX_RECV_STAT : Nat := 0x1002002C
/-- MBX_SEND_SEL, RW. -/
def MBX_SEND_SEL : Nat := 0x10020030
/-- MBX_SEND_SPACE, RO. -/
def MBX_SEND_SPACE : Nat := 0x10020034
/-- MBX_SEND_LO, WO. -/
def MBX_SEND_LO : Nat := 0x10020038
/-- MBX_SEND_HI, WO. -/
def MBX_SEND_HI : Nat := 0x1002003C
/-- MBX_SEND_STAT, W1C. -/
def MBX_SEND_STAT : Nat := 0x10020040
/-- MBX_PEND, RO. -/
def MBX_PEND (n : Nat) : Nat := 0x10020100 + 0x4 * n
/-- MBX_OVR, W1C. -/
def MBX_OVR (n : Nat) : Nat := 0x10020200 + 0x4 * n
/-- MBX_IEN, RW. -/
def MBX_IEN (n : Nat) : Nat := 0x10020300 + 0x4 * n
/-- MBX_BIND_LO, RWL. -/
def MBX_BIND_LO (n : Nat) : Nat := 0x10024000 + 0x8 * n
/-- MBX_BIND_HI, RWL. -/
def MBX_BIND_HI (n : Nat) : Nat := 0x10024004 + 0x8 * n
/-- MBX_DB_SHADOW, RO. -/
def MBX_DB_SHADOW (n : Nat) : Nat := 0x10028000 + 0x4 * n
/-- DIG_ID, RO. -/
def DIG_ID : Nat := 0x10030000
/-- DIG_CTL, RWL. -/
def DIG_CTL : Nat := 0x10030004
/-- DIG_CTX_SEL, RW. -/
def DIG_CTX_SEL : Nat := 0x1003000C
/-- DIG_JOB, RW. -/
def DIG_JOB : Nat := 0x10030010
/-- DIG_JOB_COLOUR, RW. -/
def DIG_JOB_COLOUR : Nat := 0x10030014
/-- DIG_SLOT, RW. -/
def DIG_SLOT : Nat := 0x10030018
/-- DIG_SRC_LO, RW. -/
def DIG_SRC_LO : Nat := 0x10030020
/-- DIG_SRC_HI, RW. -/
def DIG_SRC_HI : Nat := 0x10030024
/-- DIG_LEN, RW. -/
def DIG_LEN : Nat := 0x10030028
/-- DIG_TOTAL_LO, RW. -/
def DIG_TOTAL_LO : Nat := 0x10030030
/-- DIG_TOTAL_HI, RW. -/
def DIG_TOTAL_HI : Nat := 0x10030034
/-- DIG_DONE_LO, RO. -/
def DIG_DONE_LO : Nat := 0x10030038
/-- DIG_DONE_HI, RO. -/
def DIG_DONE_HI : Nat := 0x1003003C
/-- DIG_GO, WO. -/
def DIG_GO : Nat := 0x10030040
/-- DIG_CTX_STAT, RO. -/
def DIG_CTX_STAT : Nat := 0x10030044
/-- DIG_ESC_ADDR_LO, RW. -/
def DIG_ESC_ADDR_LO : Nat := 0x10030050
/-- DIG_ESC_ADDR_HI, RW. -/
def DIG_ESC_ADDR_HI : Nat := 0x10030054
/-- DIG_RESULT, RO. -/
def DIG_RESULT (n : Nat) : Nat := 0x10030080 + 0x4 * n
/-- DIG_EXP, WO. -/
def DIG_EXP (n : Nat) : Nat := 0x100300C0 + 0x4 * n
/-- DIG_CMP, RO. -/
def DIG_CMP : Nat := 0x10030100
/-- DIG_CMP_INV, RO. -/
def DIG_CMP_INV : Nat := 0x10030104
/-- DIG_SNOOP_BASE, RW. -/
def DIG_SNOOP_BASE : Nat := 0x10030118
/-- DIG_SNOOP_LEN, RW. -/
def DIG_SNOOP_LEN : Nat := 0x1003011C
/-- DIG_SNOOP_CTL, RW. -/
def DIG_SNOOP_CTL : Nat := 0x10030120
/-- DIG_LOCK, W1S. -/
def DIG_LOCK : Nat := 0x10030140
/-- DIG_IRQ_STATUS, W1C. -/
def DIG_IRQ_STATUS : Nat := 0x10030144
/-- DIG_IRQ_EN, RW. -/
def DIG_IRQ_EN : Nat := 0x10030148
/-- DIG_MR_SEL, RW. -/
def DIG_MR_SEL : Nat := 0x10030200
/-- DIG_MR_CTL, WO. -/
def DIG_MR_CTL : Nat := 0x10030204
/-- DIG_MR_STAT, RO, W1C. -/
def DIG_MR_STAT : Nat := 0x10030208
/-- DIG_MR_VAL, RO. -/
def DIG_MR_VAL (n : Nat) : Nat := 0x10030210 + 0x4 * n
/-- DIG_MR_DATA, WO. -/
def DIG_MR_DATA (n : Nat) : Nat := 0x10030240 + 0x4 * n
/-- DIG_MR_LOCK, W1S. -/
def DIG_MR_LOCK : Nat := 0x10030280
/-- CPH_ID, RO. -/
def CPH_ID : Nat := 0x10040000
/-- CPH_CTL, RWL. -/
def CPH_CTL : Nat := 0x10040004
/-- CPH_STATUS, RO. -/
def CPH_STATUS : Nat := 0x10040008
/-- CPH_JOB, RW. -/
def CPH_JOB : Nat := 0x1004000C
/-- CPH_SLOT, RW. -/
def CPH_SLOT : Nat := 0x10040010
/-- CPH_COLOUR, RW. -/
def CPH_COLOUR : Nat := 0x10040014
/-- CPH_SRC_LO, RW. -/
def CPH_SRC_LO : Nat := 0x10040018
/-- CPH_SRC_HI, RW. -/
def CPH_SRC_HI : Nat := 0x1004001C
/-- CPH_LEN, RW. -/
def CPH_LEN : Nat := 0x10040020
/-- CPH_GO, WO. -/
def CPH_GO : Nat := 0x10040024
/-- CPH_TAG, RO. -/
def CPH_TAG (n : Nat) : Nat := 0x10040030 + 0x4 * n
/-- CPH_EXP, WO. -/
def CPH_EXP (n : Nat) : Nat := 0x10040040 + 0x4 * n
/-- CPH_CMP, RO. -/
def CPH_CMP : Nat := 0x10040050
/-- CPH_CMP_INV, RO. -/
def CPH_CMP_INV : Nat := 0x10040054
/-- CPH_UTAG, RO. -/
def CPH_UTAG (n : Nat) : Nat := 0x10040058 + 0x4 * n
/-- CPH_UEXP, WO. -/
def CPH_UEXP (n : Nat) : Nat := 0x10040068 + 0x4 * n
/-- CPH_UCMP, RO. -/
def CPH_UCMP : Nat := 0x10040078
/-- CPH_UCMP_INV, RO. -/
def CPH_UCMP_INV : Nat := 0x1004007C
/-- CPH_WKEYA, WO. -/
def CPH_WKEYA (n : Nat) : Nat := 0x10040080 + 0x4 * n
/-- CPH_WKEYB, WO. -/
def CPH_WKEYB (n : Nat) : Nat := 0x100400A0 + 0x4 * n
/-- CPH_WKEY_LIMIT, RW. -/
def CPH_WKEY_LIMIT : Nat := 0x100400C0
/-- CPH_WKEY_USED, RO. -/
def CPH_WKEY_USED : Nat := 0x100400C4
/-- CPH_WKEY_CLR, WO. -/
def CPH_WKEY_CLR : Nat := 0x100400C8
/-- CPH_LOCK, W1S. -/
def CPH_LOCK : Nat := 0x100400E0
/-- CPH_IRQ_STATUS, W1C. -/
def CPH_IRQ_STATUS : Nat := 0x100400E4
/-- CPH_IRQ_EN, RW. -/
def CPH_IRQ_EN : Nat := 0x100400E8
/-- CPH_JOBS, CTR. -/
def CPH_JOBS : Nat := 0x100400F0
/-- CPH_SUSPENDS, CTR. -/
def CPH_SUSPENDS : Nat := 0x100400F4
/-- RNG_ID, RO. -/
def RNG_ID : Nat := 0x10050000
/-- RNG_CTL, RWL. -/
def RNG_CTL : Nat := 0x10050004
/-- RNG_STATUS, RO. -/
def RNG_STATUS : Nat := 0x10050008
/-- RNG_SRC_STAT, RO. -/
def RNG_SRC_STAT : Nat := 0x1005000C
/-- RNG_EST, RO. -/
def RNG_EST (n : Nat) : Nat := 0x10050010 + 0x4 * n
/-- RNG_HCAL, RW. -/
def RNG_HCAL (n : Nat) : Nat := 0x10050020 + 0x4 * n
/-- RNG_RCT_CUT, RW. -/
def RNG_RCT_CUT (n : Nat) : Nat := 0x10050030 + 0x4 * n
/-- RNG_APT_CUT, RW. -/
def RNG_APT_CUT (n : Nat) : Nat := 0x10050040 + 0x4 * n
/-- RNG_BLK_FAIL, CTR. -/
def RNG_BLK_FAIL : Nat := 0x10050050
/-- RNG_RESTARTS, CTR. -/
def RNG_RESTARTS : Nat := 0x10050054
/-- RNG_RESEEDS, CTR. -/
def RNG_RESEEDS : Nat := 0x10050058
/-- RNG_DATA_STAT, RO. -/
def RNG_DATA_STAT : Nat := 0x10050060
/-- RNG_DATA, RO. -/
def RNG_DATA : Nat := 0x10050064
/-- RNG_RESEED, WO. -/
def RNG_RESEED : Nat := 0x10050070
/-- RNG_ADD, WO. -/
def RNG_ADD (n : Nat) : Nat := 0x10050080 + 0x4 * n
/-- RNG_LOCK, W1S. -/
def RNG_LOCK : Nat := 0x100500A0
/-- RNG_IRQ_STATUS, W1C. -/
def RNG_IRQ_STATUS : Nat := 0x100500A4
/-- RNG_IRQ_EN, RW. -/
def RNG_IRQ_EN : Nat := 0x100500A8
/-- PKE_ID, RO. -/
def PKE_ID : Nat := 0x10060000
/-- PKE_CTL, RWL. -/
def PKE_CTL : Nat := 0x10060004
/-- PKE_STATUS, RO. -/
def PKE_STATUS : Nat := 0x10060008
/-- PKE_LOCK, W1S. -/
def PKE_LOCK : Nat := 0x10060040
/-- FSH_ID, RO. -/
def FSH_ID : Nat := 0x10070000
/-- FSH_CTL, RWL. -/
def FSH_CTL : Nat := 0x10070004
/-- FSH_STATUS, RO. -/
def FSH_STATUS : Nat := 0x10070008
/-- FSH_ADDR, RW. -/
def FSH_ADDR : Nat := 0x1007000C
/-- FSH_CMD, WO. -/
def FSH_CMD : Nat := 0x10070010
/-- FSH_RESULT, RO. -/
def FSH_RESULT : Nat := 0x10070014
/-- FSH_INDET_ADDR, RO. -/
def FSH_INDET_ADDR : Nat := 0x10070018
/-- FSH_RUN_US, RO. -/
def FSH_RUN_US : Nat := 0x10070020
/-- FSH_SUSPENDS, CTR. -/
def FSH_SUSPENDS : Nat := 0x10070024
/-- FSH_ECC_CORR, CTR. -/
def FSH_ECC_CORR : Nat := 0x10070028
/-- FSH_ECC_UNCORR, CTR. -/
def FSH_ECC_UNCORR : Nat := 0x1007002C
/-- FSH_WP, RWL. -/
def FSH_WP (n : Nat) : Nat := 0x10070030 + 0x4 * n
/-- FSH_WPSET, W1S. -/
def FSH_WPSET (n : Nat) : Nat := 0x10070050 + 0x4 * n
/-- FSH_INCOMP, RO. -/
def FSH_INCOMP (n : Nat) : Nat := 0x10070070 + 0x4 * n
/-- FSH_BB_SPARES, RO. -/
def FSH_BB_SPARES : Nat := 0x10070090
/-- FSH_BB_GROWN, RO. -/
def FSH_BB_GROWN : Nat := 0x10070094
/-- FSH_BB_SEL, RW. -/
def FSH_BB_SEL : Nat := 0x10070098
/-- FSH_BB_ENTRY, RO. -/
def FSH_BB_ENTRY : Nat := 0x1007009C
/-- FSH_LOCK, W1S. -/
def FSH_LOCK : Nat := 0x100700A0
/-- FSH_IRQ_STATUS, W1C. -/
def FSH_IRQ_STATUS : Nat := 0x100700A4
/-- FSH_IRQ_EN, RW. -/
def FSH_IRQ_EN : Nat := 0x100700A8
/-- FSH_PGBUF, WO. -/
def FSH_PGBUF (n : Nat) : Nat := 0x10070100 + 0x4 * n
/-- LFS_ID, RO. -/
def LFS_ID : Nat := 0x10080000
/-- LFS_CTL, RWL. -/
def LFS_CTL : Nat := 0x10080004
/-- LFS_STATUS, RO. -/
def LFS_STATUS : Nat := 0x10080008
/-- LFS_GEOM, RO. -/
def LFS_GEOM : Nat := 0x1008000C
/-- LFS_GOOD, RO. -/
def LFS_GOOD : Nat := 0x10080010
/-- LFS_FACTORY_BAD, RO. -/
def LFS_FACTORY_BAD : Nat := 0x10080014
/-- LFS_GROWN_BAD, RO. -/
def LFS_GROWN_BAD : Nat := 0x10080018
/-- LFS_BLK_SEL, RW. -/
def LFS_BLK_SEL : Nat := 0x10080020
/-- LFS_BLK_ERASES, RO. -/
def LFS_BLK_ERASES : Nat := 0x10080024
/-- LFS_BLK_INFO, RO. -/
def LFS_BLK_INFO : Nat := 0x10080028
/-- LFS_WEAR_MAX, RO. -/
def LFS_WEAR_MAX : Nat := 0x10080030
/-- LFS_WEAR_MEAN, RO. -/
def LFS_WEAR_MEAN : Nat := 0x10080034
/-- LFS_WEAR_MIN, RO. -/
def LFS_WEAR_MIN : Nat := 0x10080038
/-- LFS_PROG_FAIL, CTR. -/
def LFS_PROG_FAIL : Nat := 0x10080040
/-- LFS_ERASE_FAIL, CTR. -/
def LFS_ERASE_FAIL : Nat := 0x10080044
/-- LFS_ECC_CORR_LO, CTR. -/
def LFS_ECC_CORR_LO : Nat := 0x10080048
/-- LFS_ECC_CORR_HI, CTR. -/
def LFS_ECC_CORR_HI : Nat := 0x1008004C
/-- LFS_ECC_UNCORR, CTR. -/
def LFS_ECC_UNCORR : Nat := 0x10080050
/-- LFS_RELOCS, CTR. -/
def LFS_RELOCS : Nat := 0x10080054
/-- LFS_WEAR_ALARM, RW. -/
def LFS_WEAR_ALARM : Nat := 0x10080060
/-- LFS_BW, RO. -/
def LFS_BW : Nat := 0x10080064
/-- LFS_LOCK, W1S. -/
def LFS_LOCK : Nat := 0x10080070
/-- LFS_IRQ_STATUS, W1C. -/
def LFS_IRQ_STATUS : Nat := 0x10080074
/-- LFS_IRQ_EN, RW. -/
def LFS_IRQ_EN : Nat := 0x10080078
/-- TIM_ID, RO. -/
def TIM_ID : Nat := 0x10090000
/-- TIM_CTL, RWL. -/
def TIM_CTL : Nat := 0x10090004
/-- TIM_STATUS, RO. -/
def TIM_STATUS : Nat := 0x10090008
/-- TIM_NOW_LO, RO. -/
def TIM_NOW_LO : Nat := 0x10090010
/-- TIM_NOW_HI, RO. -/
def TIM_NOW_HI : Nat := 0x10090014
/-- TIM_NEXT_SEC_LO, RW. -/
def TIM_NEXT_SEC_LO : Nat := 0x10090018
/-- TIM_NEXT_SEC_HI, RW. -/
def TIM_NEXT_SEC_HI : Nat := 0x1009001C
/-- TIM_UNC, RO. -/
def TIM_UNC : Nat := 0x10090020
/-- TIM_PHASE, RO. -/
def TIM_PHASE : Nat := 0x10090024
/-- TIM_DRIFT, RW. -/
def TIM_DRIFT : Nat := 0x10090028
/-- TIM_BASE_UNC, RW. -/
def TIM_BASE_UNC : Nat := 0x1009002C
/-- TIM_MAX_UNC, RW. -/
def TIM_MAX_UNC : Nat := 0x10090030
/-- TIM_LAST_PULSE_LO, RO. -/
def TIM_LAST_PULSE_LO : Nat := 0x10090038
/-- TIM_LAST_PULSE_HI, RO. -/
def TIM_LAST_PULSE_HI : Nat := 0x1009003C
/-- TIM_PULSES, CTR. -/
def TIM_PULSES : Nat := 0x10090040
/-- TIM_PULSE_REJ, CTR. -/
def TIM_PULSE_REJ : Nat := 0x10090044
/-- TIM_PULSE_NARROW, CTR. -/
def TIM_PULSE_NARROW : Nat := 0x10090048
/-- TIM_STEPS, CTR. -/
def TIM_STEPS : Nat := 0x1009004C
/-- TIM_LOCK, W1S. -/
def TIM_LOCK : Nat := 0x10090060
/-- TIM_IRQ_STATUS, W1C. -/
def TIM_IRQ_STATUS : Nat := 0x10090064
/-- TIM_IRQ_EN, RW. -/
def TIM_IRQ_EN : Nat := 0x10090068
/-- LDG_ID, RO. -/
def LDG_ID : Nat := 0x100A0000
/-- LDG_CTL, RWL. -/
def LDG_CTL : Nat := 0x100A0004
/-- LDG_STATUS, RO. -/
def LDG_STATUS : Nat := 0x100A0008
/-- LDG_EPOCH_LO, RO. -/
def LDG_EPOCH_LO : Nat := 0x100A0010
/-- LDG_EPOCH_HI, RO. -/
def LDG_EPOCH_HI : Nat := 0x100A0014
/-- LDG_SIGNED_LO, RO. -/
def LDG_SIGNED_LO : Nat := 0x100A0018
/-- LDG_SIGNED_HI, RO. -/
def LDG_SIGNED_HI : Nat := 0x100A001C
/-- LDG_RECSEQ_LO, RO. -/
def LDG_RECSEQ_LO : Nat := 0x100A0020
/-- LDG_RECSEQ_HI, RO. -/
def LDG_RECSEQ_HI : Nat := 0x100A0024
/-- LDG_ACKSEQ_LO, RO. -/
def LDG_ACKSEQ_LO : Nat := 0x100A0028
/-- LDG_ACKSEQ_HI, RO. -/
def LDG_ACKSEQ_HI : Nat := 0x100A002C
/-- LDG_JNL_FILL, RO. -/
def LDG_JNL_FILL : Nat := 0x100A0030
/-- LDG_RCPT_FREE, RO. -/
def LDG_RCPT_FREE : Nat := 0x100A0034
/-- LDG_EVQ_DEPTH, RO. -/
def LDG_EVQ_DEPTH : Nat := 0x100A0038
/-- LDG_EVQ_DROP, CTR. -/
def LDG_EVQ_DROP : Nat := 0x100A003C
/-- LDG_LATE_LEAF, CTR. -/
def LDG_LATE_LEAF : Nat := 0x100A0040
/-- LDG_RCPT_DROP, CTR. -/
def LDG_RCPT_DROP : Nat := 0x100A0044
/-- LDG_SIGN_LAG, RO. -/
def LDG_SIGN_LAG : Nat := 0x100A0048
/-- LDG_TORN, CTR. -/
def LDG_TORN : Nat := 0x100A004C
/-- LDG_LOCK, W1S. -/
def LDG_LOCK : Nat := 0x100A0060
/-- LDG_IRQ_STATUS, W1C. -/
def LDG_IRQ_STATUS : Nat := 0x100A0064
/-- LDG_IRQ_EN, RW. -/
def LDG_IRQ_EN : Nat := 0x100A0068
/-- LDG_RET_LO, RW. -/
def LDG_RET_LO (n : Nat) : Nat := 0x100A1000 + 0x8 * n
/-- LDG_RET_HI, RW. -/
def LDG_RET_HI (n : Nat) : Nat := 0x100A1004 + 0x8 * n
/-- MNT_ID, RO. -/
def MNT_ID : Nat := 0x100B0000
/-- MNT_CTL, RWL. -/
def MNT_CTL : Nat := 0x100B0004
/-- MNT_STATUS, RO. -/
def MNT_STATUS : Nat := 0x100B0008
/-- MNT_L3_QDEPTH, RO. -/
def MNT_L3_QDEPTH : Nat := 0x100B000C
/-- MNT_DERIVES_LO, CTR. -/
def MNT_DERIVES_LO : Nat := 0x100B0010
/-- MNT_DERIVES_HI, CTR. -/
def MNT_DERIVES_HI : Nat := 0x100B0014
/-- MNT_L3_SENT, CTR. -/
def MNT_L3_SENT : Nat := 0x100B0018
/-- MNT_PURGES, CTR. -/
def MNT_PURGES : Nat := 0x100B001C
/-- MNT_GRANTS, CTR. -/
def MNT_GRANTS : Nat := 0x100B0020
/-- MNT_KAT_FAIL, CTR. -/
def MNT_KAT_FAIL : Nat := 0x100B0024
/-- MNT_LOCK, W1S. -/
def MNT_LOCK : Nat := 0x100B0040
/-- MNT_IRQ_STATUS, W1C. -/
def MNT_IRQ_STATUS : Nat := 0x100B0044
/-- MNT_IRQ_EN, RW. -/
def MNT_IRQ_EN : Nat := 0x100B0048
/-- VLT_ID, RO. -/
def VLT_ID : Nat := 0x100C0000
/-- VLT_CTL, RWL. -/
def VLT_CTL : Nat := 0x100C0004
/-- VLT_STATUS, RO. -/
def VLT_STATUS : Nat := 0x100C0008
/-- VLT_SEL, RW. -/
def VLT_SEL : Nat := 0x100C000C
/-- VLT_META, RO. -/
def VLT_META (n : Nat) : Nat := 0x100C0010 + 0x4 * n
/-- VLT_FREE, RO. -/
def VLT_FREE : Nat := 0x100C0030
/-- VLT_REFRESH_ROUNDS, CTR. -/
def VLT_REFRESH_ROUNDS : Nat := 0x100C0034
/-- VLT_STORE_WRITES, CTR. -/
def VLT_STORE_WRITES : Nat := 0x100C0038
/-- VLT_STORE_FAIL, CTR. -/
def VLT_STORE_FAIL : Nat := 0x100C003C
/-- VLT_LOCK, W1S. -/
def VLT_LOCK : Nat := 0x100C0040
/-- VLT_IRQ_STATUS, W1C. -/
def VLT_IRQ_STATUS : Nat := 0x100C0044
/-- VLT_IRQ_EN, RW. -/
def VLT_IRQ_EN : Nat := 0x100C0048
/-- VLT_POOL_LOW, RW. -/
def VLT_POOL_LOW : Nat := 0x100C004C
/-- CRD_ID, RO. -/
def CRD_ID : Nat := 0x100D0000
/-- CRD_CTL, RWL. -/
def CRD_CTL : Nat := 0x100D0004
/-- CRD_STATUS, RO. -/
def CRD_STATUS : Nat := 0x100D0008
/-- CRD_STEP_WAIT, RW. -/
def CRD_STEP_WAIT : Nat := 0x100D0010
/-- CRD_CER_IDLE, RW. -/
def CRD_CER_IDLE : Nat := 0x100D0014
/-- CRD_CER_SERIAL_LO, RO. -/
def CRD_CER_SERIAL_LO : Nat := 0x100D0018
/-- CRD_CER_SERIAL_HI, RO. -/
def CRD_CER_SERIAL_HI : Nat := 0x100D001C
/-- CRD_LOCK, W1S. -/
def CRD_LOCK : Nat := 0x100D0040
/-- CRD_IRQ_STATUS, W1C. -/
def CRD_IRQ_STATUS : Nat := 0x100D0044
/-- CRD_IRQ_EN, RW. -/
def CRD_IRQ_EN : Nat := 0x100D0048
/-- NFR_ID, RO. -/
def NFR_ID : Nat := 0x100E0000
/-- NFR_CTL, RWL. -/
def NFR_CTL : Nat := 0x100E0004
/-- NFR_STATUS, RO. -/
def NFR_STATUS : Nat := 0x100E0008
/-- NFR_POLL, RW. -/
def NFR_POLL : Nat := 0x100E000C
/-- NFR_CAP_THR, RW. -/
def NFR_CAP_THR : Nat := 0x100E0010
/-- NFR_CAP_VAL, RO. -/
def NFR_CAP_VAL : Nat := 0x100E0014
/-- NFR_TXPWR, RW. -/
def NFR_TXPWR : Nat := 0x100E0018
/-- NFR_SEAL_CFG, RW. -/
def NFR_SEAL_CFG : Nat := 0x100E001C
/-- NFR_TEMP_LIM, RW. -/
def NFR_TEMP_LIM : Nat := 0x100E0020
/-- NFR_SEAL_RES, RO. -/
def NFR_SEAL_RES : Nat := 0x100E0024
/-- NFR_SEAL_STAT, RO. -/
def NFR_SEAL_STAT (n : Nat) : Nat := 0x100E0040 + 0x4 * n
/-- NFR_TAG_UNKNOWN, CTR. -/
def NFR_TAG_UNKNOWN : Nat := 0x100E0080
/-- NFR_ROUNDS_RUN, CTR. -/
def NFR_ROUNDS_RUN : Nat := 0x100E0084
/-- NFR_TOK_LOST, CTR. -/
def NFR_TOK_LOST : Nat := 0x100E0088
/-- NFR_LOCK, W1S. -/
def NFR_LOCK : Nat := 0x100E0090
/-- NFR_IRQ_STATUS, W1C. -/
def NFR_IRQ_STATUS : Nat := 0x100E0094
/-- NFR_IRQ_EN, RW. -/
def NFR_IRQ_EN : Nat := 0x100E0098
/-- TPR_ID, RO. -/
def TPR_ID : Nat := 0x100F0000
/-- TPR_CFG, RO. -/
def TPR_CFG : Nat := 0x100F0004
/-- TPR_STATUS, RO. -/
def TPR_STATUS : Nat := 0x100F0008
/-- TPR_RAW, RO. -/
def TPR_RAW : Nat := 0x100F000C
/-- TPR_CONFIRMED, W1C. -/
def TPR_CONFIRMED : Nat := 0x100F0010
/-- TPR_SVC_LEFT, RO. -/
def TPR_SVC_LEFT : Nat := 0x100F0014
/-- TPR_LOOP_DLY, RO. -/
def TPR_LOOP_DLY (n : Nat) : Nat := 0x100F0020 + 0x4 * n
/-- TPR_STAGE, RW. -/
def TPR_STAGE : Nat := 0x100F0030
/-- TPR_COMMIT, WO. -/
def TPR_COMMIT : Nat := 0x100F0034
/-- TPR_ZERO_REQ, WO. -/
def TPR_ZERO_REQ : Nat := 0x100F0038
/-- TPR_LOG_DEPTH, RO. -/
def TPR_LOG_DEPTH : Nat := 0x100F0040
/-- TPR_LOG_SEL, RW. -/
def TPR_LOG_SEL : Nat := 0x100F0044
/-- TPR_LOG, RO. -/
def TPR_LOG (n : Nat) : Nat := 0x100F0048 + 0x4 * n
/-- TPR_LOG_XFER, W1S. -/
def TPR_LOG_XFER : Nat := 0x100F0058
/-- TPR_BIC_FAIL, CTR. -/
def TPR_BIC_FAIL : Nat := 0x100F0060
/-- TPR_GLITCH, CTR. -/
def TPR_GLITCH : Nat := 0x100F0064
/-- TPR_LOCK, W1S. -/
def TPR_LOCK : Nat := 0x100F0070
/-- TPR_IRQ_STATUS, W1C. -/
def TPR_IRQ_STATUS : Nat := 0x100F0074
/-- TPR_IRQ_EN, RW. -/
def TPR_IRQ_EN : Nat := 0x100F0078
/-- TLY_ID, RO. -/
def TLY_ID : Nat := 0x10100000
/-- TLY_GCTL, WO. -/
def TLY_GCTL : Nat := 0x10100004
/-- TLY_STATUS, RO. -/
def TLY_STATUS : Nat := 0x10100008
/-- TLY_SEL, RW. -/
def TLY_SEL (n : Nat) : Nat := 0x10100010 + 0x4 * n
/-- TLY_CNT, CTR. -/
def TLY_CNT (n : Nat) : Nat := 0x10100030 + 0x4 * n
/-- TLY_CLR, WO. -/
def TLY_CLR : Nat := 0x10100050
/-- TLY_OVF, W1C. -/
def TLY_OVF : Nat := 0x10100054
/-- TLY_CL_OVF_SUM_LO, RO. -/
def TLY_CL_OVF_SUM_LO : Nat := 0x10100058
/-- TLY_CL_OVF_SUM_HI, RO. -/
def TLY_CL_OVF_SUM_HI : Nat := 0x1010005C
/-- TLY_LOCK, W1S. -/
def TLY_LOCK : Nat := 0x10100060
/-- TLY_IRQ_STATUS, W1C. -/
def TLY_IRQ_STATUS : Nat := 0x10100064
/-- TLY_IRQ_EN, RW. -/
def TLY_IRQ_EN : Nat := 0x10100068
/-- RPR_ID, RO. -/
def RPR_ID : Nat := 0x10110000
/-- RPR_CTL, RWL. -/
def RPR_CTL : Nat := 0x10110004
/-- RPR_STATUS, RO. -/
def RPR_STATUS : Nat := 0x10110008
/-- RPR_LEND_REQ, WO. -/
def RPR_LEND_REQ : Nat := 0x10110010
/-- RPR_LEND_STAT, RO. -/
def RPR_LEND_STAT : Nat := 0x10110014
/-- RPR_PORT_DIS, RO. -/
def RPR_PORT_DIS (n : Nat) : Nat := 0x10110020 + 0x4 * n
/-- RPR_PKE_OUT, RO. -/
def RPR_PKE_OUT (n : Nat) : Nat := 0x10110040 + 0x4 * n
/-- RPR_MAP_COUNT, RO. -/
def RPR_MAP_COUNT : Nat := 0x1011004C
/-- RPR_TAKEOVERS, CTR. -/
def RPR_TAKEOVERS : Nat := 0x10110050
/-- RPR_BORROWS, CTR. -/
def RPR_BORROWS : Nat := 0x10110054
/-- RPR_DISABLES, CTR. -/
def RPR_DISABLES : Nat := 0x10110058
/-- RPR_LOCK, W1S. -/
def RPR_LOCK : Nat := 0x10110060
/-- RPR_IRQ_STATUS, W1C. -/
def RPR_IRQ_STATUS : Nat := 0x10110064
/-- RPR_IRQ_EN, RW. -/
def RPR_IRQ_EN : Nat := 0x10110068
/-- PAI_ID, RO. -/
def PAI_ID : Nat := 0x10120000
/-- PAI_CTL, RWL. -/
def PAI_CTL : Nat := 0x10120004
/-- PAI_STATUS, RO. -/
def PAI_STATUS : Nat := 0x10120008
/-- PAI_PARTNER_LO, RO. -/
def PAI_PARTNER_LO : Nat := 0x10120010
/-- PAI_PARTNER_HI, RO. -/
def PAI_PARTNER_HI : Nat := 0x10120014
/-- PAI_GUARD, RW. -/
def PAI_GUARD : Nat := 0x10120018
/-- PAI_LEASES_SENT, CTR. -/
def PAI_LEASES_SENT : Nat := 0x10120020
/-- PAI_LINK_DOWNS, CTR. -/
def PAI_LINK_DOWNS : Nat := 0x10120024
/-- PAI_REPL_BACKLOG, RO. -/
def PAI_REPL_BACKLOG : Nat := 0x10120028
/-- PAI_REPL_DROP, CTR. -/
def PAI_REPL_DROP : Nat := 0x1012002C
/-- PAI_LOCK, W1S. -/
def PAI_LOCK : Nat := 0x10120040
/-- PAI_IRQ_STATUS, W1C. -/
def PAI_IRQ_STATUS : Nat := 0x10120044
/-- PAI_IRQ_EN, RW. -/
def PAI_IRQ_EN : Nat := 0x10120048
/-- PAI_TNT, RO. -/
def PAI_TNT (n : Nat) : Nat := 0x10121000 + 0x4 * n
/-- UPD_ID, RO. -/
def UPD_ID : Nat := 0x10130000
/-- UPD_CTL, RWL. -/
def UPD_CTL : Nat := 0x10130004
/-- UPD_BANK, RO. -/
def UPD_BANK : Nat := 0x10130008
/-- UPD_BANK_SET, WO. -/
def UPD_BANK_SET : Nat := 0x1013000C
/-- UPD_ARB, RO. -/
def UPD_ARB (n : Nat) : Nat := 0x10130010 + 0x4 * n
/-- UPD_ARB_BLOW, WO. -/
def UPD_ARB_BLOW : Nat := 0x1013001C
/-- UPD_JOB, RW. -/
def UPD_JOB : Nat := 0x10130020
/-- UPD_COLOUR, RW. -/
def UPD_COLOUR : Nat := 0x10130024
/-- UPD_SRC_LO, RW. -/
def UPD_SRC_LO : Nat := 0x10130028
/-- UPD_SRC_HI, RW. -/
def UPD_SRC_HI : Nat := 0x1013002C
/-- UPD_DST, RW. -/
def UPD_DST : Nat := 0x10130030
/-- UPD_LEN, RW. -/
def UPD_LEN : Nat := 0x10130034
/-- UPD_GO, WO. -/
def UPD_GO : Nat := 0x10130038
/-- UPD_JOB_STAT, RO. -/
def UPD_JOB_STAT : Nat := 0x1013003C
/-- UPD_LOCK, W1S. -/
def UPD_LOCK : Nat := 0x10130040
/-- UPD_IRQ_STATUS, W1C. -/
def UPD_IRQ_STATUS : Nat := 0x10130044
/-- UPD_IRQ_EN, RW. -/
def UPD_IRQ_EN : Nat := 0x10130048
/-- THM_ID, RO. -/
def THM_ID : Nat := 0x10140000
/-- THM_CTL, RWL. -/
def THM_CTL : Nat := 0x10140004
/-- THM_STATUS, RO. -/
def THM_STATUS : Nat := 0x10140008
/-- THM_TJ, RO. -/
def THM_TJ (n : Nat) : Nat := 0x10140010 + 0x4 * n
/-- THM_TJ_SR, RO. -/
def THM_TJ_SR : Nat := 0x10140020
/-- THM_TJ_MIN, RO. -/
def THM_TJ_MIN : Nat := 0x10140024
/-- THM_INLET, RO. -/
def THM_INLET : Nat := 0x10140028
/-- THM_OUTLET, RO. -/
def THM_OUTLET : Nat := 0x1014002C
/-- THM_FLOW, RO. -/
def THM_FLOW : Nat := 0x10140030
/-- THM_TACH, RO. -/
def THM_TACH : Nat := 0x10140034
/-- THM_DUTY, RW. -/
def THM_DUTY : Nat := 0x10140038
/-- THM_TJ_SET, RW. -/
def THM_TJ_SET : Nat := 0x1014003C
/-- THM_TJ_WARN, RW. -/
def THM_TJ_WARN : Nat := 0x10140040
/-- THM_FLOW_K, RW. -/
def THM_FLOW_K : Nat := 0x10140044
/-- THM_KEEP_V, RO. -/
def THM_KEEP_V : Nat := 0x10140050
/-- THM_KEEP_MIN, RO. -/
def THM_KEEP_MIN : Nat := 0x10140054
/-- THM_KEEP_ZTHR, RW. -/
def THM_KEEP_ZTHR : Nat := 0x10140058
/-- THM_KEEP_ZERO, RW. -/
def THM_KEEP_ZERO : Nat := 0x1014005C
/-- THM_KEEP_VFULL, RW. -/
def THM_KEEP_VFULL : Nat := 0x10140060
/-- THM_HOT_HOLDS, CTR. -/
def THM_HOT_HOLDS : Nat := 0x10140070
/-- THM_LOCK, W1S. -/
def THM_LOCK : Nat := 0x10140080
/-- THM_IRQ_STATUS, W1C. -/
def THM_IRQ_STATUS : Nat := 0x10140084
/-- THM_IRQ_EN, RW. -/
def THM_IRQ_EN : Nat := 0x10140088
/-- ALM_ID, RO. -/
def ALM_ID : Nat := 0x10150000
/-- ALM_STATUS, RO. -/
def ALM_STATUS : Nat := 0x10150004
/-- ALM_HEAD, RO. -/
def ALM_HEAD (n : Nat) : Nat := 0x10150010 + 0x4 * n
/-- ALM_FIRST_VALID, RO. -/
def ALM_FIRST_VALID : Nat := 0x10150030
/-- ALM_FIRST_SEL, RW. -/
def ALM_FIRST_SEL : Nat := 0x10150034
/-- ALM_FIRST, RO. -/
def ALM_FIRST (n : Nat) : Nat := 0x10150040 + 0x4 * n
/-- ALM_ACK, W1C. -/
def ALM_ACK : Nat := 0x10150060
/-- ALM_RECORDS, CTR. -/
def ALM_RECORDS : Nat := 0x10150064
/-- ALM_DROP, CTR. -/
def ALM_DROP : Nat := 0x10150068
/-- ALM_LOCK, W1S. -/
def ALM_LOCK : Nat := 0x10150070
/-- ALM_IRQ_STATUS, W1C. -/
def ALM_IRQ_STATUS : Nat := 0x10150074
/-- ALM_IRQ_EN, RW. -/
def ALM_IRQ_EN : Nat := 0x10150078
/-- CUS_ID, RO. -/
def CUS_ID : Nat := 0x10160000
/-- CUS_CTL, RWL. -/
def CUS_CTL : Nat := 0x10160004
/-- CUS_STATUS, RO. -/
def CUS_STATUS : Nat := 0x10160008
/-- CUS_BOOT, W1C. -/
def CUS_BOOT : Nat := 0x1016000C
/-- CUS_LS_TEST, WO. -/
def CUS_LS_TEST : Nat := 0x10160010
/-- CUS_LS_TSTAT, RO. -/
def CUS_LS_TSTAT : Nat := 0x10160014
/-- CUS_LS_LAST_PC, RO. -/
def CUS_LS_LAST_PC : Nat := 0x10160020
/-- CUS_LS_LAST_GRP, RO. -/
def CUS_LS_LAST_GRP : Nat := 0x10160024
/-- CUS_LS_LAST_CYC_LO, RO. -/
def CUS_LS_LAST_CYC_LO : Nat := 0x10160028
/-- CUS_LS_LAST_CYC_HI, RO. -/
def CUS_LS_LAST_CYC_HI : Nat := 0x1016002C
/-- CUS_LS_TOTAL, CTR. -/
def CUS_LS_TOTAL : Nat := 0x10160030
/-- CUS_CYCLE_LO, CTR. -/
def CUS_CYCLE_LO : Nat := 0x10160040
/-- CUS_CYCLE_HI, CTR. -/
def CUS_CYCLE_HI : Nat := 0x10160044
/-- CUS_RETIRED_LO, CTR. -/
def CUS_RETIRED_LO : Nat := 0x10160048
/-- CUS_RETIRED_HI, CTR. -/
def CUS_RETIRED_HI : Nat := 0x1016004C
/-- CUS_STK_BOUND, RW. -/
def CUS_STK_BOUND (n : Nat) : Nat := 0x10160050 + 0x4 * n
/-- CUS_FEAT, RO. -/
def CUS_FEAT (n : Nat) : Nat := 0x10160060 + 0x4 * n
/-- CUS_FP_TRAP, CTR. -/
def CUS_FP_TRAP : Nat := 0x10160080
/-- CUS_UNDEF, CTR. -/
def CUS_UNDEF : Nat := 0x10160084
/-- CUS_LOCK, W1S. -/
def CUS_LOCK : Nat := 0x10160090
/-- PKE_U_JOB, RW. -/
def PKE_U_JOB (u : Nat) : Nat := 0x10061000 + 0x100 * u
/-- PKE_U_GO, WO. -/
def PKE_U_GO (u : Nat) : Nat := 0x10061004 + 0x100 * u
/-- PKE_U_STATUS, RO. -/
def PKE_U_STATUS (u : Nat) : Nat := 0x10061008 + 0x100 * u
/-- PKE_U_KEY, RW. -/
def PKE_U_KEY (u : Nat) : Nat := 0x1006100C + 0x100 * u
/-- PKE_U_OPD, RW. -/
def PKE_U_OPD (u n : Nat) : Nat := 0x10061010 + 0x100 * u + 0x4 * n
/-- PKE_U_LEN, RW. -/
def PKE_U_LEN (u : Nat) : Nat := 0x10061020 + 0x100 * u
/-- PKE_U_COLOUR, RW. -/
def PKE_U_COLOUR (u : Nat) : Nat := 0x10061024 + 0x100 * u
/-- PKE_U_DMA_LO, RW. -/
def PKE_U_DMA_LO (u : Nat) : Nat := 0x10061028 + 0x100 * u
/-- PKE_U_DMA_HI, RW. -/
def PKE_U_DMA_HI (u : Nat) : Nat := 0x1006102C + 0x100 * u
/-- PKE_U_DMA_LEN, RW. -/
def PKE_U_DMA_LEN (u : Nat) : Nat := 0x10061030 + 0x100 * u
/-- PKE_U_VRES, RO. -/
def PKE_U_VRES (u : Nat) : Nat := 0x10061034 + 0x100 * u
/-- PKE_U_VRES_INV, RO. -/
def PKE_U_VRES_INV (u : Nat) : Nat := 0x10061038 + 0x100 * u
/-- PKE_U_LAYOUT, RW. -/
def PKE_U_LAYOUT (u n : Nat) : Nat := 0x10061040 + 0x100 * u + 0x4 * n
/-- PKE_U_NSLOTS, RO. -/
def PKE_U_NSLOTS (u : Nat) : Nat := 0x10061060 + 0x100 * u
/-- PKE_U_IRQ_STATUS, W1C. -/
def PKE_U_IRQ_STATUS (u : Nat) : Nat := 0x10061064 + 0x100 * u
/-- PKE_U_IRQ_EN, RW. -/
def PKE_U_IRQ_EN (u : Nat) : Nat := 0x10061068 + 0x100 * u
/-- PKE_U_OPS, CTR. -/
def PKE_U_OPS (u : Nat) : Nat := 0x10061070 + 0x100 * u
/-- PKE_U_FAULTS, CTR. -/
def PKE_U_FAULTS (u : Nat) : Nat := 0x10061074 + 0x100 * u
/-- PKE_U_ABORTS, CTR. -/
def PKE_U_ABORTS (u : Nat) : Nat := 0x10061078 + 0x100 * u
/-- CRD_S_CTL, RW, W1S. -/
def CRD_S_CTL (u : Nat) : Nat := 0x100D0100 + 0x40 * u
/-- CRD_S_STATUS, RO. -/
def CRD_S_STATUS (u : Nat) : Nat := 0x100D0104 + 0x40 * u
/-- CRD_S_PARAM, RW. -/
def CRD_S_PARAM (u : Nat) : Nat := 0x100D0108 + 0x40 * u
/-- CRD_S_WT, RW. -/
def CRD_S_WT (u : Nat) : Nat := 0x100D010C + 0x40 * u
/-- CRD_S_CWT, RW. -/
def CRD_S_CWT (u : Nat) : Nat := 0x100D0110 + 0x40 * u
/-- CRD_S_TXDATA, WO. -/
def CRD_S_TXDATA (u : Nat) : Nat := 0x100D0114 + 0x40 * u
/-- CRD_S_RXDATA, RO. -/
def CRD_S_RXDATA (u : Nat) : Nat := 0x100D0118 + 0x40 * u
/-- CRD_S_FIFO, RO. -/
def CRD_S_FIFO (u : Nat) : Nat := 0x100D011C + 0x40 * u
/-- CRD_S_REPEATS, CTR. -/
def CRD_S_REPEATS (u : Nat) : Nat := 0x100D0124 + 0x40 * u
/-- CRD_S_TIMEOUTS, CTR. -/
def CRD_S_TIMEOUTS (u : Nat) : Nat := 0x100D0128 + 0x40 * u
/-- CRD_S_ACTIVATIONS, CTR. -/
def CRD_S_ACTIVATIONS (u : Nat) : Nat := 0x100D012C + 0x40 * u
/-- DPL_ID, RO. -/
def DPL_ID (c : Nat) : Nat := clusterBase c + 0x0
/-- DPL_CTL, RWL. -/
def DPL_CTL (c : Nat) : Nat := clusterBase c + 0x4
/-- DPL_SEAL_ENC, RWL. -/
def DPL_SEAL_ENC (c : Nat) : Nat := clusterBase c + 0x8
/-- DPL_STALL, RW. -/
def DPL_STALL (c : Nat) : Nat := clusterBase c + 0xC
/-- DPL_USAGE_MARGIN, RW. -/
def DPL_USAGE_MARGIN (c : Nat) : Nat := clusterBase c + 0x10
/-- DPL_URGENT, RW. -/
def DPL_URGENT (c : Nat) : Nat := clusterBase c + 0x14
/-- DPL_SPARE, RO. -/
def DPL_SPARE (c : Nat) : Nat := clusterBase c + 0x18
/-- DPL_KAT_STATUS, W1C. -/
def DPL_KAT_STATUS (c : Nat) : Nat := clusterBase c + 0x20
/-- DPL_KAT_RUNS, CTR. -/
def DPL_KAT_RUNS (c : Nat) : Nat := clusterBase c + 0x24
/-- DPL_BUF_FREE, RO. -/
def DPL_BUF_FREE (c : Nat) : Nat := clusterBase c + 0x28
/-- DPL_LOCK, W1S. -/
def DPL_LOCK (c : Nat) : Nat := clusterBase c + 0x40
/-- DPL_IRQ_STATUS, W1C. -/
def DPL_IRQ_STATUS (c : Nat) : Nat := clusterBase c + 0x44
/-- DPL_IRQ_EN, RW. -/
def DPL_IRQ_EN (c : Nat) : Nat := clusterBase c + 0x48
/-- PRT_ID, RO. -/
def PRT_ID (p : Nat) : Nat := portBase p + 0x0
/-- PRT_CTL, RW. -/
def PRT_CTL (p : Nat) : Nat := portBase p + 0x4
/-- PRT_STATUS, RO. -/
def PRT_STATUS (p : Nat) : Nat := portBase p + 0x8
/-- PRT_PARTNER, RW. -/
def PRT_PARTNER (p : Nat) : Nat := portBase p + 0xC
/-- PRT_RESET, WO. -/
def PRT_RESET (p : Nat) : Nat := portBase p + 0x10
/-- PRT_ENGINES, RO. -/
def PRT_ENGINES (p : Nat) : Nat := portBase p + 0x14
/-- PRT_TNT_ADMIT, RW. -/
def PRT_TNT_ADMIT (p n : Nat) : Nat := portBase p + 0x20 + 0x4 * n
/-- PRT_RX_FRAMES_LO, CTR. -/
def PRT_RX_FRAMES_LO (p : Nat) : Nat := portBase p + 0x80
/-- PRT_RX_FRAMES_HI, CTR. -/
def PRT_RX_FRAMES_HI (p : Nat) : Nat := portBase p + 0x84
/-- PRT_RX_OCTETS_LO, CTR. -/
def PRT_RX_OCTETS_LO (p : Nat) : Nat := portBase p + 0x88
/-- PRT_RX_OCTETS_HI, CTR. -/
def PRT_RX_OCTETS_HI (p : Nat) : Nat := portBase p + 0x8C
/-- PRT_TX_FRAMES_LO, CTR. -/
def PRT_TX_FRAMES_LO (p : Nat) : Nat := portBase p + 0x90
/-- PRT_TX_FRAMES_HI, CTR. -/
def PRT_TX_FRAMES_HI (p : Nat) : Nat := portBase p + 0x94
/-- PRT_TX_OCTETS_LO, CTR. -/
def PRT_TX_OCTETS_LO (p : Nat) : Nat := portBase p + 0x98
/-- PRT_TX_OCTETS_HI, CTR. -/
def PRT_TX_OCTETS_HI (p : Nat) : Nat := portBase p + 0x9C
/-- PRT_RX_FCS, CTR. -/
def PRT_RX_FCS (p : Nat) : Nat := portBase p + 0x100
/-- PRT_RX_RUNT, CTR. -/
def PRT_RX_RUNT (p : Nat) : Nat := portBase p + 0x104
/-- PRT_RX_GIANT, CTR. -/
def PRT_RX_GIANT (p : Nat) : Nat := portBase p + 0x108
/-- PRT_RX_MACCTL, CTR. -/
def PRT_RX_MACCTL (p : Nat) : Nat := portBase p + 0x10C
/-- PRT_RX_POISONED, CTR. -/
def PRT_RX_POISONED (p : Nat) : Nat := portBase p + 0x110
/-- PRT_RX_NOBUF, CTR. -/
def PRT_RX_NOBUF (p : Nat) : Nat := portBase p + 0x114
/-- PRT_RX_PRERELEASE, CTR. -/
def PRT_RX_PRERELEASE (p : Nat) : Nat := portBase p + 0x118
/-- PRT_RX_NOLINK, CTR. -/
def PRT_RX_NOLINK (p : Nat) : Nat := portBase p + 0x11C
/-- PRT_RX_ENCAP, CTR. -/
def PRT_RX_ENCAP (p : Nat) : Nat := portBase p + 0x120
/-- PRT_RX_UNSEALED, CTR. -/
def PRT_RX_UNSEALED (p : Nat) : Nat := portBase p + 0x124
/-- PRT_RX_HDRCRC, CTR. -/
def PRT_RX_HDRCRC (p : Nat) : Nat := portBase p + 0x128
/-- PRT_RX_HDRFMT, CTR. -/
def PRT_RX_HDRFMT (p : Nat) : Nat := portBase p + 0x12C
/-- PRT_RX_TENANT, CTR. -/
def PRT_RX_TENANT (p : Nat) : Nat := portBase p + 0x130
/-- PRT_RX_MAINT, CTR. -/
def PRT_RX_MAINT (p : Nat) : Nat := portBase p + 0x134
/-- PRT_RX_ACTION, CTR. -/
def PRT_RX_ACTION (p : Nat) : Nat := portBase p + 0x138
/-- PRT_RX_LENGTH, CTR. -/
def PRT_RX_LENGTH (p : Nat) : Nat := portBase p + 0x13C
/-- PRT_RX_TERMINAL, CTR. -/
def PRT_RX_TERMINAL (p : Nat) : Nat := portBase p + 0x140
/-- PRT_RX_QUAR, CTR. -/
def PRT_RX_QUAR (p : Nat) : Nat := portBase p + 0x144
/-- PRT_RX_SETUP, CTR. -/
def PRT_RX_SETUP (p : Nat) : Nat := portBase p + 0x148
/-- PRT_RX_POLICY, CTR. -/
def PRT_RX_POLICY (p : Nat) : Nat := portBase p + 0x14C
/-- PRT_RX_EGRESS, CTR. -/
def PRT_RX_EGRESS (p : Nat) : Nat := portBase p + 0x150
/-- PRT_RX_KEYGEN, CTR. -/
def PRT_RX_KEYGEN (p : Nat) : Nat := portBase p + 0x154
/-- PRT_RX_REPLAY, CTR. -/
def PRT_RX_REPLAY (p : Nat) : Nat := portBase p + 0x158
/-- PRT_RX_USAGE, CTR. -/
def PRT_RX_USAGE (p : Nat) : Nat := portBase p + 0x15C
/-- PRT_RX_GAME, CTR. -/
def PRT_RX_GAME (p : Nat) : Nat := portBase p + 0x160
/-- PRT_RX_TIME, CTR. -/
def PRT_RX_TIME (p : Nat) : Nat := portBase p + 0x164
/-- PRT_RX_CLOSED, CTR. -/
def PRT_RX_CLOSED (p : Nat) : Nat := portBase p + 0x168
/-- PRT_RX_BADTAG, CTR. -/
def PRT_RX_BADTAG (p : Nat) : Nat := portBase p + 0x16C
/-- PRT_RX_FIELD, CTR. -/
def PRT_RX_FIELD (p : Nat) : Nat := portBase p + 0x170
/-- PRT_RX_STALL, CTR. -/
def PRT_RX_STALL (p : Nat) : Nat := portBase p + 0x174
/-- PRT_RX_ENGINE, CTR. -/
def PRT_RX_ENGINE (p : Nat) : Nat := portBase p + 0x178
/-- PRT_RX_NOENGINE, CTR. -/
def PRT_RX_NOENGINE (p : Nat) : Nat := portBase p + 0x17C
/-- PRT_TX_LINKLOST, CTR. -/
def PRT_TX_LINKLOST (p : Nat) : Nat := portBase p + 0x180
/-- PRT_TX_VERDICT_DROP, CTR. -/
def PRT_TX_VERDICT_DROP (p : Nat) : Nat := portBase p + 0x184
/-- PRT_TX_POISONED, CTR. -/
def PRT_TX_POISONED (p : Nat) : Nat := portBase p + 0x188
/-- PRT_TX_QFULL, CTR. -/
def PRT_TX_QFULL (p : Nat) : Nat := portBase p + 0x18C
/-- PRT_TX_UNDERRUN, CTR. -/
def PRT_TX_UNDERRUN (p : Nat) : Nat := portBase p + 0x190
/-- PRT_FEC_CORR, CTR. -/
def PRT_FEC_CORR (p : Nat) : Nat := portBase p + 0x194
/-- PRT_FEC_UNCORR, CTR. -/
def PRT_FEC_UNCORR (p : Nat) : Nat := portBase p + 0x198
/-- FLW_CTL, RWL. -/
def FLW_CTL (c : Nat) : Nat := clusterBase c + 0x90000
/-- FLW_TIMEOUT, RW. -/
def FLW_TIMEOUT (c : Nat) : Nat := clusterBase c + 0x90004
/-- FLW_GRACE, RW. -/
def FLW_GRACE (c : Nat) : Nat := clusterBase c + 0x90008
/-- FLW_QUAR_TAG, RW. -/
def FLW_QUAR_TAG (c : Nat) : Nat := clusterBase c + 0x9000C
/-- FLW_QUAR_REPLAY, RW. -/
def FLW_QUAR_REPLAY (c : Nat) : Nat := clusterBase c + 0x90010
/-- FLW_ACTIVE, RO. -/
def FLW_ACTIVE (c : Nat) : Nat := clusterBase c + 0x90020
/-- FLW_PENDING, RO. -/
def FLW_PENDING (c : Nat) : Nat := clusterBase c + 0x90024
/-- FLW_HITS_LO, CTR. -/
def FLW_HITS_LO (c : Nat) : Nat := clusterBase c + 0x90030
/-- FLW_HITS_HI, CTR. -/
def FLW_HITS_HI (c : Nat) : Nat := clusterBase c + 0x90034
/-- FLW_MISSES_LO, CTR. -/
def FLW_MISSES_LO (c : Nat) : Nat := clusterBase c + 0x90038
/-- FLW_MISSES_HI, CTR. -/
def FLW_MISSES_HI (c : Nat) : Nat := clusterBase c + 0x9003C
/-- FLW_SETUPS, CTR. -/
def FLW_SETUPS (c : Nat) : Nat := clusterBase c + 0x90040
/-- FLW_SETUP_FAIL, CTR. -/
def FLW_SETUP_FAIL (c : Nat) : Nat := clusterBase c + 0x90044
/-- FLW_EVICT_LRU, CTR. -/
def FLW_EVICT_LRU (c : Nat) : Nat := clusterBase c + 0x90048
/-- FLW_EVICT_IDLE, CTR. -/
def FLW_EVICT_IDLE (c : Nat) : Nat := clusterBase c + 0x9004C
/-- FLW_MIGRATE_IN, CTR. -/
def FLW_MIGRATE_IN (c : Nat) : Nat := clusterBase c + 0x90050
/-- FLW_MIGRATE_OUT, CTR. -/
def FLW_MIGRATE_OUT (c : Nat) : Nat := clusterBase c + 0x90054
/-- FLW_PROMOTE, CTR. -/
def FLW_PROMOTE (c : Nat) : Nat := clusterBase c + 0x90058
/-- FLW_REKEY_SENT, CTR. -/
def FLW_REKEY_SENT (c : Nat) : Nat := clusterBase c + 0x9005C
/-- FLW_QUAR_AUTO, CTR. -/
def FLW_QUAR_AUTO (c : Nat) : Nat := clusterBase c + 0x90060
/-- FLW_HELLO, CTR. -/
def FLW_HELLO (c : Nat) : Nat := clusterBase c + 0x90064
/-- FLW_HELLO_DUP, CTR. -/
def FLW_HELLO_DUP (c : Nat) : Nat := clusterBase c + 0x90068
/-- FLW_LOCK, W1S. -/
def FLW_LOCK (c : Nat) : Nat := clusterBase c + 0x90080
/-- FLW_IRQ_STATUS, W1C. -/
def FLW_IRQ_STATUS (c : Nat) : Nat := clusterBase c + 0x90084
/-- FLW_IRQ_EN, RW. -/
def FLW_IRQ_EN (c : Nat) : Nat := clusterBase c + 0x90088
/-- MNT_LM_STATUS, RO. -/
def MNT_LM_STATUS (c : Nat) : Nat := clusterBase c + 0xA0000
/-- MNT_LM_HITS, CTR. -/
def MNT_LM_HITS (c : Nat) : Nat := clusterBase c + 0xA0004
/-- MNT_LM_MISSES, CTR. -/
def MNT_LM_MISSES (c : Nat) : Nat := clusterBase c + 0xA0008
/-- MNT_LM_DERIVES_LO, CTR. -/
def MNT_LM_DERIVES_LO (c : Nat) : Nat := clusterBase c + 0xA0010
/-- MNT_LM_DERIVES_HI, CTR. -/
def MNT_LM_DERIVES_HI (c : Nat) : Nat := clusterBase c + 0xA0014
/-- MNT_LM_GRANT_LEFT, RO. -/
def MNT_LM_GRANT_LEFT (c : Nat) : Nat := clusterBase c + 0xA0018
/-- LDG_CL_LEAVES_LO, CTR. -/
def LDG_CL_LEAVES_LO (c : Nat) : Nat := clusterBase c + 0xB0000
/-- LDG_CL_LEAVES_HI, CTR. -/
def LDG_CL_LEAVES_HI (c : Nat) : Nat := clusterBase c + 0xB0004
/-- LDG_CL_CHUNKS, CTR. -/
def LDG_CL_CHUNKS (c : Nat) : Nat := clusterBase c + 0xB0008
/-- LDG_CL_OPEN, RO. -/
def LDG_CL_OPEN (c : Nat) : Nat := clusterBase c + 0xB000C
/-- LDG_CL_RCPT, CTR. -/
def LDG_CL_RCPT (c : Nat) : Nat := clusterBase c + 0xB0010
/-- LDG_CL_LATE, CTR. -/
def LDG_CL_LATE (c : Nat) : Nat := clusterBase c + 0xB0014
/-- TIM_GT_COUNT, RO. -/
def TIM_GT_COUNT (c : Nat) : Nat := clusterBase c + 0xC0000
/-- TIM_GT_ACT_LO, RW. -/
def TIM_GT_ACT_LO (c : Nat) : Nat := clusterBase c + 0xC0008
/-- TIM_GT_ACT_HI, RW. -/
def TIM_GT_ACT_HI (c : Nat) : Nat := clusterBase c + 0xC000C
/-- TIM_GT_STATUS, RO. -/
def TIM_GT_STATUS (c : Nat) : Nat := clusterBase c + 0xC0010
/-- TIM_GT_ENTRY, RW. -/
def TIM_GT_ENTRY (c n : Nat) : Nat := clusterBase c + 0xC1000 + 0x4 * n
/-- RNG_CL_STATUS, RO. -/
def RNG_CL_STATUS (c : Nat) : Nat := clusterBase c + 0xD0000
/-- RNG_CL_RESEEDS, CTR. -/
def RNG_CL_RESEEDS (c : Nat) : Nat := clusterBase c + 0xD0004
/-- RNG_CL_SINCE, RO. -/
def RNG_CL_SINCE (c : Nat) : Nat := clusterBase c + 0xD0008
/-- TLY_CL_STATUS, RO. -/
def TLY_CL_STATUS (c : Nat) : Nat := clusterBase c + 0xE0000
/-- TLY_CL_SEL, RW. -/
def TLY_CL_SEL (c n : Nat) : Nat := clusterBase c + 0xE0040 + 0x4 * n
/-- TLY_CL_CNT, CTR. -/
def TLY_CL_CNT (c n : Nat) : Nat := clusterBase c + 0xE0080 + 0x4 * n
/-- TLY_CL_CLR, WO. -/
def TLY_CL_CLR (c : Nat) : Nat := clusterBase c + 0xE00C0
/-- TLY_CL_OVF, W1C. -/
def TLY_CL_OVF (c : Nat) : Nat := clusterBase c + 0xE00C4
/-- DPL_FAB_STATUS, RO. -/
def DPL_FAB_STATUS (t : Nat) : Nat := tileBase t + 0x1000000
/-- DPL_FAB_ROUTE, RW. -/
def DPL_FAB_ROUTE (t : Nat) : Nat := tileBase t + 0x1000004
/-- DPL_FAB_RETRAIN, CTR. -/
def DPL_FAB_RETRAIN (t n : Nat) : Nat := tileBase t + 0x1000010 + 0x4 * n
/-- DPL_FAB_DROP, CTR. -/
def DPL_FAB_DROP (t n : Nat) : Nat := tileBase t + 0x1000020 + 0x4 * n
/-- TRM_CTL, RWL. -/
def TRM_CTL (t : Nat) : Nat := tileBase t + 0x1010000
/-- TRM_IMAGE, RO. -/
def TRM_IMAGE (t : Nat) : Nat := tileBase t + 0x1010004
/-- TRM_WB_RATE, RW. -/
def TRM_WB_RATE (t : Nat) : Nat := tileBase t + 0x1010008
/-- TRM_DIRTY, RO. -/
def TRM_DIRTY (t : Nat) : Nat := tileBase t + 0x101000C
/-- TRM_XCHG_DEPTH, RO. -/
def TRM_XCHG_DEPTH (t : Nat) : Nat := tileBase t + 0x1010010
/-- TRM_XCHG_WAIT, RW. -/
def TRM_XCHG_WAIT (t : Nat) : Nat := tileBase t + 0x1010014
/-- TRM_XCHG_DROP, CTR. -/
def TRM_XCHG_DROP (t : Nat) : Nat := tileBase t + 0x1010018
/-- TRM_XCHG_DONE, CTR. -/
def TRM_XCHG_DONE (t : Nat) : Nat := tileBase t + 0x101001C
/-- TRM_XCHG_FAIL, CTR. -/
def TRM_XCHG_FAIL (t : Nat) : Nat := tileBase t + 0x1010020
/-- TRM_MAC_FAIL, CTR. -/
def TRM_MAC_FAIL (t : Nat) : Nat := tileBase t + 0x1010024
/-- TRM_LOADS, CTR. -/
def TRM_LOADS (t : Nat) : Nat := tileBase t + 0x1010028
/-- TRM_IMAGE_LOADS, CTR. -/
def TRM_IMAGE_LOADS (t : Nat) : Nat := tileBase t + 0x101002C
/-- TRM_LOCK, W1S. -/
def TRM_LOCK (t : Nat) : Nat := tileBase t + 0x1010040
/-- TRM_TNT_LO, RW. -/
def TRM_TNT_LO (t n : Nat) : Nat := tileBase t + 0x1011000 + 0x8 * n
/-- TRM_TNT_HI, RW. -/
def TRM_TNT_HI (t n : Nat) : Nat := tileBase t + 0x1011004 + 0x8 * n
/-- TRM_MON_TPL, RW. -/
def TRM_MON_TPL (t n : Nat) : Nat := tileBase t + 0x1014000 + 0x4 * n
/-- LDG_TL_CHUNKS_LO, CTR. -/
def LDG_TL_CHUNKS_LO (t : Nat) : Nat := tileBase t + 0x1020000
/-- LDG_TL_CHUNKS_HI, CTR. -/
def LDG_TL_CHUNKS_HI (t : Nat) : Nat := tileBase t + 0x1020004
/-- LDG_TL_TREES, RO. -/
def LDG_TL_TREES (t : Nat) : Nat := tileBase t + 0x1020008
/-- LDG_TL_CHREC, CTR. -/
def LDG_TL_CHREC (t : Nat) : Nat := tileBase t + 0x102000C
/-- PKE_T_STATUS, RO. -/
def PKE_T_STATUS (t i : Nat) : Nat := tileBase t + 0x1030000 + 0x40 * i
/-- PKE_T_OPS, CTR. -/
def PKE_T_OPS (t i : Nat) : Nat := tileBase t + 0x1030004 + 0x40 * i
/-- PKE_T_FAULTS, CTR. -/
def PKE_T_FAULTS (t i : Nat) : Nat := tileBase t + 0x1030008 + 0x40 * i
/-- PKE_T_VQ_MIN, RW. -/
def PKE_T_VQ_MIN (t i : Nat) : Nat := tileBase t + 0x103000C + 0x40 * i

end Reg

/-- The rows of the SYS block. -/
def rowsSYS : List RegRow := [
  ⟨"SYS_ID", 0x0, 1, 0x4, 0x51250001, [], 0x0, 0x0, 0x0, 0x0, 0x0, 3, 0, false, []⟩,
  ⟨"SYS_STEP", 0x4, 1, 0x4, 0xB0, [], 0x0, 0x0, 0x0, 0x0, 0x0, 3, 0, false, []⟩,
  ⟨"SYS_ORDER", 0x8, 1, 0x4, 0x0, [], 0x0, 0x0, 0x0, 0x0, 0x0, 3, 0, false, []⟩,
  ⟨"SYS_MODE", 0xC, 1, 0x4, 0x0, [], 0x0, 0x0, 0x0, 0x0, 0x0, 3, 0, false, []⟩,
  ⟨"SYS_MODE_REQ", 0x10, 1, 0x4, 0x0, [], 0xFFFFFFFF, 0x0, 0x0, 0x0, 0x0, 0, 0, false, []⟩,
  ⟨"SYS_STATUS", 0x14, 1, 0x4, 0x0, [], 0x0, 0x0, 0x0, 0x0, 0x0, 3, 0, false, []⟩,
  ⟨"SYS_HOLD", 0x18, 1, 0x4, 0x0, [], 0x0, 0x0, 0x0, 0x0, 0x0, 3, 0, false, []⟩,
  ⟨"SYS_BOOT_STAGE", 0x1C, 1, 0x4, 0x0, [], 0x0, 0x0, 0x0, 0x0, 0x0, 3, 0, false, []⟩,
  ⟨"SYS_RESET_CAUSE", 0x20, 1, 0x4, 0x1, [], 0x0, 0x0, 0x17F, 0x0, 0x0, 3, 0, false, []⟩,
  ⟨"SYS_RESET_CTL", 0x24, 1, 0x4, 0x0, [], 0x0, 0x0, 0x0, 0x0, 0xFFFFFFF3, 0, 0, false, []⟩,
  ⟨"SYS_LOCKSTEP_CNT", 0x28, 1, 0x4, 0x0, [], 0x0, 0x0, 0x0, 0x0, 0x0, 3, 0, true, []⟩,
  ⟨"SYS_BOOT_TIME", 0x2C, 1, 0x4, 0x0, [], 0x0, 0x0, 0x0, 0x0, 0x0, 3, 0, false, []⟩,
  ⟨"SYS_UPTIME_LO", 0x30, 1, 0x4, 0x0, [], 0x0, 0x0, 0x0, 0x0, 0x0, 3, 1, true, []⟩,
  ⟨"SYS_UPTIME_HI", 0x34, 1, 0x4, 0x0, [], 0x0, 0x0, 0x0, 0x0, 0x0, 3, 2, true, []⟩,
  ⟨"SYS_TNT_MAINT", 0x40, 16, 0x4, 0x0, [], 0x0, 0x0, 0x0, 0x0, 0x0, 3, 0, false, []⟩,
  ⟨"SYS_LOCK", 0x80, 1, 0x4, 0x0, [], 0x0, 0x0, 0x0, 0x1, 0x0, 3, 0, false, []⟩,
  ⟨"SYS_SERIAL_LO", 0x100, 1, 0x4, 0x0, [], 0x0, 0x0, 0x0, 0x0, 0x0, 3, 1, false, []⟩,
  ⟨"SYS_SERIAL_HI", 0x104, 1, 0x4, 0x0, [], 0x0, 0x0, 0x0, 0x0, 0x0, 3, 2, false, []⟩]

/-- The rows of the GTE block. -/
def rowsGTE : List RegRow := [
  ⟨"GTE_ID", 0x0, 1, 0x4, 0x47540001, [], 0x0, 0x0, 0x0, 0x0, 0x0, 0, 0, false, []⟩,
  ⟨"GTE_STATUS", 0x4, 1, 0x4, 0x0, [], 0x0, 0x0, 0x0, 0x0, 0x0, 0, 0, false, []⟩,
  ⟨"GTE_SEL", 0x8, 1, 0x4, 0x0, [], 0xF3F, 0x0, 0x0, 0x0, 0x0, 0, 0, false, []⟩,
  ⟨"GTE_RGN_BASE", 0x10, 1, 0x4, 0x0, [], 0xFFFFFFFF, 0x0, 0x0, 0x0, 0x0, 0, 0, false, []⟩,
  ⟨"GTE_RGN_LIMIT", 0x14, 1, 0x4, 0x0, [], 0xFFFFFFFF, 0x0, 0x0, 0x0, 0x0, 0, 0, false, []⟩,
  ⟨"GTE_RGN_ATTR", 0x18, 1, 0x4, 0x0, [], 0xFFFFFFF, 0x0, 0x0, 0x0, 0x0, 0, 0, false, []⟩,
  ⟨"GTE_RGN_COLR", 0x1C, 1, 0x4, 0x0, [], 0x7FF03FF, 0x0, 0x0, 0x0, 0x0, 0, 0, false, []⟩,
  ⟨"GTE_COMMIT", 0x20, 1, 0x4, 0x0, [], 0x0, 0x0, 0x0, 0x0, 0x1, 0, 0, false, []⟩,
  ⟨"GTE_CFG_STAT", 0x24, 1, 0x4, 0x0, [], 0x0, 0x0, 0x0, 0x0, 0x0, 0, 0, false, []⟩,
  ⟨"GTE_RING_COL", 0x30, 4, 0x4, 0x0, [(0, 0x3FF), (1, 0x3FE), (2, 0x3FD), (3, 0x3FC)], 0x3FF, 0x0, 0x0, 0x0, 0x0, 0, 0, false, [(0, 0x0)]⟩,
  ⟨"GTE_LOCK", 0x40, 1, 0x4, 0x0, [], 0x0, 0x0, 0x0, 0x1, 0x0, 0, 0, false, []⟩,
  ⟨"GTE_IRQ_STATUS", 0x44, 1, 0x4, 0x0, [], 0x0, 0x0, 0xF, 0x0, 0x0, 0, 0, false, []⟩,
  ⟨"GTE_IRQ_EN", 0x48, 1, 0x4, 0x0, [], 0xF, 0x0, 0x0, 0x0, 0x0, 0, 0, false, []⟩,
  ⟨"GTE_TAG_ADDR_LO", 0x50, 1, 0x4, 0x0, [], 0xFFFFFFFF, 0x0, 0x0, 0x0, 0x0, 0, 1, false, []⟩,
  ⟨"GTE_TAG_ADDR_HI", 0x54, 1, 0x4, 0x0, [], 0xFFFFFFFF, 0x0, 0x0, 0x0, 0x0, 0, 2, false, []⟩,
  ⟨"GTE_TAG_LEN", 0x58, 1, 0x4, 0x0, [], 0x1FFFFFFF, 0x0, 0x0, 0x0, 0x0, 0, 0, false, []⟩,
  ⟨"GTE_TAG_CTL", 0x5C, 1, 0x4, 0x0, [], 0x13FF, 0x0, 0x20000, 0x10000, 0x0, 0, 0, false, []⟩,
  ⟨"GTE_TAG_PEEK", 0x60, 1, 0x4, 0x0, [], 0xFFFFFFFF, 0x0, 0x0, 0x0, 0x0, 0, 0, false, []⟩,
  ⟨"GTE_VIO_COUNT", 0x80, 1, 0x4, 0x0, [], 0x0, 0x0, 0x0, 0x0, 0x0, 0, 0, true, []⟩,
  ⟨"GTE_VIO_LOST", 0x84, 1, 0x4, 0x0, [], 0x0, 0x0, 0x0, 0x0, 0x0, 0, 0, true, []⟩,
  ⟨"GTE_VIO_DEPTH", 0x88, 1, 0x4, 0x0, [], 0x0, 0x0, 0x0, 0x0, 0x0, 0, 0, false, []⟩,
  ⟨"GTE_VIO", 0x90, 4, 0x4, 0x0, [], 0x0, 0x0, 0x0, 0x0, 0x0, 0, 0, false, []⟩,
  ⟨"GTE_GATE_VIO", 0x100, 33, 0x4, 0x0, [], 0x0, 0x0, 0x0, 0x0, 0x0, 0, 0, true, []⟩,
  ⟨"GTE_DPAGE", 0x200, 256, 0x4, 0x0, [], 0x80001FFF, 0x0, 0x0, 0x0, 0x0, 0, 0, false, []⟩]

/-- The rows of the MBX block. -/
def rowsMBX : List RegRow := [
  ⟨"MBX_CTL", 0x0, 1, 0x4, 0x0, [], 0x0, 0x1, 0x0, 0x0, 0x0, 0, 0, false, []⟩,
  ⟨"MBX_LOCK", 0x4, 1, 0x4, 0x0, [], 0x0, 0x0, 0x0, 0x1, 0x0, 0, 0, false, []⟩,
  ⟨"MBX_WDOG", 0x8, 1, 0x4, 0xA, [], 0x3FF, 0x0, 0x0, 0x0, 0x0, 0, 0, false, []⟩,
  ⟨"MBX_IDE_REJECT", 0xC, 1, 0x4, 0x0, [], 0x0, 0x0, 0x0, 0x0, 0x0, 3, 0, true, []⟩,
  ⟨"MBX_HOST_WIDTH", 0x10, 1, 0x4, 0x0, [], 0x0, 0x0, 0x0, 0x0, 0x0, 3, 0, true, []⟩,
  ⟨"MBX_RECV_SEL", 0x20, 1, 0x4, 0x0, [], 0x3FF, 0x0, 0x0, 0x0, 0x0, 3, 0, false, []⟩,
  ⟨"MBX_RECV_LO", 0x24, 1, 0x4, 0x0, [], 0x0, 0x0, 0x0, 0x0, 0x0, 3, 1, false, []⟩,
  ⟨"MBX_RECV_HI", 0x28, 1, 0x4, 0x0, [], 0x0, 0x0, 0x0, 0x0, 0x0, 3, 2, false, []⟩,
  ⟨"MBX_RECV_STAT", 0x2C, 1, 0x4, 0x0, [], 0x0, 0x0, 0x0, 0x0, 0x0, 3, 0, false, []⟩,
  ⟨"MBX_SEND_SEL", 0x30, 1, 0x4, 0x0, [], 0x3FF, 0x0, 0x0, 0x0, 0x0, 3, 0, false, []⟩,
  ⟨"MBX_SEND_SPACE", 0x34, 1, 0x4, 0x8, [], 0x0, 0x0, 0x0, 0x0, 0x0, 3, 0, false, []⟩,
  ⟨"MBX_SEND_LO", 0x38, 1, 0x4, 0x0, [], 0x0, 0x0, 0x0, 0x0, 0xFFFFFFFF, 3, 1, false, []⟩,
  ⟨"MBX_SEND_HI", 0x3C, 1, 0x4, 0x0, [], 0x0, 0x0, 0x0, 0x0, 0xFFFFFFFF, 3, 2, false, []⟩,
  ⟨"MBX_SEND_STAT", 0x40, 1, 0x4, 0x0, [], 0x0, 0x0, 0x1, 0x0, 0x0, 3, 0, false, []⟩,
  ⟨"MBX_PEND", 0x100, 32, 0x4, 0x0, [], 0x0, 0x0, 0x0, 0x0, 0x0, 3, 0, false, []⟩,
  ⟨"MBX_OVR", 0x200, 32, 0x4, 0x0, [], 0x0, 0x0, 0xFFFFFFFF, 0x0, 0x0, 3, 0, false, []⟩,
  ⟨"MBX_IEN", 0x300, 32, 0x4, 0x0, [], 0xFFFFFFFF, 0x0, 0x0, 0x0, 0x0, 3, 0, false, []⟩,
  ⟨"MBX_BIND_LO", 0x4000, 1024, 0x8, 0x0, [], 0x0, 0xFFFFFFFF, 0x0, 0x0, 0x0, 0, 1, false, []⟩,
  ⟨"MBX_BIND_HI", 0x4004, 1024, 0x8, 0x0, [], 0x0, 0x80003FFF, 0x0, 0x0, 0x0, 0, 2, false, []⟩,
  ⟨"MBX_DB_SHADOW", 0x8000, 520, 0x4, 0x0, [], 0x0, 0x0, 0x0, 0x0, 0x0, 3, 0, false, []⟩]

/-- The rows of the DIG block. -/
def rowsDIG : List RegRow := [
  ⟨"DIG_ID", 0x0, 1, 0x4, 0x44470001, [], 0x0, 0x0, 0x0, 0x0, 0x0, 1, 0, false, []⟩,
  ⟨"DIG_CTL", 0x4, 1, 0x4, 0x3, [], 0x0, 0x3, 0x0, 0x0, 0x0, 0, 0, false, []⟩,
  ⟨"DIG_CTX_SEL", 0xC, 1, 0x4, 0x0, [], 0x7, 0x0, 0x0, 0x0, 0x0, 1, 0, false, []⟩,
  ⟨"DIG_JOB", 0x10, 1, 0x4, 0x0, [], 0x3FF, 0x0, 0x0, 0x0, 0x0, 1, 0, false, []⟩,
  ⟨"DIG_JOB_COLOUR", 0x14, 1, 0x4, 0x3FF, [], 0x3FF, 0x0, 0x0, 0x0, 0x0, 1, 0, false, []⟩,
  ⟨"DIG_SLOT", 0x18, 1, 0x4, 0x0, [], 0xFFFFFFFF, 0x0, 0x0, 0x0, 0x0, 1, 0, false, []⟩,
  ⟨"DIG_SRC_LO", 0x20, 1, 0x4, 0x0, [], 0xFFFFFFFF, 0x0, 0x0, 0x0, 0x0, 1, 1, false, []⟩,
  ⟨"DIG_SRC_HI", 0x24, 1, 0x4, 0x0, [], 0xFFFFFFFF, 0x0, 0x0, 0x0, 0x0, 1, 2, false, []⟩,
  ⟨"DIG_LEN", 0x28, 1, 0x4, 0x0, [], 0xFFFFFFFF, 0x0, 0x0, 0x0, 0x0, 1, 0, false, []⟩,
  ⟨"DIG_TOTAL_LO", 0x30, 1, 0x4, 0x0, [], 0xFFFFFFFF, 0x0, 0x0, 0x0, 0x0, 1, 1, false, []⟩,
  ⟨"DIG_TOTAL_HI", 0x34, 1, 0x4, 0x0, [], 0xFFFFFFFF, 0x0, 0x0, 0x0, 0x0, 1, 2, false, []⟩,
  ⟨"DIG_DONE_LO", 0x38, 1, 0x4, 0x0, [], 0x0, 0x0, 0x0, 0x0, 0x0, 1, 1, false, []⟩,
  ⟨"DIG_DONE_HI", 0x3C, 1, 0x4, 0x0, [], 0x0, 0x0, 0x0, 0x0, 0x0, 1, 2, false, []⟩,
  ⟨"DIG_GO", 0x40, 1, 0x4, 0x0, [], 0x0, 0x0, 0x0, 0x0, 0x1F, 1, 0, false, []⟩,
  ⟨"DIG_CTX_STAT", 0x44, 1, 0x4, 0x0, [], 0x0, 0x0, 0x0, 0x0, 0x0, 1, 0, false, []⟩,
  ⟨"DIG_ESC_ADDR_LO", 0x50, 1, 0x4, 0x0, [], 0xFFFFFFFF, 0x0, 0x0, 0x0, 0x0, 1, 1, false, []⟩,
  ⟨"DIG_ESC_ADDR_HI", 0x54, 1, 0x4, 0x0, [], 0xFFFFFFFF, 0x0, 0x0, 0x0, 0x0, 1, 2, false, []⟩,
  ⟨"DIG_RESULT", 0x80, 16, 0x4, 0x0, [], 0x0, 0x0, 0x0, 0x0, 0x0, 1, 0, false, []⟩,
  ⟨"DIG_EXP", 0xC0, 16, 0x4, 0x0, [], 0x0, 0x0, 0x0, 0x0, 0xFFFFFFFF, 1, 0, false, []⟩,
  ⟨"DIG_CMP", 0x100, 1, 0x4, 0x0, [], 0x0, 0x0, 0x0, 0x0, 0x0, 1, 0, false, []⟩,
  ⟨"DIG_CMP_INV", 0x104, 1, 0x4, 0x0, [], 0x0, 0x0, 0x0, 0x0, 0x0, 1, 0, false, []⟩,
  ⟨"DIG_SNOOP_BASE", 0x118, 1, 0x4, 0x0, [], 0xFFFFFFFF, 0x0, 0x0, 0x0, 0x0, 0, 0, false, []⟩,
  ⟨"DIG_SNOOP_LEN", 0x11C, 1, 0x4, 0x0, [], 0x1FFFFFF, 0x0, 0x0, 0x0, 0x0, 0, 0, false, []⟩,
  ⟨"DIG_SNOOP_CTL", 0x120, 1, 0x4, 0x0, [], 0x3FF, 0x0, 0x0, 0x0, 0x0, 0, 0, false, []⟩,
  ⟨"DIG_LOCK", 0x140, 1, 0x4, 0x0, [], 0x0, 0x0, 0x0, 0x1, 0x0, 0, 0, false, []⟩,
  ⟨"DIG_IRQ_STATUS", 0x144, 1, 0x4, 0x0, [], 0x0, 0x0, 0x7FF, 0x0, 0x0, 1, 0, false, []⟩,
  ⟨"DIG_IRQ_EN", 0x148, 1, 0x4, 0x0, [], 0x7FF, 0x0, 0x0, 0x0, 0x0, 1, 0, false, []⟩,
  ⟨"DIG_MR_SEL", 0x200, 1, 0x4, 0x0, [], 0x1F, 0x0, 0x0, 0x0, 0x0, 1, 0, false, []⟩,
  ⟨"DIG_MR_CTL", 0x204, 1, 0x4, 0x0, [], 0x0, 0x0, 0x0, 0x0, 0x7F1F, 1, 0, false, []⟩,
  ⟨"DIG_MR_STAT", 0x208, 1, 0x4, 0x0, [], 0x0, 0x0, 0x2, 0x0, 0x0, 1, 0, false, []⟩,
  ⟨"DIG_MR_VAL", 0x210, 12, 0x4, 0x0, [], 0x0, 0x0, 0x0, 0x0, 0x0, 1, 0, false, []⟩,
  ⟨"DIG_MR_DATA", 0x240, 16, 0x4, 0x0, [], 0x0, 0x0, 0x0, 0x0, 0xFFFFFFFF, 1, 0, false, []⟩,
  ⟨"DIG_MR_LOCK", 0x280, 1, 0x4, 0x0, [], 0x0, 0x0, 0x0, 0x3, 0x0, 0, 0, false, []⟩]

/-- The rows of the CPH block. -/
def rowsCPH : List RegRow := [
  ⟨"CPH_ID", 0x0, 1, 0x4, 0x43500001, [], 0x0, 0x0, 0x0, 0x0, 0x0, 1, 0, false, []⟩,
  ⟨"CPH_CTL", 0x4, 1, 0x4, 0x3, [], 0x0, 0x3, 0x0, 0x0, 0x0, 0, 0, false, []⟩,
  ⟨"CPH_STATUS", 0x8, 1, 0x4, 0x0, [], 0x0, 0x0, 0x0, 0x0, 0x0, 1, 0, false, []⟩,
  ⟨"CPH_JOB", 0xC, 1, 0x4, 0x0, [], 0x3F, 0x0, 0x0, 0x0, 0x0, 1, 0, false, []⟩,
  ⟨"CPH_SLOT", 0x10, 1, 0x4, 0x0, [], 0xFFFFFFFF, 0x0, 0x0, 0x0, 0x0, 1, 0, false, []⟩,
  ⟨"CPH_COLOUR", 0x14, 1, 0x4, 0x3FF, [], 0x3FF, 0x0, 0x0, 0x0, 0x0, 1, 0, false, []⟩,
  ⟨"CPH_SRC_LO", 0x18, 1, 0x4, 0x0, [], 0xFFFFFFFF, 0x0, 0x0, 0x0, 0x0, 1, 1, false, []⟩,
  ⟨"CPH_SRC_HI", 0x1C, 1, 0x4, 0x0, [], 0xFFFFFFFF, 0x0, 0x0, 0x0, 0x0, 1, 2, false, []⟩,
  ⟨"CPH_LEN", 0x20, 1, 0x4, 0x0, [], 0xFFFFFFFF, 0x0, 0x0, 0x0, 0x0, 1, 0, false, []⟩,
  ⟨"CPH_GO", 0x24, 1, 0x4, 0x0, [], 0x0, 0x0, 0x0, 0x0, 0x1, 1, 0, false, []⟩,
  ⟨"CPH_TAG", 0x30, 4, 0x4, 0x0, [], 0x0, 0x0, 0x0, 0x0, 0x0, 1, 0, false, []⟩,
  ⟨"CPH_EXP", 0x40, 4, 0x4, 0x0, [], 0x0, 0x0, 0x0, 0x0, 0xFFFFFFFF, 1, 0, false, []⟩,
  ⟨"CPH_CMP", 0x50, 1, 0x4, 0x0, [], 0x0, 0x0, 0x0, 0x0, 0x0, 1, 0, false, []⟩,
  ⟨"CPH_CMP_INV", 0x54, 1, 0x4, 0x0, [], 0x0, 0x0, 0x0, 0x0, 0x0, 1, 0, false, []⟩,
  ⟨"CPH_UTAG", 0x58, 4, 0x4, 0x0, [], 0x0, 0x0, 0x0, 0x0, 0x0, 1, 0, false, []⟩,
  ⟨"CPH_UEXP", 0x68, 4, 0x4, 0x0, [], 0x0, 0x0, 0x0, 0x0, 0xFFFFFFFF, 1, 0, false, []⟩,
  ⟨"CPH_UCMP", 0x78, 1, 0x4, 0x0, [], 0x0, 0x0, 0x0, 0x0, 0x0, 1, 0, false, []⟩,
  ⟨"CPH_UCMP_INV", 0x7C, 1, 0x4, 0x0, [], 0x0, 0x0, 0x0, 0x0, 0x0, 1, 0, false, []⟩,
  ⟨"CPH_WKEYA", 0x80, 8, 0x4, 0x0, [], 0x0, 0x0, 0x0, 0x0, 0xFFFFFFFF, 0, 0, false, []⟩,
  ⟨"CPH_WKEYB", 0xA0, 8, 0x4, 0x0, [], 0x0, 0x0, 0x0, 0x0, 0xFFFFFFFF, 0, 0, false, []⟩,
  ⟨"CPH_WKEY_LIMIT", 0xC0, 1, 0x4, 0x1, [], 0xFFFF, 0x0, 0x0, 0x0, 0x0, 0, 0, false, []⟩,
  ⟨"CPH_WKEY_USED", 0xC4, 1, 0x4, 0x0, [], 0x0, 0x0, 0x0, 0x0, 0x0, 1, 0, false, []⟩,
  ⟨"CPH_WKEY_CLR", 0xC8, 1, 0x4, 0x0, [], 0x0, 0x0, 0x0, 0x0, 0x1, 0, 0, false, []⟩,
  ⟨"CPH_LOCK", 0xE0, 1, 0x4, 0x0, [], 0x0, 0x0, 0x0, 0x1, 0x0, 0, 0, false, []⟩,
  ⟨"CPH_IRQ_STATUS", 0xE4, 1, 0x4, 0x0, [], 0x0, 0x0, 0x1F, 0x0, 0x0, 1, 0, false, []⟩,
  ⟨"CPH_IRQ_EN", 0xE8, 1, 0x4, 0x0, [], 0x1F, 0x0, 0x0, 0x0, 0x0, 1, 0, false, []⟩,
  ⟨"CPH_JOBS", 0xF0, 1, 0x4, 0x0, [], 0x0, 0x0, 0x0, 0x0, 0x0, 1, 0, true, []⟩,
  ⟨"CPH_SUSPENDS", 0xF4, 1, 0x4, 0x0, [], 0x0, 0x0, 0x0, 0x0, 0x0, 1, 0, true, []⟩]

/-- The rows of the RNG block. -/
def rowsRNG : List RegRow := [
  ⟨"RNG_ID", 0x0, 1, 0x4, 0x524E0001, [], 0x0, 0x0, 0x0, 0x0, 0x0, 1, 0, false, []⟩,
  ⟨"RNG_CTL", 0x4, 1, 0x4, 0x1, [], 0x0, 0x1, 0x0, 0x0, 0x0, 0, 0, false, []⟩,
  ⟨"RNG_STATUS", 0x8, 1, 0x4, 0x0, [], 0x0, 0x0, 0x0, 0x0, 0x0, 1, 0, false, []⟩,
  ⟨"RNG_SRC_STAT", 0xC, 1, 0x4, 0x0, [], 0x0, 0x0, 0x0, 0x0, 0x0, 1, 0, false, []⟩,
  ⟨"RNG_EST", 0x10, 3, 0x4, 0x0, [], 0x0, 0x0, 0x0, 0x0, 0x0, 1, 0, false, []⟩,
  ⟨"RNG_HCAL", 0x20, 3, 0x4, 0x199A, [], 0xFFFF, 0x0, 0x0, 0x0, 0x0, 0, 0, false, []⟩,
  ⟨"RNG_RCT_CUT", 0x30, 3, 0x4, 0x191, [], 0x3FF, 0x0, 0x0, 0x0, 0x0, 0, 0, false, []⟩,
  ⟨"RNG_APT_CUT", 0x40, 3, 0x4, 0x400, [], 0x7FF, 0x0, 0x0, 0x0, 0x0, 0, 0, false, []⟩,
  ⟨"RNG_BLK_FAIL", 0x50, 1, 0x4, 0x0, [], 0x0, 0x0, 0x0, 0x0, 0x0, 1, 0, true, []⟩,
  ⟨"RNG_RESTARTS", 0x54, 1, 0x4, 0x0, [], 0x0, 0x0, 0x0, 0x0, 0x0, 1, 0, true, []⟩,
  ⟨"RNG_RESEEDS", 0x58, 1, 0x4, 0x0, [], 0x0, 0x0, 0x0, 0x0, 0x0, 1, 0, true, []⟩,
  ⟨"RNG_DATA_STAT", 0x60, 1, 0x4, 0x0, [], 0x0, 0x0, 0x0, 0x0, 0x0, 1, 0, false, []⟩,
  ⟨"RNG_DATA", 0x64, 1, 0x4, 0x0, [], 0x0, 0x0, 0x0, 0x0, 0x0, 1, 0, false, []⟩,
  ⟨"RNG_RESEED", 0x70, 1, 0x4, 0x0, [], 0x0, 0x0, 0x0, 0x0, 0x3, 1, 0, false, []⟩,
  ⟨"RNG_ADD", 0x80, 8, 0x4, 0x0, [], 0x0, 0x0, 0x0, 0x0, 0xFFFFFFFF, 1, 0, false, []⟩,
  ⟨"RNG_LOCK", 0xA0, 1, 0x4, 0x0, [], 0x0, 0x0, 0x0, 0x1, 0x0, 0, 0, false, []⟩,
  ⟨"RNG_IRQ_STATUS", 0xA4, 1, 0x4, 0x0, [], 0x0, 0x0, 0x3F, 0x0, 0x0, 1, 0, false, []⟩,
  ⟨"RNG_IRQ_EN", 0xA8, 1, 0x4, 0x0, [], 0x3F, 0x0, 0x0, 0x0, 0x0, 1, 0, false, []⟩]

/-- The rows of the PKE block. -/
def rowsPKE : List RegRow := [
  ⟨"PKE_ID", 0x0, 1, 0x4, 0x504B0001, [], 0x0, 0x0, 0x0, 0x0, 0x0, 1, 0, false, []⟩,
  ⟨"PKE_CTL", 0x4, 1, 0x4, 0xFF, [], 0x0, 0xFF, 0x0, 0x0, 0x0, 0, 0, false, []⟩,
  ⟨"PKE_STATUS", 0x8, 1, 0x4, 0x0, [], 0x0, 0x0, 0x0, 0x0, 0x0, 1, 0, false, []⟩,
  ⟨"PKE_LOCK", 0x40, 1, 0x4, 0x0, [], 0x0, 0x0, 0x0, 0x1, 0x0, 0, 0, false, []⟩]

/-- The rows of the FSH block. -/
def rowsFSH : List RegRow := [
  ⟨"FSH_ID", 0x0, 1, 0x4, 0x46530001, [], 0x0, 0x0, 0x0, 0x0, 0x0, 0, 0, false, []⟩,
  ⟨"FSH_CTL", 0x4, 1, 0x4, 0x2, [], 0x0, 0x3, 0x0, 0x0, 0x0, 0, 0, false, []⟩,
  ⟨"FSH_STATUS", 0x8, 1, 0x4, 0x0, [], 0x0, 0x0, 0x0, 0x0, 0x0, 0, 0, false, []⟩,
  ⟨"FSH_ADDR", 0xC, 1, 0x4, 0x0, [], 0x1FFFFFF, 0x0, 0x0, 0x0, 0x0, 0, 0, false, []⟩,
  ⟨"FSH_CMD", 0x10, 1, 0x4, 0x0, [], 0x0, 0x0, 0x0, 0x0, 0xFFFFFFFF, 0, 0, false, []⟩,
  ⟨"FSH_RESULT", 0x14, 1, 0x4, 0x0, [], 0x0, 0x0, 0x0, 0x0, 0x0, 0, 0, false, []⟩,
  ⟨"FSH_INDET_ADDR", 0x18, 1, 0x4, 0x0, [], 0x0, 0x0, 0x0, 0x0, 0x0, 0, 0, false, []⟩,
  ⟨"FSH_RUN_US", 0x20, 1, 0x4, 0x0, [], 0x0, 0x0, 0x0, 0x0, 0x0, 0, 0, false, []⟩,
  ⟨"FSH_SUSPENDS", 0x24, 1, 0x4, 0x0, [], 0x0, 0x0, 0x0, 0x0, 0x0, 0, 0, true, []⟩,
  ⟨"FSH_ECC_CORR", 0x28, 1, 0x4, 0x0, [], 0x0, 0x0, 0x0, 0x0, 0x0, 0, 0, true, []⟩,
  ⟨"FSH_ECC_UNCORR", 0x2C, 1, 0x4, 0x0, [], 0x0, 0x0, 0x0, 0x0, 0x0, 0, 0, true, []⟩,
  ⟨"FSH_WP", 0x30, 5, 0x4, 0xFFFFFFFF, [(4, 0xFFFF)], 0x0, 0xFFFFFFFF, 0x0, 0x0, 0x0, 0, 0, false, [(4, 0xFFFF)]⟩,
  ⟨"FSH_WPSET", 0x50, 5, 0x4, 0x0, [], 0x0, 0x0, 0x0, 0xFFFFFFFF, 0x0, 0, 0, false, []⟩,
  ⟨"FSH_INCOMP", 0x70, 5, 0x4, 0x0, [], 0x0, 0x0, 0x0, 0x0, 0x0, 0, 0, false, []⟩,
  ⟨"FSH_BB_SPARES", 0x90, 1, 0x4, 0x0, [], 0x0, 0x0, 0x0, 0x0, 0x0, 0, 0, false, []⟩,
  ⟨"FSH_BB_GROWN", 0x94, 1, 0x4, 0x0, [], 0x0, 0x0, 0x0, 0x0, 0x0, 0, 0, false, []⟩,
  ⟨"FSH_BB_SEL", 0x98, 1, 0x4, 0x0, [], 0xFF, 0x0, 0x0, 0x0, 0x0, 0, 0, false, []⟩,
  ⟨"FSH_BB_ENTRY", 0x9C, 1, 0x4, 0x0, [], 0x0, 0x0, 0x0, 0x0, 0x0, 0, 0, false, []⟩,
  ⟨"FSH_LOCK", 0xA0, 1, 0x4, 0x0, [], 0x0, 0x0, 0x0, 0x1, 0x0, 0, 0, false, []⟩,
  ⟨"FSH_IRQ_STATUS", 0xA4, 1, 0x4, 0x0, [], 0x0, 0x0, 0x1F, 0x0, 0x0, 0, 0, false, []⟩,
  ⟨"FSH_IRQ_EN", 0xA8, 1, 0x4, 0x0, [], 0x1F, 0x0, 0x0, 0x0, 0x0, 0, 0, false, []⟩,
  ⟨"FSH_PGBUF", 0x100, 64, 0x4, 0x0, [], 0x0, 0x0, 0x0, 0x0, 0xFFFFFFFF, 0, 0, false, []⟩]

/-- The rows of the LFS block. -/
def rowsLFS : List RegRow := [
  ⟨"LFS_ID", 0x0, 1, 0x4, 0x4C460001, [], 0x0, 0x0, 0x0, 0x0, 0x0, 1, 0, false, []⟩,
  ⟨"LFS_CTL", 0x4, 1, 0x4, 0x3, [], 0x0, 0x3, 0x0, 0x0, 0x0, 0, 0, false, []⟩,
  ⟨"LFS_STATUS", 0x8, 1, 0x4, 0x0, [], 0x0, 0x0, 0x0, 0x0, 0x0, 1, 0, false, []⟩,
  ⟨"LFS_GEOM", 0xC, 1, 0x4, 0x0, [], 0x0, 0x0, 0x0, 0x0, 0x0, 1, 0, false, []⟩,
  ⟨"LFS_GOOD", 0x10, 1, 0x4, 0x0, [], 0x0, 0x0, 0x0, 0x0, 0x0, 1, 0, false, []⟩,
  ⟨"LFS_FACTORY_BAD", 0x14, 1, 0x4, 0x0, [], 0x0, 0x0, 0x0, 0x0, 0x0, 1, 0, false, []⟩,
  ⟨"LFS_GROWN_BAD", 0x18, 1, 0x4, 0x0, [], 0x0, 0x0, 0x0, 0x0, 0x0, 1, 0, false, []⟩,
  ⟨"LFS_BLK_SEL", 0x20, 1, 0x4, 0x0, [], 0x3FFFF, 0x0, 0x0, 0x0, 0x0, 1, 0, false, []⟩,
  ⟨"LFS_BLK_ERASES", 0x24, 1, 0x4, 0x0, [], 0x0, 0x0, 0x0, 0x0, 0x0, 1, 0, false, []⟩,
  ⟨"LFS_BLK_INFO", 0x28, 1, 0x4, 0x0, [], 0x0, 0x0, 0x0, 0x0, 0x0, 1, 0, false, []⟩,
  ⟨"LFS_WEAR_MAX", 0x30, 1, 0x4, 0x0, [], 0x0, 0x0, 0x0, 0x0, 0x0, 1, 0, false, []⟩,
  ⟨"LFS_WEAR_MEAN", 0x34, 1, 0x4, 0x0, [], 0x0, 0x0, 0x0, 0x0, 0x0, 1, 0, false, []⟩,
  ⟨"LFS_WEAR_MIN", 0x38, 1, 0x4, 0x0, [], 0x0, 0x0, 0x0, 0x0, 0x0, 1, 0, false, []⟩,
  ⟨"LFS_PROG_FAIL", 0x40, 1, 0x4, 0x0, [], 0x0, 0x0, 0x0, 0x0, 0x0, 1, 0, true, []⟩,
  ⟨"LFS_ERASE_FAIL", 0x44, 1, 0x4, 0x0, [], 0x0, 0x0, 0x0, 0x0, 0x0, 1, 0, true, []⟩,
  ⟨"LFS_ECC_CORR_LO", 0x48, 1, 0x4, 0x0, [], 0x0, 0x0, 0x0, 0x0, 0x0, 1, 1, true, []⟩,
  ⟨"LFS_ECC_CORR_HI", 0x4C, 1, 0x4, 0x0, [], 0x0, 0x0, 0x0, 0x0, 0x0, 1, 2, true, []⟩,
  ⟨"LFS_ECC_UNCORR", 0x50, 1, 0x4, 0x0, [], 0x0, 0x0, 0x0, 0x0, 0x0, 1, 0, true, []⟩,
  ⟨"LFS_RELOCS", 0x54, 1, 0x4, 0x0, [], 0x0, 0x0, 0x0, 0x0, 0x0, 1, 0, true, []⟩,
  ⟨"LFS_WEAR_ALARM", 0x60, 1, 0x4, 0xA8C, [], 0xFFFF, 0x0, 0x0, 0x0, 0x0, 1, 0, false, []⟩,
  ⟨"LFS_BW", 0x64, 1, 0x4, 0x0, [], 0x0, 0x0, 0x0, 0x0, 0x0, 1, 0, false, []⟩,
  ⟨"LFS_LOCK", 0x70, 1, 0x4, 0x0, [], 0x0, 0x0, 0x0, 0x1, 0x0, 0, 0, false, []⟩,
  ⟨"LFS_IRQ_STATUS", 0x74, 1, 0x4, 0x0, [], 0x0, 0x0, 0x1F, 0x0, 0x0, 1, 0, false, []⟩,
  ⟨"LFS_IRQ_EN", 0x78, 1, 0x4, 0x0, [], 0x1F, 0x0, 0x0, 0x0, 0x0, 1, 0, false, []⟩]

/-- The rows of the TIM block. -/
def rowsTIM : List RegRow := [
  ⟨"TIM_ID", 0x0, 1, 0x4, 0x54490001, [], 0x0, 0x0, 0x0, 0x0, 0x0, 1, 0, false, []⟩,
  ⟨"TIM_CTL", 0x4, 1, 0x4, 0x5, [], 0x0, 0x7, 0x0, 0x0, 0x0, 0, 0, false, []⟩,
  ⟨"TIM_STATUS", 0x8, 1, 0x4, 0x10, [], 0x0, 0x0, 0x0, 0x0, 0x0, 1, 0, false, []⟩,
  ⟨"TIM_NOW_LO", 0x10, 1, 0x4, 0x0, [], 0x0, 0x0, 0x0, 0x0, 0x0, 1, 1, false, []⟩,
  ⟨"TIM_NOW_HI", 0x14, 1, 0x4, 0x0, [], 0x0, 0x0, 0x0, 0x0, 0x0, 1, 2, false, []⟩,
  ⟨"TIM_NEXT_SEC_LO", 0x18, 1, 0x4, 0x0, [], 0xFFFFFFFF, 0x0, 0x0, 0x0, 0x0, 0, 1, false, []⟩,
  ⟨"TIM_NEXT_SEC_HI", 0x1C, 1, 0x4, 0x0, [], 0x3, 0x0, 0x0, 0x0, 0x0, 0, 2, false, []⟩,
  ⟨"TIM_UNC", 0x20, 1, 0x4, 0xFFFFFFFF, [], 0x0, 0x0, 0x0, 0x0, 0x0, 1, 0, false, []⟩,
  ⟨"TIM_PHASE", 0x24, 1, 0x4, 0x0, [], 0x0, 0x0, 0x0, 0x0, 0x0, 1, 0, false, []⟩,
  ⟨"TIM_DRIFT", 0x28, 1, 0x4, 0x2710, [], 0x1FFFF, 0x0, 0x0, 0x0, 0x0, 1, 0, false, []⟩,
  ⟨"TIM_BASE_UNC", 0x2C, 1, 0x4, 0x64, [], 0x1FFFF, 0x0, 0x0, 0x0, 0x0, 1, 0, false, []⟩,
  ⟨"TIM_MAX_UNC", 0x30, 1, 0x4, 0x3E8, [], 0xFFFFF, 0x0, 0x0, 0x0, 0x0, 1, 0, false, []⟩,
  ⟨"TIM_LAST_PULSE_LO", 0x38, 1, 0x4, 0x0, [], 0x0, 0x0, 0x0, 0x0, 0x0, 1, 1, false, []⟩,
  ⟨"TIM_LAST_PULSE_HI", 0x3C, 1, 0x4, 0x0, [], 0x0, 0x0, 0x0, 0x0, 0x0, 1, 2, false, []⟩,
  ⟨"TIM_PULSES", 0x40, 1, 0x4, 0x0, [], 0x0, 0x0, 0x0, 0x0, 0x0, 1, 0, true, []⟩,
  ⟨"TIM_PULSE_REJ", 0x44, 1, 0x4, 0x0, [], 0x0, 0x0, 0x0, 0x0, 0x0, 1, 0, true, []⟩,
  ⟨"TIM_PULSE_NARROW", 0x48, 1, 0x4, 0x0, [], 0x0, 0x0, 0x0, 0x0, 0x0, 1, 0, true, []⟩,
  ⟨"TIM_STEPS", 0x4C, 1, 0x4, 0x0, [], 0x0, 0x0, 0x0, 0x0, 0x0, 1, 0, true, []⟩,
  ⟨"TIM_LOCK", 0x60, 1, 0x4, 0x0, [], 0x0, 0x0, 0x0, 0x1, 0x0, 0, 0, false, []⟩,
  ⟨"TIM_IRQ_STATUS", 0x64, 1, 0x4, 0x0, [], 0x0, 0x0, 0x1F, 0x0, 0x0, 1, 0, false, []⟩,
  ⟨"TIM_IRQ_EN", 0x68, 1, 0x4, 0x0, [], 0x1F, 0x0, 0x0, 0x0, 0x0, 1, 0, false, []⟩]

/-- The rows of the LDG block. -/
def rowsLDG : List RegRow := [
  ⟨"LDG_ID", 0x0, 1, 0x4, 0x4C440001, [], 0x0, 0x0, 0x0, 0x0, 0x0, 1, 0, false, []⟩,
  ⟨"LDG_CTL", 0x4, 1, 0x4, 0x3, [], 0x0, 0x3, 0x0, 0x0, 0x0, 0, 0, false, []⟩,
  ⟨"LDG_STATUS", 0x8, 1, 0x4, 0x0, [], 0x0, 0x0, 0x0, 0x0, 0x0, 1, 0, false, []⟩,
  ⟨"LDG_EPOCH_LO", 0x10, 1, 0x4, 0x0, [], 0x0, 0x0, 0x0, 0x0, 0x0, 1, 1, false, []⟩,
  ⟨"LDG_EPOCH_HI", 0x14, 1, 0x4, 0x0, [], 0x0, 0x0, 0x0, 0x0, 0x0, 1, 2, false, []⟩,
  ⟨"LDG_SIGNED_LO", 0x18, 1, 0x4, 0x0, [], 0x0, 0x0, 0x0, 0x0, 0x0, 1, 1, false, []⟩,
  ⟨"LDG_SIGNED_HI", 0x1C, 1, 0x4, 0x0, [], 0x0, 0x0, 0x0, 0x0, 0x0, 1, 2, false, []⟩,
  ⟨"LDG_RECSEQ_LO", 0x20, 1, 0x4, 0x0, [], 0x0, 0x0, 0x0, 0x0, 0x0, 1, 1, false, []⟩,
  ⟨"LDG_RECSEQ_HI", 0x24, 1, 0x4, 0x0, [], 0x0, 0x0, 0x0, 0x0, 0x0, 1, 2, false, []⟩,
  ⟨"LDG_ACKSEQ_LO", 0x28, 1, 0x4, 0x0, [], 0x0, 0x0, 0x0, 0x0, 0x0, 1, 1, false, []⟩,
  ⟨"LDG_ACKSEQ_HI", 0x2C, 1, 0x4, 0x0, [], 0x0, 0x0, 0x0, 0x0, 0x0, 1, 2, false, []⟩,
  ⟨"LDG_JNL_FILL", 0x30, 1, 0x4, 0x0, [], 0x0, 0x0, 0x0, 0x0, 0x0, 1, 0, false, []⟩,
  ⟨"LDG_RCPT_FREE", 0x34, 1, 0x4, 0x0, [], 0x0, 0x0, 0x0, 0x0, 0x0, 1, 0, false, []⟩,
  ⟨"LDG_EVQ_DEPTH", 0x38, 1, 0x4, 0x0, [], 0x0, 0x0, 0x0, 0x0, 0x0, 1, 0, false, []⟩,
  ⟨"LDG_EVQ_DROP", 0x3C, 1, 0x4, 0x0, [], 0x0, 0x0, 0x0, 0x0, 0x0, 1, 0, true, []⟩,
  ⟨"LDG_LATE_LEAF", 0x40, 1, 0x4, 0x0, [], 0x0, 0x0, 0x0, 0x0, 0x0, 1, 0, true, []⟩,
  ⟨"LDG_RCPT_DROP", 0x44, 1, 0x4, 0x0, [], 0x0, 0x0, 0x0, 0x0, 0x0, 1, 0, true, []⟩,
  ⟨"LDG_SIGN_LAG", 0x48, 1, 0x4, 0x0, [], 0x0, 0x0, 0x0, 0x0, 0x0, 1, 0, false, []⟩,
  ⟨"LDG_TORN", 0x4C, 1, 0x4, 0x0, [], 0x0, 0x0, 0x0, 0x0, 0x0, 1, 0, true, []⟩,
  ⟨"LDG_LOCK", 0x60, 1, 0x4, 0x0, [], 0x0, 0x0, 0x0, 0x1, 0x0, 0, 0, false, []⟩,
  ⟨"LDG_IRQ_STATUS", 0x64, 1, 0x4, 0x0, [], 0x0, 0x0, 0xFF, 0x0, 0x0, 1, 0, false, []⟩,
  ⟨"LDG_IRQ_EN", 0x68, 1, 0x4, 0x0, [], 0xFF, 0x0, 0x0, 0x0, 0x0, 1, 0, false, []⟩,
  ⟨"LDG_RET_LO", 0x1000, 512, 0x8, 0xE, [], 0x1FFFF, 0x0, 0x0, 0x0, 0x0, 1, 1, false, []⟩,
  ⟨"LDG_RET_HI", 0x1004, 512, 0x8, 0x0, [], 0x3FFFF, 0x0, 0x0, 0x0, 0x0, 1, 2, false, []⟩]

/-- The rows of the MNT block. -/
def rowsMNT : List RegRow := [
  ⟨"MNT_ID", 0x0, 1, 0x4, 0x4D4E0001, [], 0x0, 0x0, 0x0, 0x0, 0x0, 1, 0, false, []⟩,
  ⟨"MNT_CTL", 0x4, 1, 0x4, 0x3, [], 0x0, 0x3, 0x0, 0x0, 0x0, 0, 0, false, []⟩,
  ⟨"MNT_STATUS", 0x8, 1, 0x4, 0x0, [], 0x0, 0x0, 0x0, 0x0, 0x0, 1, 0, false, []⟩,
  ⟨"MNT_L3_QDEPTH", 0xC, 1, 0x4, 0x0, [], 0x0, 0x0, 0x0, 0x0, 0x0, 1, 0, false, []⟩,
  ⟨"MNT_DERIVES_LO", 0x10, 1, 0x4, 0x0, [], 0x0, 0x0, 0x0, 0x0, 0x0, 1, 1, true, []⟩,
  ⟨"MNT_DERIVES_HI", 0x14, 1, 0x4, 0x0, [], 0x0, 0x0, 0x0, 0x0, 0x0, 1, 2, true, []⟩,
  ⟨"MNT_L3_SENT", 0x18, 1, 0x4, 0x0, [], 0x0, 0x0, 0x0, 0x0, 0x0, 1, 0, true, []⟩,
  ⟨"MNT_PURGES", 0x1C, 1, 0x4, 0x0, [], 0x0, 0x0, 0x0, 0x0, 0x0, 1, 0, true, []⟩,
  ⟨"MNT_GRANTS", 0x20, 1, 0x4, 0x0, [], 0x0, 0x0, 0x0, 0x0, 0x0, 1, 0, true, []⟩,
  ⟨"MNT_KAT_FAIL", 0x24, 1, 0x4, 0x0, [], 0x0, 0x0, 0x0, 0x0, 0x0, 1, 0, true, []⟩,
  ⟨"MNT_LOCK", 0x40, 1, 0x4, 0x0, [], 0x0, 0x0, 0x0, 0x1, 0x0, 0, 0, false, []⟩,
  ⟨"MNT_IRQ_STATUS", 0x44, 1, 0x4, 0x0, [], 0x0, 0x0, 0x7, 0x0, 0x0, 1, 0, false, []⟩,
  ⟨"MNT_IRQ_EN", 0x48, 1, 0x4, 0x0, [], 0x7, 0x0, 0x0, 0x0, 0x0, 1, 0, false, []⟩]

/-- The rows of the VLT block. -/
def rowsVLT : List RegRow := [
  ⟨"VLT_ID", 0x0, 1, 0x4, 0x564C0001, [], 0x0, 0x0, 0x0, 0x0, 0x0, 1, 0, false, []⟩,
  ⟨"VLT_CTL", 0x4, 1, 0x4, 0x1, [], 0x0, 0x3, 0x0, 0x0, 0x0, 0, 0, false, []⟩,
  ⟨"VLT_STATUS", 0x8, 1, 0x4, 0x0, [], 0x0, 0x0, 0x0, 0x0, 0x0, 1, 0, false, []⟩,
  ⟨"VLT_SEL", 0xC, 1, 0x4, 0x0, [], 0xFFFF, 0x0, 0x0, 0x0, 0x0, 1, 0, false, []⟩,
  ⟨"VLT_META", 0x10, 8, 0x4, 0x0, [], 0x0, 0x0, 0x0, 0x0, 0x0, 1, 0, false, []⟩,
  ⟨"VLT_FREE", 0x30, 1, 0x4, 0xF5B0, [], 0x0, 0x0, 0x0, 0x0, 0x0, 1, 0, false, []⟩,
  ⟨"VLT_REFRESH_ROUNDS", 0x34, 1, 0x4, 0x0, [], 0x0, 0x0, 0x0, 0x0, 0x0, 1, 0, true, []⟩,
  ⟨"VLT_STORE_WRITES", 0x38, 1, 0x4, 0x0, [], 0x0, 0x0, 0x0, 0x0, 0x0, 1, 0, true, []⟩,
  ⟨"VLT_STORE_FAIL", 0x3C, 1, 0x4, 0x0, [], 0x0, 0x0, 0x0, 0x0, 0x0, 1, 0, true, []⟩,
  ⟨"VLT_LOCK", 0x40, 1, 0x4, 0x0, [], 0x0, 0x0, 0x0, 0x1, 0x0, 0, 0, false, []⟩,
  ⟨"VLT_IRQ_STATUS", 0x44, 1, 0x4, 0x0, [], 0x0, 0x0, 0x1F, 0x0, 0x0, 1, 0, false, []⟩,
  ⟨"VLT_IRQ_EN", 0x48, 1, 0x4, 0x0, [], 0x1F, 0x0, 0x0, 0x0, 0x0, 1, 0, false, []⟩,
  ⟨"VLT_POOL_LOW", 0x4C, 1, 0x4, 0x400, [], 0xFFFF, 0x0, 0x0, 0x0, 0x0, 1, 0, false, []⟩]

/-- The rows of the CRD block. -/
def rowsCRD : List RegRow := [
  ⟨"CRD_ID", 0x0, 1, 0x4, 0x43520001, [], 0x0, 0x0, 0x0, 0x0, 0x0, 0, 0, false, []⟩,
  ⟨"CRD_CTL", 0x4, 1, 0x4, 0xF, [], 0x0, 0xF, 0x0, 0x0, 0x0, 0, 0, false, []⟩,
  ⟨"CRD_STATUS", 0x8, 1, 0x4, 0x0, [], 0x0, 0x0, 0x0, 0x0, 0x0, 0, 0, false, []⟩,
  ⟨"CRD_STEP_WAIT", 0x10, 1, 0x4, 0x78, [], 0x3FF, 0x0, 0x0, 0x0, 0x0, 0, 0, false, []⟩,
  ⟨"CRD_CER_IDLE", 0x14, 1, 0x4, 0x708, [], 0x3FFF, 0x0, 0x0, 0x0, 0x0, 0, 0, false, []⟩,
  ⟨"CRD_CER_SERIAL_LO", 0x18, 1, 0x4, 0x0, [], 0x0, 0x0, 0x0, 0x0, 0x0, 0, 1, false, []⟩,
  ⟨"CRD_CER_SERIAL_HI", 0x1C, 1, 0x4, 0x0, [], 0x0, 0x0, 0x0, 0x0, 0x0, 0, 2, false, []⟩,
  ⟨"CRD_LOCK", 0x40, 1, 0x4, 0x0, [], 0x0, 0x0, 0x0, 0x1, 0x0, 0, 0, false, []⟩,
  ⟨"CRD_IRQ_STATUS", 0x44, 1, 0x4, 0x0, [], 0x0, 0x0, 0xFFFF, 0x0, 0x0, 0, 0, false, []⟩,
  ⟨"CRD_IRQ_EN", 0x48, 1, 0x4, 0x0, [], 0xFFFF, 0x0, 0x0, 0x0, 0x0, 0, 0, false, []⟩]

/-- The rows of the NFR block. -/
def rowsNFR : List RegRow := [
  ⟨"NFR_ID", 0x0, 1, 0x4, 0x4E460001, [], 0x0, 0x0, 0x0, 0x0, 0x0, 0, 0, false, []⟩,
  ⟨"NFR_CTL", 0x4, 1, 0x4, 0x7, [], 0x0, 0x7, 0x0, 0x0, 0x0, 0, 0, false, []⟩,
  ⟨"NFR_STATUS", 0x8, 1, 0x4, 0x0, [], 0x0, 0x0, 0x0, 0x0, 0x0, 0, 0, false, []⟩,
  ⟨"NFR_POLL", 0xC, 1, 0x4, 0x1F4, [], 0xFFF, 0x0, 0x0, 0x0, 0x0, 0, 0, false, []⟩,
  ⟨"NFR_CAP_THR", 0x10, 1, 0x4, 0x40, [], 0xFF, 0x0, 0x0, 0x0, 0x0, 0, 0, false, []⟩,
  ⟨"NFR_CAP_VAL", 0x14, 1, 0x4, 0x0, [], 0x0, 0x0, 0x0, 0x0, 0x0, 0, 0, false, []⟩,
  ⟨"NFR_TXPWR", 0x18, 1, 0x4, 0x8, [], 0xF, 0x0, 0x0, 0x0, 0x0, 0, 0, false, []⟩,
  ⟨"NFR_SEAL_CFG", 0x1C, 1, 0x4, 0x3300, [], 0xF71F, 0x0, 0x0, 0x0, 0x0, 0, 0, false, []⟩,
  ⟨"NFR_TEMP_LIM", 0x20, 1, 0x4, 0x78D8, [], 0xFFFF, 0x0, 0x0, 0x0, 0x0, 0, 0, false, []⟩,
  ⟨"NFR_SEAL_RES", 0x24, 1, 0x4, 0x0, [], 0x0, 0x0, 0x0, 0x0, 0x0, 0, 0, false, []⟩,
  ⟨"NFR_SEAL_STAT", 0x40, 16, 0x4, 0x0, [], 0x0, 0x0, 0x0, 0x0, 0x0, 0, 0, false, []⟩,
  ⟨"NFR_TAG_UNKNOWN", 0x80, 1, 0x4, 0x0, [], 0x0, 0x0, 0x0, 0x0, 0x0, 0, 0, true, []⟩,
  ⟨"NFR_ROUNDS_RUN", 0x84, 1, 0x4, 0x0, [], 0x0, 0x0, 0x0, 0x0, 0x0, 0, 0, true, []⟩,
  ⟨"NFR_TOK_LOST", 0x88, 1, 0x4, 0x0, [], 0x0, 0x0, 0x0, 0x0, 0x0, 0, 0, true, []⟩,
  ⟨"NFR_LOCK", 0x90, 1, 0x4, 0x0, [], 0x0, 0x0, 0x0, 0x1, 0x0, 0, 0, false, []⟩,
  ⟨"NFR_IRQ_STATUS", 0x94, 1, 0x4, 0x0, [], 0x0, 0x0, 0x3F, 0x0, 0x0, 0, 0, false, []⟩,
  ⟨"NFR_IRQ_EN", 0x98, 1, 0x4, 0x0, [], 0x3F, 0x0, 0x0, 0x0, 0x0, 0, 0, false, []⟩]

/-- The rows of the TPR block. -/
def rowsTPR : List RegRow := [
  ⟨"TPR_ID", 0x0, 1, 0x4, 0x54500001, [], 0x0, 0x0, 0x0, 0x0, 0x0, 0, 0, false, []⟩,
  ⟨"TPR_CFG", 0x4, 1, 0x4, 0x0, [], 0x0, 0x0, 0x0, 0x0, 0x0, 0, 0, false, []⟩,
  ⟨"TPR_STATUS", 0x8, 1, 0x4, 0x0, [], 0x0, 0x0, 0x0, 0x0, 0x0, 0, 0, false, []⟩,
  ⟨"TPR_RAW", 0xC, 1, 0x4, 0x0, [], 0x0, 0x0, 0x0, 0x0, 0x0, 0, 0, false, []⟩,
  ⟨"TPR_CONFIRMED", 0x10, 1, 0x4, 0x0, [], 0x0, 0x0, 0x1FFE, 0x0, 0x0, 0, 0, false, []⟩,
  ⟨"TPR_SVC_LEFT", 0x14, 1, 0x4, 0x0, [], 0x0, 0x0, 0x0, 0x0, 0x0, 0, 0, false, []⟩,
  ⟨"TPR_LOOP_DLY", 0x20, 4, 0x4, 0x0, [], 0x0, 0x0, 0x0, 0x0, 0x0, 0, 0, false, []⟩,
  ⟨"TPR_STAGE", 0x30, 1, 0x4, 0x0, [], 0xFFFFF, 0x0, 0x0, 0x0, 0x0, 0, 0, false, []⟩,
  ⟨"TPR_COMMIT", 0x34, 1, 0x4, 0x0, [], 0x0, 0x0, 0x0, 0x0, 0xFFFFFF03, 0, 0, false, []⟩,
  ⟨"TPR_ZERO_REQ", 0x38, 1, 0x4, 0x0, [], 0x0, 0x0, 0x0, 0x0, 0xFFFF0000, 0, 0, false, []⟩,
  ⟨"TPR_LOG_DEPTH", 0x40, 1, 0x4, 0x0, [], 0x0, 0x0, 0x0, 0x0, 0x0, 0, 0, false, []⟩,
  ⟨"TPR_LOG_SEL", 0x44, 1, 0x4, 0x0, [], 0x3F, 0x0, 0x0, 0x0, 0x0, 0, 0, false, []⟩,
  ⟨"TPR_LOG", 0x48, 4, 0x4, 0x0, [], 0x0, 0x0, 0x0, 0x0, 0x0, 0, 0, false, []⟩,
  ⟨"TPR_LOG_XFER", 0x58, 1, 0x4, 0x0, [], 0x0, 0x0, 0x0, 0x1, 0x0, 0, 0, false, []⟩,
  ⟨"TPR_BIC_FAIL", 0x60, 1, 0x4, 0x0, [], 0x0, 0x0, 0x0, 0x0, 0x0, 0, 0, true, []⟩,
  ⟨"TPR_GLITCH", 0x64, 1, 0x4, 0x0, [], 0x0, 0x0, 0x0, 0x0, 0x0, 0, 0, true, []⟩,
  ⟨"TPR_LOCK", 0x70, 1, 0x4, 0x0, [], 0x0, 0x0, 0x0, 0x1, 0x0, 0, 0, false, []⟩,
  ⟨"TPR_IRQ_STATUS", 0x74, 1, 0x4, 0x0, [], 0x0, 0x0, 0x1F, 0x0, 0x0, 0, 0, false, []⟩,
  ⟨"TPR_IRQ_EN", 0x78, 1, 0x4, 0x0, [], 0x1F, 0x0, 0x0, 0x0, 0x0, 0, 0, false, []⟩]

/-- The rows of the TLY block. -/
def rowsTLY : List RegRow := [
  ⟨"TLY_ID", 0x0, 1, 0x4, 0x544C0001, [], 0x0, 0x0, 0x0, 0x0, 0x0, 1, 0, false, []⟩,
  ⟨"TLY_GCTL", 0x4, 1, 0x4, 0x0, [], 0x0, 0x0, 0x0, 0x0, 0x3, 1, 0, false, []⟩,
  ⟨"TLY_STATUS", 0x8, 1, 0x4, 0x0, [], 0x0, 0x0, 0x0, 0x0, 0x0, 1, 0, false, []⟩,
  ⟨"TLY_SEL", 0x10, 8, 0x4, 0x0, [], 0x1FFFFFF, 0x0, 0x0, 0x0, 0x0, 1, 0, false, [(0, 0xFFFFFF), (2, 0xFFFFFF), (4, 0xFFFFFF), (6, 0xFFFFFF)]⟩,
  ⟨"TLY_CNT", 0x30, 8, 0x4, 0x0, [], 0x0, 0x0, 0x0, 0x0, 0x0, 1, 0, true, []⟩,
  ⟨"TLY_CLR", 0x50, 1, 0x4, 0x0, [], 0x0, 0x0, 0x0, 0x0, 0xFF, 1, 0, false, []⟩,
  ⟨"TLY_OVF", 0x54, 1, 0x4, 0x0, [], 0x0, 0x0, 0xFF, 0x0, 0x0, 1, 0, false, []⟩,
  ⟨"TLY_CL_OVF_SUM_LO", 0x58, 1, 0x4, 0x0, [], 0x0, 0x0, 0x0, 0x0, 0x0, 1, 1, false, []⟩,
  ⟨"TLY_CL_OVF_SUM_HI", 0x5C, 1, 0x4, 0x0, [], 0x0, 0x0, 0x0, 0x0, 0x0, 1, 2, false, []⟩,
  ⟨"TLY_LOCK", 0x60, 1, 0x4, 0x0, [], 0x0, 0x0, 0x0, 0x1, 0x0, 1, 0, false, []⟩,
  ⟨"TLY_IRQ_STATUS", 0x64, 1, 0x4, 0x0, [], 0x0, 0x0, 0x3, 0x0, 0x0, 1, 0, false, []⟩,
  ⟨"TLY_IRQ_EN", 0x68, 1, 0x4, 0x0, [], 0x3, 0x0, 0x0, 0x0, 0x0, 1, 0, false, []⟩]

/-- The rows of the RPR block. -/
def rowsRPR : List RegRow := [
  ⟨"RPR_ID", 0x0, 1, 0x4, 0x52500001, [], 0x0, 0x0, 0x0, 0x0, 0x0, 0, 0, false, []⟩,
  ⟨"RPR_CTL", 0x4, 1, 0x4, 0x1, [], 0x0, 0x1, 0x0, 0x0, 0x0, 0, 0, false, []⟩,
  ⟨"RPR_STATUS", 0x8, 1, 0x4, 0x0, [], 0x0, 0x0, 0x0, 0x0, 0x0, 0, 0, false, []⟩,
  ⟨"RPR_LEND_REQ", 0x10, 1, 0x4, 0x0, [], 0x0, 0x0, 0x0, 0x0, 0x803F03FF, 0, 0, false, []⟩,
  ⟨"RPR_LEND_STAT", 0x14, 1, 0x4, 0x0, [], 0x0, 0x0, 0x0, 0x0, 0x0, 0, 0, false, []⟩,
  ⟨"RPR_PORT_DIS", 0x20, 8, 0x4, 0x0, [], 0x0, 0x0, 0x0, 0x0, 0x0, 0, 0, false, []⟩,
  ⟨"RPR_PKE_OUT", 0x40, 3, 0x4, 0x0, [], 0x0, 0x0, 0x0, 0x0, 0x0, 0, 0, false, []⟩,
  ⟨"RPR_MAP_COUNT", 0x4C, 1, 0x4, 0x0, [], 0x0, 0x0, 0x0, 0x0, 0x0, 0, 0, false, []⟩,
  ⟨"RPR_TAKEOVERS", 0x50, 1, 0x4, 0x0, [], 0x0, 0x0, 0x0, 0x0, 0x0, 0, 0, true, []⟩,
  ⟨"RPR_BORROWS", 0x54, 1, 0x4, 0x0, [], 0x0, 0x0, 0x0, 0x0, 0x0, 0, 0, true, []⟩,
  ⟨"RPR_DISABLES", 0x58, 1, 0x4, 0x0, [], 0x0, 0x0, 0x0, 0x0, 0x0, 0, 0, true, []⟩,
  ⟨"RPR_LOCK", 0x60, 1, 0x4, 0x0, [], 0x0, 0x0, 0x0, 0x1, 0x0, 0, 0, false, []⟩,
  ⟨"RPR_IRQ_STATUS", 0x64, 1, 0x4, 0x0, [], 0x0, 0x0, 0xF, 0x0, 0x0, 0, 0, false, []⟩,
  ⟨"RPR_IRQ_EN", 0x68, 1, 0x4, 0x0, [], 0xF, 0x0, 0x0, 0x0, 0x0, 0, 0, false, []⟩]

/-- The rows of the PAI block. -/
def rowsPAI : List RegRow := [
  ⟨"PAI_ID", 0x0, 1, 0x4, 0x50410001, [], 0x0, 0x0, 0x0, 0x0, 0x0, 0, 0, false, []⟩,
  ⟨"PAI_CTL", 0x4, 1, 0x4, 0x1, [], 0x0, 0x1, 0x0, 0x0, 0x0, 0, 0, false, []⟩,
  ⟨"PAI_STATUS", 0x8, 1, 0x4, 0x0, [], 0x0, 0x0, 0x0, 0x0, 0x0, 0, 0, false, []⟩,
  ⟨"PAI_PARTNER_LO", 0x10, 1, 0x4, 0x0, [], 0x0, 0x0, 0x0, 0x0, 0x0, 0, 1, false, []⟩,
  ⟨"PAI_PARTNER_HI", 0x14, 1, 0x4, 0x0, [], 0x0, 0x0, 0x0, 0x0, 0x0, 0, 2, false, []⟩,
  ⟨"PAI_GUARD", 0x18, 1, 0x4, 0x3E8, [], 0x3FFF, 0x0, 0x0, 0x0, 0x0, 0, 0, false, []⟩,
  ⟨"PAI_LEASES_SENT", 0x20, 1, 0x4, 0x0, [], 0x0, 0x0, 0x0, 0x0, 0x0, 0, 0, true, []⟩,
  ⟨"PAI_LINK_DOWNS", 0x24, 1, 0x4, 0x0, [], 0x0, 0x0, 0x0, 0x0, 0x0, 0, 0, true, []⟩,
  ⟨"PAI_REPL_BACKLOG", 0x28, 1, 0x4, 0x0, [], 0x0, 0x0, 0x0, 0x0, 0x0, 0, 0, false, []⟩,
  ⟨"PAI_REPL_DROP", 0x2C, 1, 0x4, 0x0, [], 0x0, 0x0, 0x0, 0x0, 0x0, 0, 0, true, []⟩,
  ⟨"PAI_LOCK", 0x40, 1, 0x4, 0x0, [], 0x0, 0x0, 0x0, 0x1, 0x0, 0, 0, false, []⟩,
  ⟨"PAI_IRQ_STATUS", 0x44, 1, 0x4, 0x0, [], 0x0, 0x0, 0x1F, 0x0, 0x0, 0, 0, false, []⟩,
  ⟨"PAI_IRQ_EN", 0x48, 1, 0x4, 0x0, [], 0x1F, 0x0, 0x0, 0x0, 0x0, 0, 0, false, []⟩,
  ⟨"PAI_TNT", 0x1000, 512, 0x4, 0x0, [], 0x0, 0x0, 0x0, 0x0, 0x0, 0, 0, false, []⟩]

/-- The rows of the UPD block. -/
def rowsUPD : List RegRow := [
  ⟨"UPD_ID", 0x0, 1, 0x4, 0x55500001, [], 0x0, 0x0, 0x0, 0x0, 0x0, 0, 0, false, []⟩,
  ⟨"UPD_CTL", 0x4, 1, 0x4, 0x1, [], 0x0, 0x1, 0x0, 0x0, 0x0, 0, 0, false, []⟩,
  ⟨"UPD_BANK", 0x8, 1, 0x4, 0x0, [], 0x0, 0x0, 0x0, 0x0, 0x0, 0, 0, false, []⟩,
  ⟨"UPD_BANK_SET", 0xC, 1, 0x4, 0x0, [], 0x0, 0x0, 0x0, 0x0, 0xFFFF001F, 0, 0, false, []⟩,
  ⟨"UPD_ARB", 0x10, 3, 0x4, 0x0, [], 0x0, 0x0, 0x0, 0x0, 0x0, 0, 0, false, []⟩,
  ⟨"UPD_ARB_BLOW", 0x1C, 1, 0x4, 0x0, [], 0x0, 0x0, 0x0, 0x0, 0xFFFF01FF, 0, 0, false, []⟩,
  ⟨"UPD_JOB", 0x20, 1, 0x4, 0x0, [], 0xF, 0x0, 0x0, 0x0, 0x0, 0, 0, false, []⟩,
  ⟨"UPD_COLOUR", 0x24, 1, 0x4, 0x3FF, [], 0x3FF, 0x0, 0x0, 0x0, 0x0, 0, 0, false, []⟩,
  ⟨"UPD_SRC_LO", 0x28, 1, 0x4, 0x0, [], 0xFFFFFFFF, 0x0, 0x0, 0x0, 0x0, 0, 1, false, []⟩,
  ⟨"UPD_SRC_HI", 0x2C, 1, 0x4, 0x0, [], 0xFFFFFFFF, 0x0, 0x0, 0x0, 0x0, 0, 2, false, []⟩,
  ⟨"UPD_DST", 0x30, 1, 0x4, 0x0, [], 0x1FFFFFF, 0x0, 0x0, 0x0, 0x0, 0, 0, false, []⟩,
  ⟨"UPD_LEN", 0x34, 1, 0x4, 0x0, [], 0x1FFFFF, 0x0, 0x0, 0x0, 0x0, 0, 0, false, []⟩,
  ⟨"UPD_GO", 0x38, 1, 0x4, 0x0, [], 0x0, 0x0, 0x0, 0x0, 0x3, 0, 0, false, []⟩,
  ⟨"UPD_JOB_STAT", 0x3C, 1, 0x4, 0x0, [], 0x0, 0x0, 0x0, 0x0, 0x0, 0, 0, false, []⟩,
  ⟨"UPD_LOCK", 0x40, 1, 0x4, 0x0, [], 0x0, 0x0, 0x0, 0x1, 0x0, 0, 0, false, []⟩,
  ⟨"UPD_IRQ_STATUS", 0x44, 1, 0x4, 0x0, [], 0x0, 0x0, 0x3, 0x0, 0x0, 0, 0, false, []⟩,
  ⟨"UPD_IRQ_EN", 0x48, 1, 0x4, 0x0, [], 0x3, 0x0, 0x0, 0x0, 0x0, 0, 0, false, []⟩]

/-- The rows of the THM block. -/
def rowsTHM : List RegRow := [
  ⟨"THM_ID", 0x0, 1, 0x4, 0x54480001, [], 0x0, 0x0, 0x0, 0x0, 0x0, 1, 0, false, []⟩,
  ⟨"THM_CTL", 0x4, 1, 0x4, 0x1, [], 0x0, 0x1, 0x0, 0x0, 0x0, 0, 0, false, []⟩,
  ⟨"THM_STATUS", 0x8, 1, 0x4, 0x0, [], 0x0, 0x0, 0x0, 0x0, 0x0, 1, 0, false, []⟩,
  ⟨"THM_TJ", 0x10, 4, 0x4, 0x0, [], 0x0, 0x0, 0x0, 0x0, 0x0, 1, 0, false, []⟩,
  ⟨"THM_TJ_SR", 0x20, 1, 0x4, 0x0, [], 0x0, 0x0, 0x0, 0x0, 0x0, 1, 0, false, []⟩,
  ⟨"THM_TJ_MIN", 0x24, 1, 0x4, 0x0, [], 0x0, 0x0, 0x0, 0x0, 0x0, 1, 0, false, []⟩,
  ⟨"THM_INLET", 0x28, 1, 0x4, 0x0, [], 0x0, 0x0, 0x0, 0x0, 0x0, 1, 0, false, []⟩,
  ⟨"THM_OUTLET", 0x2C, 1, 0x4, 0x0, [], 0x0, 0x0, 0x0, 0x0, 0x0, 1, 0, false, []⟩,
  ⟨"THM_FLOW", 0x30, 1, 0x4, 0x0, [], 0x0, 0x0, 0x0, 0x0, 0x0, 1, 0, false, []⟩,
  ⟨"THM_TACH", 0x34, 1, 0x4, 0x0, [], 0x0, 0x0, 0x0, 0x0, 0x0, 1, 0, false, []⟩,
  ⟨"THM_DUTY", 0x38, 1, 0x4, 0x64, [], 0x7F, 0x0, 0x0, 0x0, 0x0, 1, 0, false, []⟩,
  ⟨"THM_TJ_SET", 0x3C, 1, 0x4, 0x4600, [], 0xFFFF, 0x0, 0x0, 0x0, 0x0, 1, 0, false, []⟩,
  ⟨"THM_TJ_WARN", 0x40, 1, 0x4, 0x5F00, [], 0xFFFF, 0x0, 0x0, 0x0, 0x0, 1, 0, false, []⟩,
  ⟨"THM_FLOW_K", 0x44, 1, 0x4, 0x10, [], 0xFFFF, 0x0, 0x0, 0x0, 0x0, 1, 0, false, []⟩,
  ⟨"THM_KEEP_V", 0x50, 1, 0x4, 0x0, [], 0x0, 0x0, 0x0, 0x0, 0x0, 1, 0, false, []⟩,
  ⟨"THM_KEEP_MIN", 0x54, 1, 0x4, 0x0, [], 0x0, 0x0, 0x0, 0x0, 0x0, 1, 0, false, []⟩,
  ⟨"THM_KEEP_ZTHR", 0x58, 1, 0x4, 0x992, [], 0xFFFF, 0x0, 0x0, 0x0, 0x0, 0, 0, false, []⟩,
  ⟨"THM_KEEP_ZERO", 0x5C, 1, 0x4, 0x92E, [], 0xFFFF, 0x0, 0x0, 0x0, 0x0, 0, 0, false, []⟩,
  ⟨"THM_KEEP_VFULL", 0x60, 1, 0x4, 0xD7A, [], 0xFFFF, 0x0, 0x0, 0x0, 0x0, 0, 0, false, []⟩,
  ⟨"THM_HOT_HOLDS", 0x70, 1, 0x4, 0x0, [], 0x0, 0x0, 0x0, 0x0, 0x0, 1, 0, true, []⟩,
  ⟨"THM_LOCK", 0x80, 1, 0x4, 0x0, [], 0x0, 0x0, 0x0, 0x1, 0x0, 0, 0, false, []⟩,
  ⟨"THM_IRQ_STATUS", 0x84, 1, 0x4, 0x0, [], 0x0, 0x0, 0x1F, 0x0, 0x0, 1, 0, false, []⟩,
  ⟨"THM_IRQ_EN", 0x88, 1, 0x4, 0x0, [], 0x1F, 0x0, 0x0, 0x0, 0x0, 1, 0, false, []⟩]

/-- The rows of the ALM block. -/
def rowsALM : List RegRow := [
  ⟨"ALM_ID", 0x0, 1, 0x4, 0x414C0001, [], 0x0, 0x0, 0x0, 0x0, 0x0, 3, 0, false, []⟩,
  ⟨"ALM_STATUS", 0x4, 1, 0x4, 0x0, [], 0x0, 0x0, 0x0, 0x0, 0x0, 3, 0, false, []⟩,
  ⟨"ALM_HEAD", 0x10, 8, 0x4, 0x0, [], 0x0, 0x0, 0x0, 0x0, 0x0, 3, 0, false, []⟩,
  ⟨"ALM_FIRST_VALID", 0x30, 1, 0x4, 0x0, [], 0x0, 0x0, 0x0, 0x0, 0x0, 3, 0, false, []⟩,
  ⟨"ALM_FIRST_SEL", 0x34, 1, 0x4, 0x0, [], 0xF, 0x0, 0x0, 0x0, 0x0, 3, 0, false, []⟩,
  ⟨"ALM_FIRST", 0x40, 8, 0x4, 0x0, [], 0x0, 0x0, 0x0, 0x0, 0x0, 3, 0, false, []⟩,
  ⟨"ALM_ACK", 0x60, 1, 0x4, 0x0, [], 0x0, 0x0, 0xFFFFFFFF, 0x0, 0x0, 0, 0, false, []⟩,
  ⟨"ALM_RECORDS", 0x64, 1, 0x4, 0x0, [], 0x0, 0x0, 0x0, 0x0, 0x0, 3, 0, true, []⟩,
  ⟨"ALM_DROP", 0x68, 1, 0x4, 0x0, [], 0x0, 0x0, 0x0, 0x0, 0x0, 3, 0, true, []⟩,
  ⟨"ALM_LOCK", 0x70, 1, 0x4, 0x0, [], 0x0, 0x0, 0x0, 0x1, 0x0, 3, 0, false, []⟩,
  ⟨"ALM_IRQ_STATUS", 0x74, 1, 0x4, 0x0, [], 0x0, 0x0, 0xF, 0x0, 0x0, 3, 0, false, []⟩,
  ⟨"ALM_IRQ_EN", 0x78, 1, 0x4, 0x0, [], 0xF, 0x0, 0x0, 0x0, 0x0, 3, 0, false, []⟩]

/-- The rows of the CUS block. -/
def rowsCUS : List RegRow := [
  ⟨"CUS_ID", 0x0, 1, 0x4, 0x43550001, [], 0x0, 0x0, 0x0, 0x0, 0x0, 3, 0, false, []⟩,
  ⟨"CUS_CTL", 0x4, 1, 0x4, 0x1, [], 0x0, 0x1, 0x0, 0x0, 0x0, 0, 0, false, []⟩,
  ⟨"CUS_STATUS", 0x8, 1, 0x4, 0x4, [], 0x0, 0x0, 0x0, 0x0, 0x0, 3, 0, false, []⟩,
  ⟨"CUS_BOOT", 0xC, 1, 0x4, 0x1, [], 0x0, 0x0, 0x1, 0x0, 0x0, 0, 0, false, []⟩,
  ⟨"CUS_LS_TEST", 0x10, 1, 0x4, 0x0, [], 0x0, 0x0, 0x0, 0x0, 0xFFFFFFFF, 3, 0, false, []⟩,
  ⟨"CUS_LS_TSTAT", 0x14, 1, 0x4, 0x0, [], 0x0, 0x0, 0x0, 0x0, 0x0, 3, 0, false, []⟩,
  ⟨"CUS_LS_LAST_PC", 0x20, 1, 0x4, 0x0, [], 0x0, 0x0, 0x0, 0x0, 0x0, 3, 0, false, []⟩,
  ⟨"CUS_LS_LAST_GRP", 0x24, 1, 0x4, 0x0, [], 0x0, 0x0, 0x0, 0x0, 0x0, 3, 0, false, []⟩,
  ⟨"CUS_LS_LAST_CYC_LO", 0x28, 1, 0x4, 0x0, [], 0x0, 0x0, 0x0, 0x0, 0x0, 3, 1, false, []⟩,
  ⟨"CUS_LS_LAST_CYC_HI", 0x2C, 1, 0x4, 0x0, [], 0x0, 0x0, 0x0, 0x0, 0x0, 3, 2, false, []⟩,
  ⟨"CUS_LS_TOTAL", 0x30, 1, 0x4, 0x0, [], 0x0, 0x0, 0x0, 0x0, 0x0, 3, 0, true, []⟩,
  ⟨"CUS_CYCLE_LO", 0x40, 1, 0x4, 0x0, [], 0x0, 0x0, 0x0, 0x0, 0x0, 3, 1, true, []⟩,
  ⟨"CUS_CYCLE_HI", 0x44, 1, 0x4, 0x0, [], 0x0, 0x0, 0x0, 0x0, 0x0, 3, 2, true, []⟩,
  ⟨"CUS_RETIRED_LO", 0x48, 1, 0x4, 0x0, [], 0x0, 0x0, 0x0, 0x0, 0x0, 3, 1, true, []⟩,
  ⟨"CUS_RETIRED_HI", 0x4C, 1, 0x4, 0x0, [], 0x0, 0x0, 0x0, 0x0, 0x0, 3, 2, true, []⟩,
  ⟨"CUS_STK_BOUND", 0x50, 4, 0x4, 0x0, [], 0xFFFFFFFC, 0x0, 0x0, 0x0, 0x0, 0, 0, false, []⟩,
  ⟨"CUS_FEAT", 0x60, 8, 0x4, 0x0, [], 0x0, 0x0, 0x0, 0x0, 0x0, 3, 0, false, []⟩,
  ⟨"CUS_FP_TRAP", 0x80, 1, 0x4, 0x0, [], 0x0, 0x0, 0x0, 0x0, 0x0, 3, 0, true, []⟩,
  ⟨"CUS_UNDEF", 0x84, 1, 0x4, 0x0, [], 0x0, 0x0, 0x0, 0x0, 0x0, 3, 0, true, []⟩,
  ⟨"CUS_LOCK", 0x90, 1, 0x4, 0x0, [], 0x0, 0x0, 0x0, 0x1, 0x0, 0, 0, false, []⟩]

/-- The rows of the PKEU block. -/
def rowsPKEU : List RegRow := [
  ⟨"PKE_U_JOB", 0x0, 1, 0x4, 0x0, [], 0x1FFFFFFF, 0x0, 0x0, 0x0, 0x0, 1, 0, false, []⟩,
  ⟨"PKE_U_GO", 0x4, 1, 0x4, 0x0, [], 0x0, 0x0, 0x0, 0x0, 0x3, 1, 0, false, []⟩,
  ⟨"PKE_U_STATUS", 0x8, 1, 0x4, 0x0, [], 0x0, 0x0, 0x0, 0x0, 0x0, 1, 0, false, []⟩,
  ⟨"PKE_U_KEY", 0xC, 1, 0x4, 0x0, [], 0xFFFFFFFF, 0x0, 0x0, 0x0, 0x0, 0, 0, false, []⟩,
  ⟨"PKE_U_OPD", 0x10, 4, 0x4, 0x0, [], 0x3FF03FF, 0x0, 0x0, 0x0, 0x0, 1, 0, false, []⟩,
  ⟨"PKE_U_LEN", 0x20, 1, 0x4, 0x0, [], 0xFFFFFF, 0x0, 0x0, 0x0, 0x0, 1, 0, false, []⟩,
  ⟨"PKE_U_COLOUR", 0x24, 1, 0x4, 0x3FF, [], 0x3FF, 0x0, 0x0, 0x0, 0x0, 1, 0, false, []⟩,
  ⟨"PKE_U_DMA_LO", 0x28, 1, 0x4, 0x0, [], 0xFFFFFFFF, 0x0, 0x0, 0x0, 0x0, 1, 1, false, []⟩,
  ⟨"PKE_U_DMA_HI", 0x2C, 1, 0x4, 0x0, [], 0xFFFFFFFF, 0x0, 0x0, 0x0, 0x0, 1, 2, false, []⟩,
  ⟨"PKE_U_DMA_LEN", 0x30, 1, 0x4, 0x0, [], 0x1FFFF, 0x0, 0x0, 0x0, 0x0, 1, 0, false, []⟩,
  ⟨"PKE_U_VRES", 0x34, 1, 0x4, 0x0, [], 0x0, 0x0, 0x0, 0x0, 0x0, 1, 0, false, []⟩,
  ⟨"PKE_U_VRES_INV", 0x38, 1, 0x4, 0x0, [], 0x0, 0x0, 0x0, 0x0, 0x0, 1, 0, false, []⟩,
  ⟨"PKE_U_LAYOUT", 0x40, 8, 0x4, 0x0, [(0, 0x4080)], 0x7FFFF, 0x0, 0x0, 0x0, 0x0, 0, 0, false, []⟩,
  ⟨"PKE_U_NSLOTS", 0x60, 1, 0x4, 0x40, [], 0x0, 0x0, 0x0, 0x0, 0x0, 1, 0, false, []⟩,
  ⟨"PKE_U_IRQ_STATUS", 0x64, 1, 0x4, 0x0, [], 0x0, 0x0, 0xF, 0x0, 0x0, 1, 0, false, []⟩,
  ⟨"PKE_U_IRQ_EN", 0x68, 1, 0x4, 0x0, [], 0xF, 0x0, 0x0, 0x0, 0x0, 1, 0, false, []⟩,
  ⟨"PKE_U_OPS", 0x70, 1, 0x4, 0x0, [], 0x0, 0x0, 0x0, 0x0, 0x0, 1, 0, true, []⟩,
  ⟨"PKE_U_FAULTS", 0x74, 1, 0x4, 0x0, [], 0x0, 0x0, 0x0, 0x0, 0x0, 1, 0, true, []⟩,
  ⟨"PKE_U_ABORTS", 0x78, 1, 0x4, 0x0, [], 0x0, 0x0, 0x0, 0x0, 0x0, 1, 0, true, []⟩]

/-- The rows of the CRDS block. -/
def rowsCRDS : List RegRow := [
  ⟨"CRD_S_CTL", 0x0, 1, 0x4, 0xC, [], 0x3C, 0x0, 0x0, 0x3, 0x0, 0, 0, false, []⟩,
  ⟨"CRD_S_STATUS", 0x4, 1, 0x4, 0x0, [], 0x0, 0x0, 0x0, 0x0, 0x0, 0, 0, false, []⟩,
  ⟨"CRD_S_PARAM", 0x8, 1, 0x4, 0x12E864, [], 0x3FFFFFF, 0x0, 0x0, 0x0, 0x0, 0, 0, false, []⟩,
  ⟨"CRD_S_WT", 0xC, 1, 0x4, 0x2580, [], 0xFFFFFF, 0x0, 0x0, 0x0, 0x0, 0, 0, false, []⟩,
  ⟨"CRD_S_CWT", 0x10, 1, 0x4, 0x0, [], 0xFFFFFF, 0x0, 0x0, 0x0, 0x0, 0, 0, false, []⟩,
  ⟨"CRD_S_TXDATA", 0x14, 1, 0x4, 0x0, [], 0x0, 0x0, 0x0, 0x0, 0xFF, 0, 0, false, []⟩,
  ⟨"CRD_S_RXDATA", 0x18, 1, 0x4, 0x0, [], 0x0, 0x0, 0x0, 0x0, 0x0, 0, 0, false, []⟩,
  ⟨"CRD_S_FIFO", 0x1C, 1, 0x4, 0x20, [], 0x0, 0x0, 0x0, 0x0, 0x0, 0, 0, false, []⟩,
  ⟨"CRD_S_REPEATS", 0x24, 1, 0x4, 0x0, [], 0x0, 0x0, 0x0, 0x0, 0x0, 0, 0, true, []⟩,
  ⟨"CRD_S_TIMEOUTS", 0x28, 1, 0x4, 0x0, [], 0x0, 0x0, 0x0, 0x0, 0x0, 0, 0, true, []⟩,
  ⟨"CRD_S_ACTIVATIONS", 0x2C, 1, 0x4, 0x0, [], 0x0, 0x0, 0x0, 0x0, 0x0, 0, 0, true, []⟩]

/-- The rows of the DPLC block. -/
def rowsDPLC : List RegRow := [
  ⟨"DPL_ID", 0x0, 1, 0x4, 0x0, [], 0x0, 0x0, 0x0, 0x0, 0x0, 1, 0, false, []⟩,
  ⟨"DPL_CTL", 0x4, 1, 0x4, 0x2, [], 0x0, 0x3, 0x0, 0x0, 0x0, 1, 0, false, []⟩,
  ⟨"DPL_SEAL_ENC", 0x8, 1, 0x4, 0xB84C88B5, [], 0x0, 0xFFFFFFFF, 0x0, 0x0, 0x0, 1, 0, false, []⟩,
  ⟨"DPL_STALL", 0xC, 1, 0x4, 0x32, [], 0x3FFF, 0x0, 0x0, 0x0, 0x0, 1, 0, false, []⟩,
  ⟨"DPL_USAGE_MARGIN", 0x10, 1, 0x4, 0x14, [], 0x1F, 0x0, 0x0, 0x0, 0x0, 1, 0, false, []⟩,
  ⟨"DPL_URGENT", 0x14, 1, 0x4, 0x1001E, [], 0x1FFFF, 0x0, 0x0, 0x0, 0x0, 1, 0, false, []⟩,
  ⟨"DPL_SPARE", 0x18, 1, 0x4, 0xFF00, [], 0x0, 0x0, 0x0, 0x0, 0x0, 1, 0, false, []⟩,
  ⟨"DPL_KAT_STATUS", 0x20, 1, 0x4, 0x0, [], 0x0, 0x0, 0x3FFFF, 0x0, 0x0, 1, 0, false, []⟩,
  ⟨"DPL_KAT_RUNS", 0x24, 1, 0x4, 0x0, [], 0x0, 0x0, 0x0, 0x0, 0x0, 1, 0, true, []⟩,
  ⟨"DPL_BUF_FREE", 0x28, 1, 0x4, 0x200, [], 0x0, 0x0, 0x0, 0x0, 0x0, 1, 0, false, []⟩,
  ⟨"DPL_LOCK", 0x40, 1, 0x4, 0x0, [], 0x0, 0x0, 0x0, 0x1, 0x0, 0, 0, false, []⟩,
  ⟨"DPL_IRQ_STATUS", 0x44, 1, 0x4, 0x0, [], 0x0, 0x0, 0x1F, 0x0, 0x0, 1, 0, false, []⟩,
  ⟨"DPL_IRQ_EN", 0x48, 1, 0x4, 0x0, [], 0x1F, 0x0, 0x0, 0x0, 0x0, 1, 0, false, []⟩]

/-- The rows of the PRT block. -/
def rowsPRT : List RegRow := [
  ⟨"PRT_ID", 0x0, 1, 0x4, 0x0, [], 0x0, 0x0, 0x0, 0x0, 0x0, 1, 0, false, []⟩,
  ⟨"PRT_CTL", 0x4, 1, 0x4, 0x0, [], 0xFF, 0x0, 0x0, 0x100, 0x0, 1, 0, false, []⟩,
  ⟨"PRT_STATUS", 0x8, 1, 0x4, 0x0, [], 0x0, 0x0, 0x0, 0x0, 0x0, 1, 0, false, []⟩,
  ⟨"PRT_PARTNER", 0xC, 1, 0x4, 0x0, [], 0x1FF, 0x0, 0x0, 0x0, 0x0, 1, 0, false, []⟩,
  ⟨"PRT_RESET", 0x10, 1, 0x4, 0x0, [], 0x0, 0x0, 0x0, 0x0, 0xFFFF0001, 0, 0, false, []⟩,
  ⟨"PRT_ENGINES", 0x14, 1, 0x4, 0x0, [], 0x0, 0x0, 0x0, 0x0, 0x0, 1, 0, false, []⟩,
  ⟨"PRT_TNT_ADMIT", 0x20, 16, 0x4, 0x0, [], 0xFFFFFFFF, 0x0, 0x0, 0x0, 0x0, 1, 0, false, []⟩,
  ⟨"PRT_RX_FRAMES_LO", 0x80, 1, 0x4, 0x0, [], 0x0, 0x0, 0x0, 0x0, 0x0, 1, 1, true, []⟩,
  ⟨"PRT_RX_FRAMES_HI", 0x84, 1, 0x4, 0x0, [], 0x0, 0x0, 0x0, 0x0, 0x0, 1, 2, true, []⟩,
  ⟨"PRT_RX_OCTETS_LO", 0x88, 1, 0x4, 0x0, [], 0x0, 0x0, 0x0, 0x0, 0x0, 1, 1, true, []⟩,
  ⟨"PRT_RX_OCTETS_HI", 0x8C, 1, 0x4, 0x0, [], 0x0, 0x0, 0x0, 0x0, 0x0, 1, 2, true, []⟩,
  ⟨"PRT_TX_FRAMES_LO", 0x90, 1, 0x4, 0x0, [], 0x0, 0x0, 0x0, 0x0, 0x0, 1, 1, true, []⟩,
  ⟨"PRT_TX_FRAMES_HI", 0x94, 1, 0x4, 0x0, [], 0x0, 0x0, 0x0, 0x0, 0x0, 1, 2, true, []⟩,
  ⟨"PRT_TX_OCTETS_LO", 0x98, 1, 0x4, 0x0, [], 0x0, 0x0, 0x0, 0x0, 0x0, 1, 1, true, []⟩,
  ⟨"PRT_TX_OCTETS_HI", 0x9C, 1, 0x4, 0x0, [], 0x0, 0x0, 0x0, 0x0, 0x0, 1, 2, true, []⟩,
  ⟨"PRT_RX_FCS", 0x100, 1, 0x4, 0x0, [], 0x0, 0x0, 0x0, 0x0, 0x0, 1, 0, true, []⟩,
  ⟨"PRT_RX_RUNT", 0x104, 1, 0x4, 0x0, [], 0x0, 0x0, 0x0, 0x0, 0x0, 1, 0, true, []⟩,
  ⟨"PRT_RX_GIANT", 0x108, 1, 0x4, 0x0, [], 0x0, 0x0, 0x0, 0x0, 0x0, 1, 0, true, []⟩,
  ⟨"PRT_RX_MACCTL", 0x10C, 1, 0x4, 0x0, [], 0x0, 0x0, 0x0, 0x0, 0x0, 1, 0, true, []⟩,
  ⟨"PRT_RX_POISONED", 0x110, 1, 0x4, 0x0, [], 0x0, 0x0, 0x0, 0x0, 0x0, 1, 0, true, []⟩,
  ⟨"PRT_RX_NOBUF", 0x114, 1, 0x4, 0x0, [], 0x0, 0x0, 0x0, 0x0, 0x0, 1, 0, true, []⟩,
  ⟨"PRT_RX_PRERELEASE", 0x118, 1, 0x4, 0x0, [], 0x0, 0x0, 0x0, 0x0, 0x0, 1, 0, true, []⟩,
  ⟨"PRT_RX_NOLINK", 0x11C, 1, 0x4, 0x0, [], 0x0, 0x0, 0x0, 0x0, 0x0, 1, 0, true, []⟩,
  ⟨"PRT_RX_ENCAP", 0x120, 1, 0x4, 0x0, [], 0x0, 0x0, 0x0, 0x0, 0x0, 1, 0, true, []⟩,
  ⟨"PRT_RX_UNSEALED", 0x124, 1, 0x4, 0x0, [], 0x0, 0x0, 0x0, 0x0, 0x0, 1, 0, true, []⟩,
  ⟨"PRT_RX_HDRCRC", 0x128, 1, 0x4, 0x0, [], 0x0, 0x0, 0x0, 0x0, 0x0, 1, 0, true, []⟩,
  ⟨"PRT_RX_HDRFMT", 0x12C, 1, 0x4, 0x0, [], 0x0, 0x0, 0x0, 0x0, 0x0, 1, 0, true, []⟩,
  ⟨"PRT_RX_TENANT", 0x130, 1, 0x4, 0x0, [], 0x0, 0x0, 0x0, 0x0, 0x0, 1, 0, true, []⟩,
  ⟨"PRT_RX_MAINT", 0x134, 1, 0x4, 0x0, [], 0x0, 0x0, 0x0, 0x0, 0x0, 1, 0, true, []⟩,
  ⟨"PRT_RX_ACTION", 0x138, 1, 0x4, 0x0, [], 0x0, 0x0, 0x0, 0x0, 0x0, 1, 0, true, []⟩,
  ⟨"PRT_RX_LENGTH", 0x13C, 1, 0x4, 0x0, [], 0x0, 0x0, 0x0, 0x0, 0x0, 1, 0, true, []⟩,
  ⟨"PRT_RX_TERMINAL", 0x140, 1, 0x4, 0x0, [], 0x0, 0x0, 0x0, 0x0, 0x0, 1, 0, true, []⟩,
  ⟨"PRT_RX_QUAR", 0x144, 1, 0x4, 0x0, [], 0x0, 0x0, 0x0, 0x0, 0x0, 1, 0, true, []⟩,
  ⟨"PRT_RX_SETUP", 0x148, 1, 0x4, 0x0, [], 0x0, 0x0, 0x0, 0x0, 0x0, 1, 0, true, []⟩,
  ⟨"PRT_RX_POLICY", 0x14C, 1, 0x4, 0x0, [], 0x0, 0x0, 0x0, 0x0, 0x0, 1, 0, true, []⟩,
  ⟨"PRT_RX_EGRESS", 0x150, 1, 0x4, 0x0, [], 0x0, 0x0, 0x0, 0x0, 0x0, 1, 0, true, []⟩,
  ⟨"PRT_RX_KEYGEN", 0x154, 1, 0x4, 0x0, [], 0x0, 0x0, 0x0, 0x0, 0x0, 1, 0, true, []⟩,
  ⟨"PRT_RX_REPLAY", 0x158, 1, 0x4, 0x0, [], 0x0, 0x0, 0x0, 0x0, 0x0, 1, 0, true, []⟩,
  ⟨"PRT_RX_USAGE", 0x15C, 1, 0x4, 0x0, [], 0x0, 0x0, 0x0, 0x0, 0x0, 1, 0, true, []⟩,
  ⟨"PRT_RX_GAME", 0x160, 1, 0x4, 0x0, [], 0x0, 0x0, 0x0, 0x0, 0x0, 1, 0, true, []⟩,
  ⟨"PRT_RX_TIME", 0x164, 1, 0x4, 0x0, [], 0x0, 0x0, 0x0, 0x0, 0x0, 1, 0, true, []⟩,
  ⟨"PRT_RX_CLOSED", 0x168, 1, 0x4, 0x0, [], 0x0, 0x0, 0x0, 0x0, 0x0, 1, 0, true, []⟩,
  ⟨"PRT_RX_BADTAG", 0x16C, 1, 0x4, 0x0, [], 0x0, 0x0, 0x0, 0x0, 0x0, 1, 0, true, []⟩,
  ⟨"PRT_RX_FIELD", 0x170, 1, 0x4, 0x0, [], 0x0, 0x0, 0x0, 0x0, 0x0, 1, 0, true, []⟩,
  ⟨"PRT_RX_STALL", 0x174, 1, 0x4, 0x0, [], 0x0, 0x0, 0x0, 0x0, 0x0, 1, 0, true, []⟩,
  ⟨"PRT_RX_ENGINE", 0x178, 1, 0x4, 0x0, [], 0x0, 0x0, 0x0, 0x0, 0x0, 1, 0, true, []⟩,
  ⟨"PRT_RX_NOENGINE", 0x17C, 1, 0x4, 0x0, [], 0x0, 0x0, 0x0, 0x0, 0x0, 1, 0, true, []⟩,
  ⟨"PRT_TX_LINKLOST", 0x180, 1, 0x4, 0x0, [], 0x0, 0x0, 0x0, 0x0, 0x0, 1, 0, true, []⟩,
  ⟨"PRT_TX_VERDICT_DROP", 0x184, 1, 0x4, 0x0, [], 0x0, 0x0, 0x0, 0x0, 0x0, 1, 0, true, []⟩,
  ⟨"PRT_TX_POISONED", 0x188, 1, 0x4, 0x0, [], 0x0, 0x0, 0x0, 0x0, 0x0, 1, 0, true, []⟩,
  ⟨"PRT_TX_QFULL", 0x18C, 1, 0x4, 0x0, [], 0x0, 0x0, 0x0, 0x0, 0x0, 1, 0, true, []⟩,
  ⟨"PRT_TX_UNDERRUN", 0x190, 1, 0x4, 0x0, [], 0x0, 0x0, 0x0, 0x0, 0x0, 1, 0, true, []⟩,
  ⟨"PRT_FEC_CORR", 0x194, 1, 0x4, 0x0, [], 0x0, 0x0, 0x0, 0x0, 0x0, 1, 0, true, []⟩,
  ⟨"PRT_FEC_UNCORR", 0x198, 1, 0x4, 0x0, [], 0x0, 0x0, 0x0, 0x0, 0x0, 1, 0, true, []⟩]

/-- The rows of the FLW block. -/
def rowsFLW : List RegRow := [
  ⟨"FLW_CTL", 0x0, 1, 0x4, 0x1, [], 0x0, 0x3, 0x0, 0x0, 0x0, 1, 0, false, []⟩,
  ⟨"FLW_TIMEOUT", 0x4, 1, 0x4, 0x3C, [], 0xFFF, 0x0, 0x0, 0x0, 0x0, 1, 0, false, []⟩,
  ⟨"FLW_GRACE", 0x8, 1, 0x4, 0x7D0, [], 0xFFFF, 0x0, 0x0, 0x0, 0x0, 1, 0, false, []⟩,
  ⟨"FLW_QUAR_TAG", 0xC, 1, 0x4, 0x10010, [], 0xFF00FF, 0x0, 0x0, 0x0, 0x0, 1, 0, false, []⟩,
  ⟨"FLW_QUAR_REPLAY", 0x10, 1, 0x4, 0x10040, [], 0xFF00FF, 0x0, 0x0, 0x0, 0x0, 1, 0, false, []⟩,
  ⟨"FLW_ACTIVE", 0x20, 1, 0x4, 0x0, [], 0x0, 0x0, 0x0, 0x0, 0x0, 1, 0, false, []⟩,
  ⟨"FLW_PENDING", 0x24, 1, 0x4, 0x0, [], 0x0, 0x0, 0x0, 0x0, 0x0, 1, 0, false, []⟩,
  ⟨"FLW_HITS_LO", 0x30, 1, 0x4, 0x0, [], 0x0, 0x0, 0x0, 0x0, 0x0, 1, 1, true, []⟩,
  ⟨"FLW_HITS_HI", 0x34, 1, 0x4, 0x0, [], 0x0, 0x0, 0x0, 0x0, 0x0, 1, 2, true, []⟩,
  ⟨"FLW_MISSES_LO", 0x38, 1, 0x4, 0x0, [], 0x0, 0x0, 0x0, 0x0, 0x0, 1, 1, true, []⟩,
  ⟨"FLW_MISSES_HI", 0x3C, 1, 0x4, 0x0, [], 0x0, 0x0, 0x0, 0x0, 0x0, 1, 2, true, []⟩,
  ⟨"FLW_SETUPS", 0x40, 1, 0x4, 0x0, [], 0x0, 0x0, 0x0, 0x0, 0x0, 1, 0, true, []⟩,
  ⟨"FLW_SETUP_FAIL", 0x44, 1, 0x4, 0x0, [], 0x0, 0x0, 0x0, 0x0, 0x0, 1, 0, true, []⟩,
  ⟨"FLW_EVICT_LRU", 0x48, 1, 0x4, 0x0, [], 0x0, 0x0, 0x0, 0x0, 0x0, 1, 0, true, []⟩,
  ⟨"FLW_EVICT_IDLE", 0x4C, 1, 0x4, 0x0, [], 0x0, 0x0, 0x0, 0x0, 0x0, 1, 0, true, []⟩,
  ⟨"FLW_MIGRATE_IN", 0x50, 1, 0x4, 0x0, [], 0x0, 0x0, 0x0, 0x0, 0x0, 1, 0, true, []⟩,
  ⟨"FLW_MIGRATE_OUT", 0x54, 1, 0x4, 0x0, [], 0x0, 0x0, 0x0, 0x0, 0x0, 1, 0, true, []⟩,
  ⟨"FLW_PROMOTE", 0x58, 1, 0x4, 0x0, [], 0x0, 0x0, 0x0, 0x0, 0x0, 1, 0, true, []⟩,
  ⟨"FLW_REKEY_SENT", 0x5C, 1, 0x4, 0x0, [], 0x0, 0x0, 0x0, 0x0, 0x0, 1, 0, true, []⟩,
  ⟨"FLW_QUAR_AUTO", 0x60, 1, 0x4, 0x0, [], 0x0, 0x0, 0x0, 0x0, 0x0, 1, 0, true, []⟩,
  ⟨"FLW_HELLO", 0x64, 1, 0x4, 0x0, [], 0x0, 0x0, 0x0, 0x0, 0x0, 1, 0, true, []⟩,
  ⟨"FLW_HELLO_DUP", 0x68, 1, 0x4, 0x0, [], 0x0, 0x0, 0x0, 0x0, 0x0, 1, 0, true, []⟩,
  ⟨"FLW_LOCK", 0x80, 1, 0x4, 0x0, [], 0x0, 0x0, 0x0, 0x1, 0x0, 0, 0, false, []⟩,
  ⟨"FLW_IRQ_STATUS", 0x84, 1, 0x4, 0x0, [], 0x0, 0x0, 0x7, 0x0, 0x0, 1, 0, false, []⟩,
  ⟨"FLW_IRQ_EN", 0x88, 1, 0x4, 0x0, [], 0x7, 0x0, 0x0, 0x0, 0x0, 1, 0, false, []⟩]

/-- The rows of the MNTC block. -/
def rowsMNTC : List RegRow := [
  ⟨"MNT_LM_STATUS", 0x0, 1, 0x4, 0x0, [], 0x0, 0x0, 0x0, 0x0, 0x0, 1, 0, false, []⟩,
  ⟨"MNT_LM_HITS", 0x4, 1, 0x4, 0x0, [], 0x0, 0x0, 0x0, 0x0, 0x0, 1, 0, true, []⟩,
  ⟨"MNT_LM_MISSES", 0x8, 1, 0x4, 0x0, [], 0x0, 0x0, 0x0, 0x0, 0x0, 1, 0, true, []⟩,
  ⟨"MNT_LM_DERIVES_LO", 0x10, 1, 0x4, 0x0, [], 0x0, 0x0, 0x0, 0x0, 0x0, 1, 1, true, []⟩,
  ⟨"MNT_LM_DERIVES_HI", 0x14, 1, 0x4, 0x0, [], 0x0, 0x0, 0x0, 0x0, 0x0, 1, 2, true, []⟩,
  ⟨"MNT_LM_GRANT_LEFT", 0x18, 1, 0x4, 0x0, [], 0x0, 0x0, 0x0, 0x0, 0x0, 1, 0, false, []⟩]

/-- The rows of the LDGC block. -/
def rowsLDGC : List RegRow := [
  ⟨"LDG_CL_LEAVES_LO", 0x0, 1, 0x4, 0x0, [], 0x0, 0x0, 0x0, 0x0, 0x0, 1, 1, true, []⟩,
  ⟨"LDG_CL_LEAVES_HI", 0x4, 1, 0x4, 0x0, [], 0x0, 0x0, 0x0, 0x0, 0x0, 1, 2, true, []⟩,
  ⟨"LDG_CL_CHUNKS", 0x8, 1, 0x4, 0x0, [], 0x0, 0x0, 0x0, 0x0, 0x0, 1, 0, true, []⟩,
  ⟨"LDG_CL_OPEN", 0xC, 1, 0x4, 0x0, [], 0x0, 0x0, 0x0, 0x0, 0x0, 1, 0, false, []⟩,
  ⟨"LDG_CL_RCPT", 0x10, 1, 0x4, 0x0, [], 0x0, 0x0, 0x0, 0x0, 0x0, 1, 0, true, []⟩,
  ⟨"LDG_CL_LATE", 0x14, 1, 0x4, 0x0, [], 0x0, 0x0, 0x0, 0x0, 0x0, 1, 0, true, []⟩]

/-- The rows of the TIMC block. -/
def rowsTIMC : List RegRow := [
  ⟨"TIM_GT_COUNT", 0x0, 1, 0x4, 0x0, [], 0x0, 0x0, 0x0, 0x0, 0x0, 1, 0, false, []⟩,
  ⟨"TIM_GT_ACT_LO", 0x8, 1, 0x4, 0x0, [], 0xFFFFFFFF, 0x0, 0x0, 0x0, 0x0, 1, 1, false, []⟩,
  ⟨"TIM_GT_ACT_HI", 0xC, 1, 0x4, 0x0, [], 0xFFFFFFFF, 0x0, 0x0, 0x0, 0x0, 1, 2, false, []⟩,
  ⟨"TIM_GT_STATUS", 0x10, 1, 0x4, 0x0, [], 0x0, 0x0, 0x0, 0x0, 0x0, 1, 0, false, []⟩,
  ⟨"TIM_GT_ENTRY", 0x1000, 15360, 0x4, 0x0, [], 0xFFFFFFFF, 0x0, 0x0, 0x0, 0x0, 1, 0, false, []⟩]

/-- The rows of the RNGC block. -/
def rowsRNGC : List RegRow := [
  ⟨"RNG_CL_STATUS", 0x0, 1, 0x4, 0x0, [], 0x0, 0x0, 0x0, 0x0, 0x0, 1, 0, false, []⟩,
  ⟨"RNG_CL_RESEEDS", 0x4, 1, 0x4, 0x0, [], 0x0, 0x0, 0x0, 0x0, 0x0, 1, 0, true, []⟩,
  ⟨"RNG_CL_SINCE", 0x8, 1, 0x4, 0x0, [], 0x0, 0x0, 0x0, 0x0, 0x0, 1, 0, false, []⟩]

/-- The rows of the TLYC block. -/
def rowsTLYC : List RegRow := [
  ⟨"TLY_CL_STATUS", 0x0, 1, 0x4, 0x0, [], 0x0, 0x0, 0x0, 0x0, 0x0, 1, 0, false, []⟩,
  ⟨"TLY_CL_SEL", 0x40, 16, 0x4, 0x0, [], 0x1FFFFFF, 0x0, 0x0, 0x0, 0x0, 1, 0, false, [(0, 0xFFFFFF), (2, 0xFFFFFF), (4, 0xFFFFFF), (6, 0xFFFFFF), (8, 0xFFFFFF), (10, 0xFFFFFF), (12, 0xFFFFFF), (14, 0xFFFFFF)]⟩,
  ⟨"TLY_CL_CNT", 0x80, 16, 0x4, 0x0, [], 0x0, 0x0, 0x0, 0x0, 0x0, 1, 0, true, []⟩,
  ⟨"TLY_CL_CLR", 0xC0, 1, 0x4, 0x0, [], 0x0, 0x0, 0x0, 0x0, 0xFFFF, 1, 0, false, []⟩,
  ⟨"TLY_CL_OVF", 0xC4, 1, 0x4, 0x0, [], 0x0, 0x0, 0xFFFF, 0x0, 0x0, 1, 0, false, []⟩]

/-- The rows of the DPLT block. -/
def rowsDPLT : List RegRow := [
  ⟨"DPL_FAB_STATUS", 0x0, 1, 0x4, 0x0, [], 0x0, 0x0, 0x0, 0x0, 0x0, 1, 0, false, []⟩,
  ⟨"DPL_FAB_ROUTE", 0x4, 1, 0x4, 0x0, [], 0xF, 0x0, 0x0, 0x0, 0x0, 1, 0, false, []⟩,
  ⟨"DPL_FAB_RETRAIN", 0x10, 4, 0x4, 0x0, [], 0x0, 0x0, 0x0, 0x0, 0x0, 1, 0, true, []⟩,
  ⟨"DPL_FAB_DROP", 0x20, 4, 0x4, 0x0, [], 0x0, 0x0, 0x0, 0x0, 0x0, 1, 0, true, []⟩]

/-- The rows of the TRM block. -/
def rowsTRM : List RegRow := [
  ⟨"TRM_CTL", 0x0, 1, 0x4, 0x3, [], 0x0, 0x3, 0x0, 0x0, 0x0, 1, 0, false, []⟩,
  ⟨"TRM_IMAGE", 0x4, 1, 0x4, 0x0, [], 0x0, 0x0, 0x0, 0x0, 0x0, 1, 0, false, []⟩,
  ⟨"TRM_WB_RATE", 0x8, 1, 0x4, 0xC8, [], 0x3FF, 0x0, 0x0, 0x0, 0x0, 1, 0, false, []⟩,
  ⟨"TRM_DIRTY", 0xC, 1, 0x4, 0x0, [], 0x0, 0x0, 0x0, 0x0, 0x0, 1, 0, false, []⟩,
  ⟨"TRM_XCHG_DEPTH", 0x10, 1, 0x4, 0x0, [], 0x0, 0x0, 0x0, 0x0, 0x0, 1, 0, false, []⟩,
  ⟨"TRM_XCHG_WAIT", 0x14, 1, 0x4, 0xFA0, [], 0xFFFF, 0x0, 0x0, 0x0, 0x0, 1, 0, false, []⟩,
  ⟨"TRM_XCHG_DROP", 0x18, 1, 0x4, 0x0, [], 0x0, 0x0, 0x0, 0x0, 0x0, 1, 0, true, []⟩,
  ⟨"TRM_XCHG_DONE", 0x1C, 1, 0x4, 0x0, [], 0x0, 0x0, 0x0, 0x0, 0x0, 1, 0, true, []⟩,
  ⟨"TRM_XCHG_FAIL", 0x20, 1, 0x4, 0x0, [], 0x0, 0x0, 0x0, 0x0, 0x0, 1, 0, true, []⟩,
  ⟨"TRM_MAC_FAIL", 0x24, 1, 0x4, 0x0, [], 0x0, 0x0, 0x0, 0x0, 0x0, 1, 0, true, []⟩,
  ⟨"TRM_LOADS", 0x28, 1, 0x4, 0x0, [], 0x0, 0x0, 0x0, 0x0, 0x0, 1, 0, true, []⟩,
  ⟨"TRM_IMAGE_LOADS", 0x2C, 1, 0x4, 0x0, [], 0x0, 0x0, 0x0, 0x0, 0x0, 1, 0, true, []⟩,
  ⟨"TRM_LOCK", 0x40, 1, 0x4, 0x0, [], 0x0, 0x0, 0x0, 0x1, 0x0, 0, 0, false, []⟩,
  ⟨"TRM_TNT_LO", 0x1000, 512, 0x8, 0x0, [], 0xFFF07FF, 0x0, 0x0, 0x0, 0x0, 1, 1, false, []⟩,
  ⟨"TRM_TNT_HI", 0x1004, 512, 0x8, 0x1, [], 0x81FF0003, 0x0, 0x0, 0x0, 0x0, 1, 2, false, []⟩,
  ⟨"TRM_MON_TPL", 0x4000, 12288, 0x4, 0x0, [], 0xFFFFFFFF, 0x0, 0x0, 0x0, 0x0, 1, 0, false, []⟩]

/-- The rows of the LDGT block. -/
def rowsLDGT : List RegRow := [
  ⟨"LDG_TL_CHUNKS_LO", 0x0, 1, 0x4, 0x0, [], 0x0, 0x0, 0x0, 0x0, 0x0, 1, 1, true, []⟩,
  ⟨"LDG_TL_CHUNKS_HI", 0x4, 1, 0x4, 0x0, [], 0x0, 0x0, 0x0, 0x0, 0x0, 1, 2, true, []⟩,
  ⟨"LDG_TL_TREES", 0x8, 1, 0x4, 0x0, [], 0x0, 0x0, 0x0, 0x0, 0x0, 1, 0, false, []⟩,
  ⟨"LDG_TL_CHREC", 0xC, 1, 0x4, 0x0, [], 0x0, 0x0, 0x0, 0x0, 0x0, 1, 0, true, []⟩]

/-- The rows of the PKET block. -/
def rowsPKET : List RegRow := [
  ⟨"PKE_T_STATUS", 0x0, 1, 0x4, 0x0, [], 0x0, 0x0, 0x0, 0x0, 0x0, 1, 0, false, []⟩,
  ⟨"PKE_T_OPS", 0x4, 1, 0x4, 0x0, [], 0x0, 0x0, 0x0, 0x0, 0x0, 1, 0, true, []⟩,
  ⟨"PKE_T_FAULTS", 0x8, 1, 0x4, 0x0, [], 0x0, 0x0, 0x0, 0x0, 0x0, 1, 0, true, []⟩,
  ⟨"PKE_T_VQ_MIN", 0xC, 1, 0x4, 0x400, [], 0xFFFFF, 0x0, 0x0, 0x0, 0x0, 0, 0, false, []⟩]

/-- Every register block, in the order of R28. Blocks nested in another block's range stand before it. -/
def regBlocks : List RegBlock := [
  ⟨"PKEU", 0x10061000, [(8, 0x100)], none, rowsPKEU⟩,
  ⟨"CRDS", 0x100D0100, [(4, 0x40)], none, rowsCRDS⟩,
  ⟨"SYS", 0x10000000, [], some 0x80, rowsSYS⟩,
  ⟨"GTE", 0x10010000, [], some 0x40, rowsGTE⟩,
  ⟨"MBX", 0x10020000, [], some 0x4, rowsMBX⟩,
  ⟨"DIG", 0x10030000, [], some 0x140, rowsDIG⟩,
  ⟨"CPH", 0x10040000, [], some 0xE0, rowsCPH⟩,
  ⟨"RNG", 0x10050000, [], some 0xA0, rowsRNG⟩,
  ⟨"PKE", 0x10060000, [], some 0x40, rowsPKE⟩,
  ⟨"FSH", 0x10070000, [], some 0xA0, rowsFSH⟩,
  ⟨"LFS", 0x10080000, [], some 0x70, rowsLFS⟩,
  ⟨"TIM", 0x10090000, [], some 0x60, rowsTIM⟩,
  ⟨"LDG", 0x100A0000, [], some 0x60, rowsLDG⟩,
  ⟨"MNT", 0x100B0000, [], some 0x40, rowsMNT⟩,
  ⟨"VLT", 0x100C0000, [], some 0x40, rowsVLT⟩,
  ⟨"CRD", 0x100D0000, [], some 0x40, rowsCRD⟩,
  ⟨"NFR", 0x100E0000, [], some 0x90, rowsNFR⟩,
  ⟨"TPR", 0x100F0000, [], some 0x70, rowsTPR⟩,
  ⟨"TLY", 0x10100000, [], some 0x60, rowsTLY⟩,
  ⟨"RPR", 0x10110000, [], some 0x60, rowsRPR⟩,
  ⟨"PAI", 0x10120000, [], some 0x40, rowsPAI⟩,
  ⟨"UPD", 0x10130000, [], some 0x40, rowsUPD⟩,
  ⟨"THM", 0x10140000, [], some 0x80, rowsTHM⟩,
  ⟨"ALM", 0x10150000, [], some 0x70, rowsALM⟩,
  ⟨"CUS", 0x10160000, [], some 0x90, rowsCUS⟩,
  ⟨"DPLC", 0x20000000, [(4, 0x4000000), (16, 0x100000)], some 0x40, rowsDPLC⟩,
  ⟨"PRT", 0x20010000, [(4, 0x4000000), (16, 0x100000), (8, 0x10000)], none, rowsPRT⟩,
  ⟨"FLW", 0x20090000, [(4, 0x4000000), (16, 0x100000)], some 0x80, rowsFLW⟩,
  ⟨"MNTC", 0x200A0000, [(4, 0x4000000), (16, 0x100000)], none, rowsMNTC⟩,
  ⟨"LDGC", 0x200B0000, [(4, 0x4000000), (16, 0x100000)], none, rowsLDGC⟩,
  ⟨"TIMC", 0x200C0000, [(4, 0x4000000), (16, 0x100000)], none, rowsTIMC⟩,
  ⟨"RNGC", 0x200D0000, [(4, 0x4000000), (16, 0x100000)], none, rowsRNGC⟩,
  ⟨"TLYC", 0x200E0000, [(4, 0x4000000), (16, 0x100000)], none, rowsTLYC⟩,
  ⟨"DPLT", 0x21000000, [(4, 0x4000000)], none, rowsDPLT⟩,
  ⟨"TRM", 0x21010000, [(4, 0x4000000)], some 0x40, rowsTRM⟩,
  ⟨"LDGT", 0x21020000, [(4, 0x4000000)], none, rowsLDGT⟩,
  ⟨"PKET", 0x21030000, [(4, 0x4000000), (17, 0x40)], none, rowsPKET⟩]

/-- The offset of address `a` within the block instance that holds it: `none` when an instance index is out of range. -/
def instOffset : List (Nat × Nat) → Nat → Option Nat
  | [], r => some r
  | (n, s) :: ds, r => if r / s < n then instOffset ds (r % s) else none

/-- The word index of offset `o` in a row. -/
def rowIndex (row : RegRow) (o : Nat) : Option Nat :=
  if row.off ≤ o ∧ (o - row.off) % row.stride = 0 ∧ (o - row.off) / row.stride < row.count
  then some ((o - row.off) / row.stride) else none

/-- The row and index that hold offset `o`. -/
def findRow : List RegRow → Nat → Option (RegRow × Nat)
  | [], _ => none
  | row :: rs, o => match rowIndex row o with
    | some i => some (row, i)
    | none => findRow rs o

/-- The block, row and index of custody address `a`. -/
def findRegIn : List RegBlock → Nat → Option (RegBlock × RegRow × Nat)
  | [], _ => none
  | b :: bs, a =>
    match (if b.base ≤ a then ((instOffset b.dims (a - b.base)).filter (fun o => decide (o < 0x10000))).bind (findRow b.rows) else none) with
    | some (row, i) => some (b, row, i)
    | none => findRegIn bs a

/-- The register at custody address `a` (R28), if any. -/
def findReg (a : Nat) : Option (RegBlock × RegRow × Nat) := findRegIn regBlocks a

/-- The bits of word `i` of a row that a write can change. -/
def RegRow.writable (row : RegRow) (i : Nat) : Word :=
  match row.narrow.find? (fun p => p.1 == i) with
  | some p => p.2
  | none => 0xFFFFFFFF

/-- The reset value of word `i` of a row. -/
def rowReset (row : RegRow) (i : Nat) : Word :=
  match row.resets.find? (fun p => p.1 == i) with
  | some p => p.2
  | none => row.reset

/-- The reset value of the register at address `a`; 0 where the map has no register. -/
def regReset (a : Nat) : Word :=
  match findReg a with
  | some (_, row, i) => rowReset row i
  | none => 0

end Sys2Proof.Machine
end

