-- ==== Sys2Proof/Machine/Tab.lean ====
section
/-! DEFINITION. Reading and writing the sparse tables of the state (ports, clusters, slots, registers, memory bytes):
an unlisted key reads as the default `d k`; a write keeps the keys rising and lists no default. -/

namespace Sys2Proof.Machine

/-- The value at key `k`: the first pair listed for it, else the default. -/
def tget {α : Type} (d : Nat → α) : Tab α → Nat → α
  | [], k => d k
  | (k', v) :: r, k => if k = k' then v else tget d r k

/-- Remove every pair of key `k`. -/
def tdel {α : Type} (t : Tab α) (k : Nat) : Tab α := t.filter (fun p => p.1 != k)

/-- Insert a pair before the first pair of a larger key. -/
def tins {α : Type} (k : Nat) (v : α) : Tab α → Tab α
  | [] => [(k, v)]
  | p :: r => if k < p.1 then (k, v) :: p :: r else p :: tins k v r

/-- Write `v` at key `k`, keeping the canonical form: a default is not listed. -/
def tput {α : Type} [DecidableEq α] (d : Nat → α) (t : Tab α) (k : Nat) (v : α) : Tab α :=
  if v = d k then tdel t k else tins k v (tdel t k)

/-- Apply `f` to the value at key `k`. -/
def tupd {α : Type} [DecidableEq α] (d : Nat → α) (t : Tab α) (k : Nat) (f : α → α) : Tab α :=
  tput d t k (f (tget d t k))

/-- Remove every pair whose key satisfies `p`: those keys return to their defaults. -/
def tclear {α : Type} (t : Tab α) (p : Nat → Bool) : Tab α := t.filter (fun e => !p e.1)

/-- The canonical form: keys strictly rising and no default listed. -/
def twf {α : Type} [DecidableEq α] (d : Nat → α) : Tab α → Bool
  | [] => true
  | [(k, v)] => decide (v ≠ d k)
  | (k, v) :: (k', v') :: r => decide (k < k') && decide (v ≠ d k) && twf d ((k', v') :: r)

/-- Read `n` consecutive bytes from address `a`. -/
def tbytes (d : Nat → BitVec 8) (t : Tab (BitVec 8)) (a n : Nat) : Bytes :=
  (List.range n).map (fun i => tget d t (a + i))

/-- Write consecutive bytes from address `a`. -/
def tputBytes (d : Nat → BitVec 8) (t : Tab (BitVec 8)) (a : Nat) : Bytes → Tab (BitVec 8)
  | [] => t
  | b :: r => tputBytes d (tput d t a b) (a + 1) r

/-- The constant default. -/
def dflt {α : Type} (v : α) : Nat → α := fun _ => v

end Sys2Proof.Machine
end

