-- ==== Sys2Proof/Machine/State.lean ====
section
/-! DEFINITION. The state of the FL5125 as plain data: one structure for each part of the device the spec describes, every
register of the address map in one register file, and the queue of commands waiting. -/

namespace Sys2Proof.Machine

/-! ### Modes, start-up and reset (chapter 02) -/

/-- The six modes of R30. -/
inductive Mode where
  | factory | notary | ceremony | service | maintenance | zeroized
  deriving DecidableEq, Repr

/-- The maintenance set of R31: the whole device, or a map of tenants (bit `t` = tenant `t`), with the function that placed
each listed tenant (R59; 0 = PF0). -/
structure MaintSet where
  whole : Bool
  map : BitVec 512
  placedBy : Tab Nat
  deriving DecidableEq, Repr

/-- A host command that awaits its final reply: function, queue and identifier (R69). -/
structure CmdRef where
  fn : Nat
  queue : Nat
  ident : Nat
  deriving DecidableEq, Repr

/-- A transition accepted and not yet committed (R36): the new mode, the set it brings, and the command it completes. -/
structure PendingMode where
  target : Mode
  set : MaintSet
  cmd : Option CmdRef
  deriving DecidableEq, Repr

/-- The condition of a tile: held during start-up or a reset, running, or failed (R41, R44, R46). -/
inductive TileCond where
  | held | up | failed
  deriving DecidableEq, Repr

/-- Modes and start-up: the mode record and zeroized mark of the keeper domain (R30, R39, R531), the fuses of R33 and R587, the
pending transition (R36), the maintenance sets in force and stored (R31, R33, R39), the lockstep mismatch stamps of the keeper
domain (R43), tile conditions, main power, the flags of a reset or a start in progress, the start count of the keeper record (R531), and the
nanoseconds that the keeper counted while main power was last off (R298). -/
structure SysState where
  mode : Mode
  prevMode : Mode
  keeperRecord : Bool
  keeperZeroized : Bool
  keeperInit : Bool
  shipFuse : Bool
  l0Fused : Bool
  pend : Option PendingMode
  maint : MaintSet
  maintStored : MaintSet
  lockstep : List Nat
  tiles : Tab TileCond
  mainPower : Bool
  cusInReset : Bool
  recovery : Bool
  portsAtStage4 : Nat
  starts : Nat
  offNs : Nat
  deriving DecidableEq, Repr

/-! ### Host command interface (chapter 03) -/

/-- A reply as written to a completion ring (R69), with the bytes written to the output buffer and the host address of that buffer. -/
structure Reply where
  ident : Nat
  status : Nat
  sqHead : Nat
  queue : Nat
  phase : Bool
  outLen : Nat
  detail : Nat
  output : Bytes
  outAddr : Nat
  deriving DecidableEq, Repr

/-- What a fetched command has staged (R64, R69): the colour its parameter and output buffers are tagged with, its form and profile, whether its
parameters end with a ticket, the parameter bytes, and the address and length of its output buffer. -/
structure HostStaged where
  colour : Nat
  expert : Bool
  profile : Nat
  ticket : Bool
  params : Bytes
  outAddr : Nat
  outLen : Nat
  deriving DecidableEq, Repr

/-- A transfer of the endpoint on behalf of a function (R64, R66): its colour, the IDE stream that carries it, direction (from the device), host address
and, for a write, its bytes. -/
structure HostXfer where
  fn : Nat
  colour : Nat
  stream : Option Nat
  write : Bool
  addr : Nat
  data : Bytes
  deriving DecidableEq, Repr

/-- How the endpoint answers a read of a BAR: with data, as an Unsupported Request (R66) or with Completer Abort (R67). -/
inductive HostRead where
  | none
  | data (w : Word)
  | unsupported
  | aborted
  deriving DecidableEq, Repr

/-- One MSI-X vector (R65): message address and data, its mask bit and its bit of the pending-bit array, and the messages sent. -/
structure MsixVec where
  addr : BitVec 64
  data : Word
  masked : Bool
  pending : Bool
  sent : Nat
  deriving DecidableEq, Repr

/-- A vector after a reset of its function: masked. -/
def MsixVec.reset : MsixVec := ⟨0, 0, true, false, 0⟩

/-- Where a fetched command stands (R82). -/
inductive CmdStage where
  | waiting | running | interim
  deriving DecidableEq, Repr

/-- One entry of the outstanding table (R92), oldest first: identifier, opcode, FENCE, stage, the instant of its fetch in
milliseconds of uptime (R85), and what it has staged. -/
structure Outstanding where
  ident : Nat
  opcode : Nat
  fence : Bool
  stage : CmdStage
  fetched : Nat
  staged : HostStaged
  deriving DecidableEq, Repr

/-- One queue pair of a function: its BAR0 registers (R67), the ring indices, PHASE (R71), the completions not yet signalled, how often its vector was
signalled, the outstanding table (R92), the commands that go on though their replies are discarded (R68, R82), the backlog of at most 64 replies
(R73) and those whose commands wait to complete for want of room in it, and the completion ring as the host sees it. -/
structure Queue where
  sqBase : BitVec 64
  sqSize : Nat
  cqBase : BitVec 64
  cqSize : Nat
  sqStage : Word
  cqStage : Word
  ctl : Word
  error : Bool
  badDb : Bool
  badCfg : Bool
  dmaErr : Bool
  dbOvr : Bool
  sqTail : Nat
  sqHead : Nat
  cqHead : Nat
  cqTail : Nat
  phase : Bool
  unsignalled : Nat
  messages : Nat
  outstanding : List Outstanding
  orphans : List Outstanding
  backlog : List Reply
  stalled : List Reply
  ring : Tab Reply
  deriving DecidableEq, Repr

/-- A queue whose registers hold their reset values. -/
def Queue.reset : Queue :=
  ⟨0, 0, 0, 0, 0, 0, 0, false, false, false, false, false, 0, 0, 0, 0, true, 0, 0, [], [], [], [], []⟩

/-- The PCIe endpoint, the rings and the mailboxes: queues by 8 * function + queue, permission words, mailbox FIFOs by channel
(R75), the MBX receive snapshot and empty flag, the IDE streams with keys, the one of them that is a link stream, and the SPDM authentication (R65), PERST_N, Request
Retry Status (R48), the link, the watchdog's last selection (R85), the last DOE response, the last BAR read completion, the last configuration
completion and the value it carried, the last transfer (R64), and the MSI-X vectors by 64 * function + vector (R65). -/
structure HostState where
  queues : Tab Queue
  perm : Tab Word
  fifos : Tab (List (BitVec 64))
  recvHi : Word
  ideStreams : List Nat
  ideLink : Option Nat
  spdmAuth : Bool
  perst : Bool
  linkUp : Bool
  rrs : Bool
  lastWatchdog : Nat
  doeReply : Bytes
  lastRead : HostRead
  configOk : Bool
  configValue : Nat
  lastXfer : Option HostXfer
  msix : Tab MsixVec
  deriving DecidableEq, Repr

/-! ### Frames and the sealing pipeline (chapters 04 and 05) -/

/-- A leaf input waiting in a cluster's FIFO (R259) with what decides its stream: owner (0xFFFF = the device), epoch, header
class, form (0 sealed, 1 refusal, 2 notary) and port. -/
structure LeafIn where
  input : Bytes
  owner : Nat
  epoch : Nat
  cls : Nat
  form : Nat
  port : Nat
  deriving DecidableEq, Repr

/-- A terminal profile (R195). -/
structure Profile where
  classes : BitVec 16
  actions : BitVec 7
  egress : Nat
  zones : List (Nat × Nat)
  notice : Bool
  deriving DecidableEq, Repr

/-- A profile never set: every field zero. -/
def Profile.zero : Profile := ⟨0, 0, 0, [], false⟩

/-- The configuration that a frame completes under: the registers, terminal profiles and zone bindings as they stood when its first byte arrived
(R22, R246). -/
structure FrameCfg where
  regs : Tab Word
  profiles : Tab Profile
  zones : Tab Nat
  deriving DecidableEq, Repr

/-- What a frame at an ingress port has turned out to be. -/
inductive FrameKind where
  /-- header beat not yet seen -/
  | unknown
  /-- discarded by the MAC rule whose counter is at the given PRT offset (R140) -/
  | discarded (counter : Nat)
  /-- bridged in NOTARY (R53) -/
  | bridge
  /-- dropped with a notary leaf of the given disposition (R127) -/
  | notaryDrop (disposition : Nat)
  /-- unsealed frame under FORWARD (R100) -/
  | unsealed
  /-- seal frame past stage B -/
  | seal
  deriving DecidableEq, Repr

/-- A reserved sequence (R118, R618): tenant, terminal, DIR, lane (0 = flow or only lane, 1 = reply lane) and the sequence. -/
structure SeqRes where
  lane : Nat
  seq : Nat
  deriving DecidableEq, Repr

/-- A frame being received, or waiting for its flow: port, ingress stamp and frame counter, bytes so far, what it is, the seal
header offset, the verdict already decided, the close-of-sales result held (R110), whether it is held (R134), its egress port,
the sequence it reserved, the generation and keys bound at Lookup, whether its tail has arrived, whether it waits for set-up,
the number under which its emitted frame is queued, the cluster whose cache resolves its flow (R192), the IP version and header offset of its
encapsulation (0 = none), whether an underrun has failed it (R151), the half of its slice's hold buffer it waits in (R134), and its
configuration (R22). -/
structure InFrame where
  port : Nat
  stamp : BitVec 64
  count : BitVec 16
  data : Bytes
  kind : FrameKind
  hoff : Nat
  verdict : Nat
  closePend : Nat
  held : Bool
  egress : Option Nat
  res : Option SeqRes
  inKey : Bytes
  egKey : Bytes
  egGen : Nat
  derivedCtx : Bool
  hdrDone : Bool
  complete : Bool
  waiting : Bool
  unc : Nat
  fit : Bool
  idx : Option Nat
  txSeq : Nat
  num : Nat
  home : Nat
  ip : Nat
  l3 : Nat
  under : Bool
  hold : Option Nat
  cfg : FrameCfg
  deriving DecidableEq, Repr

/-- A frame in an ingress or egress queue: its number, ingress and egress ports, length, whether its handling at the ingress is
complete, its emitted bytes, urgency (R143), whether it has crossed the fabric, is on the wire, or awaits an acknowledgement
(R160), the leaf input its sending yields (R21, R125), the received frame it comes from (none for a frame the device makes), and the half of the
hold buffer it leaves (R134). -/
structure EgFrame where
  num : Nat
  src : Nat
  dst : Nat
  len : Nat
  complete : Bool
  bytes : Bytes
  urgent : Bool
  crossed : Bool
  onWire : Bool
  acked : Bool
  leaf : Option LeafIn
  orig : Option InFrame
  hold : Option Nat
  deriving DecidableEq, Repr

/-- One half of a slice's hold buffer of 18 KiB: whether a frame has it, and what it contains (R134, R135). -/
structure HoldHalf where
  used : Bool
  bytes : Bytes
  deriving DecidableEq, Repr

/-- The working state of one port beside its registers: the frame being received, the fragment mark of R152, the frame counter
(R128), the pause quanta left (R141), the verdict tokens (R124), the frames queued towards it, the bytes last sent on its wire,
a takeover or a reset that waits for it (R165, R170), the halves of its hold buffer (R134), and the frames that arrived during a takeover (R165). -/
structure PortDyn where
  cur : Option InFrame
  fragment : Bool
  fragSeen : Bool
  count : BitVec 16
  pause : Nat
  tokens : Nat
  queue : List EgFrame
  lastSent : Bytes
  takeover : Option Nat
  resetPending : Bool
  trainStart : Nat
  holds : List HoldHalf
  moved : List InFrame
  deriving DecidableEq, Repr

/-- An empty half of a hold buffer. -/
def HoldHalf.empty : HoldHalf := ⟨false, []⟩

/-- A port at rest. -/
def PortDyn.reset : PortDyn := ⟨none, false, false, 0, 0, 64, [], [], none, false, 0, [HoldHalf.empty, HoldHalf.empty], []⟩

/-- The ingress cluster's record of a frame that has left its egress and whose last beat is not yet acknowledged (R160). -/
structure FabRecord where
  num : Nat
  src : Nat
  dst : Nat
  deriving DecidableEq, Repr

/-- The data plane beside its registers: ports, frames waiting for set-up by cluster, engines failed in the repair sense, tile
links acknowledged, the next frame number, the monitor sequence count by cluster * 512 + tenant (R206), the salt of each
cluster's cache (R189), the flow time-outs of each port since the last summary and the drop counts at that summary (R543), and the records of
frames sent and not acknowledged (R160). -/
structure PlaneState where
  ports : Tab PortDyn
  waiting : Tab (List InFrame)
  nextNum : Nat
  monSeq : Tab Nat
  salt : Tab Nat
  timeouts : Tab Nat
  dropBase : Tab Int
  records : List FabRecord
  deriving DecidableEq, Repr

/-! ### Flows and the terminal register (chapter 06) -/

/-- A terminal register entry (R181), and the reason of a REKEY due (R200, R211), which its 64 bytes do not show. -/
structure TermEntry where
  state : Nat
  mode : Nat
  ctx : Bool
  rekeyDue : Bool
  fence : Bool
  sgen : Nat
  egen : Nat
  qreason : Nat
  profile : Nat
  attach : Option Nat
  home0 : Option Nat
  home1 : Option Nat
  region : Nat
  rxhigh : Nat
  rxmap : BitVec 64
  txnext : Nat
  replycnt : Nat
  suse0 : Nat
  suse1 : Nat
  euse : Nat
  l4ver : Nat
  sctx : Bytes
  reason : Nat
  deriving DecidableEq, Repr

/-- A FREE entry: every byte zero. -/
def TermEntry.free : TermEntry :=
  ⟨0, 0, false, false, false, 0, 0, 0, 0, none, none, none, 0, 0, 0, 0, 0, 0, 0, 0, 0, [], 0⟩

/-- The replay window of one lane (R190, R618). -/
structure Window where
  high : Nat
  map : BitVec 64
  pend : BitVec 64
  deriving DecidableEq, Repr

/-- STATE of a flow cache entry (R189). -/
inductive FlowStage where
  | live | setup | migrating | evicting
  deriving DecidableEq, Repr

/-- A HELLO waiting in a tile's exchange queue (R203): addressing, payload, outer headers, ingress port and stamp, generation
asked for, the instant it was queued in milliseconds of uptime, and whether a unit has faulted on it (R443). -/
structure Exchange where
  tenant : Nat
  terminal : Nat
  sgen : Nat
  payload : Bytes
  outer : Bytes
  port : Nat
  stamp : BitVec 64
  queued : Nat
  retried : Bool
  deriving DecidableEq, Repr

/-- A flow cache entry (R189), with the keys its engine contexts hold, the derived context at SGEN + 1 (R199), the successor
egress key awaited (R149), the reason of a REKEY due, the second in which REKEY was last sent (R200), the least-recent-use
order, and the windows of automatic quarantine (R208). GRACE is held as the millisecond of uptime at which the grace period ends. `welcome` is the HELLO
that WELCOME answers once the Leaf Mint has derived the new S (R205), and `detached` says that the terminal has been freed since, so that no entry
is written back. -/
structure Flow where
  stage : FlowStage
  dir : Nat
  tenant : Nat
  terminal : Nat
  slot : Nat
  profile : Nat
  sgen : Nat
  egen : Nat
  prev : Option Nat
  grace : Nat
  sctx : Bytes
  skey : Option Bytes
  ekey : Option Bytes
  hkey : Option Bytes
  prevKey : Bytes
  nextKey : Option Bytes
  nextCount : Nat
  egWait : Bool
  scount : Nat
  slimit : Nat
  ecount : Nat
  elimit : Nat
  win : Window
  win1 : Window
  txnext : Nat
  replycnt : Nat
  egress : Option Nat
  ctxS : Nat
  ctxE : Nat
  welcome : Option Exchange
  detached : Bool
  inflight : Nat
  idle : Nat
  rekeyDue : Bool
  rekeyReason : Nat
  rekeySent : Nat
  fence : Bool
  qtag : Nat
  qtagLeft : Nat
  qreplay : Nat
  qreplayLeft : Nat
  used : Nat
  deriving DecidableEq, Repr

/-- A set-up of a cluster's set-up unit (R191): the flow wanted, whether its entry is read, its home claimed, the cluster asked to migrate
it, whether a successor session key is what is wanted (R199), or S at the present generation for a flow that was told of a new one (R199, R205),
whether it has a slot and since when (ns of uptime), the way taken, and
the keys derived so far (L4 only until the last of them, R237). -/
structure Setup where
  tenant : Nat
  terminal : Nat
  dir : Nat
  read : Bool
  claimed : Bool
  migrating : Option Nat
  successor : Bool
  session : Bool
  started : Bool
  begun : Nat
  way : Option Nat
  l4 : Option Bytes
  skey : Option Bytes
  ekey : Option Bytes
  hkey : Option Bytes
  deriving DecidableEq, Repr

/-- The per-boot keys of DRAM: the two of AES-XTS, and that of the MAC of the Terminal Register's lines (R20, R183). -/
structure DramKeys where
  data : Bytes
  tweak : Bytes
  mac : Bytes
  deriving DecidableEq, Repr

/-- Flows and terminals: the register in DRAM by slot, the per-boot keys, the version counters of its lines by slot, those of counter lines by line and
those of third-level lines, on die, by line (R183), the register image in ledger flash and, after a zeroization, its ciphertext whose key is gone (R250), pages loaded since the start and the next page of
background loading (R186),
the keeper's CLEAN flag and its copy (R185), the pages asked for on demand, the flow caches by cluster * 16384 + set * 4 + way,
set-ups by cluster, profiles by 16 * tenant + profile, exchange queues by tile, failed exchanges in a row by slot (R208), and
the command waiting for a flush. -/
structure FlowState where
  terms : Tab TermEntry
  dramKeys : DramKeys
  versions : Tab Nat
  lineVersions : Tab Nat
  dieVersions : Tab Nat
  image : Tab TermEntry
  lostImage : Tab Bytes
  nextPage : Nat
  loaded : Tab Bool
  allLoaded : Bool
  clean : Bool
  cleanCopy : Bool
  changed : Bool
  fencedStart : Bool
  flows : Tab (Option Flow)
  setups : Tab (List Setup)
  profiles : Tab Profile
  exchanges : Tab (List Exchange)
  xchgFails : Tab Nat
  flushCmds : List CmdRef
  flushing : Bool
  demand : List Nat
  useClock : Nat
  deriving DecidableEq, Repr

/-! ### Keys (chapter 07) -/

/-- A Vault slot: its two Boolean shares and its metadata (R222, R230). -/
structure Slot where
  shareA : BitVec 256
  shareB : BitVec 256
  incarn : Nat
  state : Nat
  level : Nat
  origin : Nat
  cls : Nat
  len : Nat
  attr : BitVec 8
  gen : Nat
  owner : Nat
  domain : Nat
  limitExp : Nat
  childExp : Nat
  count : Nat
  kcv : Bytes
  deriving DecidableEq, Repr

/-- An EMPTY slot. -/
def Slot.empty : Slot := ⟨0, 0, 0, 0, 0, 0, 0, 0, 0, 0, 0, 0, 0, 0, 0, []⟩

/-- A key store record (R228): metadata, and the key block when the slot is not derived. -/
structure KeyRecord where
  meta32 : Bytes
  block : Bytes
  deriving DecidableEq, Repr

/-- A region table entry (R252). -/
structure Region where
  present : Bool
  preload : Bool
  gen : Nat
  deriving DecidableEq, Repr

/-- A key outside the Vault as two Boolean shares (R18). -/
structure Shares where
  a : Bytes
  b : Bytes
  deriving DecidableEq, Repr

/-- An entry of a Leaf Mint's L3 cache (R236). -/
structure L3Entry where
  tenant : Nat
  region : Nat
  gen : Nat
  shares : Shares
  deriving DecidableEq, Repr

/-- A request to the Mint (R235): the rank it is served in, the cluster that asked, and what it names. -/
structure MintReq where
  rank : Nat
  cluster : Nat
  tenant : Nat
  region : Nat
  slot : Nat
  deriving DecidableEq, Repr

/-- A grant held by a cluster (R234): the slot, its incarnation and generation, the key as shares, and invocations left. -/
structure Grant where
  slot : Nat
  incarn : Nat
  gen : Nat
  shares : Shares
  left : Nat
  deriving DecidableEq, Repr

/-- What a purge commits once every tile has acknowledged it (R239). -/
inductive PurgeWhat where
  | tenantGen (tenant : Nat)
  | regionGen (tenant region : Nat)
  | destroyTenant (tenant : Nat)
  | seed (tenant which : Nat)
  deriving DecidableEq, Repr

/-- A purge that awaits acknowledgement (R239). -/
structure Purge where
  what : PurgeWhat
  acks : List Nat
  cmd : Option CmdRef
  deriving DecidableEq, Repr

/-- Keys: Vault slots, the key store in custody flash, the incarnation record of R250, the region table by tenant * 4096 + region,
zones by tenant * 256 + zone (slot handles), tile seed tables by tile * 512 + tenant (X25519 seed, ML-KEM seed), L3 caches and
grants by cluster, Mint requests, L3 keys on their way to clusters (R236), tenants whose L2 KCV did not match (R229), the open purge and those behind it, fingerprint keys by epoch, the L0 generation of the keeper
record, the factory certificate, the keys of both permutations of R226 with the keeper bank's key before the move and its keeper pointer, and
whether a stopped Mint waits for its test after a custody reset (R238). -/
structure KeyState where
  slots : Tab Slot
  store : Tab KeyRecord
  incarns : Tab Nat
  regions : Tab Region
  zones : Tab Nat
  seeds : Tab (Shares × Shares)
  l3 : Tab (List L3Entry)
  grants : Tab (List Grant)
  mintQ : List MintReq
  deliver : List (Nat × L3Entry)
  badL2 : List Nat
  purges : List Purge
  fpKeys : Tab Bytes
  l0gen : Nat
  certificate : Bytes
  permKey : BitVec 256
  keeperPermKey : BitVec 256
  keeperOldKey : BitVec 256
  keeperMoved : Nat
  mintRetest : Bool
  roundVisited : Bool
  leafStopped : Tab Bool
  deriving DecidableEq, Repr

/-! ### The ledger (chapter 08) -/

/-- A stream of leaves (R260). -/
structure Stream where
  owner : Nat
  retained : Bool
  epoch : Nat
  deriving DecidableEq, Repr

/-- An open chunk (R260, R261). -/
structure Chunk where
  stream : Stream
  seq : Nat
  leaves : List Bytes
  deriving DecidableEq, Repr

/-- A closed chunk's root on its way to the tile's tree unit (R262). -/
structure ChunkRoot where
  cluster : Nat
  stream : Stream
  seq : Nat
  count : Nat
  root : Bytes
  deriving DecidableEq, Repr

/-- A tile tree (R263): the chunk roots in index order. -/
structure TileTree where
  tile : Nat
  stream : Stream
  roots : List Bytes
  deriving DecidableEq, Repr

/-- A tile root at the sequencer. -/
structure TileRoot where
  tile : Nat
  stream : Stream
  root : Bytes
  deriving DecidableEq, Repr

/-- An epoch that has closed and whose roots are not formed (R266, R271): the mode, maintenance set and HALT at the close, the chain
digest of the last record programmed before it, whether it is idle (R290), the tiles that have formed their roots, and FINAL. -/
structure CloseInfo where
  epoch : Nat
  mode : Mode
  maint : MaintSet
  halted : Bool
  chain : Bytes
  idle : Bool
  formed : List Nat
  final : Bool
  deriving DecidableEq, Repr

/-- A formed root awaiting signature and its record (R270 to R273): tenant, or 0xFFFF for the device root; its epoch, body,
idle epochs folded, ledger key generation, whether it is signed, the signatures, and whether it is UNSIGNED. -/
structure FormedRoot where
  owner : Nat
  epoch : Nat
  body : Bytes
  idle : Nat
  keyGen : Nat
  signed : Bool
  sigE : Bytes
  sigM : Bytes
  unsigned : Bool
  deriving DecidableEq, Repr

/-- An event waiting in the event queue (R277, R278): its 56-byte body, protection, and the command that waits for it. -/
structure Event where
  code : Nat
  body : Bytes
  isProtected : Bool
  deriving DecidableEq, Repr

/-- A final reply that waits until every protected event of its command has entered the event queue (R278). -/
structure HeldReply where
  cmd : CmdRef
  status : Nat
  out : Bytes
  detail : Nat
  after : Nat
  deriving DecidableEq, Repr

/-- A journal record (R274) with its sequence, type and epoch (for a root, the epoch of its body). -/
structure JRecord where
  seq : Nat
  typ : Nat
  owner : Nat
  epoch : Nat
  bytes : Bytes
  deriving DecidableEq, Repr

/-- A receipt page (R282) of a tenant: L0 generation, page sequence, epoch of the first entry, entries, whether it is acknowledged. -/
structure RcptPage where
  tenant : Nat
  l0gen : Nat
  seq : Nat
  epoch : Nat
  entries : List Bytes
  acked : Bool
  deriving DecidableEq, Repr

/-- Counts of one owner in one epoch (R270, R271): leaves, retained leaves without a receipt, late leaves, and the first and last page
sequence that holds a receipt of the epoch. -/
structure EpochCount where
  owner : Nat
  epoch : Nat
  leaves : Nat
  lost : Nat
  late : Nat
  firstPage : Option Nat
  lastPage : Option Nat
  deriving DecidableEq, Repr

/-- A read of ledger flash that a command awaits (R292, R293): the status and output that a good read completes with. -/
structure FlashRead where
  cmd : CmdRef
  status : Nat
  out : Bytes
  deriving DecidableEq, Repr

/-- The Ledger beside its registers: leaf FIFOs and open chunks by cluster, next chunk sequences, chunk roots in flight, tile
trees, tile roots, the first epoch that has not closed, whether the sequencer runs, the first epoch after the start, epochs closed and
not rooted, the chain digest at the last close, previous roots by tenant (512 = the device) as formed and as programmed, counts, formed roots in record order, idle
epochs folded by owner, the event queue, events held at their sources with the replies that wait for them, events dropped since the last
record and by epoch, whether the START event is written and the events that follow it, the assembling page and the page being
programmed, journal pages oldest first with the number of the first of them, the next sequence, the chain digest of the last record made
and of the last one programmed, journal acknowledgement, receipt pages open, next page sequences, full pages not yet programmed and
programmed pages, the last epoch rooted by tenant (plus 1), reads in progress, the keeper's last root epoch mark (R298), tenants destroyed
whose last root is to come, blocks reclaimed since HALT, and whether no further roots are formed (R281). -/
structure LedgerState where
  fifos : Tab (List LeafIn)
  chunks : Tab (List Chunk)
  chunkSeqs : Tab (List (Stream × Nat))
  roots : List ChunkRoot
  trees : List TileTree
  tileRoots : List TileRoot
  nextClose : Nat
  running : Bool
  firstEpoch : Option Nat
  closing : List CloseInfo
  chainAtClose : Bytes
  prev : Tab Bytes
  prevDone : Tab Bytes
  counts : List EpochCount
  signQ : List FormedRoot
  idleFolded : Tab Nat
  evq : List Event
  evHeld : List Event
  heldReplies : List HeldReply
  dropped : Nat
  droppedIn : Tab Nat
  started : Bool
  afterStart : List Event
  page : List JRecord
  pageForced : Bool
  programming : List JRecord
  journal : List (List JRecord)
  firstPage : Nat
  nextSeq : Nat
  chain : Bytes
  chainDone : Bytes
  ackSeq : Nat
  openPage : Tab (List Bytes)
  openEpoch : Tab Nat
  pageSeq : Tab Nat
  rcptProg : List RcptPage
  pages : List RcptPage
  rooted : Tab Nat
  reads : List FlashRead
  lastRoot : Nat
  leaving : Tab Bool
  reclaimed : Nat
  finalDone : Bool
  deriving DecidableEq, Repr

/-- A block of ledger flash (R459 to R461): erase counter, area (LFS_BLK_INFO.AREA), owner of a receipt block, and whether it is grown
bad. -/
structure LBlock where
  erases : Nat
  area : Nat
  tenant : Option Nat
  grown : Bool
  deriving DecidableEq, Repr

/-- The pages written in a second of uptime and in the one before (LFS_BW). -/
structure WriteRate where
  sec : Nat
  now : Nat
  last : Nat
  deriving DecidableEq, Repr

/-- Ledger flash beside its registers: blocks, journal blocks in use oldest first (each holds 1,024 pages), receipt blocks in use as
(tenant, page group, block), blocks being erased, blocks the journal borrows, the checkpointed counters and the erases logged since, the page map of the
register image as 1,024 * block + page, which its header page repeats, the image block being filled with its next page (R460), the wear moves (true)
and relocations scheduled, and the pages written of late. -/
structure LflashState where
  blocks : Tab LBlock
  jblocks : List Nat
  rblocks : List (Nat × Nat × Nat)
  erasing : List Nat
  borrowed : Nat
  checkpoint : Tab Nat
  eraseLog : List Nat
  imgMap : Tab (Option Nat)
  imgOpen : Option (Nat × Nat)
  moves : List (Nat × Bool)
  bw : WriteRate
  deriving DecidableEq, Repr

/-! ### Time (chapter 09) -/

/-- A game table entry (R303). -/
structure Game where
  valid : Bool
  game : Nat
  tenant : Nat
  margin : Nat
  close : BitVec 64
  deriving DecidableEq, Repr

/-- An invalid entry. -/
def Game.none : Game := ⟨false, 0, 0, 0, 0⟩

/-- A change to the game table on its way (R306): index, old and new entries, activation stamp in nanoseconds of the timebase,
whether it has been activated, the clusters that acknowledged, and its command. -/
structure GameChange where
  idx : Nat
  old : Game
  new : Game
  stampA : Nat
  active : Bool
  acks : List Nat
  cmd : Option CmdRef
  deriving DecidableEq, Repr

/-- The timebase and games beside their registers: nanoseconds since second 0 of the count in force (R296), the nanoseconds of
REFCLK time counted and that count at the start of the last slew (R300), the count of wraps in
the keeper record (R265), the residual phase error in ns (R301), the nanosecond count at the last accepted pulse, the pending SET_TIME
(its value stands in TIM_NEXT_SEC) and REALIGN commands with their acceptance instants (R619), the keeper count in nanoseconds (R298), the game table by set * 4 + way, the
change in progress and those behind it, and high-water marks by tenant (R304). -/
structure TimeState where
  now : Nat
  raw : Nat
  slewFrom : Nat
  wraps : Nat
  residual : Int
  lastPulse : Nat
  distU : Nat
  pendSet : Option (Nat × Option CmdRef)
  realigns : List (Nat × Option CmdRef)
  keeperNs : Nat
  games : Tab Game
  changes : List GameChange
  marks : Tab Nat
  deriving DecidableEq, Repr

/-! ### Dual control and custodian cards (chapter 18) -/

/-- A roster entry (R482): scope (512 = device), STATE (0 EMPTY, 1 ENROLLED, 2 REVOKED), REGULATOR, CARD_ID and PUBKEY. -/
structure Custodian where
  scope : Nat
  state : Nat
  regulator : Bool
  cardId : Bytes
  pubkey : Bytes
  deriving DecidableEq, Repr

/-- An EMPTY roster entry. -/
def Custodian.empty : Custodian := ⟨0, 0, false, [], []⟩

/-- The policy of a scope (R483), and whether the scope has one of its own. -/
structure Policy where
  given : Bool
  m : Nat
  regMin : Nat
  deriving DecidableEq, Repr

/-- The default policy: M = 2, REG_MIN = 0. -/
def Policy.dflt : Policy := ⟨false, 2, 0⟩

/-- A nonce held by a function (R484), with the instant of its issue in milliseconds of uptime. -/
structure Nonce where
  fn : Nat
  value : Bytes
  issued : Nat
  deriving DecidableEq, Repr

/-- A tenant (R215, R491): whether it exists and its custody domain. -/
structure Tenant where
  present : Bool
  domain : Nat
  deriving DecidableEq, Repr

/-- No tenant. -/
def Tenant.none : Tenant := ⟨false, 0⟩

/-- A charter record (R550): role (0 none, 1 HOLDER, 2 STANDBY, 3 RELEASING, 4 TAKING, 5 DORMANT), generation, REPLICATE, the expiry of
the lease this side granted and of the lease it holds (timebase ns, 0 = none), the stamp from which a TAKING device seals (ns), the hand-over
cut E (an epoch), whether FINAL was sent or received, the role of the previous start (R556), and while the LAST root of E - 1 is awaited the
epochs folded so far (R558). -/
structure Charter where
  role : Nat
  gen : Nat
  replicate : Bool
  granted : Nat
  leaseHeld : Nat
  start : Option Nat
  cut : Option Nat
  final : Bool
  prior : Nat
  await : Option Nat
  deriving DecidableEq, Repr

/-- No charter record. -/
def Charter.none : Charter := ⟨0, 0, false, 0, 0, Option.none, Option.none, false, 0, Option.none⟩

/-- One item of a step's undo data (R496): what it will change and the prior value. -/
inductive Undo where
  | roster (number : Nat) (old : Custodian)
  | policy (scope : Nat) (old : Policy)
  | slot (number : Nat) (old : Slot)
  | record (number : Nat) (old : KeyRecord)
  | tenant (number : Nat) (old : Tenant)
  | charter (tenant : Nat) (old : Charter)
  | region (idx : Nat) (old : Region)
  | perm (fn : Nat) (old : Word)
  | pairing (paired : Bool) (partner : Nat) (digest : Bytes) (member : Nat) (slot : Option Nat)
  deriving DecidableEq, Repr

/-- A step of a ceremony as the journal holds it (R496): opcode, undo data, and whether it is done or undone. -/
structure CerStep where
  opcode : Nat
  undo : List Undo
  done : Bool
  undone : Bool
  deriving DecidableEq, Repr

/-- The states of R490. -/
inductive CerPhase where
  | idle | opened | step | closing | restoring
  deriving DecidableEq, Repr

/-- A record of the custody transaction journal (R496). -/
structure CerRecord where
  typ : Nat
  serial : Nat
  step : Nat
  opcode : Nat
  deriving DecidableEq, Repr

/-- What a step that is running still wants from cards (R491 to R493), with the slots it takes them from (4 = the token), what it has and
the CARD_IDs of the cards used. -/
inductive CardWant where
  /-- read the identity of the card in a slot and have it sign a challenge (ENROL_CUSTODIAN) -/
  | enrol (number slot scope : Nat) (regulator : Bool) (challenge : Bytes)
  /-- read `n` components of an L1 key and compare its KCV (CREATE_DOMAIN profile 1) -/
  | readDomain (domain n : Nat) (slots : List Nat) (kcv : Bytes) (got cards : List Bytes)
  /-- write the components left to different cards (CREATE_DOMAIN profile 2) -/
  | writeDomain (domain : Nat) (slots : List Nat) (key : Bytes) (left cards : List Bytes)
  /-- read `n` components of a stored key for a pool slot with the metadata given (IMPORT_COMPONENTS) -/
  | importKey (slot : Nat) (v : Slot) (n scope : Nat) (kcv : Bytes) (got cards : List Bytes)
  deriving DecidableEq, Repr

/-- A step that runs with cards: its command and opcode, what it wants, the slot whose exchange is in progress with the command of R505 sent last (0
SELECT, 1 GET_ID, 2 SIGN or OPEN_SM, 3 READ_COMPONENT or WRITE_COMPONENT), CARD_ID and key of that card, the ephemeral scalar of its
session, whether the step belongs to the open ceremony, the slots whose present card has ended its exchange, the interim reply that the step's first wait
for a card sends (none once sent), and the APDU sent last. -/
structure CardStep where
  cmd : CmdRef
  opcode : Nat
  want : CardWant
  exchange : Option Nat
  stage : Nat
  ident : Bytes
  pub : Bytes
  eph : Bytes
  inCeremony : Bool
  used : List Nat
  interim : Option Nat
  apdu : Bytes
  deriving DecidableEq, Repr

/-- What a card's ATR leads to (R500 to R503): protocol, EDC as CRC, Fi, Di, DIV, WT or BWT in etu, CWT in etu, extra guard time, and the PPS request. -/
structure CardPlan where
  proto : Nat
  crc : Bool
  fi : Nat
  di : Nat
  div : Nat
  wt : Nat
  cwt : Nat
  guard : Nat
  pps : Bytes
  deriving DecidableEq, Repr

/-- The working state of one card slot beside its registers: characters to send and received (FIFOs), whether a PPS exchange has failed since the card
came, errors on the present character or block, and the plan whose PPS response is awaited. -/
structure CardSlot where
  tx : List Byte
  rx : List Byte
  retried : Bool
  rptCount : Nat
  plan : Option CardPlan
  deriving DecidableEq, Repr

/-- An idle slot. -/
def CardSlot.reset : CardSlot := ⟨[], [], false, 0, none⟩

/-- Ceremonies: the committed and the working roster and policies (scope 512 = device), tenants, the permission words of the charter (the
word of PF0 defaults to READ and OWNER), nonces, the phase, the opening function, the mode the ceremony was opened from with its maintenance set, its serial, whether it
is inaugural, its steps, the journal, the step that awaits cards, the instant of the last step command, the command that an abort or a close completes, and the card slots. -/
structure CeremonyState where
  roster : Tab Custodian
  work : Tab Custodian
  policies : Tab Policy
  workPolicies : Tab Policy
  tenants : Tab Tenant
  perms : Tab Word
  nonces : List Nonce
  phase : CerPhase
  fn : Nat
  openedFrom : Mode
  openedSet : MaintSet
  serial : Nat
  inaugural : Bool
  steps : List CerStep
  journal : List CerRecord
  card : Option CardStep
  lastStep : Nat
  endCmd : Option CmdRef
  slots : Tab CardSlot
  deriving DecidableEq, Repr

/-! ### Tamper and health (chapter 20) -/

/-- An alarm record (R542) with the reporters counted and the instant of its last report in nanoseconds of uptime. -/
structure Alarm where
  cls : Nat
  detail : Nat
  security : Bool
  attributed : Bool
  summary : Bool
  first : Bool
  sources : List Nat
  src : Nat
  attr : Nat
  tenant : Nat
  count : Nat
  firstStamp : BitVec 64
  lastStamp : BitVec 64
  lastAt : Nat
  data : Nat
  deriving DecidableEq, Repr

/-- The alarm aggregator (R540 to R544): open records, queued records, the first record of each class since ALM_ACK, SECURITY records
held at their sources, and the classes acknowledged since. -/
structure AlarmState where
  opened : List Alarm
  queue : List Alarm
  firsts : Tab (Option Alarm)
  held : List Alarm
  seen : Tab Bool
  deriving DecidableEq, Repr

/-! ### Device pairs and charters (chapter 21) -/

/-- A take in progress (R552): tenant, command, FORCE, and when the request was sent. -/
structure Take where
  tenant : Nat
  cmd : CmdRef
  force : Bool
  sent : Nat
  deriving DecidableEq, Repr

/-- The messages of the mirror link. -/
inductive MsgKind where
  | lease | charter | takeRequest | takeAck | final | root | rootAck | line | page | config | domain | handshake
  deriving DecidableEq, Repr

/-- A message sent over the mirror link: its kind, the tenant it concerns (0xFFFF = none) and its contents. -/
structure PairMsg where
  kind : MsgKind
  tenant : Nat
  bytes : Bytes
  deriving DecidableEq, Repr

/-- A PAIR_JOIN in progress (R559): its command, the partner's serial and identity digest, this side's ephemeral scalar and ML-KEM seed, and what the
partner's keys gave: the secrets and the transcript digest. -/
structure PairJoin where
  cmd : CmdRef
  serial : Nat
  digest : Bytes
  eph : Bytes
  keys : Option (Bytes × Bytes)
  deriving DecidableEq, Repr

/-- The pair (R549 to R559): whether one is formed, the partner's serial and identity digest, the MEMBER index, the pool slot of the pair key, the
link and its lanes (bit per lane), the instant of the last message (ns of uptime), charter records, takes in progress, root records and
receipt pages received (tenant, epoch or sequence, bytes), messages sent, messages that wait for the link, the PAIR_JOIN in progress, and
tenant roots that wait for an acknowledgement (tenant, epoch, instant in ms of uptime), and the link keys (empty = none). -/
structure PairState where
  paired : Bool
  partner : Nat
  partnerDigest : Bytes
  member : Nat
  pairSlot : Option Nat
  linkUp : Bool
  lanes : Nat
  lastMsg : Nat
  charters : Tab Charter
  takes : List Take
  roots : List (Nat × Nat × Bytes)
  pages : List (Nat × Nat × Bytes)
  sent : List PairMsg
  backlog : List PairMsg
  joinCmd : Option PairJoin
  ackWait : List (Nat × Nat × Nat)
  linkKey : Bytes
  deriving DecidableEq, Repr

/-! ### The custody cores and their gates (chapters 10 to 12) -/

/-- A posted store on its way to its target (R321): address, size code (0 byte, 1 halfword, 2 word), data and the ring and colour it
carries. -/
structure PostedStore where
  addr : Nat
  size : Nat
  data : Word
  ring : Nat
  colour : Nat
  deriving DecidableEq, Repr

/-- What the cores wait for at an instruction boundary they have not reached: the response of a load (destination, address, size,
sign extension), the response of a stack read (POP, or RET with its count), the acknowledgements a FENCE needs, or an eligible source
(R321, R358, R364). -/
inductive CoreWait where
  | load (rd : Fin 16) (addr size : Nat) (signed : Bool)
  | pop (rd : Fin 16) (addr : Nat)
  | ret (n addr : Nat)
  | fence
  | wait
  deriving DecidableEq, Repr

/-- The custody cores (R311, R343, R345): general registers, PC, FLAGS (Z, S, K, O, T in bits 0 to 4), CRING, CYCLE with the snapshot
of R317, the retired count, special registers 16 to 63 by index, the gate store, posted stores oldest first, a refusal that awaits its
FENCE or load (target gate and address, R321), what the cores wait for, an escalation that has just arisen (R355), and whether a mismatch
or a failed stage 0 has stopped them; `gB` and `flagsB` are core B's register file and FLAGS, held inverted (R334). -/
structure CoreState where
  g : Vector Word 16
  pc : Word
  flags : BitVec 5
  gB : Vector Word 16
  flagsB : BitVec 5
  cring : Nat
  cycle : BitVec 64
  cycleHi : Word
  retired : BitVec 64
  sr : Tab Word
  gates : Tab Word
  posted : List PostedStore
  refused : List (Nat × Nat)
  waiting : Option CoreWait
  escalated : Bool
  stopped : Bool
  deriving DecidableEq, Repr

/-- A committed region of a gate (R375): BASE, LIMIT, attributes and COLOUR word. -/
structure Rgn where
  base : Word
  limit : Word
  attr : Word
  colr : Word
  deriving DecidableEq, Repr

/-- A violation record (R384) with the instant of its first refusal in custody cycles. -/
structure Violation where
  code : Nat
  gate : Nat
  region : Nat
  write : Bool
  size : Nat
  ring : Nat
  master : Nat
  addr : Nat
  colour : Nat
  tag : Option Nat
  count : Nat
  cycle : Nat
  deriving DecidableEq, Repr

/-- A retag in progress (R371): space (false SRAM, true DRAM), first granule, granules left and the new colour. -/
structure Retag where
  dram : Bool
  first : Nat
  count : Nat
  colour : Nat
  deriving DecidableEq, Repr

/-- The gates and what lies behind them: committed regions by 16 * gate + region, the stages of 64-bit pairs by the address of _LO
(master and word) and the read snapshots by 2048 * address + master (R383), the violation log, custody SRAM and DRAM bytes with their
tags by granule, and the retag in progress. -/
structure GateState where
  regions : Tab Rgn
  stages : Tab (Option (Nat × Word))
  snaps : Tab (Option Word)
  log : List Violation
  sram : Tab Byte
  sramTags : Tab Nat
  dram : Tab Byte
  dramTags : Tab Nat
  retag : Option Retag
  deriving DecidableEq, Repr
/-! ### Custody flash (chapter 16) -/

/-- An erase that has begun (R452, R453): first flash offset, bytes, the instant it began or last resumed (ns of uptime), whether it is suspended
and whether by a read, whether a suspend is pending, and the command it serves. -/
structure FlashErase where
  first : Nat
  size : Nat
  since : Nat
  suspended : Bool
  byRead : Bool
  pendSuspend : Bool
  cmd : Option CmdRef
  deriving DecidableEq, Repr

/-- A read of the flash window: offset, length, words whose single-bit error was corrected, and the word with a double-bit error if there is one (R448). -/
structure WindowRead where
  addr : Nat
  len : Nat
  corrected : Nat
  uncorrected : Option Nat
  deriving DecidableEq, Repr

/-- Custody flash beside its registers: programmed bytes by offset, pages (256 bytes) whose stored bits are not known, with the free value that
names them, marked granules and torn pages of R456, the erase and the program in progress, reads that wait, the instant of the
last read, BAD sectors, granules replaced since shipment, and erases that commands wait for. -/
structure FlashState where
  cells : Tab Byte
  garble : Tab Nat
  marked : List Nat
  torn : List Nat
  erase : Option FlashErase
  prog : Option (Nat × Bytes)
  reads : List WindowRead
  lastRead : Nat
  bad : List Nat
  grown : List Nat
  eraseQ : List (CmdRef × Nat × Nat)
  deriving DecidableEq, Repr

/-! ### Digest and cipher engines (chapter 13) -/

/-- A digest session or the computation of a context (R386 to R390): function (none = custody firmware), colour, ALG, HMAC, slot handle,
declared total, bytes absorbed, inner chaining state, outer midstate, pending bytes of the partial block, DIG_JOB, the state of
DIG_CTX_STAT with its error code, and the result. -/
structure DigSession where
  fn : Option Nat
  colour : Nat
  alg : Nat
  hmac : Bool
  handle : Nat
  total : Nat
  absorbed : Nat
  inner : Bytes
  outer : Bytes
  partBlock : Bytes
  job : Word
  stat : Nat
  err : Nat
  result : Bytes
  ring0 : Bool
  deriving DecidableEq, Repr

/-- A free context. -/
def DigSession.free : DigSession := ⟨none, 0, 0, false, 0, 0, 0, [], [], [], 0, 0, 0, [], false⟩

/-- What a feed feeds: a context by index, or a host session by number. -/
inductive DigTarget where
  | context (i : Nat)
  | session (n : Nat)
  deriving DecidableEq, Repr

/-- A feed in progress: its target, address, length and colour, the command it serves with an expected value, and whether the session ends with
it (DIGEST). -/
structure DigFeed where
  target : DigTarget
  addr : Nat
  len : Nat
  colour : Nat
  cmd : Option CmdRef
  expect : Option Bytes
  oneShot : Bool
  deriving DecidableEq, Repr

/-- The digest engine beside its registers: contexts, host sessions by number, sessions evicted from contexts, the host sessions that hold a context, the
least recently fed first, and the escrow blobs of those that were evicted, by number (R391), feeds in progress oldest first,
the escrow key and blob serial, the next address of the boot image stream, the extension that waits (register, value), and the Ledger sequencer's own
staging of DIG_MR_DATA (R397). -/
structure DigestState where
  ctxs : Tab DigSession
  sessions : Tab DigSession
  evicted : List DigSession
  resident : List Nat
  blobs : Tab Bytes
  feeds : List DigFeed
  escrowKey : Bytes
  serial : Nat
  snoopNext : Nat
  extend : Option (Nat × Bytes)
  ledgerStage : Bytes
  deriving DecidableEq, Repr

/-- A cipher job (R400, R401): KCV, key copy, slot handle (none = register key), colour, source, length, CMP, expected tag, and the command. -/
structure CphJob where
  kcv : Bool
  key : Bytes
  handle : Option Nat
  colour : Nat
  addr : Nat
  len : Nat
  compare : Bool
  expect : Bytes
  cmd : Option CmdRef
  deriving DecidableEq, Repr

/-- The custody cipher engine beside its registers: main jobs (the first runs), urgent jobs (the first runs), and the words of the register key
written since it was cleared. -/
structure CipherState where
  main : List CphJob
  urgent : List CphJob
  written : List Nat
  deriving DecidableEq, Repr


/-! ### Random numbers (chapter 14) -/

/-- A noise source (R408 to R415): STATE, blocks left of the start-up test and whether one of them failed, whether that test is the first since
reset, consecutive start-up tests failed, the identical bits at the end of the last block (bit and count), instants of failed blocks
(ns of uptime), bias and correlation estimates (units of 2^-32), the accumulator with its credit, and the outputs that wait. -/
structure RngSource where
  stat : Nat
  startLeft : Nat
  startBad : Bool
  first : Bool
  startFails : Nat
  lastBit : Option Bool
  run : Nat
  fails : List Nat
  bias : Int
  corr : Int
  acc : Bytes
  credit : Nat
  outs : List (BitVec 256)
  deriving DecidableEq, Repr

/-- A source at reset: its first start-up test is still to run. -/
def RngSource.reset : RngSource := ⟨0, 4, false, true, 0, none, 0, [], 0, 0, [], 0, []⟩

/-- One pass of a calibration set (R422, R539): min-entropy per bit of each source in units of 2^-16, and the thermal part. -/
structure CalPass where
  h : List Nat
  thermal : Bytes
  deriving DecidableEq, Repr

/-- A CALIBRATE in progress (R423): its command, expert form, whether the present pass is void, and the idle pass once complete. -/
structure CalRun where
  cmd : CmdRef
  expert : Bool
  isVoid : Bool
  idle : Option CalPass
  deriving DecidableEq, Repr

/-- A GET_RANDOM that waits (R416): command, length, instant it began, and whether it needs a reseed first. -/
structure RandomReq where
  cmd : CmdRef
  len : Nat
  since : Nat
  reseed : Bool
  deriving DecidableEq, Repr

/-- The random number subsystem beside its registers: sources, the merged additional input and begin of a reseed that waits with the RESEED
commands it completes, requests that wait, the software port's buffer and EMPTY_READ, calibrations (the first runs), the stored set
(idle and ballast pass), and the generate requests served since the last reseed and its instant (R416, R417). -/
structure RngState where
  sources : Tab RngSource
  extra : Bytes
  waitSince : Nat
  reseedCmds : List CmdRef
  requests : List RandomReq
  port : List Word
  emptyRead : Bool
  cals : List CalRun
  calIdle : Option CalPass
  calBallast : Option CalPass
  served : Nat
  reseededAt : Nat
  deriving DecidableEq, Repr

/-! ### Firmware update (chapter 17) -/

/-- An image being staged (R473): the transport stream accepted so far, or a copy of the running bank's image. -/
structure Staged where
  stream : Bytes
  copied : Bool
  deriving DecidableEq, Repr

/-- A staging session (R473, R477): the images by kind, and whether UPDATE_BEGIN's erase is still running. -/
structure UpdSession where
  kinds : Tab Staged
  erasing : Bool
  deriving DecidableEq, Repr

/-- A job of the update engine: one staged in its registers (UPD_JOB, colour, source, destination, length), or one of a command. -/
inductive UpdJob where
  | reg (job colour src dst len : Nat)
  | copy (kind : Nat) (cmd : CmdRef)
  | check (cmd : CmdRef)
  deriving DecidableEq, Repr

/-- Firmware update beside its registers: the open session, whether the inactive bank has been found valid, engine jobs (the first runs), and
the settings copies of R476 (format of each, which is newest, and the format in use). -/
structure UpdateState where
  sess : Option UpdSession
  valid : Bool
  jobs : List UpdJob
  fmtA : Nat
  fmtB : Nat
  newestB : Bool
  fmt : Nat
  deriving DecidableEq, Repr

/-! ### Public-key engines (chapter 15) -/

/-- A public-key operation as asked for (R432, R444): OP, ALG, HASH, PAD, modulus length in bytes, DETERM, SEEDED, message and context
length. -/
structure PkeReq where
  op : Nat
  alg : Nat
  hash : Nat
  pad : Nat
  modLen : Nat
  determ : Bool
  seeded : Bool
  msgLen : Nat
  ctxLen : Nat
  deriving DecidableEq, Repr

/-- What a custody unit runs: a register job (its request, the seed handle named, operand slots, colour, address and length of LOAD and STORE,
and the seed received at START with its label), the operation of a host command with its operands, or a job of the Ledger sequencer. -/
inductive PkeWork where
  | reg (r : PkeReq) (slots : List Nat) (colour addr len : Nat) (seed : Option (Bytes × Bytes))
  | host (cmd : CmdRef) (r : PkeReq) (operands : List Bytes)
  | seq
  deriving DecidableEq, Repr

/-- A custody unit (R427 to R441): STATE (0 IDLE, 1 BUSY, 2 CLEARING, 3 OUT), its work, the bands of the layout in force, the error that the
end of CLEARING shows, and the instants of failed invariant checks. -/
structure PkeUnit where
  stat : Nat
  work : Option PkeWork
  bands : List (Nat × Nat)
  after : Nat
  faults : List Nat
  deriving DecidableEq, Repr

/-- A custody unit at reset: 64 slots of 8,192 bits. -/
def PkeUnit.reset : PkeUnit := ⟨0, none, [(128, 64)], 0, []⟩

/-- A tile unit (R221, R427): out of service, the tenants whose expanded keys it keeps (the last served first), and instants of faults. -/
structure TileUnit where
  out : Bool
  cached : List Nat
  faults : List Nat
  deriving DecidableEq, Repr

/-- A tile unit at reset. -/
def TileUnit.reset : TileUnit := ⟨false, [], []⟩

/-- The public-key engines beside their registers: custody units, their slot memories by 65,536 * unit + offset, operations of host commands that
wait for a unit, tile units by number (64 to 67 the spares), the unit each tile's spare serves for (plus 1), and verification batches by
tile, oldest first (granule, jobs, channel). -/
structure PkeState where
  units : Tab PkeUnit
  mem : Tab Byte
  queue : List PkeWork
  tiles : Tab TileUnit
  spareFor : Tab Nat
  batches : Tab (List (Nat × Nat × Nat))
  deriving DecidableEq, Repr

/-! ### Repair and Tally (chapter 22) -/

/-- A grown map entry (R566): kind (1 engine, 2 tile unit, 3 custody unit), cause, resource, the one serving in its place (0xFFFF none), port
served (0xFFFF none), and keeper seconds at the failure. -/
structure Grown where
  kind : Nat
  cause : Nat
  res : Nat
  repl : Nat
  port : Nat
  secs : Nat
  deriving DecidableEq, Repr

/-- Repair and Tally beside their registers: the grown map, the lend request being served (port, seal, lender), engines retested that take up their port at its next reset, and the run or stop of R577 that waits (run, first instant
in ns of the timebase). -/
structure RepairState where
  grown : List Grown
  lend : Option (Nat × Bool × Nat)
  regained : List Nat
  gctl : Option (Bool × Nat)
  deriving DecidableEq, Repr

/-! ### Near-field reader and seal tags (chapter 19) -/

/-- A seal record (R514): whether enrolled, the handle of its key's slot, the baseline (read count, open count, TMIN, TMAX), the values last
read, and whether the last check authenticated its tag. -/
structure Seal where
  enrolled : Bool
  handle : Nat
  reads : Nat
  opens : Nat
  tmin : Int
  tmax : Int
  lastReads : Nat
  lastOpens : Nat
  lastTmin : Int
  lastTmax : Int
  authed : Bool
  deriving DecidableEq, Repr

/-- An empty seal record. -/
def Seal.none : Seal := ⟨false, 0, 0, 0, 0, 0, 0, 0, 0, 0, false⟩

/-- A seal check in progress (R515): its command (none at start-up), whether ANT_FAULT was set when it began, NFR_SEAL_CFG and NFR_TEMP_LIM at that
instant, rounds run, for each seal matched its state block and the round, and the handles of the present round that have not answered yet (R512). -/
structure SealRun where
  cmd : Option CmdRef
  ant : Bool
  cfg : Word
  lim : Word
  rounds : Nat
  matched : List (Nat × Bytes × Nat)
  handles : List Bytes
  deriving DecidableEq, Repr

/-- An ENROL_SEAL in progress: its command and seal, the handle that the one tag drew in the inventory round, and the handle of the key's slot once
RELEASE_KEY has answered. -/
structure EnrolRun where
  cmd : CmdRef
  num : Nat
  tag : Option Bytes
  handle : Option Nat
  deriving DecidableEq, Repr

/-- The near-field reader beside its registers: seal records, the check or enrolment in progress, and the challenge of the AUTH_READ sent. -/
structure NfrState where
  seals : Tab Seal
  check : Option SealRun
  enrol : Option EnrolRun
  challenge : Bytes
  deriving DecidableEq, Repr

/-! ### Tamper, keeper and coolant (chapter 20) -/

/-- A tamper log entry (R532), with the alarm record that its TAMPER event carries (R530; none under keeper power). -/
structure TamperEntry where
  secs : Nat
  kind : Nat
  index : Nat
  action : Nat
  transferred : Bool
  keeperPower : Bool
  count : Nat
  mode : Nat
  record : Bytes
  deriving DecidableEq, Repr

/-- What a ZEROIZE event says of a zeroization (R530): cause, detector kind and index, mode before it, keeper seconds, L0 generation, and
the first 24 bytes of SHA-384 over a ticket statement. -/
structure ZeroCause where
  cause : Nat
  kind : Nat
  index : Nat
  mode : Nat
  secs : Nat
  l0gen : Nat
  digest : Bytes
  deriving DecidableEq, Repr

/-- A service window (R523): the switches named and the instant it ends (ns of uptime). -/
structure Window20 where
  mask : Nat
  ends : Nat
  deriving DecidableEq, Repr

/-- Tamper, keeper and coolant beside their registers: the tamper log, the open service window, what the last comparison words of each loop
and mesh net showed (0 agreed, 1 or 2 differed in a row, 3 one differed and the next agreed) by 4 loops then 16 nets, the differing keeper
bursts in a row, the instants of integrity failures on key paths (ns of uptime), good energy tests in a row, the zeroization in progress, the
ZEROIZE events that wait for the next start, the SET_TAMPER_CFG that arms loops, the custody links that retrain by tile, and the thermal conditions in
force (bits 0 to 3 a tile at its warning level, 4 the Strongroom, 5 the inlet), and the 31-bit register of each net's sequence (R521). -/
structure TamperState where
  log : List TamperEntry
  window : Option Window20
  words : Tab Nat
  bursts : Tab Nat
  keyFails : List Nat
  goodTests : Nat
  zero : Option ZeroCause
  zeroEvents : List Bytes
  arming : Option (CmdRef × Word)
  linksDown : BitVec 4
  conds : BitVec 6
  lfsr : Tab Nat
  deriving DecidableEq, Repr

/-- A copy of the settings of sectors 125 to 134 (R449, R476): configuration registers, terminal profiles and the game table. -/
structure Settings where
  regs : Tab Word
  profiles : Tab Profile
  games : Tab Game
  deriving DecidableEq, Repr

/-- The settings kept: the two copies of R476. -/
structure SettingsState where
  copyA : Settings
  copyB : Settings
  deriving DecidableEq, Repr

/-! ### Pins, PMBus, SMBus and the test access port (chapters 23 and 24) -/

/-- SYS_RESET_N low, the SMBus address bits sampled at PWR_OK and the target's last answer (none = NACK or silence), the instruction in force
at the test access port, whether the last one was replaced (R610), the bits its last Capture-IR gave, the boundary register as last updated,
the register last captured, the tile regulators that did not acknowledge (R588) and their readings by 2 * tile (voltage) and 2 * tile + 1
(current). -/
structure PinState where
  resetLow : Bool
  smbAddr : Nat
  smbReply : Option Bytes
  tapIr : Nat
  tapReplaced : Bool
  tapIrOut : Nat
  boundary : BitVec 81
  tapOut : BitVec 81
  noAck : BitVec 4
  regReads : Tab Nat
  deriving DecidableEq, Repr

/-! ### The whole machine -/

/-- Why the machine stops with a fault. No command of the spec does: the spec gives each of them an effect (the type is kept
closed for the interface; nothing raises it, which is safe). -/
inductive Fault where
  /-- Kept for the interface of Host.Core: raised by no meaning. Safe. -/
  | stuck
  deriving DecidableEq, Repr

/-- Why a command is refused. -/
inductive Refusal where
  /-- The command has no meaning yet; raised by an arm of the dispatch only. Safe. -/
  | notModelled (mnemonic : String)
  deriving DecidableEq, Repr

/-- The state of the FL5125. `regs` holds every register of the address map that differs from its reset value; `now` counts
nanoseconds of uptime; `free` counts the free values drawn; `pending` is the queue of commands, first in, first out. -/
structure State where
  regs : Tab Word
  now : Nat
  free : Nat
  sys : SysState
  host : HostState
  dp : PlaneState
  flow : FlowState
  keys : KeyState
  ldg : LedgerState
  lfs : LflashState
  tim : TimeState
  cer : CeremonyState
  alm : AlarmState
  pair : PairState
  mrs : Tab Bytes
  core : CoreState
  gte : GateState
  fsh : FlashState
  dig : DigestState
  cph : CipherState
  rng : RngState
  upd : UpdateState
  pke : PkeState
  rpr : RepairState
  nfr : NfrState
  tpr : TamperState
  conf : SettingsState
  pin : PinState
  pending : List Instr
  deriving DecidableEq, Repr

/-- The pins at power-on: SYS_RESET_N high, no answer on SMBus, IDCODE selected at the test access port. -/
def PinState.reset : PinState := ⟨false, 0, none, 0x01, false, 0, 0, 0, 0, []⟩

/-- The keys at shipment from the wafer: no key anywhere. -/
def KeyState.reset : KeyState :=
  ⟨[], [], [], [], [], [], [], [], [], [], [], [], [], 0, [], 0, 0, 0, 64, false, false, []⟩

/-- The ledger of a device that has recorded nothing. -/
def LedgerState.reset : LedgerState :=
  ⟨[], [], [], [], [], [], 0, false, none, [], [], [], [], [], [], [], [], [], [], 0, [], false, [], [], false, [], [], 0, 0, [], [], 0,
   [], [], [], [], [], [], [], 0, [], 0, false⟩

/-- The cores at reset: every architectural register at its reset value, execution at the boot ROM entry (R311, R313). -/
def CoreState.reset : CoreState :=
  ⟨Vector.replicate 16 0, Config.romEntry, 0, Vector.replicate 16 0xFFFFFFFF, 0x1F, 0, 0, 0, 0, [], [], [], [], none, false, false⟩

/-- Modes and start-up of a device in FACTORY whose main power has just come up: tiles held, no fuse of R33 and R587 blown. -/
def SysState.reset : SysState :=
  ⟨.factory, .factory, false, false, false, false, false, none, ⟨false, 0, []⟩, ⟨false, 0, []⟩, [],
   [(0, .held), (1, .held), (2, .held), (3, .held)], true, false, false, 0, 1, 0⟩

/-- The machine right after its power-on reset: an FL5125 in FACTORY, its flash blank, every register at its reset value but the reset cause
(bit 0, power-on), and no command waiting. The spec gives the reset value of every register; what the Vault, the keeper domain, the fuses and
flash hold before the first start is a DESIGN CHOICE (log entry 60). -/
def State.reset : State :=
  { regs := [(Reg.SYS_RESET_CAUSE, 1)]
    now := 0
    free := 0
    sys := SysState.reset
    host := ⟨[], [], [], 0, [], none, false, false, true, true, 0, [], .none, true, 0, none, []⟩
    dp := ⟨[], [], 0, [], [], [], [], []⟩
    flow := ⟨[], ⟨[], [], []⟩, [], [], [], [], [], 0, [], false, false, false, false, false, [], [], [], [], [], [], false, [], 0⟩
    keys := KeyState.reset
    ldg := LedgerState.reset
    lfs := ⟨[], [], [], [], 0, [], [], [], none, [], ⟨0, 0, 0⟩⟩
    tim := ⟨0, 0, 0, 0, 0, 0, 0, none, [], 0, [], [], []⟩
    cer := ⟨[], [], [], [], [], [], [], .idle, 0, .notary, ⟨false, 0, []⟩, 0, false, [], [], none, 0, none, []⟩
    alm := ⟨[], [], [], [], []⟩
    pair := ⟨false, 0, [], 0, none, false, 0, 0, [], [], [], [], [], [], none, [], []⟩
    mrs := []
    core := CoreState.reset
    gte := ⟨[], [], [], [], [], [], [], [], none⟩
    fsh := ⟨[], [], [], [], none, none, [], 0, [], [], []⟩
    dig := ⟨[], [], [], [], [], [], [], 0, 0, none, []⟩
    cph := ⟨[], [], []⟩
    rng := ⟨[], [], 0, [], [], [], false, [], none, none, 0, 0⟩
    upd := ⟨none, false, [], 0, 0, false, 0⟩
    pke := ⟨[], [], [], [], [], []⟩
    rpr := ⟨[], none, [], none⟩
    nfr := ⟨[], none, none, []⟩
    tpr := ⟨[], none, [], [], [], 0, none, [], none, 0, 0, []⟩
    conf := ⟨⟨[], [], []⟩, ⟨[], [], []⟩⟩
    pin := PinState.reset
    pending := [] }

end Sys2Proof.Machine
end

