-- ==== Sys2Proof/Machine/Base.lean ====
section
/-! DEFINITION. Reading and writing the parts of the state: registers and their fields, counters, free values, stamps, modes,
tenants, slots. Every meaning goes through these. -/

namespace Sys2Proof.Machine

/-- What a command answers. -/
abbrev Out := Host.Outcome State Fault Refusal

/-- The port whose PRT block holds address `a`. -/
def portOfAddr (a : Nat) : Nat :=
  (a - 0x20000000) / 0x4000000 * 128 + (a - 0x20000000) % 0x4000000 / 0x100000 * 8 + (a % 0x100000 / 0x10000 - 1)

/-- The package-wide cluster whose window holds address `a`. -/
def clusterOfAddr (a : Nat) : Nat := (a - 0x20000000) / 0x4000000 * 16 + (a - 0x20000000) % 0x4000000 / 0x100000

/-- The reset value of a register, the per-port and per-cluster rows included: identity rows, and each port served by its own
engines (R12). -/
def regDefault (a : Nat) : Word :=
  match findReg a with
  | none => 0
  | some (_, row, i) =>
    if row.name = "PRT_ID" then BitVec.ofNat 32 (portOfAddr a)
    else if row.name = "PRT_ENGINES" then BitVec.ofNat 32 (2 * portOfAddr a + 2 ^ 16 * (2 * portOfAddr a + 1))
    else if row.name = "DPL_ID" then BitVec.ofNat 32 (clusterOfAddr a + 2 ^ 8 * (clusterOfAddr a / 16))
    else if row.name = "SYS_SERIAL_LO" then Config.serial.setWidth 32
    else if row.name = "SYS_SERIAL_HI" then (Config.serial >>> 32).setWidth 32
    else if row.name = "SYS_ORDER" then (if Config.isL4 then 4 else 1)
    else rowReset row i

namespace State

/-- The word held at register address `a`. -/
def rd (s : State) (a : Nat) : Word := tget regDefault s.regs a

/-- Replace the word held at register address `a`. -/
def wr (s : State) (a : Nat) (v : Word) : State := { s with regs := tput regDefault s.regs a v }

/-- Bit range `[hi:lo]` of a register. -/
def fld (s : State) (a hi lo : Nat) : Nat := bits (s.rd a) hi lo

/-- Replace bit range `[hi:lo]` of a register. -/
def wrF (s : State) (a hi lo v : Nat) : State := s.wr a (setBits (s.rd a) hi lo v)

/-- Bit `i` of a register. -/
def bitOf (s : State) (a i : Nat) : Bool := bit (s.rd a) i

/-- Set or clear bit `i` of a register. -/
def wrB (s : State) (a i : Nat) (b : Bool) : State := s.wr a (setBit (s.rd a) i b)

/-- Add `n` to a 32-bit counter, which stops at all ones (R176). -/
def bumpBy (s : State) (a n : Nat) : State := s.wr a (BitVec.ofNat 32 (sat 0xFFFFFFFF ((s.rd a).toNat + n)))

/-- Count one in a 32-bit counter. -/
def bump (s : State) (a : Nat) : State := s.bumpBy a 1

/-- The 64-bit value of a pair whose low word is at `a`. -/
def rd64 (s : State) (a : Nat) : Nat := (s.rd a).toNat + 2 ^ 32 * (s.rd (a + 4)).toNat

/-- Write a 64-bit pair. -/
def wr64 (s : State) (a v : Nat) : State := (s.wr a (BitVec.ofNat 32 v)).wr (a + 4) (BitVec.ofNat 32 (v / 2 ^ 32))

/-- Add `n` to a 64-bit counter pair, which wraps (R176). -/
def bump64By (s : State) (a n : Nat) : State := s.wr64 a ((s.rd64 a + n) % 2 ^ 64)

/-- Count one in a 64-bit pair. -/
def bump64 (s : State) (a : Nat) : State := s.bump64By a 1

/-- Return every register whose address satisfies `p` to its reset value. -/
def clearRegs (s : State) (p : Nat → Bool) : State := { s with regs := tclear s.regs p }

/-- The next free value (log entry 1). -/
def freeBits (s : State) : BitVec 256 := Config.freeBits s.free

/-- Count a free value as drawn. -/
def drawn (s : State) : State := { s with free := s.free + 1 }

/-- `n` free bytes from the present count on. -/
def freeBytes (s : State) (n : Nat) : Bytes :=
  ((List.range ((n + 31) / 32)).flatMap (fun i => be 32 (Config.freeBits (s.free + i)).toNat)).take n

/-- Count the free values of `n` bytes as drawn: one generate request of the central DRBG (R416). -/
def drawnBytes (s : State) (n : Nat) : State :=
  { s with free := s.free + (n + 31) / 32, rng := { s.rng with served := s.rng.served + 1 } }

/-- Whether the central DRBG still masks keys: in FAILED it stops after 2^24 requests since its last reseed (R417). -/
def drbgMasks (s : State) : Bool := !s.bitOf Reg.RNG_STATUS 1 || decide (s.rng.served < 2 ^ 24)

/-- Milliseconds of uptime. -/
def ms (s : State) : Nat := s.now / 1000000

/-- Let `dt` nanoseconds of REFCLK time pass in the timebase: whole ticks of 4 ns, one tick in every 10,000 corrected by 4 ns while a
residual error is slewed (R296, R300); the seconds field wraps at 34 bits into the count of R265. -/
def tickTime (dt : Nat) (t : TimeState) : TimeState :=
  let ticks := (t.raw + dt) / 4 - t.raw / 4
  let k := ((t.raw + dt) / 4 - t.slewFrom) / 10000 - (t.raw / 4 - t.slewFrom) / 10000
  let c := min (4 * k) t.residual.natAbs
  let n := if 0 < t.residual then t.now + 4 * ticks - c else t.now + 4 * ticks + c
  { t with
    raw := t.raw + dt
    now := n % (2 ^ 34 * 1000000000)
    wraps := t.wraps + n / (2 ^ 34 * 1000000000)
    residual := if 0 < t.residual then t.residual - (c : Int) else t.residual + (c : Int) }

/-- Let `dt` nanoseconds pass: uptime, custody cycles at 400 MHz (R330) and, while TIM_CTL.ENABLE is 1, the timebase. -/
def advance (s : State) (dt : Nat) : State :=
  { s with
    now := s.now + dt
    core := { s.core with cycle := s.core.cycle + BitVec.ofNat 64 (dt * 2 / 5) }
    tim := let t := if s.bitOf Reg.TIM_CTL 0 then tickTime dt s.tim else s.tim; { t with keeperNs := t.keeperNs + dt } }

/-- The keeper seconds count (R298, R531). -/
def keeperSecs (s : State) : Nat := s.tim.keeperNs / 1000000000

/-- The seconds count of the timebase (34 bits, R296). -/
def secs (s : State) : Nat := s.tim.now / 1000000000 % 2 ^ 34

/-- A timebase value in nanoseconds packed as a stamp (R103, R297). -/
def packStamp (ns : Nat) : BitVec 64 := BitVec.ofNat 64 (ns / 1000000000 % 2 ^ 34 * 2 ^ 30 + ns % 1000000000)

/-- The nanoseconds that a packed stamp stands for. -/
def stampNs (b : BitVec 64) : Nat := b.toNat / 2 ^ 30 * 1000000000 + b.toNat % 2 ^ 30

/-- The present stamp. -/
def stamp (s : State) : BitVec 64 := packStamp s.tim.now

/-- The current epoch number (R265): wraps of the seconds field in bits [63:34]. -/
def epoch (s : State) : Nat := s.tim.wraps * 2 ^ 34 + s.tim.now / 1000000000

/-- A port's working state. -/
def port (s : State) (p : Nat) : PortDyn := tget (dflt PortDyn.reset) s.dp.ports p

/-- Change a port's working state. -/
def setPort (s : State) (p : Nat) (d : PortDyn) : State :=
  { s with dp := { s.dp with ports := tput (dflt PortDyn.reset) s.dp.ports p d } }

/-- A queue's state. -/
def queue (s : State) (k : Nat) : Queue := tget (dflt Queue.reset) s.host.queues k

/-- Change a queue's state. -/
def setQueue (s : State) (k : Nat) (q : Queue) : State :=
  { s with host := { s.host with queues := tput (dflt Queue.reset) s.host.queues k q } }

/-- A Vault slot. -/
def slot (s : State) (n : Nat) : Slot := tget (dflt Slot.empty) s.keys.slots n

/-- Change a Vault slot. -/
def setSlot (s : State) (n : Nat) (v : Slot) : State :=
  { s with keys := { s.keys with slots := tput (dflt Slot.empty) s.keys.slots n v } }

/-- A tenant of the device (R491). -/
def tenant (s : State) (t : Nat) : Tenant := tget (dflt Tenant.none) s.cer.tenants t

/-- The tenants that exist, rising. -/
def tenants (s : State) : List Nat := (s.cer.tenants.filter (fun e => e.2.present)).map (·.1)

/-- The charter record of a tenant (R550). -/
def charter (s : State) (t : Nat) : Charter := tget (dflt Charter.none) s.pair.charters t

/-- Change a tenant's charter record. -/
def setCharter (s : State) (t : Nat) (c : Charter) : State :=
  { s with pair := { s.pair with charters := tput (dflt Charter.none) s.pair.charters t c } }

/-- Only HOLDER counts as holding the charter (R550). -/
def holds (s : State) (t : Nat) : Bool := (s.charter t).role == 1

/-- A charter record of any role counts as a charter held for R39, R40 and SYS_STATUS.CHARTER (R550). -/
def anyCharter (s : State) : Bool := s.pair.charters.any (fun e => e.2.role != 0)

/-- The timebase value of an epoch cut. -/
def cutNs (e : Nat) : Nat := e % 2 ^ 34 * 1000000000

/-- Whether this device seals the tenant at timebase value `at` (R550): a HOLDER does, a RELEASING device until the lease it holds expires and at
most until the cut, less its own U (R551, R552), a TAKING device from its start stamp. -/
def seals (s : State) (t : Nat) (at_ : Nat) : Bool :=
  let c := s.charter t
  match c.role with
  | 1 => true
  | 3 => decide (at_ + s.tim.distU < c.leaseHeld) && (match c.cut with | some e => decide (at_ + s.tim.distU < cutNs e) | none => true)
  | 4 => match c.start with
    | some x => decide (x ≤ at_)
    | none => false
  | _ => false

end State

/-- The 3-bit encoding of R30. -/
def Mode.code : Mode → Nat
  | .factory => 0 | .notary => 1 | .ceremony => 2 | .service => 3 | .maintenance => 4 | .zeroized => 7

/-- The empty maintenance set. -/
def MaintSet.empty : MaintSet := ⟨false, 0, []⟩

/-- The device-wide maintenance set, placed by PF0. -/
def MaintSet.all : MaintSet := ⟨true, 0, []⟩

/-- Whether a tenant is in a maintenance set (R31). -/
def MaintSet.has (m : MaintSet) (t : Nat) : Bool := m.whole || m.map.getLsbD t

/-- Whether a maintenance set is empty. -/
def MaintSet.isEmpty (m : MaintSet) : Bool := !m.whole && m.map == 0

/-- The 64-byte image of a maintenance set: bit `b` of byte `j` is tenant 8j + b (R615). -/
def MaintSet.image (m : MaintSet) : Bytes :=
  (List.range 64).map (fun j => if m.whole then 0xFF else (m.map >>> (8 * j)).setWidth 8)

/-- Whether a tile's custody link carries traffic: it does not while it retrains (R526). -/
def State.linkOk (s : State) (tile : Nat) : Bool := !s.tpr.linksDown.getLsbD tile

/-- The tile, cluster and slice of a port (R12). -/
def tileOf (p : Nat) : Nat := p / 128
def clusterOf (p : Nat) : Nat := p / 8
def sliceOf (p : Nat) : Nat := p % 8

/-- The key of a queue: 8 queues of PF0, one of each VF (R67). -/
def qkey (fn q : Nat) : Nat := 8 * fn + q

/-- Whether the slot's shares recombine to this key, as bytes (R222). -/
def Slot.key (v : Slot) : Bytes := be 32 (v.shareA ^^^ v.shareB).toNat

end Sys2Proof.Machine
end

