-- ==== Sys2Proof/Machine/Ops.lean ====
section
/-! DEFINITION. The shared operations of every chapter: alarm reports (R540 to R544), interrupt flags, ledger events (R277, R278),
replies to host commands (R69 to R73), and measurement extension (R395). -/

namespace Sys2Proof.Machine

/-! ### Alarms -/

/-- A report to the alarm aggregator (R540): class, detail, SECURITY, the reporting source and the attributed source in the layout of
bytes 4 to 7 of R542, the tenant and the data field. -/
structure Report where
  cls : Nat
  detail : Nat
  security : Bool
  src : Nat
  attr : Nat
  tenant : Nat
  data : Nat
  deriving DecidableEq, Repr

/-- Whether a report is identical to an open record (R542) and arrives within 10 microseconds of its last report. -/
def Alarm.folds (a : Alarm) (r : Report) (now : Nat) : Bool :=
  a.cls == r.cls && a.detail == r.detail && a.attr == r.attr && decide (now ≤ a.lastAt + 10000)

/-- Fold a report into an open record (R542). -/
def Alarm.fold (a : Alarm) (r : Report) (now : Nat) (st : BitVec 64) : Alarm :=
  { a with
    count := sat 65535 (a.count + 1)
    lastStamp := st
    lastAt := now
    sources := if a.sources.contains r.src then a.sources else a.sources ++ [r.src]
    attributed := a.attributed || (r.attr != a.src) }

/-- Fold a report into the first open record it is identical to: `none` when there is none. -/
def foldReport (r : Report) (now : Nat) (st : BitVec 64) : List Alarm → Option (List Alarm)
  | [] => none
  | a :: as => if a.folds r now then some (a.fold r now st :: as) else (foldReport r now st as).map (a :: ·)

/-- Take a report at the aggregator (R542): fold it, or open a record; the first record of its class since ALM_ACK carries FIRST and
is kept in ALM_FIRST (R544). -/
def report (r : Report) (s : State) : State :=
  match foldReport r s.now s.stamp s.alm.opened with
  | some as => { s with alm := { s.alm with opened := as } }
  | none =>
    let isFirst := tget (dflt false) s.alm.seen r.cls == false
    let a : Alarm := ⟨r.cls, r.detail, r.security, r.attr != r.src, false, isFirst, [r.src], r.src, r.attr, r.tenant, 1,
      s.stamp, s.stamp, s.now, r.data⟩
    let s := { s with alm := { s.alm with
      opened := s.alm.opened ++ [a]
      seen := tput (dflt false) s.alm.seen r.cls true
      firsts := if isFirst then tput (dflt none) s.alm.firsts r.cls (some a) else s.alm.firsts } }
    if isFirst then s.wrB Reg.ALM_FIRST_VALID r.cls true else s

/-- The source field of a master (kind 0), port (1), tile (2), external partner (3) or sensor (4) (R542). -/
def srcMaster (m : Nat) : Nat := m
def srcPort (p : Nat) : Nat := 0x1000 + p
def srcTile (t : Nat) : Nat := 0x2000 + t
def srcExternal (p : Nat) : Nat := 0x3000 + p
def srcSensor (k : Nat) : Nat := 0x4000 + k

/-- An alarm of a block's own source: attributed source and source agree (R541). -/
def alarm (cls detail src : Nat) (security : Bool) (s : State) : State := report ⟨cls, detail, security, src, src, 0xFFFF, 0⟩ s

/-- Raise bit `b` of an interrupt status register of interrupt source `n` (R360), which reports class BLOCK (R540). -/
def irq (reg n b : Nat) (s : State) : State :=
  report ⟨0x08, n, false, srcMaster 0, srcMaster 0, 0xFFFF, b⟩ (s.wrB reg b true)

/-- The bytes 0 to 31 of an alarm record (R542). -/
def Alarm.bytes (a : Alarm) : Bytes :=
  be 1 a.cls ++ be 1 a.detail ++ be 1 (b2n a.security + 2 * b2n a.attributed + 4 * b2n a.summary + 8 * b2n a.first)
    ++ be 1 (sat 255 a.sources.length) ++ be 2 a.src ++ be 2 a.attr ++ be 2 a.tenant ++ be 2 a.count
    ++ be 8 a.firstStamp.toNat ++ be 8 a.lastStamp.toNat ++ be 4 a.data

/-! ### Ledger events -/

/-- The 56-byte event body of R277. -/
def eventBody (s : State) (code src tenant : Nat) (data : Bytes) : Bytes :=
  be 2 code ++ be 2 src ++ be 2 tenant ++ be 2 1 ++ be 8 s.stamp.toNat ++ fit 40 data

/-- Whether the event code is protected (R277). -/
def eventProtected (code : Nat) : Bool := [0x01, 0x02, 0x03, 0x10, 0x31, 0x33, 0x40, 0x50, 0x60].contains code

/-- Put an event into the event queue (R278): a non-protected event that finds 3,840 entries in use is dropped and counted; a protected
event that finds no entry free waits at its source. -/
def enqueueEvent (e : Event) (s : State) : State :=
  if e.isProtected then
    if s.ldg.evq.length < 4096 ∧ s.ldg.evHeld = [] then
      { s with ldg := { s.ldg with evq := s.ldg.evq ++ [e] } }
    else { s with ldg := { s.ldg with evHeld := s.ldg.evHeld ++ [e] } }
  else if s.ldg.evq.length < 3840 then
    { s with ldg := { s.ldg with evq := s.ldg.evq ++ [e] } }
  else
    irq Reg.LDG_IRQ_STATUS 10 5 ({ s with ldg := { s.ldg with dropped := s.ldg.dropped + 1, droppedIn := tupd (dflt 0) s.ldg.droppedIn s.epoch (· + 1) } }.bump Reg.LDG_EVQ_DROP)

/-- Write an event of the given code, source and tenant (0xFFFF = none) with its data (R277). -/
def event (code src tenant : Nat) (data : Bytes) (s : State) : State :=
  enqueueEvent ⟨code, eventBody s code src tenant data, eventProtected code⟩ s

/-! ### Replies (R69 to R73) -/

/-- The 16 bytes of a reply (R69). -/
def Reply.image (r : Reply) : Bytes :=
  be 2 r.ident ++ be 2 r.status ++ be 2 r.sqHead ++ be 1 r.queue ++ be 1 (if r.phase then 1 else 0) ++ be 4 r.outLen ++ be 4 r.detail

/-- The number of entries of a completion ring. -/
def Queue.cqLen (q : Queue) : Nat := 2 ^ q.cqSize

/-- Whether the completion ring has room: a ring holds at most its size less one entry. -/
def Queue.hasRoom (q : Queue) : Bool := (q.cqTail + 1) % q.cqLen != q.cqHead

/-- Whether the queue is live (MBX_Q_CTL.ENABLE). -/
def Queue.live (q : Queue) : Bool := bit q.ctl 0

/-- The replies a queue holds back (R73). -/
def backlogSize : Nat := 64

/-- Whether firmware may fetch from a queue: it is live and not in error, the tail is ahead, and the backlog has room (R68, R73). -/
def Queue.canFetch (q : Queue) : Bool := q.live && !q.error && q.sqHead != q.sqTail && decide (q.backlog.length < backlogSize)

/-- Take an entry from the ring: the head advances whatever follows. -/
def Queue.advanceHead (q : Queue) : Queue := { q with sqHead := (q.sqHead + 1) % 2 ^ q.sqSize }

/-- Count a completion towards an interrupt (MBX_Q_CTL.COAL_CNT). -/
def Queue.signal (q : Queue) : Queue :=
  if q.unsignalled + 1 ≥ bits q.ctl 15 8 then { q with unsignalled := 0, messages := q.messages + 1 }
  else { q with unsignalled := q.unsignalled + 1 }

/-- Write a reply into the ring at its tail, with the PHASE of this pass (R71). -/
def Queue.write (q : Queue) (r : Reply) : Queue :=
  let blank : Reply := ⟨0, 0, 0, 0, false, 0, 0, [], 0⟩
  let q := { q with ring := tput (dflt blank) q.ring q.cqTail { r with phase := q.phase } }
  let t := (q.cqTail + 1) % q.cqLen
  ({ q with cqTail := t, phase := if t = 0 then !q.phase else q.phase }).signal

/-- Send a reply (R73): into the ring, into the backlog while the ring is full or replies wait before it, or held back by its command while the backlog
too is full. A queue that is not live discards it (R68, R82). -/
def Queue.post (q : Queue) (r : Reply) : Queue :=
  if !q.live then q
  else if q.backlog = [] ∧ q.hasRoom then q.write r
  else if q.backlog.length < backlogSize then { q with backlog := q.backlog ++ [r] }
  else { q with stalled := q.stalled ++ [r] }

/-- Find an outstanding command. -/
def Queue.find (q : Queue) (ident : Nat) : Option Outstanding := q.outstanding.find? (fun o => o.ident == ident)

/-- Whether a command whose replies are discarded goes on under an identifier (R68, R82). -/
def Queue.orphan (q : Queue) (ident : Nat) : Bool := q.orphans.any (fun o => o.ident == ident)

/-- Remove an outstanding command. -/
def Queue.drop (q : Queue) (ident : Nat) : Queue := { q with outstanding := q.outstanding.filter (fun o => o.ident != ident) }

/-- Move a command to another stage: the one that goes on without replies, if there is one of that identifier, else the outstanding one. -/
def Queue.restage (q : Queue) (ident : Nat) (st : CmdStage) : Queue :=
  let f := fun (o : Outstanding) => if o.ident = ident then { o with stage := st } else o
  if q.orphan ident then { q with orphans := q.orphans.map f } else { q with outstanding := q.outstanding.map f }

/-- Complete an outstanding command (R72): it leaves the outstanding table with its reply, or stays until the backlog has room for it (R73). -/
def Queue.complete (q : Queue) (r : Reply) : Queue :=
  if q.live ∧ backlogSize ≤ q.backlog.length then (q.restage r.ident .interim).post r else (q.drop r.ident).post r

/-- The IDE stream that carries the DMA requests of a function: the one bound to it, where it requires one (R66). -/
def State.dmaStream (s : State) (fn : Nat) : Option Nat :=
  let w := s.rd (Reg.MBX_BIND_HI (if fn = 0 then 0 else 7 + fn))
  if bit w 10 then some (bits w 13 11) else none

/-- A transfer of the endpoint for a function, with the function's colour and stream (R64, R66). -/
def transfer (fn : Nat) (write : Bool) (addr : Nat) (data : Bytes) (s : State) : State :=
  { s with host := { s.host with lastXfer := some ⟨fn, fn, s.dmaStream fn, write, addr, data⟩ } }

/-- An MSI-X vector of a function. -/
def State.msix (s : State) (fn v : Nat) : MsixVec := tget (dflt MsixVec.reset) s.host.msix (64 * fn + v)

/-- Change an MSI-X vector: one that is not masked and is pending sends its message. -/
def setMsix (fn v : Nat) (m : MsixVec) (s : State) : State :=
  let m := if m.pending && !m.masked then { m with pending := false, sent := m.sent + 1 } else m
  { s with host := { s.host with msix := tput (dflt MsixVec.reset) s.host.msix (64 * fn + v) m } }

/-- Put back a queue that replies have changed: a reply written to the ring leaves as its 16 bytes (R69), and a signalled vector sends its message or
becomes pending (R65). -/
def putQueue (k : Nat) (q : Queue) (s : State) : State :=
  let old := s.queue k
  let blank : Reply := ⟨0, 0, 0, 0, false, 0, 0, [], 0⟩
  let s := s.setQueue k q
  let i := (q.cqTail + q.cqLen - 1) % q.cqLen
  let s := if q.cqTail = old.cqTail then s
    else transfer (k / 8) true (q.cqBase.toNat + 16 * i) (tget (dflt blank) q.ring i).image s
  let v := bits q.ctl 6 1
  if q.messages = old.messages then s else setMsix (k / 8) v { s.msix (k / 8) v with pending := true } s

/-- The final reply of a command (R72): it leaves the outstanding table. One whose queue was disabled or whose function was reset ends without a reply
(R68, R82), and a command in no table receives none. -/
def finalReplyTo (r : CmdRef) (status : Nat) (out : Bytes) (addr detail : Nat) (s : State) : State :=
  let k := qkey r.fn r.queue
  let q := s.queue k
  if q.orphan r.ident then s.setQueue k { q with orphans := q.orphans.filter (fun o => o.ident != r.ident) }
  else match q.find r.ident with
    | none => s
    | some _ =>
      let s := if out = [] then s else transfer r.fn true addr out s
      putQueue k (q.complete ⟨r.ident, status, q.sqHead, r.queue, false, out.length, detail, out, addr⟩) s

/-- The final reply of a command, its output in the buffer its entry names, as far as that goes (R69, log entry 305). -/
def finalReply (r : CmdRef) (status : Nat) (out : Bytes) (detail : Nat) (s : State) : State :=
  match (s.queue (qkey r.fn r.queue)).find r.ident with
  | some o => finalReplyTo r status (if o.staged.outAddr = 0 then [] else out.take o.staged.outLen) o.staged.outAddr detail s
  | none => finalReplyTo r status [] 0 detail s

/-- The interim reply of a command (R72). -/
def interimReply (r : CmdRef) (status : Nat) (s : State) : State :=
  let k := qkey r.fn r.queue
  let q := s.queue k
  if q.orphan r.ident then s.setQueue k (q.restage r.ident .interim)
  else match q.find r.ident with
    | none => s
    | some _ => putQueue k ((q.restage r.ident .interim).post ⟨r.ident, status, q.sqHead, r.queue, false, 0, 0, [], 0⟩) s

/-- The final reply of a command that may be absent. -/
def finalReply? (r : Option CmdRef) (status : Nat) (s : State) : State :=
  match r with
  | some c => finalReply c status [] 0 s
  | none => s

/-! ### Measurement registers (R395) -/

/-- The value of measurement register `n`. -/
def State.mr (s : State) (n : Nat) : Bytes := tget (dflt (zeros 48)) s.mrs n

/-- Extend measurement register `n` with `v`: SHA-384 over the old value followed by the new. -/
def extendMr (n : Nat) (v : Bytes) (s : State) : State :=
  { s with mrs := tput (dflt (zeros 48)) s.mrs n (sha384 (s.mr n ++ v)) }

/-- The Ledger sequencer writes a value into its own staging of DIG_MR_DATA (R397). -/
def stageMr (v : Bytes) (s : State) : State := { s with dig := { s.dig with ledgerStage := fit 64 v } }

/-! ### The mirror link (R555, R562) -/

/-- The bytes that wait in the backlog of the mirror link (R555). -/
def State.backlogBytes (s : State) : Nat := (s.pair.backlog.map (·.bytes.length)).sum

/-- A message over the mirror link: sent while the link is up, else it waits in the backlog (R555). A receipt page that finds the 1 GiB of backlog full is
not replicated. -/
def sendPair (m : PairMsg) (s : State) : State :=
  if s.pair.linkUp then { s with pair := { s.pair with sent := s.pair.sent ++ [m] } }
  else if m.kind = .page ∧ 2 ^ 30 < s.backlogBytes + m.bytes.length then irq Reg.PAI_IRQ_STATUS 18 4 (s.bump Reg.PAI_REPL_DROP)
  else { s with pair := { s.pair with backlog := s.pair.backlog ++ [m] } }

/-- Tell the partner of a change to the configuration of a tenant (R549). -/
def sendConfig (t : Nat) (b : Bytes) (s : State) : State := if s.pair.paired then sendPair ⟨.config, t, b⟩ s else s

/-- The CHARTER event of R562. -/
def charterEvent (action t : Nat) (before : Nat) (e : Nat) (s : State) : State :=
  let c := s.charter t
  event 0x0050 (srcMaster 0) t
    (be 1 action ++ be 2 t ++ be 1 (before + 16 * c.role) ++ be 8 e ++ be 4 c.gen ++ be 8 s.pair.partner
      ++ (fit 32 (tget (dflt []) s.ldg.prev t)).take 16) s

end Sys2Proof.Machine
end

