-- ==== Sys2Proof/Machine/Gates.lean ====
section
/-! DEFINITION. Access gates and colour tags (chapter 12): the 33 gates and their regions, the checks of R377, the violation log of
R384, region commits (R380) and the tag engine (R371). -/

namespace Sys2Proof.Machine

/-! ### Targets -/

/-- The gate that guards a custody address (R28, R373). -/
def gateOf (a : Nat) : Nat :=
  if a < 0x200000 then 0
  else if 0x04000000 ≤ a ∧ a < 0x06000000 then 1
  else if 0x10000000 ≤ a ∧ a < 0x10170000 then 5 + (a - 0x10000000) / 0x10000
  else if 0x18000000 ≤ a ∧ a < 0x18080000 then 2
  else if 0x20000000 ≤ a ∧ a < 0x30000000 then 28 + (a - 0x20000000) / 0x4000000
  else if 0x40000000 ≤ a ∧ a < 0x80000000 then 3
  else if 0x80000000 ≤ a ∧ a < 0x100000000 then 4
  else 32

/-- The first and last address of a gate's target; granule numbers for gate 3 (R373). -/
def gateSpan (g : Nat) : Nat × Nat :=
  if g = 0 then (0, 0x1FFFFF)
  else if g = 1 then (0x04000000, 0x05FFFFFF)
  else if g = 2 then (0x18000000, 0x1807FFFF)
  else if g = 3 then (0, 0x1FFFFFFF)
  else if g = 4 then (0x80000000, 0xFFFFFFFF)
  else if g < 28 then (0x10000000 + (g - 5) * 0x10000, 0x1000FFFF + (g - 5) * 0x10000)
  else (0x20000000 + (g - 28) * 0x4000000, 0x23FFFFFF + (g - 28) * 0x4000000)

/-- The region unit of a gate (R373). -/
def gateUnit (g : Nat) : Nat := if g = 3 then 1 else if g < 5 then 64 else 4

/-- The regions after a warm or power-on reset: region 0 of gates 0 to 31 covers the whole target (R376). -/
def rgnDefault (k : Nat) : Rgn :=
  if k % 16 = 0 ∧ k / 16 < 32 then
    ⟨BitVec.ofNat 32 (gateSpan (k / 16)).1, BitVec.ofNat 32 (gateSpan (k / 16)).2, 0x08FFFFFF, 0⟩
  else ⟨0, 0, 0, 0⟩

/-- A committed region. -/
def State.rgn (s : State) (g r : Nat) : Rgn := tget rgnDefault s.gte.regions (16 * g + r)

/-- VALID of a region. -/
def Rgn.valid (r : Rgn) : Bool := bit r.attr 27

/-- The first and last address a region covers, rounded to its unit (R375). -/
def Rgn.first (r : Rgn) (u : Nat) : Nat := r.base.toNat / u * u
def Rgn.last (r : Rgn) (u : Nat) : Nat := r.limit.toNat / u * u + u - 1

/-- Whether a region covers address `x`. -/
def Rgn.covers (r : Rgn) (u x : Nat) : Bool := r.valid && decide (r.first u ≤ x) && decide (x ≤ r.last u)

/-! ### Tags -/

/-- The tag of a granule of custody SRAM, and of DRAM (R369). -/
def State.sramTag (s : State) (g : Nat) : Nat := tget (dflt 1023) s.gte.sramTags g
def State.dramTag (s : State) (g : Nat) : Nat := tget (dflt 1023) s.gte.dramTags g

/-- The DRAM byte address behind an address of the paged window (R374): `none` for a page whose VALID is clear. -/
def State.dramAddr (s : State) (a : Nat) : Option Nat :=
  let e := s.rd (Reg.GTE_DPAGE ((a - 0x40000000) / 0x400000))
  if bit e 31 then some (bits e 12 0 * 0x400000 + a % 0x400000) else none

/-! ### Checks -/

/-- An access as its source sent it: address, size code (0 byte, 1 halfword, 2 word, 3 beat of 64 bits, 4 burst of 64 bytes),
direction, ring, master and colour. -/
structure Access where
  addr : Nat
  size : Nat
  write : Bool
  ring : Nat
  master : Nat
  colour : Nat
  deriving DecidableEq, Repr

/-- The bytes of a size code. -/
def sizeBytes (k : Nat) : Nat := if k = 4 then 64 else 2 ^ k

/-- Whether the width rules of R382 hold: register gates take aligned reads of at most 32 bits and writes of exactly 32 aligned bits;
memory gates take naturally aligned accesses; the default gate has no rule of width. -/
def widthOk (g : Nat) (a : Access) : Bool :=
  g == 32 || a.addr % sizeBytes a.size == 0 &&
  (if 5 ≤ g ∧ g ≤ 31 then (if a.write then a.size == 2 else decide (a.size ≤ 2)) else true)

/-- The regions of a gate that cover an address, lowest first. -/
def State.rgnsAt (s : State) (g x : Nat) : List Nat := (List.range 16).filter (fun r => (s.rgn g r).covers (gateUnit g) x)

/-- Whether a colour may read the metadata of a slot's owner (R256, R368): the custody colour may; log entry 50. -/
def ownerVisible (colour owner : Nat) : Bool := colour == 1023 || (if owner = 0xFFFF then colour == 0 else colour == owner + 1)

/-- The fixed rule of PKE slot memory (R431): only the unit itself writes it, and no access reaches it while its unit is BUSY or CLEARING. -/
def slotMemoryOk (s : State) (a : Access) : Bool :=
  let n := (a.addr - 0x18000000) / 0x10000
  let st := (tget (dflt PkeUnit.reset) s.pke.units n).stat
  st != 1 && st != 2 && (!a.write || a.master == 384 + n)

/-- The fixed rules on reads: RNG_DATA and the ALM block are read by rings 0 and 1 (R426, R548), VLT_META by a colour that may see the
slot's owner (R256). -/
def readOk (s : State) (a : Access) : Bool :=
  if a.write ∨ a.addr < 0x10000000 then true
  else if a.addr / 4 * 4 = Reg.RNG_DATA ∨ (0x10150000 ≤ a.addr ∧ a.addr < 0x10160000) then a.master / 128 != 0 || decide (a.ring ≤ 1)
  else if Reg.VLT_META 0 ≤ a.addr ∧ a.addr < Reg.VLT_META 8 then ownerVisible a.colour (s.slot (s.fld Reg.VLT_SEL 15 0)).owner
  else true

/-- The fixed rules (R378): flash window and PKE slot memory writes, host-window colours, and the rings a register block lets write
each register. -/
def fixedOk (g : Nat) (a : Access) : Bool :=
  (if (g = 1 ∨ g = 2) ∧ a.write then a.master / 128 == 3 else true) &&
  (if g = 4 then decide (a.colour ≤ 512) else true) &&
  (if 5 ≤ g ∧ a.write ∧ a.master / 128 = 0 then
    match findReg a.addr with
    | some (_, row, _) => decide (a.ring ≤ row.ring)
    | none => true
   else true)

/-- The pair rule (R383): a write of a writable _HI register needs a stage its own master wrote. -/
def pairOk (s : State) (g : Nat) (a : Access) : Bool :=
  if 5 ≤ g ∧ a.write then
    match findReg a.addr with
    | some (_, row, _) =>
      if row.pair = 2 ∧ (row.rw ||| row.rwl ||| row.wo) ≠ 0 then
        match tget (dflt none) s.gte.stages (a.addr - 4) with
        | some (m, _) => m == a.master
        | none => false
      else true
    | none => true
  else true

/-- What a gate decides of an access: passed, or refused with its code, the region that matched (15 = none) and the tag tested. -/
inductive GateAns where
  | pass
  | refuse (code region : Nat) (tag : Option Nat)
  deriving DecidableEq, Repr

/-- The address a gate compares: the DRAM granule for gate 3. -/
def State.gateAddr (s : State) (g : Nat) (a : Access) : Option Nat :=
  if g = 3 then (s.dramAddr a.addr).map (· / 64) else some a.addr

/-- The tag of the granule an access touches; accesses are naturally aligned, so they touch one granule. -/
def State.tagAt (s : State) (g : Nat) (x : Nat) : Nat := if g = 3 then s.dramTag x else s.sramTag (x / 64)

/-- The checks of R377 in table order (FAULT, a parity failure of the store itself, arises from no command of the table). -/
def State.gateCheck (s : State) (a : Access) : GateAns :=
  let g := gateOf a.addr
  if !widthOk g a then .refuse 0x1 15 none
  else
    match s.gateAddr g a with
    | none => .refuse 0x2 15 none
    | some x =>
      match (if g = 32 then [] else s.rgnsAt g x) with
      | [] => .refuse 0x2 15 none
      | r :: r' :: _ => .refuse 0x4 (min r r') none
      | [r] =>
        let rg := s.rgn g r
        let len := if g = 3 then 1 else sizeBytes a.size
        let cm := bits rg.attr 25 24
        let tag := if cm < 2 then none else some (s.tagAt g x)
        if rg.last (gateUnit g) < x + len - 1 then .refuse 0x3 r none
        else if !bit rg.attr (8 + a.master / 128) || (bit rg.attr 26 && bits rg.colr 26 16 != a.master) then .refuse 0x5 r none
        else if a.master / 128 = 0 ∧ !bit rg.attr (if a.write then 4 + a.ring else a.ring) then .refuse 0x6 r none
        else if (match cm with
            | 0 => false
            | 1 => a.colour != bits rg.colr 9 0
            | 2 => tag != some a.colour
            | _ => tag != some a.colour && a.colour != bits rg.colr 9 0) then .refuse 0x7 r tag
        else if !fixedOk g a || !readOk s a || (g == 2 && !slotMemoryOk s a) then .refuse 0x8 r tag
        else if !pairOk s g a then .refuse 0x9 r tag
        else .pass

/-! ### The violation log (R384) -/

/-- Whether a refusal folds into a record. -/
def Violation.folds (v : Violation) (code g : Nat) (a : Access) (x now : Nat) : Bool :=
  v.gate == g && v.code == code && v.master == a.master && v.addr == x && decide (v.cycle ≤ now) && decide (now < v.cycle + 4000)

/-- Put a refusal into the log: fold it into the newest record, add a record and report it, or count it as lost. -/
def logViolation (code region : Nat) (tag : Option Nat) (g x : Nat) (a : Access) (s : State) : State :=
  let now := s.core.cycle.toNat
  match s.gte.log.getLast? with
  | some v =>
    if v.folds code g a x now then
      { s with gte := { s.gte with log := s.gte.log.dropLast ++ [{ v with count := sat 2047 (v.count + 1) }] } }
    else if 16 ≤ s.gte.log.length then irq Reg.GTE_IRQ_STATUS 3 1 (s.bump Reg.GTE_VIO_LOST)
    else
      irq Reg.GTE_IRQ_STATUS 3 0 (report ⟨0x0B, code, code == 0x4 || code == 0xA, srcMaster a.master, srcMaster a.master, 0xFFFF, 0⟩
        { s with gte := { s.gte with
          log := s.gte.log ++ [⟨code, g, region, a.write, a.size, a.ring, a.master, x, a.colour, tag, 1, now⟩] } })
  | none =>
    irq Reg.GTE_IRQ_STATUS 3 0 (report ⟨0x0B, code, code == 0x4 || code == 0xA, srcMaster a.master, srcMaster a.master, 0xFFFF, 0⟩
      { s with gte := { s.gte with
        log := [⟨code, g, region, a.write, a.size, a.ring, a.master, x, a.colour, tag, 1, now⟩] } })

/-- Count and log a refusal at a gate (R384); OVERLAP and FAULT also set REGION_FAULT and the FAULT interrupt (R381). -/
def violate (code region : Nat) (tag : Option Nat) (a : Access) (s : State) : State :=
  let g := gateOf a.addr
  let x := (s.gateAddr g a).getD a.addr
  let s := (s.bump Reg.GTE_VIO_COUNT).bump (Reg.GTE_GATE_VIO g)
  let s := logViolation code region tag g x a s
  if code = 0x4 ∨ code = 0xA then irq Reg.GTE_IRQ_STATUS 3 2 (s.wrB Reg.GTE_STATUS 2 true) else s

/-- The colour a ring of the cores carries: ring 0 always 1023 (R367). -/
def State.ringColour (s : State) (r : Nat) : Nat := if r = 0 then 1023 else s.fld (Reg.GTE_RING_COL r) 9 0

/-- An access of the cores in a ring that a fixed rule of its register refuses, with its record (R378, R384). -/
def refuseFixed (ring a : Nat) (write : Bool) (s : State) : State :=
  violate 0x8 ((s.rgnsAt (gateOf a) a).headD 15) none ⟨a, 2, write, ring, 0, s.ringColour ring⟩ s

/-- The four words GTE_VIO0 to GTE_VIO3 of a record (R384). -/
def Violation.words (v : Violation) : List Word :=
  [BitVec.ofNat 32 (v.code + 2 ^ 4 * v.gate + 2 ^ 10 * v.region + 2 ^ 14 * b2n v.write + 2 ^ 15 * v.size + 2 ^ 18 * v.ring
      + 2 ^ 20 * v.master),
   BitVec.ofNat 32 v.addr,
   BitVec.ofNat 32 (v.colour + 2 ^ 10 * v.tag.getD 0 + 2 ^ 20 * b2n v.tag.isSome + 2 ^ 21 * v.count),
   BitVec.ofNat 32 v.cycle]

/-- GTE_VIO_POP: a read of GTE_VIO3 removes the head record (R384). -/
def execGteVioPop (s : State) : Out :=
  .next { s with gte := { s.gte with log := s.gte.log.drop 1 } }

/-! ### Configuration (R380, R381, R385) -/

/-- GTE_SEL_LOAD: a write of GTE_SEL selects a region and loads its committed values into the staging registers. Gate 32 and gate numbers
above it have no regions and load zeros. -/
def execGteSelLoad (value : Word) (s : State) : Out :=
  let s := s.wr Reg.GTE_SEL (value &&& 0xF3F)
  let r := s.rgn (bits value 5 0) (bits value 11 8)
  .next ((((s.wr Reg.GTE_RGN_BASE r.base).wr Reg.GTE_RGN_LIMIT r.limit).wr Reg.GTE_RGN_ATTR r.attr).wr Reg.GTE_RGN_COLR r.colr)

/-- The first other valid region of a gate that a staged region overlaps. -/
def State.overlapAt (s : State) (g r : Nat) (n : Rgn) : Option Nat :=
  (List.range 16).find? (fun k => k != r && (s.rgn g k).valid
    && decide (n.first (gateUnit g) ≤ (s.rgn g k).last (gateUnit g)) && decide ((s.rgn g k).first (gateUnit g) ≤ n.last (gateUnit g)))

/-- Whether GTE_LOCK fixes a gate (R381). -/
def State.gateLocked (s : State) (g : Nat) : Bool := s.bitOf Reg.GTE_LOCK 0 && decide (5 ≤ g)

/-- The result of committing a staged region (R380): the code of the first condition that fails, and OTHER. -/
def State.commitCode (s : State) (g r : Nat) (n : Rgn) : Nat × Nat :=
  if 32 < g then (0x7, 0)
  else if s.gateLocked g then (0x5, 0)
  else if !n.valid then (0x0, 0)
  else if n.limit.toNat < n.base.toNat then (0x1, 0)
  else if g = 32 ∨ n.first (gateUnit g) < (gateSpan g).1 ∨ (gateSpan g).2 < n.last (gateUnit g) then (0x2, 0)
  else match s.overlapAt g r n with
    | some k => (0x3, k)
    | none =>
      if 2 ≤ bits n.attr 25 24 ∧ g ≠ 0 ∧ g ≠ 3 then (0x4, 0)
      else if 772 ≤ bits n.colr 9 0 ∧ bits n.colr 9 0 ≤ 1019 then (0x6, 0)
      else (0x0, 0)

/-- GTE_COMMIT: commit the staged region, or report the failing condition and keep the old region (R380). A write without GO has no
effect. -/
def execGteCommit (value : Word) (s : State) : Out :=
  if !bit value 0 then .next s
  else
    let g := s.fld Reg.GTE_SEL 5 0
    let r := s.fld Reg.GTE_SEL 11 8
    let n : Rgn := ⟨s.rd Reg.GTE_RGN_BASE, s.rd Reg.GTE_RGN_LIMIT, s.rd Reg.GTE_RGN_ATTR, s.rd Reg.GTE_RGN_COLR⟩
    let c := s.commitCode g r n
    let s1 := s.wr Reg.GTE_CFG_STAT (BitVec.ofNat 32 (c.1 + 2 ^ 8 * c.2))
    if c.1 = 0 ∧ g < 32 then .next { s1 with gte := { s1.gte with regions := tput rgnDefault s1.gte.regions (16 * g + r) n } }
    else .next s1

/-- GTE_DPAGE_WRITE: a write of a DRAM page entry (R374, R385). -/
def execGteDpageWrite (page : Fin 256) (value : Word) (s : State) : Out :=
  .next (s.wr (Reg.GTE_DPAGE page) (value &&& 0x80001FFF))

/-! ### The tag engine (R371) -/

/-- The granules of a tagged space. -/
def spaceGranules (dram : Bool) : Nat := if dram then 0x20000000 else 0x8000

/-- TAG_RETAG_START: a write of GTE_TAG_CTL. While a retag runs it changes no field except ERROR; a reserved colour or a range outside the
space sets ERROR and starts nothing. -/
def execTagRetagStart (value : Word) (s : State) : Out :=
  let s := if bit value 17 then s.wrB Reg.GTE_TAG_CTL 17 false else s
  if s.gte.retag.isSome then .next s
  else
    let s := s.wrB (Reg.GTE_TAG_CTL) 12 (bit value 12)
    let s := s.wrF Reg.GTE_TAG_CTL 9 0 (bits value 9 0)
    if !bit value 16 then .next s
    else
      let dram := bit value 12
      let a := s.rd64 Reg.GTE_TAG_ADDR_LO
      let first := if dram then a else a / 64
      let n := s.fld Reg.GTE_TAG_LEN 28 0
      let c := bits value 9 0
      if (772 ≤ c ∧ c ≤ 1019) ∨ spaceGranules dram < first + n then .next (s.wrB Reg.GTE_TAG_CTL 17 true)
      else
        let s := (s.wrB Reg.GTE_TAG_CTL 16 true).wrB Reg.GTE_STATUS 1 true
        .next { s with gte := { s.gte with retag := some ⟨dram, first, n, c⟩ } }

/-- Whether a granule number lies in a retag's range. -/
def Retag.has (r : Retag) (g : Nat) : Bool := decide (r.first ≤ g) && decide (g < r.first + r.count)

/-- Write the tags of a range. -/
def tagRange (t : Tab Nat) (first colour : Nat) : Nat → Tab Nat
  | 0 => t
  | n + 1 => tagRange (tput (dflt 1023) t first colour) (first + 1) colour n

/-- The granules of a range whose tag differs from the new colour, whose bytes are zeroed with the retag. -/
def zeroGranules (mem : Tab Byte) (tags : Tab Nat) (r : Retag) : Tab Byte :=
  tclear mem (fun a => r.has (a / 64) && tget (dflt 1023) tags (a / 64) != r.colour)

/-- TAG_RETAG_DONE: the whole range carries the new tag and every granule whose tag changed is zero (R371). -/
def execTagRetagDone (s : State) : Out :=
  match s.gte.retag with
  | none => .next s
  | some r =>
    let g := if r.dram
      then { s.gte with dram := zeroGranules s.gte.dram s.gte.dramTags r
                        dramTags := tagRange s.gte.dramTags r.first r.colour r.count
                        retag := none }
      else { s.gte with sram := zeroGranules s.gte.sram s.gte.sramTags r
                        sramTags := tagRange s.gte.sramTags r.first r.colour r.count
                        retag := none }
    .next (irq Reg.GTE_IRQ_STATUS 3 3 ((({ s with gte := g }).wrB Reg.GTE_TAG_CTL 16 false).wrB Reg.GTE_STATUS 1 false))

end Sys2Proof.Machine
end

