-- ==== Sys2Proof/Machine/CoreOps.lean ====
section
/-! DEFINITION. The custody cores (chapters 10 and 11): registers, flags and conditions, exceptions, special registers, the gate table,
interrupts, and the arithmetic of every instruction that touches no memory. -/

namespace Sys2Proof.Machine

/-! ### Registers and flags (R311, R316) -/

/-- Change the core state. -/
def updCore (f : CoreState → CoreState) (s : State) : State := { s with core := f s.core }

/-- A general register. -/
def State.g (s : State) (r : Fin 16) : Word := s.core.g[r]

/-- Write a general register, which core B holds bitwise inverted (R334). -/
def setG (r : Fin 16) (v : Word) (s : State) : State := updCore (fun c => { c with g := c.g.set r v, gB := c.gB.set r (~~~v) }) s

/-- The flags. -/
def State.fZ (s : State) : Bool := s.core.flags.getLsbD 0
def State.fS (s : State) : Bool := s.core.flags.getLsbD 1
def State.fK (s : State) : Bool := s.core.flags.getLsbD 2
def State.fO (s : State) : Bool := s.core.flags.getLsbD 3
def State.fT (s : State) : Bool := s.core.flags.getLsbD 4

/-- FLAGS from its five bits. -/
def mkFlags (z n k o t : Bool) : BitVec 5 := BitVec.ofNat 5 (b2n z + 2 * b2n n + 4 * b2n k + 8 * b2n o + 16 * b2n t)

/-- Replace FLAGS, which core B holds bitwise inverted (R334). -/
def setFlags (f : BitVec 5) (s : State) : State := updCore (fun c => { c with flags := f, flagsB := ~~~f }) s

/-- Z of a value written. -/
def isZ (v : Word) : Bool := v == 0

/-- Retire the instruction at PC and go on at `pc` (R311, CUS_RETIRED). -/
def retireTo (pc : Word) (s : State) : State := updCore (fun c => { c with pc := pc, retired := c.retired + 1, waiting := none }) s

/-- Retire and go on at the next word. -/
def retire (s : State) : State := retireTo (s.core.pc + 4) s

/-- Write a result and the flags, and retire. -/
def result (rd : Fin 16) (v : Word) (f : BitVec 5) (s : State) : State := retire (setFlags f (setG rd v s))

/-! ### Special registers (R317, R343) -/

/-- The bits of special register `i` (16 to 63) that an MTS changes. -/
def srMask (i : Nat) : Word :=
  if (16 ≤ i ∧ i ≤ 18) ∨ (20 ≤ i ∧ i ≤ 22) ∨ (24 ≤ i ∧ i ≤ 29) ∨ i = 33 ∨ i = 34 ∨ (40 ≤ i ∧ i ≤ 47) then 0xFFFFFFFC
  else if 30 ≤ i ∧ i ≤ 32 then 0xFFFF
  else if i = 35 then 0xFF
  else if i = 36 then 0xFF0F
  else if i = 38 then 0xFFFFF000
  else if 48 ≤ i ∧ i ≤ 51 then 0x3F00FE
  else if i = 52 then 0xF1
  else if i = 59 ∨ i = 60 then 0
  else if i = 61 then 0xFF
  else 0xFFFFFFFF

/-- A special register as stored. -/
def State.sr (s : State) (i : Nat) : Word := tget (dflt 0) s.core.sr i

/-- Store a special register. -/
def setSr (i : Nat) (v : Word) (s : State) : State := updCore (fun c => { c with sr := tput (dflt 0) c.sr i (v &&& srMask i) }) s

/-- The gate store entry of gate `n` (R345). -/
def State.gateEntry (s : State) (n : Nat) : Word := tget (dflt 0) s.core.gates n

/-- The ring's word with BUSY, RING, FLAGS and a further field shifted to its place (LCTL, ECTL, ICTL). -/
def context (busy : Bool) (ring : Nat) (flags : BitVec 5) (rest : Nat) : Word :=
  BitVec.ofNat 32 (b2n busy + 2 * ring + 8 * flags.toNat + rest)

/-! ### Interrupt sources (R360) -/

/-- Whether a block's IRQ_STATUS and IRQ_EN have a set bit in common. -/
def State.irqLevel (s : State) (st en : Nat) : Bool := (s.rd st &&& s.rd en) != 0

/-- Whether the mailbox interrupt is raised to the receivers of a master group (R95): a channel bound to one of them is not empty and its MBX_IEN bit
is set. -/
def State.mbxRaised (s : State) (group : Nat) : Bool :=
  s.host.fifos.any (fun e => e.2 != [] && s.bitOf (Reg.MBX_IEN (e.1 / 32)) (e.1 % 32) && s.fld (Reg.MBX_BIND_LO e.1) 21 11 / 128 == group)

/-- The mailbox interrupt of the custody cores, master group 0 (R95, R360). -/
def State.mbxLevel (s : State) : Bool := s.mbxRaised 0

/-- Whether a queue reports an error in MBX_Q_STATUS. -/
def State.queueLevel (s : State) : Bool :=
  s.host.queues.any (fun e => e.2.error || e.2.badDb || e.2.badCfg || e.2.dmaErr || e.2.dbOvr)

/-- Whether a DPL or FLW block of a tile's clusters requests an interrupt. -/
def State.tileLevel (s : State) (t : Nat) : Bool :=
  (List.range 16).any (fun c => s.irqLevel (Reg.DPL_IRQ_STATUS (16 * t + c)) (Reg.DPL_IRQ_EN (16 * t + c))
    || s.irqLevel (Reg.FLW_IRQ_STATUS (16 * t + c)) (Reg.FLW_IRQ_EN (16 * t + c)))

/-- The level of interrupt source `n`. -/
def State.sourceLevel (s : State) (n : Nat) : Bool :=
  match n with
  | 0 => bit (s.sr 63) 1 && decide ((s.sr 19).toNat ≤ s.core.cycle.toNat % 2 ^ 32)
  | 1 => s.mbxLevel
  | 2 => s.queueLevel
  | 3 => s.irqLevel Reg.GTE_IRQ_STATUS Reg.GTE_IRQ_EN
  | 4 => s.irqLevel Reg.DIG_IRQ_STATUS Reg.DIG_IRQ_EN
  | 5 => s.irqLevel Reg.CPH_IRQ_STATUS Reg.CPH_IRQ_EN
  | 6 => s.irqLevel Reg.RNG_IRQ_STATUS Reg.RNG_IRQ_EN
  | 7 => s.irqLevel Reg.FSH_IRQ_STATUS Reg.FSH_IRQ_EN
  | 8 => s.irqLevel Reg.LFS_IRQ_STATUS Reg.LFS_IRQ_EN
  | 9 => s.irqLevel Reg.TIM_IRQ_STATUS Reg.TIM_IRQ_EN
  | 10 => s.irqLevel Reg.LDG_IRQ_STATUS Reg.LDG_IRQ_EN
  | 11 => s.irqLevel Reg.MNT_IRQ_STATUS Reg.MNT_IRQ_EN
  | 12 => s.irqLevel Reg.VLT_IRQ_STATUS Reg.VLT_IRQ_EN
  | 13 => s.irqLevel Reg.CRD_IRQ_STATUS Reg.CRD_IRQ_EN
  | 14 => s.irqLevel Reg.NFR_IRQ_STATUS Reg.NFR_IRQ_EN
  | 15 => s.irqLevel Reg.TPR_IRQ_STATUS Reg.TPR_IRQ_EN
  | 16 => s.irqLevel Reg.THM_IRQ_STATUS Reg.THM_IRQ_EN
  | 17 => s.irqLevel Reg.ALM_IRQ_STATUS Reg.ALM_IRQ_EN
  | 18 => s.irqLevel Reg.PAI_IRQ_STATUS Reg.PAI_IRQ_EN
  | 19 => s.irqLevel Reg.RPR_IRQ_STATUS Reg.RPR_IRQ_EN
  | 20 => s.irqLevel Reg.TLY_IRQ_STATUS Reg.TLY_IRQ_EN
  | 21 => s.irqLevel Reg.UPD_IRQ_STATUS Reg.UPD_IRQ_EN
  | n =>
    if 24 ≤ n ∧ n ≤ 31 then s.irqLevel (Reg.PKE_U_IRQ_STATUS (n - 24)) (Reg.PKE_U_IRQ_EN (n - 24))
    else if 32 ≤ n ∧ n ≤ 35 then s.tileLevel (n - 32)
    else false

/-- IPEND_LO and IPEND_HI. -/
def State.ipend (s : State) (hi : Bool) : Word :=
  BitVec.ofNat 32 (((List.range 32).map (fun k => if s.sourceLevel (k + if hi then 32 else 0) then 2 ^ k else 0)).sum)

/-- The priority of a source (IPRIO). -/
def State.prio (s : State) (n : Nat) : Nat := bits (s.sr (53 + n / 16)) (2 * (n % 16) + 1) (2 * (n % 16))

/-- The active levels, and the highest of them. -/
def State.active (s : State) : Nat := bits (s.sr 52) 7 4
def State.topLevel (s : State) : Option Nat := [3, 2, 1, 0].find? (fun p => s.active.testBit p)

/-- Whether a source is eligible (R361). -/
def State.eligible (s : State) (n : Nat) : Bool :=
  s.sourceLevel n && bit (s.sr (57 + n / 32)) (n % 32) && (match s.topLevel with | none => true | some p => decide (p < s.prio n))

/-- The eligible source of highest priority, the lowest-numbered of several. -/
def State.bestSource (s : State) : Option Nat :=
  (List.range 64).foldl (fun best n =>
    if !s.eligible n then best
    else match best with
      | none => some n
      | some b => if s.prio b < s.prio n then some n else best) none

/-- The source that is takeable now (R361). -/
def State.takeable (s : State) : Option Nat := if bit (s.sr 52) 0 && !bit (s.sr 35) 0 then s.bestSource else none

/-! ### Sectors (R446, R447) -/

/-- First offset and size of a normal-view sector. -/
def sectorRange (k : Nat) : Nat × Nat :=
  if k ≤ 7 then (k * 0x2000, 0x2000)
  else if k = 8 then (0x10000, 0x30000)
  else if k ≤ 134 then (0x40000 + (k - 9) * 0x40000, 0x40000)
  else if k = 135 then (0x1FC0000, 0x30000)
  else (0x1FF0000 + (k - 136) * 0x2000, 0x2000)

/-- The normal-view sector of a flash offset. -/
def sectorOf (a : Nat) : Nat :=
  if a < 0x10000 then a / 0x2000
  else if a < 0x40000 then 8
  else if a < 0x1FC0000 then 9 + (a - 0x40000) / 0x40000
  else if a < 0x1FF0000 then 135
  else 136 + (a - 0x1FF0000) / 0x2000

/-- Whether a sector is INCOMPLETE_ERASE (R456). -/
def State.sectorIncomplete (s : State) (k : Nat) : Bool := s.bitOf (Reg.FSH_INCOMP (k / 32)) (k % 32)

/-! ### Fetching and exceptions (R313, R352 to R355) -/

/-- Whether an address lies in the custody flash read window. -/
def inFlash (a : Nat) : Bool := decide (0x04000000 ≤ a) && decide (a < 0x06000000)

/-- Whether an address may be fetched (R313); the flash controller refuses a fetch from a sector that is INCOMPLETE_ERASE (R456). -/
def State.fetchable (s : State) (pc : Word) : Bool :=
  let a := pc.toNat
  decide (a < 0x200000) || (inFlash a && s.bitOf Reg.CUS_CTL 0 && !s.sectorIncomplete (sectorOf (a - 0x04000000)))
    || (s.bitOf Reg.CUS_BOOT 0 && (pc == Config.romEntry || Config.romHolds pc))

/-- The stack pointer, g15. -/
def sp : Fin 16 := 15

/-- Take an exception at PC (R354), or escalate when ECTL.BUSY is 1 (R355). -/
def exception (code detail : Nat) (info : Word) (s : State) : State :=
  let s := updCore (fun c => { c with waiting := none }) s
  if bit (s.sr 35) 0 then updCore (fun c => { c with escalated := true }) s
  else
    let c := s.core
    let s := setSr 33 c.pc (setSr 34 (s.g sp) s)
    let s := setSr 35 (context true c.cring c.flags 0) s
    let s := setSr 36 (BitVec.ofNat 32 (code + 256 * detail)) (setSr 37 info s)
    let s := if c.cring = 0 then s else setG sp (s.sr 20) s
    updCore (fun c => { c with cring := 0, pc := s.sr 38 + BitVec.ofNat 32 (0x40 * code) }) (setFlags 0 s)

/-- The exceptions of R352. -/
def fetchFault (s : State) : State := exception 1 0 s.core.pc s
def undefined (s : State) : State := exception 2 0 0 (s.bump Reg.CUS_UNDEF)
def privilege (detail : Nat) (s : State) : State := exception 3 detail 0 s
def gateFault (detail n : Nat) (s : State) : State := exception 4 detail (BitVec.ofNat 32 n) s
def misaligned (a : Word) (s : State) : State := exception 5 0 a s
def stackFault (a : Word) (s : State) : State := exception 6 0 a s
def busFault (detail : Nat) (a : Word) (s : State) : State := exception 7 detail a s

/-- Retire to a target; one that cannot be fetched raises the fetch exception there (R313, R348, R352). -/
def jumpTo (pc : Word) (s : State) : State :=
  let s := retireTo pc s
  if s.fetchable pc then s else fetchFault s

/-- Whether the cores execute: main power is on, no custody reset is in progress, and nothing stops them or holds them at an instruction. -/
def State.coreRuns (s : State) : Bool :=
  s.sys.mainPower && !s.sys.cusInReset && !s.core.stopped && s.core.waiting.isNone

/-! ### Integer arithmetic (R316, R318) -/

/-- Addition with its flags. -/
def addFlags (a b : Word) (s : State) : BitVec 5 :=
  let r := a + b
  mkFlags (isZ r) r.msb (decide (2 ^ 32 ≤ a.toNat + b.toNat)) (decide (a.toInt + b.toInt ≠ r.toInt)) s.fT

/-- Subtraction with its flags. -/
def subFlags (a b : Word) (s : State) : BitVec 5 :=
  let r := a - b
  mkFlags (isZ r) r.msb (decide (a.toNat < b.toNat)) (decide (a.toInt - b.toInt ≠ r.toInt)) s.fT

/-- Flags of a logical result: Z and S, with K and O cleared. -/
def logicFlags (r : Word) (s : State) : BitVec 5 := mkFlags (isZ r) r.msb false false s.fT

/-- Flags of a product: Z and S only. -/
def zsFlags (r : Word) (s : State) : BitVec 5 := mkFlags (isZ r) r.msb s.fK s.fO s.fT

/-- The four shifts: 0 SHL, 1 SHR, 2 SAR, 3 ROR. -/
inductive Shift where
  | shl | shr | sar | ror
  deriving DecidableEq, Repr

/-- A shift by `n` below 32, and the last bit shifted out. -/
def shift (k : Shift) (a : Word) (n : Nat) : Word × Bool :=
  match k with
  | .shl => (a <<< n, a.getLsbD (32 - n))
  | .shr => (a >>> n, a.getLsbD (n - 1))
  | .sar => (a.sshiftRight n, a.getLsbD (n - 1))
  | .ror => (a.rotateRight n, a.getLsbD (n - 1))

/-- A shift instruction: Z and S, and K unless the count is 0. -/
def doShift (k : Shift) (rd ra : Fin 16) (n : Nat) (s : State) : State :=
  let r := shift k (s.g ra) n
  result rd r.1 (mkFlags (isZ r.1) r.1.msb (if n = 0 then s.fK else r.2) s.fO s.fT) s

/-- The four divide instructions. -/
inductive Div where
  | divs | divu | rems | remu
  deriving DecidableEq, Repr

/-- A quotient or remainder, and whether the operands are a corner of R318. -/
def divide (k : Div) (a b : Word) : Word × Bool :=
  match k with
  | .divu => if b = 0 then (0xFFFFFFFF, true) else (BitVec.ofNat 32 (a.toNat / b.toNat), false)
  | .remu => if b = 0 then (a, true) else (BitVec.ofNat 32 (a.toNat % b.toNat), false)
  | .divs =>
    if b = 0 then (if a.msb then 0x80000000 else 0x7FFFFFFF, true)
    else if a = 0x80000000 ∧ b = 0xFFFFFFFF then (0x7FFFFFFF, true)
    else (BitVec.ofInt 32 (a.toInt.tdiv b.toInt), false)
  | .rems =>
    if b = 0 then (a, true)
    else if a = 0x80000000 ∧ b = 0xFFFFFFFF then (0, true)
    else (BitVec.ofInt 32 (a.toInt.tmod b.toInt), false)

/-- A divide instruction: a corner sets O and leaves the other flags (R318 names no other for it: DEDUCED, log entry 32). -/
def doDiv (k : Div) (rd ra rb : Fin 16) (s : State) : State :=
  let r := divide k (s.g ra) (s.g rb)
  result rd r.1 (if r.2 then mkFlags s.fZ s.fS s.fK true s.fT else logicFlags r.1 s) s

/-! ### Fixed point (R319) -/

/-- Saturate to the signed range of `w` bits. -/
def satS (w : Nat) (v : Int) : Int := max (-(2 ^ (w - 1) : Int)) (min (2 ^ (w - 1) - 1 : Int) v)

/-- Saturate to the unsigned range of 32 bits. -/
def satU (v : Int) : Int := max 0 (min 0xFFFFFFFF v)

/-- A fixed-point result: Z and S of the value, K and O cleared, T set when saturation occurs. -/
def fixed (rd : Fin 16) (exact sat_ : Int) (s : State) : State :=
  let r := BitVec.ofInt 32 sat_
  result rd r (mkFlags (isZ r) r.msb false false (s.fT || decide (exact ≠ sat_))) s

/-- A signed fixed-point result of 32 bits. -/
def fixedS (rd : Fin 16) (v : Int) (s : State) : State := fixed rd v (satS 32 v) s

/-- The rounded product of SMULQS. -/
def mulQ (a b : Int) (f : Nat) : Int := (a * b + (if f = 0 then 0 else 2 ^ (f - 1))) / (2 ^ f : Int)

/-! ### Branch conditions (R316) -/

/-- Whether condition `k` holds. -/
def State.cond (s : State) (k : Fin 16) : Bool :=
  match k.val with
  | 0x0 => true
  | 0x1 => s.fZ
  | 0x2 => !s.fZ
  | 0x3 => s.fK
  | 0x4 => !s.fK
  | 0x5 => s.fK || s.fZ
  | 0x6 => !s.fK && !s.fZ
  | 0x7 => s.fS != s.fO
  | 0x8 => s.fS == s.fO
  | 0x9 => s.fZ || s.fS != s.fO
  | 0xA => !s.fZ && s.fS == s.fO
  | 0xB => s.fS
  | 0xC => !s.fS
  | 0xD => s.fO
  | 0xE => !s.fO
  | _ => s.fT

/-- The target of a branch with a word offset. -/
def State.target (s : State) (off : Int) : Word := s.core.pc + BitVec.ofInt 32 (4 * off)

/-! ### Special register moves (R317, R342, R344) -/

/-- Whether a special register index is defined. -/
def srDefined (i : Nat) : Bool :=
  decide (i ≤ 3) || (decide (8 ≤ i) && decide (i ≤ 63) && i != 23 && i != 39)

/-- Whether a ring may read special register `i` of 16 to 63. -/
def srReadable (ring i : Nat) : Bool :=
  ring == 0 || (decide (ring ≤ 2) && (i == 24 + ring || i == 27 + ring || i == 30 + ring))

/-- The value MFS returns. -/
def State.mfsValue (s : State) (i : Nat) : Word :=
  if i = 0 then s.core.flags.setWidth 32
  else if i = 1 then BitVec.ofNat 32 s.core.cring
  else if i = 2 then s.core.cycle.setWidth 32
  else if i = 3 then s.core.cycleHi
  else if i < 16 then s.rd (Reg.CUS_FEAT (i - 8))
  else if i = 59 then s.ipend false
  else if i = 60 then s.ipend true
  else if i = 62 then s.gateEntry (bits (s.sr 61) 7 0)
  else s.sr i

/-- MFS: index 2 also snapshots the high word of CYCLE. -/
def doMfs (rd : Fin 16) (i : Nat) (s : State) : State :=
  if !srDefined i then undefined s
  else if 16 ≤ i ∧ !srReadable s.core.cring i then privilege 1 s
  else
    let v := s.mfsValue i
    let s := if i = 2 then updCore (fun c => { c with cycleHi := (c.cycle >>> 32).setWidth 32 }) s else s
    retire (setG rd v s)

/-- What MTS writes: FLAGS, the gate store unless locked, GT_LOCK that only sets, or the register's writable bits. -/
def mtsWrite (i : Nat) (v : Word) (s : State) : State :=
  if i = 0 then setFlags (v.setWidth 5) s
  else if i = 62 then
    if bit (s.sr 63) 0 then s
    else updCore (fun c => { c with gates := tput (dflt 0) c.gates (bits (s.sr 61) 7 0) (v &&& 0xFFFF007F) }) s
  else if i = 63 then setSr 63 ((v &&& 3) ||| (s.sr 63 &&& 1)) s
  else if i = 59 ∨ i = 60 then s
  else setSr i v s

/-- MTS: CRING, CYCLE and FEAT are undefined for MTS. -/
def doMts (i : Nat) (ra : Fin 16) (s : State) : State :=
  if !srDefined i ∨ (1 ≤ i ∧ i ≤ 15) then undefined s
  else if 16 ≤ i ∧ s.core.cring ≠ 0 then privilege 2 s
  else retire (mtsWrite i (s.g ra) s)

/-! ### Gates, returns and interrupts (R346 to R350, R362) -/

/-- GATE (R346). -/
def doGate (n : Nat) (s : State) : State :=
  let r := s.core.cring
  let e := s.gateEntry n
  let t := bits e 2 1
  if r = 0 then gateFault 1 n s
  else if !bit e 0 ∨ t = 3 ∨ r ≤ t then gateFault 2 n s
  else if !bit e (3 + r) then gateFault 3 n s
  else if bit (s.sr (30 + t)) 0 then gateFault 4 n s
  else
    let c := s.core
    let s := setSr (24 + t) (c.pc + 4) (setSr (27 + t) (s.g sp) s)
    let s := setSr (30 + t) (context true r c.flags (256 * n)) s
    let s := setG sp (s.sr (20 + t)) s
    let s := updCore (fun c => { c with cring := t }) (setFlags 0 s)
    jumpTo (s.sr (16 + t) + BitVec.ofNat 32 (4 * bits e 31 16)) s

/-- Restore a saved context. -/
def restore (pc g15 ctl : Word) (s : State) : State :=
  let s := setG sp g15 s
  jumpTo pc (updCore (fun c => { c with cring := bits ctl 2 1 }) (setFlags (BitVec.ofNat 5 (bits ctl 7 3)) s))

/-- GRET (R349). -/
def doGret (kind : Nat) (s : State) : State :=
  let r := s.core.cring
  if kind = 3 then undefined s
  else if kind ≠ 0 ∧ r ≠ 0 then privilege 4 s
  else if kind = 0 then
    let ctl := s.sr (30 + r)
    if r = 3 ∨ !bit ctl 0 then gateFault 5 0 s
    else if bits ctl 2 1 < r then gateFault 6 0 s
    else restore (s.sr (24 + r)) (s.sr (27 + r)) ctl (setSr (30 + r) (setBit ctl 0 false) s)
  else if kind = 1 then
    let ctl := s.sr 35
    if !bit ctl 0 then gateFault 7 0 s
    else restore (s.sr 33) (s.sr 34) ctl (setSr 35 (setBit ctl 0 false) s)
  else match s.topLevel with
    | none => gateFault 8 0 s
    | some p => restore (s.sr (40 + p)) (s.sr (44 + p)) (s.sr (48 + p)) (setSr 52 (setBit (s.sr 52) (4 + p) false) s)

/-- Enter the handler of a source (R362). -/
def interrupt (n : Nat) (s : State) : State :=
  let p := s.prio n
  let c := s.core
  let s := setSr (40 + p) c.pc (setSr (44 + p) (s.g sp) s)
  let s := setSr (48 + p) (context false c.cring c.flags (2 ^ 16 * n)) s
  let s := setSr 52 (setBit (s.sr 52) (4 + p) true) s
  let s := if c.cring = 0 then s else setG sp (s.sr 20) s
  updCore (fun c => { c with cring := 0, pc := s.sr 38 + BitVec.ofNat 32 (0x400 + 0x40 * p), waiting := none }) (setFlags 0 s)

/-- INTERRUPT_ENTRY at a boundary: a load or FENCE that waits is abandoned (R358), a WAIT retires first (R364). -/
def takeInterrupt (s : State) : State :=
  if !s.sys.mainPower || s.sys.cusInReset || s.core.stopped then s
  else match s.takeable with
    | none => s
    | some n =>
      match s.core.waiting with
      | some .wait => interrupt n (retire (s.wrB Reg.CUS_STATUS 3 false))
      | _ => interrupt n s

/-- WAIT (R364): ring 0 only; it retires at once when a source is eligible already. -/
def doWait (s : State) : State :=
  if s.core.cring ≠ 0 then privilege 3 s
  else if s.bestSource.isSome then retire s
  else (updCore (fun c => { c with waiting := some .wait }) s).wrB Reg.CUS_STATUS 3 true

/-- WAIT_WAKE: an enabled source becomes eligible and WAIT retires. -/
def wakeUp (s : State) : State :=
  if s.core.waiting = some .wait ∧ s.bestSource.isSome then retire (s.wrB Reg.CUS_STATUS 3 false) else s

/-! ### Decoding, as far as UNDEF needs it (R314, R315, R317, R324, R325, R346, R349) -/

/-- Bits `[hi:lo]` of an instruction word are all 0. -/
def z0 (w : Word) (hi lo : Nat) : Bool := bits w hi lo == 0

/-- Whether a format R word is defined: FN listed for its opcode, with the fields it does not use free of rule. -/
def definedR (w : Word) : Bool :=
  let fn := bits w 13 8
  match bits w 31 26 with
  | 0x01 => decide (fn ≤ 0x0A) || (decide (0x10 ≤ fn) && decide (fn ≤ 0x17))
  | 0x09 => [0, 1, 2, 4, 5, 6, 7].contains fn
  | 0x0A => decide (fn ≤ 8)
  | 0x1B => decide (fn ≤ 4)
  | _ => false

/-- Whether a block instruction word is defined (R324, R325): bits [24:22], rb and AUX[5:0] are 0, SIZE is not 0b11, and BGCOPY has SIZE 0b00;
BCMPC and BGCOPY need RPT. -/
def definedBlock (w : Word) : Bool :=
  let fn := bits w 13 8
  z0 w 24 22 && z0 w 17 14 && z0 w 5 0 && decide (bits w 7 6 < 3) && decide (fn ≤ 5) && (fn != 5 || bits w 7 6 == 0)
    && (fn < 4 || bit w 25)

/-- Whether a system word is defined. -/
def definedS (w : Word) : Bool :=
  let im := bits w 11 0
  match bits w 17 12 with
  | 0x00 | 0x04 | 0x05 => true
  | 0x01 => srDefined im
  | 0x02 => srDefined im && !(decide (1 ≤ im) && decide (im ≤ 15))
  | 0x03 => decide (im < 8)
  | 0x10 => decide (im < 256) && z0 w 25 18
  | 0x11 => decide (im < 3) && z0 w 25 18
  | _ => false

/-- Whether an instruction word is defined. -/
def definedWord (w : Word) : Bool :=
  let op := bits w 31 26
  if op = 0x01 ∨ op = 0x09 ∨ op = 0x0A ∨ op = 0x1B then definedR w
  else if 0x02 ≤ op ∧ op ≤ 0x07 then z0 w 17 16
  else if 0x10 ≤ op ∧ op ≤ 0x12 then bits w 17 16 != 3
  else if 0x18 ≤ op ∧ op ≤ 0x1A then true
  else if op = 0x20 then definedBlock w
  else if op = 0x3F then w != 0xFFFFFFFF && definedS w
  else false

/-- UNDEFINED_INSTRUCTION: UNDEF, with floating-point opcodes counted in CUS_FP_TRAP as well (R333). -/
def doUndefined (w : Word) (s : State) : State :=
  if definedWord w then s
  else undefined (if 0x30 ≤ bits w 31 26 ∧ bits w 31 26 ≤ 0x37 then s.bump Reg.CUS_FP_TRAP else s)

end Sys2Proof.Machine
end

