-- ==== Sys2Proof/Machine/HostOps.lean ====
section
/-! DEFINITION. Running a host command: the opcode catalogue (R90 and the command tables of every chapter), the checks of R83 in their
order, quorum tickets (R485 to R488) and the reply that ends or accepts the command. -/

namespace Sys2Proof

/-- Check 1 of R83: reserved fields and lengths of R69 (the profile of an expert form is 0; parameters at most 65,536 bytes; output
at most 1,048,576 bytes; a VF has queue 0 only). -/
def HostCmd.wellFormed (c : HostCmd) : Bool :=
  !(c.expert && c.profile != 0) && decide (c.params.length + (c.ticket.getD []).length ≤ 65536)
    && decide (c.outLen ≤ 1048576) && (c.fn.val == 0 || c.queue.val == 0)

/-- The tenant of a VF. -/
def HostCmd.own (c : HostCmd) : Nat := c.fn.val - 1

/-- The scope number of a policy or roster entry: a tenant, or 512 for the device. -/
def devScope : Nat := 512

/-- The scope of tickets of a caller: its tenant, or the device for PF0. -/
def HostCmd.scope (c : HostCmd) : Nat := if c.fn.val = 0 then devScope else c.own

/-- The tenant a query acts on: the VF's own, or the one PF0 names. -/
def HostCmd.target (c : HostCmd) (named : Nat) : Nat := if c.fn.val = 0 then named else c.own

/-- The colour of a function's accesses (R64): PF0 carries 0, VF n carries n. -/
def fnColour (fn : Nat) : Nat := fn

/-- What a command has staged, tagged with its function's colour (R64, R69). -/
def HostCmd.staged (c : HostCmd) : Machine.HostStaged :=
  ⟨fnColour c.fn, c.expert, c.profile.toNat, c.ticket.isSome, c.params ++ c.ticket.getD [], c.outAddr.toNat, c.outLen⟩

/-- The reference of a command. -/
def HostCmd.ref (c : HostCmd) : Machine.CmdRef := ⟨c.fn, c.queue, c.ident.toNat⟩

end Sys2Proof

namespace Sys2Proof.Machine

/-- Who a change needs permission from (R87, R88, R90). -/
inductive Perm where
  /-- a bit of the permission word -/
  | need (b : Nat)
  /-- any function, without credentials (R58) -/
  | open
  /-- OWNER from PF0; a VF acts on its own tenant (R58) -/
  | ownerOrOwn
  /-- from PF0, its authority carried by a quorum ticket (R88) -/
  | ticket
  /-- a group 0x09 command from the function that opened the ceremony (R489) -/
  | cer
  deriving DecidableEq, Repr

/-- Which functions may issue a command: PF0, VFs, or either. -/
inductive Issuer where
  | pf | vf | both
  deriving DecidableEq, Repr

/-- A row of the opcode catalogue: code of the basic form, modes, permission, issuer, number of profiles of the basic form. -/
structure OpInfo where
  code : Nat
  modes : List Mode
  perm : Perm
  src : Issuer
  profiles : Nat
  deriving DecidableEq, Repr

/-- Every mode except FACTORY ("all" of R90). -/
def mAll : List Mode := [.notary, .ceremony, .service, .maintenance, .zeroized]
/-- NOTARY, CEREMONY, SERVICE and MAINTENANCE. -/
def mLive : List Mode := [.notary, .ceremony, .service, .maintenance]
/-- CEREMONY, SERVICE and MAINTENANCE. -/
def mCsm : List Mode := [.ceremony, .service, .maintenance]
/-- SERVICE and MAINTENANCE. -/
def mSm : List Mode := [.service, .maintenance]
/-- CEREMONY and MAINTENANCE. -/
def mCm : List Mode := [.ceremony, .maintenance]
/-- NOTARY, SERVICE and MAINTENANCE. -/
def mNsm : List Mode := [.notary, .service, .maintenance]

/-- Rows that share modes, permission, issuer and profiles. -/
def opRows (codes : List Nat) (m : List Mode) (p : Perm) (i : Issuer) (n : Nat) : List OpInfo :=
  codes.map (fun c => ⟨c, m, p, i, n⟩)

/-- The opcode catalogue (R58, R210, R253, R293, R309, R404, R424, R444, R464, R478, R506, R518, R545, R561, R578). -/
def opcodes : List OpInfo :=
  opRows [0x0101, 0x0102] mAll .open .both 1
  ++ opRows [0x0110] mSm .ownerOrOwn .both 1 ++ opRows [0x0111] [.maintenance] .ownerOrOwn .both 1
  ++ opRows [0x0120] mAll (.need 6) .pf 2
  ++ opRows [0x0201, 0x0203, 0x0205] mCsm (.need 0) .both 1 ++ opRows [0x0202, 0x0204] mCsm (.need 0) .vf 1
  ++ opRows [0x0210, 0x0212, 0x0214, 0x0216] mCsm (.need 2) .vf 1 ++ opRows [0x0211] mCm (.need 2) .both 1
  ++ opRows [0x0213, 0x0215, 0x0217] mSm (.need 2) .vf 1 ++ opRows [0x0218, 0x0219] [.maintenance] (.need 2) .vf 1
  ++ opRows [0x0301, 0x0302, 0x0303, 0x0304] mSm (.need 0) .both 1
  ++ opRows [0x0310, 0x0311, 0x0312, 0x0315, 0x0316, 0x0318, 0x0319] mSm (.need 1) .vf 1
  ++ opRows [0x0313, 0x0314] mSm (.need 1) .both 1
  ++ opRows [0x0317] mSm (.need 6) .pf 1 ++ opRows [0x031A, 0x031B] mSm (.need 1) .pf 1
  ++ opRows [0x0401, 0x0402, 0x0403, 0x0404, 0x0406] mAll (.need 0) .both 1 ++ opRows [0x0405] mAll (.need 0) .vf 1
  ++ opRows [0x0410, 0x0413] mLive (.need 3) .pf 1 ++ opRows [0x0411] mLive (.need 3) .both 1
  ++ opRows [0x0412] mLive (.need 3) .vf 1 ++ opRows [0x0414] mSm (.need 3) .vf 1
  ++ opRows [0x0501, 0x0502, 0x0503] mAll (.need 0) .both 1 ++ opRows [0x0510, 0x0511, 0x0512] mSm (.need 1) .pf 1
  ++ opRows [0x0520, 0x0521, 0x0522, 0x0523] mSm (.need 1) .vf 1
  ++ opRows [0x0601] mSm (.need 0) .both 1
  ++ opRows [0x0610, 0x0611, 0x0612, 0x0613, 0x0614, 0x0615, 0x0616, 0x0617, 0x0618] mSm (.need 4) .both 256
  ++ opRows [0x0701] mSm (.need 0) .both 1 ++ opRows [0x0710, 0x0711] mSm (.need 4) .both 3
  ++ opRows [0x0712, 0x0713, 0x0714, 0x0715, 0x0716, 0x0720] mSm (.need 4) .both 1
  ++ opRows [0x0721, 0x0730] mSm (.need 4) .pf 1
  ++ opRows [0x0801, 0x0802, 0x0803] mAll (.need 0) .pf 1
  ++ opRows [0x0810, 0x0820, 0x0821, 0x0822, 0x0823, 0x0824, 0x0825, 0x0826] [.maintenance] (.need 6) .pf 1
  ++ opRows [0x0901, 0x0904] mAll (.need 0) .pf 1 ++ opRows [0x0902, 0x0903] mAll (.need 0) .both 1
  ++ opRows [0x0910] [.notary, .maintenance, .zeroized] .ticket .pf 1
  ++ opRows [0x0911, 0x0912, 0x0913, 0x0914, 0x0915, 0x0917, 0x0918, 0x0919] [.ceremony] .cer .both 1
  ++ opRows [0x0916] [.ceremony] .cer .both 3
  ++ opRows [0x0A01, 0x0A02, 0x0A03, 0x0A04, 0x0A05, 0x0A0C] mAll (.need 0) .pf 1
  ++ opRows [0x0A10] mLive .ticket .pf 1 ++ opRows [0x0A11, 0x0A30, 0x0A31] mCm .ticket .pf 1
  ++ opRows [0x0A12] mSm .ticket .pf 1 ++ opRows [0x0A32] mCsm .ticket .pf 1
  ++ opRows [0x0A13] mSm (.need 6) .pf 1 ++ opRows [0x0A14, 0x0A33] mNsm (.need 6) .pf 1
  ++ opRows [0x0A15] mLive (.need 6) .pf 1 ++ opRows [0x0A16] [.maintenance] (.need 6) .pf 1
  ++ opRows [0x0B01, 0x0B02] mCsm (.need 0) .pf 1 ++ opRows [0x0B10, 0x0B11, 0x0B15] [.ceremony] (.need 6) .pf 1
  ++ opRows [0x0B12, 0x0B13, 0x0B14] mSm (.need 6) .pf 1
  ++ opRows [0x0C01, 0x0C02] mAll (.need 0) .pf 1
  ++ opRows [0x0C10, 0x0C11, 0x0C12, 0x0C13, 0x0C14] [.maintenance] (.need 6) .pf 1

/-- The catalogue row of a basic opcode. -/
def opInfo (op : Nat) : Option OpInfo := opcodes.find? (fun i => i.code == op)

/-- The permission word in force (R87, R88): PF0 carries the anonymous set (READ) until a charter is held and in ZEROIZED; a VF
whose tenant does not exist carries 0. -/
def State.perms (s : State) (fn : Nat) : Word :=
  if fn = 0 then
    (if s.anyCharter && s.sys.mode != .zeroized then tget (dflt 1) s.host.perm 0 else 1)
  else if (s.tenant (fn - 1)).present then tget (dflt 0) s.host.perm fn else 0

/-- Whether custody firmware is fetching commands: stage 2 is complete, main power is on and no custody reset is in progress. -/
def State.ready (s : State) : Bool := !s.sys.cusInReset && !s.host.rrs && s.sys.mainPower && !s.host.perst

/-- Whether PF0 carries the anonymous set (R88). -/
def State.anonymous (s : State) : Bool := !s.anyCharter || s.sys.mode == .zeroized

/-- Check 4 of R83: the mode lies in the opcode's modes (in recovery R47 applies in their place), and a VF's tenant exists. -/
def modeAllows (s : State) (op fn : Nat) (i : OpInfo) : Bool :=
  (if s.sys.recovery then fn == 0 && ([0x0101, 0x0102].contains op || op / 256 == 8)
   else i.modes.contains s.sys.mode)
  && (fn == 0 || (s.tenant (fn - 1)).present)

/-- Whether a ticket carries the authority of a command, whatever the permission word holds (R88): group 0x09, and the zeroize command, from PF0. -/
def ticketCarries (op fn : Nat) (ticket : Bool) : Bool := ticket && fn == 0 && (op / 256 == 9 || op == 0x0A10)

/-- Check 5 of R83: the function may issue the command and carries the group's permission (R87 to R90, R489). -/
def permAllows (s : State) (op fn : Nat) (ticket : Bool) (i : OpInfo) : Bool :=
  (match i.src with | .pf => fn == 0 | .vf => fn != 0 | .both => true) &&
  match i.perm with
  | .open => true
  | .need b =>
    bit (s.perms fn) b || ticketCarries op fn ticket || (op == 0x0211 && s.cer.phase != .idle && s.cer.fn == fn) || (s.sys.recovery && fn == 0)
  | .ownerOrOwn => fn != 0 || bit (s.perms fn) 6
  | .ticket => fn == 0
  | .cer => true

/-- Who calls a function of the device (R86): a PCIe function, with or without a ticket, or a ring inside the device. -/
inductive Caller where
  | pcie (fn : Nat) (ticket : Bool)
  | ring (r : Nat)
  deriving DecidableEq, Repr

/-- Check 6 of R83: from PCIe an expert form needs EXPERT, but for the nonce-signed identity attestation 0x8102 in the anonymous set and what a ticket
carries (R86, R88); inside the device it needs ring 1 or lower. Every command of the table comes from PCIe. -/
def expertAllows (s : State) (op : Nat) (expert : Bool) : Caller → Bool
  | .pcie fn ticket => !expert || bit (s.perms fn) 5 || (op == 0x0102 && fn == 0 && s.anonymous) || ticketCarries op fn ticket
  | .ring r => !expert || decide (r ≤ 1)

/-- Checks 3 to 9 of R83 on an opcode, in order: the status of the first that fails. -/
def checkOp (s : State) (op fn : Nat) (expert ticket : Bool) (profile : Nat) (named : List Nat) (paramOk : Bool) : Option Nat :=
  match opInfo op with
  | none => some 0x1F01
  | some i =>
    if !modeAllows s op fn i then some 0x2101
    else if !permAllows s op fn ticket i then some 0x2F02
    else if !expertAllows s op expert (.pcie fn ticket) then some 0x2F03
    else if !expert && decide (i.profiles ≤ profile) then some 0x1F04
    else if fn != 0 && named.any (fun t => t + 1 != fn) then some 0x2F04
    else if !paramOk then some 0x1F03
    else none

/-- All the checks of R83 on a command, in order. -/
def hostCheck (op : Nat) (c : HostCmd) (named : List Nat) (s : State) : Option Nat :=
  if !c.wellFormed then some 0x1F02
  else if ((s.queue (qkey c.fn c.queue)).find c.ident.toNat).isSome then some 0x1F05
  else checkOp s op c.fn c.expert c.ticket.isSome c.profile.toNat named c.paramOk

/-- The commands a function has outstanding, over all its queues. -/
def State.outstandingOf (s : State) (fn : Nat) : Nat :=
  ((List.range 8).map (fun q => (s.queue (qkey fn q)).outstanding.length)).sum

/-- The limit of R74. -/
def outstandingLimit (fn : Nat) : Nat := if fn = 0 then 256 else 64

/-- Enter a command in the outstanding table at a given stage, with what it stages. -/
def enterCmd (c : HostCmd) (op : Nat) (st : CmdStage) (s : State) : State :=
  let k := qkey c.fn c.queue
  let q := s.queue k
  s.setQueue k { q with outstanding := q.outstanding ++ [⟨c.ident.toNat, op, c.fence, st, s.ms, c.staged⟩] }

/-- Whether the command was fetched and checked by COMMAND_FETCH, with the form and parameters its entry staged, and now runs (R82); a queue disabled
or a function reset since then does not stop it. -/
def alreadyRunning (op : Nat) (c : HostCmd) (s : State) : Bool :=
  let q := s.queue (qkey c.fn c.queue)
  (q.outstanding ++ q.orphans).any (fun o => o.ident == c.ident.toNat && o.opcode == op && o.stage == .running && o.staged == c.staged)

/-- What the work of a command answers: a final status with output and detail, an interim reply with the work going on, an
interim reply that the final reply follows in the same step, work that goes on without an interim reply, a status with nothing
changed, or that what it needs is not free yet, so that it waits; `park` waits in an order of the state it gives. -/
inductive Ans where
  | done (status : Nat) (out : Bytes) (detail : Nat) (s : State)
  | wait (status : Nat) (s : State)
  | both (interim status : Nat) (out : Bytes) (s : State)
  | hold (s : State)
  | fail (status : Nat)
  | later
  | park (s : State)

/-- The final reply of a command's work from `s` to `s'`. A protected event of the command that finds no free entry of the event queue
keeps the command RUNNING until it is taken (R278). -/
def finish (r : CmdRef) (status : Nat) (out : Bytes) (detail : Nat) (s s' : State) : State :=
  if s.ldg.evHeld.length < s'.ldg.evHeld.length then
    let k := qkey r.fn r.queue
    let s' := s'.setQueue k ((s'.queue k).restage r.ident .interim)
    { s' with ldg := { s'.ldg with heldReplies := s'.ldg.heldReplies ++ [⟨r, status, out, detail, s'.ldg.evHeld.length⟩] } }
  else finalReply r status out detail s'

/-- Forget the operation of a command that waits for a custody unit (R82, R84). -/
def unpark (p : CmdRef → Bool) (s : State) : State :=
  { s with pke := { s.pke with queue := s.pke.queue.filter (fun w => match w with | .host r _ _ => !p r | _ => true) } }

/-- A command whose resources are not free is WAITING again; one whose queue was disabled meanwhile is discarded (R82, R84). -/
def waitAgain (r : CmdRef) (s : State) : State :=
  let k := qkey r.fn r.queue
  let q := s.queue k
  if q.orphan r.ident then unpark (· == r) (s.setQueue k { q with orphans := q.orphans.filter (fun o => o.ident != r.ident) })
  else s.setQueue k (q.restage r.ident .waiting)

/-- Carry out the answer of a command's work, from the state in which it was admitted. A PCIe error on the output write gives
0x1F06; the effect stands. -/
def conclude (c : HostCmd) (a : Ans) (s : State) : State :=
  match a with
  | .done st out d s' => finish c.ref (if out ≠ [] ∧ c.outAddr ≠ 0 ∧ !c.outOk then 0x1F06 else st) out d s s'
  | .wait st s' => interimReply c.ref st s'
  | .both i st out s' => finish c.ref st out 0 s (interimReply c.ref i s')
  | .hold s' => s'.setQueue (qkey c.fn c.queue) ((s'.queue (qkey c.fn c.queue)).restage c.ident.toNat .interim)
  | .fail st => finalReply c.ref st [] 0 s
  | .later => waitAgain c.ref s
  | .park s' => waitAgain c.ref s'

/-- A final reply to a command that was fetched and not started (R82). -/
def turnAway (c : HostCmd) (status : Nat) (s : State) : State :=
  let k := qkey c.fn c.queue
  putQueue k ((s.queue k).post ⟨c.ident.toNat, status, (s.queue k).sqHead, c.queue, false, 0, 0, [], 0⟩) s

/-- Whether a command just fetched waits: behind one of its queue that has not started, since they start in ring order (R72), with FENCE behind any that
is outstanding (R70), and while a command of its identifier goes on whose replies are discarded (log entry 300). -/
def Queue.waitsBehind (q : Queue) (fence : Bool) (ident : Nat) : Bool :=
  q.outstanding.any (fun o => o.stage == .waiting) || (fence && q.outstanding != []) || q.orphan ident

/-- Whether firmware fetches from a queue now (R67): while the admin queue has commands to fetch, no other queue is served. -/
def State.queueServed (s : State) (k : Nat) : Bool := (s.queue k).canFetch && (k == 0 || !(s.queue 0).canFetch)

/-- Read the entry at the head of a queue and advance the head (R69). -/
def takeEntry (k : Nat) (s : State) : State :=
  let q := s.queue k
  transfer (k / 8) false (q.sqBase.toNat + 64 * q.sqHead) [] (s.setQueue k q.advanceHead)

/-- Run a host command. One that COMMAND_FETCH has entered and COMMAND_RESERVE has started does its work; any other is fetched from the head of its
ring, when firmware is ready and the queue has an entry: the checks of R83, the limit of R74, and the work unless it waits behind earlier commands. -/
def hostRun (op : Nat) (c : HostCmd) (named : List Nat) (work : State → Ans) (s : State) : State :=
  if !s.ready then s
  else if alreadyRunning op c s then conclude c (work s) s
  else if !s.queueServed (qkey c.fn c.queue) then s
  else
    let s := takeEntry (qkey c.fn c.queue) s
    match hostCheck op c named s with
    | some st => turnAway c st s
    | none =>
      if s.outstandingOf c.fn ≥ outstandingLimit c.fn then turnAway c 0x3F02 s
      else if (s.queue (qkey c.fn c.queue)).waitsBehind c.fence c.ident.toNat then enterCmd c op .waiting s
      else
        let s0 := enterCmd c op .running s
        conclude c (work s0) s0

/-! ### Quorum tickets -/

/-- The policy of a scope (R483). -/
def State.policy (s : State) (scope : Nat) : Policy := tget (dflt Policy.dflt) s.cer.policies scope

/-- The custodian of a number in the committed roster (R482). -/
def State.custodian (s : State) (n : Nat) : Custodian := tget (dflt Custodian.empty) s.cer.roster n

/-- The approvals of a ticket: custodian number, the six reserved bytes, and signature (R485). -/
def approvals (t : Bytes) (k : Nat) : List (Nat × Bytes × Bytes) :=
  (List.range k).map (fun i => (field t (80 + 104 * i) 2, slice t (82 + 104 * i) 6, slice t (88 + 104 * i) 96))

/-- Whether a list of numbers has a repeat. -/
def hasDup : List Nat → Bool
  | [] => false
  | x :: xs => xs.contains x || hasDup xs

/-- Discard the nonces of R484 that have expired. -/
def liveNonces (s : State) : List Nonce := s.cer.nonces.filter (fun n => decide (s.ms < n.issued + 600000))

/-- Consume a nonce of a function. -/
def consumeNonce (fn : Nat) (v : Bytes) (s : State) : State :=
  { s with cer := { s.cer with nonces := (liveNonces s).filter (fun n => !(n.fn == fn && n.value == v)) } }

/-- The checks of R486 on a ticket, in order: the failing status, if any, with the nonce consumed from step 3 on, the security alarm
of a failing signature, and the extension of register 22 by a passing ticket (R487). -/
def ticketCheck (op : Nat) (c : HostCmd) (scope : Nat) (t : Bytes) (s : State) : Option Nat × State :=
  let k := field t 5 1
  let apps := approvals t k
  let scopeWord := if scope = devScope then 0xFFFF else scope
  let opWord := if c.expert then op + 0x8000 else op
  if t.length ≠ 80 + 104 * k ∨ field t 0 4 ≠ 0x51544B31 ∨ field t 4 1 ≠ 1 ∨ k < 1 ∨ 16 < k ∨ field t 6 2 ≠ t.length
      ∨ field t 76 4 ≠ 0 ∨ apps.any (fun a => a.2.1 != zeros 6) then (some 0x1901, s)
  else if field t 8 8 ≠ Config.serial.toNat then (some 0x2901, s)
  else if !(liveNonces s).any (fun n => n.fn == c.fn.val && n.value == slice t 16 16) then (some 0x2902, s)
  else
    let s := consumeNonce c.fn (slice t 16 16) s
    if field t 32 2 ≠ opWord ∨ slice t 36 32 ≠ sha256 c.params ∨ field t 34 2 ≠ scopeWord then (some 0x2903, s)
    else if field t 68 8 < s.epoch then (some 0x2904, s)
    else if hasDup (apps.map (·.1))
        ∨ apps.any (fun a => (s.custodian a.1).state != 1 || (s.custodian a.1).scope != scope) then (some 0x2905, s)
    else if apps.any (fun a => !Config.ecdsaVerify (s.custodian a.1).pubkey (sha384 (t.take 80)) a.2.2) then
      (some 0xE901, alarm 0x08 13 (srcMaster 1027) true s)
    else if k < (s.policy scope).m ∨ (apps.filter (fun a => (s.custodian a.1).regulator)).length < (s.policy scope).regMin then
      (some 0x2906, s)
    else (none, extendMr 22 (sha384 (t.take 80)) s)

/-- Apply the ticket rules to a command: a missing ticket that is needed completes with `missing` (R488); a ticket attached is
checked in full whether or not it is needed (R487); then the work goes on, told whether a ticket passed. -/
def withTicket (op : Nat) (c : HostCmd) (scope : Nat) (needed : Bool) (missing : Nat) (work : Bool → State → Ans) (s : State) : Ans :=
  match c.ticket with
  | none => if needed then .fail missing else work false s
  | some t =>
    match ticketCheck op c scope t s with
    | (some st, s') => .done st [] 0 s'
    | (none, s') =>
      match work true s' with
      | .fail st => .done st [] 0 s'
      | a => a

end Sys2Proof.Machine
end

