-- ==== Sys2Proof/Machine/Flash.lean ====
section
/-! DEFINITION. Custody flash (chapter 16, R446 to R458): sectors and views, protection, program, erase and suspend, incomplete erases and
bad granules; and reading memory by DMA through the gates. -/

namespace Sys2Proof.Machine

/-! ### Views, protection and contents (R447, R448, R451, R456) -/

/-- FSH_CTL.VIEW: true in the normal view. -/
def State.normalView (s : State) : Bool := s.bitOf Reg.FSH_CTL 0

/-- What an erase at an offset erases: the sector of the view in force. -/
def State.eraseRange (s : State) (a : Nat) : Nat × Nat :=
  if s.normalView then sectorRange (sectorOf a) else (a / 0x1000 * 0x1000, 0x1000)

/-- Whether a sector is protected (R450, R451). -/
def State.sectorProtected (s : State) (k : Nat) : Bool :=
  s.bitOf (Reg.FSH_WP (k / 32)) (k % 32) || (k == 8 && s.sys.shipFuse)

/-- A byte of custody flash: 0xFF where nothing is programmed, and an unknown value where an operation was cut short. -/
def State.flashByte (s : State) (a : Nat) : Byte :=
  match tget (dflt 0) s.fsh.garble (a / 256) with
  | 0 => tget (dflt 0xFF) s.fsh.cells a
  | n => Config.indetByte n a

/-- Bytes of custody flash. -/
def State.flashBytes (s : State) (a n : Nat) : Bytes := (List.range n).map (fun i => s.flashByte (a + i))

/-- The sectors that the scan reports: those with a marked granule or a torn page (R456). -/
def State.scanIncomplete (s : State) : List Nat :=
  ((s.fsh.marked.map (fun g => sectorOf (g * 4096))) ++ (s.fsh.torn.map (fun p => sectorOf (p * 256)))).eraseDups

/-- Show INCOMPLETE_ERASE in FSH_INCOMP0 to 4 and FSH_STATUS.ANY_INCOMP. -/
def showIncomplete (s : State) : State :=
  let l := s.scanIncomplete
  let w (n : Nat) : Word := BitVec.ofNat 32 ((l.filter (fun k => k / 32 == n)).map (fun k => 2 ^ (k % 32))).sum
  ((List.range 5).foldl (fun s n => s.wr (Reg.FSH_INCOMP n) (w n)) s).wrB Reg.FSH_STATUS 3 (l != [])

/-! ### Operations (R448, R452, R454) -/

/-- FSH_RESULT of a command on a sector. -/
def flashResult (code sector : Nat) (s : State) : State := s.wr Reg.FSH_RESULT (BitVec.ofNat 32 (code + 256 * sector))

/-- FSH_STATUS.OP. -/
def showOp (s : State) : State :=
  s.wrF Reg.FSH_STATUS 1 0 (if s.fsh.prog.isSome then 1 else match s.fsh.erase with
    | some e => if e.suspended then 3 else 2
    | none => 0)

/-- Change the flash state. -/
def updFsh (f : FlashState → FlashState) (s : State) : State := { s with fsh := f s.fsh }

/-- The bytes FSH_PGBUF holds for the unit of the view. -/
def State.pageData (s : State) : Bytes :=
  (List.range (if s.normalView then 64 else 1)).flatMap (fun n => le 4 (s.rd (Reg.FSH_PGBUF n)).toNat)

/-- Why a program of bytes at an offset is refused, if it is (R448, R450, R452, R454, R456, R458). -/
def State.programCode (s : State) (a : Nat) (data : Bytes) : Nat :=
  let k := sectorOf a
  if s.fsh.prog.isSome || (match s.fsh.erase with | some e => !e.suspended | none => false) then 5
  else if a % data.length ≠ 0 then 4
  else if s.sectorProtected k then 1
  else if s.fsh.bad.contains k then 6
  else if s.fsh.torn.contains (a / 256) then 2
  else if s.sectorIncomplete k || (match s.fsh.erase with | some e => decide (e.first ≤ a) && decide (a < e.first + e.size) | none => false) then 3
  else if (s.flashBytes a data.length).any (· != 0xFF) then 2
  else 0

/-- FLASH_PROGRAM: FSH_CMD PROGRAM starts a page or word program at FSH_ADDR. -/
def execFlashProgram (s : State) : Out :=
  let a := s.fld Reg.FSH_ADDR 24 0
  let d := s.pageData
  match s.programCode a d with
  | 0 => .next (showOp (updFsh (fun f => { f with prog := some (a, d) }) s))
  | c => .next (irq Reg.FSH_IRQ_STATUS 7 1 (flashResult c (sectorOf a) s))

/-- Why an erase at an offset is refused, if it is. -/
def State.eraseCode (s : State) (a : Nat) : Nat :=
  let k := sectorOf a
  if s.fsh.prog.isSome ∨ s.fsh.erase.isSome then 5
  else if s.sectorProtected k then 1
  else if s.fsh.bad.contains k then 6
  else 0

/-- Begin an erase: its granules are marked before they are erased (R456). -/
def startErase (first size : Nat) (cmd : Option CmdRef) (s : State) : State :=
  let gs := (List.range (size / 4096)).map (fun i => first / 4096 + i)
  showOp (updFsh (fun f => { f with
    erase := some ⟨first, size, s.now, false, false, false, cmd⟩
    marked := f.marked.filter (fun g => !gs.contains g) ++ gs }) s)

/-- FLASH_ERASE: FSH_CMD ERASE starts the erase of the sector holding FSH_ADDR. -/
def execFlashErase (s : State) : Out :=
  let a := s.fld Reg.FSH_ADDR 24 0
  match s.eraseCode a with
  | 0 => let r := s.eraseRange a
         .next (startErase r.1 r.2 none s)
  | c => .next (irq Reg.FSH_IRQ_STATUS 7 1 (flashResult c (sectorOf a) s))

/-- The microseconds an erase has run (FSH_RUN_US). -/
def State.runUs (s : State) : Nat := match s.fsh.erase with
  | some e => if e.suspended then 0 else (s.now - e.since) / 1000
  | none => 0

/-- FLASH_SUSPEND: FSH_CMD SUSPEND; it takes effect at the suspend point (R453). An erase that firmware suspends itself stays so until RESUME. -/
def execFlashSuspend (s : State) : Out :=
  .next (updFsh (fun f => { f with erase := f.erase.map (fun e => { e with pendSuspend := !e.suspended, byRead := false }) }) s)

/-- Resume a suspended erase. -/
def resumeErase (s : State) : State :=
  match s.fsh.erase with
  | some e => if e.suspended then
      showOp (updFsh (fun f => { f with erase := some { e with suspended := false, byRead := false, since := s.now } }) s) else s
  | none => s

/-- FLASH_RESUME: FSH_CMD RESUME; with nothing suspended the result is NOT_SUSPENDED. -/
def execFlashResume (s : State) : Out :=
  match s.fsh.erase.map (·.suspended) with
  | some true => .next (resumeErase s)
  | _ => .next (irq Reg.FSH_IRQ_STATUS 7 1 (flashResult 7 (sectorOf (s.fld Reg.FSH_ADDR 24 0)) s))

/-! ### Reading the window (R453, R456) and the boot image stream (R392) -/

/-- Whether the window serves a read now. -/
def State.flashIdle (s : State) : Bool :=
  s.fsh.prog.isNone && (match s.fsh.erase with | some e => e.suspended | none => true)

/-- A read that meets an operation waits for it; during an erase with AUTO_SUSPEND it asks for a suspend (R453). -/
def askSuspend (s : State) : State :=
  if s.flashIdle ∨ !s.bitOf Reg.FSH_CTL 1 then s
  else updFsh (fun f => { f with erase := f.erase.map (fun e => if e.suspended ∨ e.pendSuspend then e else { e with pendSuspend := true, byRead := true }) }) s

/-- The ranges of custody flash whose bits are indeterminate: incomplete sectors, the range of a suspended erase, torn pages. -/
def State.indetRanges (s : State) : List (Nat × Nat) :=
  ((List.range 144).filter s.sectorIncomplete).map sectorRange ++ (s.fsh.erase.toList.map (fun e => (e.first, e.size))) ++ s.fsh.torn.map (fun p => (p * 256, 256))

/-- The first indeterminate address of a read. -/
def State.indetAt (s : State) (a n : Nat) : Option Nat :=
  ((s.indetRanges.filter (fun r => decide (r.1 < a + n) && decide (a < r.1 + r.2))).map (fun r => max a r.1)).min?

/-- Flag a read of indeterminate bits: FSH_IRQ_STATUS.INDET, with the first such address in FSH_INDET_ADDR (R456). -/
def noteIndet (a n : Nat) (s : State) : State :=
  match s.indetAt a n with
  | some d => irq Reg.FSH_IRQ_STATUS 7 2 (if s.bitOf Reg.FSH_IRQ_STATUS 2 then s else s.wr Reg.FSH_INDET_ADDR (BitVec.ofNat 32 d))
  | none => s

/-- The check bits of a read (R448): single-bit errors are corrected and counted; a word with a double-bit error returns its stored bits, which are not
those that were written, is counted and raises ERROR. -/
def readEcc (r : WindowRead) (s : State) : State :=
  let s := s.bumpBy Reg.FSH_ECC_CORR r.corrected
  match r.uncorrected with
  | none => s
  | some w =>
    let s := updFsh (fun f => { f with cells := tputBytes (dflt 0xFF) f.cells ((r.addr / 4 + w) * 4) (s.freeBytes 4) }) s.drawn
    irq Reg.FSH_IRQ_STATUS 7 1 (s.bump Reg.FSH_ECC_UNCORR)

/-! ### DMA through the gates (R377, R382) -/

/-- The value of a byte of a memory target: custody SRAM, the flash window and DRAM. -/
def State.memByte (s : State) (a : Nat) : Byte :=
  if a < 0x200000 then tget (dflt 0) s.gte.sram a
  else if 0x04000000 ≤ a ∧ a < 0x06000000 then s.flashByte (a - 0x04000000)
  else if 0x40000000 ≤ a ∧ a < 0x80000000 then
    match s.dramAddr a with
    | some d => tget (dflt 0) s.gte.dram d
    | none => 0
  else 0

/-- The granule-aligned pieces of a range: address and length of each. -/
def pieces : Nat → Nat → Nat → List (Nat × Nat)
  | 0, _, _ => []
  | f + 1, a, n => if n = 0 then [] else
    let k := min n (64 - a % 64)
    (a, k) :: pieces f (a + k) (n - k)

/-- The first refusal that the gates give a master reading or writing a range, piece by piece. -/
def State.dmaCheck (s : State) (master colour : Nat) (wr : Bool) (addr len : Nat) : Option (Access × Nat × Nat × Option Nat) :=
  (pieces (len / 64 + 2) addr len).findSome? (fun p =>
    let a : Access := ⟨p.1, 0, wr, 0, master, colour⟩
    match s.gateCheck a with
    | .pass => none
    | .refuse c r t => some (a, c, r, t))

/-- Read a range for a master: the bytes, or `none` with the refusal logged. Bytes of the host window are those the host's memory answers. -/
def gateRead (master colour addr len : Nat) (host : Bytes) (s : State) : Option Bytes × State :=
  match s.dmaCheck master colour false addr len with
  | some (a, c, r, t) => (none, violate c r t a s)
  | none =>
    if 0x80000000 ≤ addr then (some (fit len host), s)
    else (some ((List.range len).map (fun i => s.memByte (addr + i))), s)

end Sys2Proof.Machine
end

