-- ==== Sys2Proof/Machine/HostIf.lean ====
section
/-! DEFINITION. The host command interface (chapter 03): doorbells and mailboxes, queue control, the BAR0 register map, fetching and
reserving commands, the watchdog, replies, function resets and the endpoint. -/

namespace Sys2Proof.Machine

/-! ### Mailbox channels -/

/-- The channel of a function's queue (R75). -/
def channelOf (fn q : Nat) : Nat := if fn = 0 then q else 7 + fn

/-- The FIFO of a channel. -/
def State.fifo (s : State) (k : Nat) : List (BitVec 64) := tget (dflt []) s.host.fifos k

/-- Replace the FIFO of a channel. -/
def State.setFifo (s : State) (k : Nat) (l : List (BitVec 64)) : State :=
  { s with host := { s.host with fifos := tput (dflt []) s.host.fifos k l } }

/-- Set a channel's bit in MBX_OVR (R79). -/
def markOverrun (k : Nat) (s : State) : State := s.wrB (Reg.MBX_OVR (k / 32)) (k % 32) true

/-- Whether a channel is in use (MBX_BIND_HI.VALID). -/
def State.bound (s : State) (k : Nat) : Bool := s.bitOf (Reg.MBX_BIND_HI k) 31

/-- Whether requests to a function are accepted (R66): IDE_REQ is 0, or the request arrives in the stream bound to the function, which
holds keys. -/
def State.ideOk (s : State) (fn : Nat) (stream : Option (Fin 8)) : Bool :=
  let w := s.rd (Reg.MBX_BIND_HI (channelOf fn 0))
  !bit w 10 || (match stream with
    | some k => k.val == bits w 13 11 && s.host.ideStreams.contains k.val
    | none => false)

/-- Update a queue of a function. -/
def updQueue (fn q : Nat) (f : Queue → Queue) (s : State) : State := s.setQueue (qkey fn q) (f (s.queue (qkey fn q)))

/-- Place a doorbell in the queue's channel (R76): the shadow is always updated; a full or unbound channel, or HOST_EN = 0, refuses the
entry, with the channel's bit in MBX_OVR and DB_OVR set (R79). -/
def doorbell (fn q : Nat) (isHead : Bool) (value : BitVec 16) (s : State) : State :=
  let k := channelOf fn q
  let s := s.wrF (Reg.MBX_DB_SHADOW k) (if isHead then 31 else 15) (if isHead then 16 else 0) value.toNat
  if s.bound k ∧ s.bitOf Reg.MBX_CTL 0 ∧ (s.fifo k).length < 8 then
    s.setFifo k (s.fifo k ++ [BitVec.ofNat 64 (value.toNat + 2 ^ 16 * b2n isHead + 2 ^ 32 * fn)])
  else updQueue fn q (fun x => { x with dbOvr := true }) (markOverrun k s)

/-- A function number reaches a queue: PF0 has eight, a VF has queue 0 (R67). -/
def queueExists (fn q : Nat) : Bool := fn == 0 || q == 0

/-- Whether host requests reach BAR0 at all: the link is up and PERST_N is high. -/
def State.hostUp (s : State) : Bool := s.host.linkUp && !s.host.perst && s.sys.mainPower

/-- A new submission tail: taken when it is less than the ring size, else BAD_DB stops the queue (R68). A queue that is not enabled ignores it (log entry
301). -/
def Queue.tailTo (v : Nat) (q : Queue) : Queue :=
  if !q.live then q else if v < 2 ^ q.sqSize then { q with sqTail := v } else { q with badDb := true, error := true }

/-- Replies held back by their commands enter the backlog while it has room; a final one completes its command (R72, R73). -/
def Queue.refill : Nat → Queue → Queue
  | 0, q => q
  | n + 1, q =>
    match q.stalled with
    | r :: rs =>
      if q.backlog.length < backlogSize then
        let q := { q with backlog := q.backlog ++ [r], stalled := rs }
        Queue.refill n (if r.status / 256 = 1 then q else q.drop r.ident)
      else q
    | [] => q

/-- Write the backlog into the ring while it has room (R73). -/
def Queue.drain : Nat → Queue → Queue
  | 0, q => q
  | n + 1, q =>
    match q.backlog with
    | r :: rs => if q.live ∧ q.hasRoom then Queue.drain n (Queue.refill 2 (({ q with backlog := rs }).write r)) else q
    | [] => q

/-- Drain at most `n` replies of a queue, one at a time, each leaving as its 16 bytes (R69, R73). -/
def drainQueue (k : Nat) : Nat → State → State
  | 0, s => s
  | n + 1, s => drainQueue k n (putQueue k ((s.queue k).drain 1) s)

/-- A new completion head: space returns to the ring (R71). A queue that is not enabled ignores it (log entry 301). -/
def Queue.headTo (v : Nat) (q : Queue) : Queue :=
  if !q.live then q
  else if v < q.cqLen then { q with cqHead := v }
  else { q with badDb := true, error := true }

/-- SQ_TAIL_DOORBELL: a host write of MBX_SQ_TAIL_DB (R66, R76, R79). -/
def execSqTailDoorbell (fn : Fin 513) (queue : Fin 8) (value : BitVec 16) (stream : Option (Fin 8)) (s : State) : Out :=
  if !s.hostUp || !queueExists fn queue then .next s
  else if !s.ideOk fn stream then .next (s.bump Reg.MBX_IDE_REJECT)
  else .next (updQueue fn queue (Queue.tailTo value.toNat) (doorbell fn queue false value s))

/-- CQ_HEAD_DOORBELL: a host write of MBX_CQ_HEAD_DB (R66, R73, R76, R79). -/
def execCqHeadDoorbell (fn : Fin 513) (queue : Fin 8) (value : BitVec 16) (stream : Option (Fin 8)) (s : State) : Out :=
  if !s.hostUp || !queueExists fn queue then .next s
  else if !s.ideOk fn stream then .next (s.bump Reg.MBX_IDE_REJECT)
  else .next (drainQueue (qkey fn queue) 64 (updQueue fn queue (Queue.headTo value.toNat) (doorbell fn queue true value s)))

/-- Whether a mailbox access by a master other than the bound sender (R77). -/
def boundSender (s : State) (k master : Nat) : Bool := s.fld (Reg.MBX_BIND_LO k) 10 0 == master

/-- Commit an entry to the selected channel (R79, R81): a full or unbound channel sets REFUSED and its bit in MBX_OVR. -/
def commitSend (lo hi : Word) (s : State) : State :=
  let k := s.fld Reg.MBX_SEND_SEL 9 0
  if s.bound k ∧ (s.fifo k).length < 8 then s.setFifo k (s.fifo k ++ [BitVec.ofNat 64 (lo.toNat + 2 ^ 32 * hi.toNat)])
  else markOverrun k (s.wrB Reg.MBX_SEND_STAT 0 true)

/-- MBX_SEND_COMMIT: a write of MBX_SEND_HI commits the staged entry to the selected channel (R81). The MBX gate refuses another master than the bound
sender (R77), and one that has not staged MBX_SEND_LO (R383); the record carries the access as it came (R384). -/
def execMbxSendCommit (sender : BusSender) (hi : Word) (s : State) : Out :=
  let master := sender.master
  let a : Access := ⟨Reg.MBX_SEND_HI, 2, true, sender.ring, master.toNat, sender.colour.toNat⟩
  let region := (s.rgnsAt (gateOf a.addr) a.addr).headD 15
  if !boundSender s (s.fld Reg.MBX_SEND_SEL 9 0) master.toNat then .next (violate 0x8 region none a s)
  else match tget (dflt none) s.gte.stages Reg.MBX_SEND_LO with
    | some (m, lo) =>
      if m = master.toNat then .next (commitSend lo hi { s with gte := { s.gte with stages := tput (dflt none) s.gte.stages Reg.MBX_SEND_LO none } })
      else .next (violate 0x9 region none a s)
    | none => .next (violate 0x9 region none a s)

/-- MBX_RECV_POP: a read of MBX_RECV_LO pops the selected channel and snapshots the high word; an empty channel sets EMPTY_READ (R95). -/
def execMbxRecvPop (s : State) : Out :=
  let k := s.fld Reg.MBX_RECV_SEL 9 0
  match s.fifo k with
  | [] => .next (s.wrB Reg.MBX_RECV_STAT 8 true)
  | e :: es =>
    let s := (s.setFifo k es).wrB Reg.MBX_RECV_STAT 8 false
    .next { s with host := { s.host with recvHi := (e >>> 32).setWidth 32 } }

/-! ### Queue control (R67, R68) -/

/-- Whether a queue's ring registers may be enabled (R67, R68). -/
def Queue.cfgOk (q : Queue) : Bool :=
  decide (4 ≤ q.sqSize) && decide (q.sqSize ≤ 12) && decide (4 ≤ q.cqSize) && decide (q.cqSize ≤ 13)
    && decide (q.sqSize ≤ q.cqSize) && q.sqBase.toNat % 64 == 0 && q.cqBase.toNat % 16 == 0

/-- Set ENABLE: both rings start empty at index 0 and PHASE starts at 1; an invalid configuration sets BAD_CFG and leaves ENABLE 0. -/
def Queue.enable (ctl : Word) (q : Queue) : Queue :=
  if q.cfgOk then
    { q with
      ctl := (ctl &&& 0x0FFFFFFF) ||| 1, sqTail := 0, sqHead := 0, cqHead := 0, cqTail := 0, phase := true, unsignalled := 0
      ring := [], backlog := [], stalled := [] }
  else { q with ctl := (ctl &&& 0x0FFFFFFE), badCfg := true }

/-- The commands of a queue that go on when their replies are discarded: those that run and are not over (R68, R82). -/
def Queue.goOn (q : Queue) : List Outstanding :=
  q.outstanding.filter (fun o => o.stage != .waiting && !q.stalled.any (fun r => r.ident == o.ident && r.status / 256 != 1)) ++ q.orphans

/-- Clear ENABLE: ERROR clears, replies not yet written are discarded, WAITING commands are discarded and those that run go on without a reply (R82). -/
def Queue.disable (ctl : Word) (q : Queue) : Queue :=
  { q with ctl := ctl &&& 0x0FFFFFFE, error := false, outstanding := [], orphans := q.goOn, backlog := [], stalled := [], unsignalled := 0 }

/-- The bits of MBX_Q_CTL that a function writes (R67): a VF has vectors 0 to 3, so of its VECTOR only [2:1] (log entry 302). -/
def ctlMask (fn : Nat) : Word := if fn = 0 then 0x0FFFFFFF else 0x0FFFFF07

/-- A write of MBX_Q_CTL. -/
def Queue.control (fn : Nat) (v : Word) (q : Queue) : Queue :=
  let ctl := v &&& ctlMask fn
  if bit ctl 0 ∧ !q.live then q.enable ctl
  else if !bit ctl 0 ∧ q.live then q.disable ctl
  else { q with ctl := ctl &&& 0x0FFFFFFF }

/-- A write of MBX_Q_CTL by a function: a queue that it disables forgets its waiting operations (R82). -/
def writeCtl (fn q : Nat) (v : Word) (s : State) : State :=
  let s := if bit v 0 || !(s.queue (qkey fn q)).live then s
    else unpark (fun r => r.fn == fn && r.queue == q && !((s.queue (qkey fn q)).goOn.any (fun o => o.ident == r.ident))) s
  updQueue fn q (Queue.control fn v) s

/-- QUEUE_ENABLE: the host writes MBX_Q_CTL with ENABLE 1 (R66, R68). The other fields come with the write. -/
def execQueueEnable (fn : Fin 513) (queue : Fin 8) (ctl : CtlWrite) (s : State) : Out :=
  if !s.hostUp || !queueExists fn queue then .next s
  else if !s.ideOk fn ctl.stream then .next (s.bump Reg.MBX_IDE_REJECT)
  else .next (writeCtl fn queue (ctl.value ||| 1) s)

/-- QUEUE_DISABLE: the host writes MBX_Q_CTL with ENABLE 0 (R66, R68, R82). -/
def execQueueDisable (fn : Fin 513) (queue : Fin 8) (ctl : CtlWrite) (s : State) : Out :=
  if !s.hostUp || !queueExists fn queue then .next s
  else if !s.ideOk fn ctl.stream then .next (s.bump Reg.MBX_IDE_REJECT)
  else .next (writeCtl fn queue (ctl.value &&& 0xFFFFFFFE) s)

/-- MBX_Q_STATUS of a queue. -/
def Queue.statusWord (q : Queue) : Word :=
  BitVec.ofNat 32 (b2n q.error + 2 * b2n q.badDb + 4 * b2n q.badCfg + 8 * b2n q.dmaErr + 16 * b2n q.dbOvr
    + 2 ^ 16 * q.outstanding.length)

/-- A write to a queue register other than MBX_Q_CTL, at offset `o` of the queue's 64 bytes; the ring registers are fixed while ENABLE is 1. -/
def Queue.writeReg (o : Nat) (v : Word) (q : Queue) : Queue :=
  if o = 0x20 then
    { q with badDb := q.badDb && !bit v 1, badCfg := q.badCfg && !bit v 2, dmaErr := q.dmaErr && !bit v 3, dbOvr := q.dbOvr && !bit v 4 }
  else if q.live then q
  else if o = 0x00 then { q with sqStage := v }
  else if o = 0x04 then { q with sqBase := BitVec.ofNat 64 (q.sqStage.toNat + 2 ^ 32 * v.toNat) }
  else if o = 0x08 then { q with sqSize := bits v 3 0 }
  else if o = 0x10 then { q with cqStage := v }
  else if o = 0x14 then { q with cqBase := BitVec.ofNat 64 (q.cqStage.toNat + 2 ^ 32 * v.toNat) }
  else if o = 0x18 then { q with cqSize := bits v 3 0 }
  else q

/-- The value of a queue register. -/
def Queue.readReg (o : Nat) (q : Queue) : Word :=
  if o = 0x00 then q.sqBase.setWidth 32
  else if o = 0x04 then (q.sqBase >>> 32).setWidth 32
  else if o = 0x08 then BitVec.ofNat 32 q.sqSize
  else if o = 0x10 then q.cqBase.setWidth 32
  else if o = 0x14 then (q.cqBase >>> 32).setWidth 32
  else if o = 0x18 then BitVec.ofNat 32 q.cqSize
  else if o = 0x1C then q.ctl
  else if o = 0x20 then q.statusWord
  else 0

/-- The value of a BAR0 register (R67); reserved offsets and write-only doorbells read 0. -/
def State.bar0 (s : State) (fn o : Nat) : Word :=
  if o = 0 then BitVec.ofNat 32 (if fn = 0 then 0 else fn + 2 ^ 16 * (fn - 1))
  else if o = 4 then s.perms fn
  else if o = 8 then BitVec.ofNat 32 (s.sys.mode.code + 2 ^ 8 * b2n s.ready)
  else if 0x100 ≤ o ∧ o < 0x300 ∧ queueExists fn ((o - 0x100) / 0x40) then
    (s.queue (qkey fn ((o - 0x100) / 0x40))).readReg ((o - 0x100) % 0x40)
  else 0

/-- A write of a BAR0 register apart from the doorbells. -/
def writeBar0 (fn o : Nat) (v : Word) (s : State) : State :=
  let q := (o - 0x100) / 0x40
  if o < 0x100 ∨ 0x300 ≤ o ∨ !queueExists fn q then s
  else if (o - 0x100) % 0x40 = 0x1C then writeCtl fn q v s
  else updQueue fn q (Queue.writeReg ((o - 0x100) % 0x40) v) s

/-- The MSI-X vectors of a function (R65). -/
def vectorsOf (fn : Nat) : Nat := if fn = 0 then 64 else 4

/-- The value of a DW of BAR2: the MSI-X table, 16 bytes a vector, and at 0x2000 the pending-bit array (R65, R67; PRESUMED: log entry 303). -/
def State.bar2 (s : State) (fn o : Nat) : Word :=
  let m := s.msix fn (o / 16)
  if o < 16 * vectorsOf fn then
    (match o % 16 / 4 with
      | 0 => m.addr.setWidth 32
      | 1 => (m.addr >>> 32).setWidth 32
      | 2 => m.data
      | _ => if m.masked then 1 else 0)
  else if 0x2000 ≤ o ∧ o < 0x2008 then
    BitVec.ofNat 32 (((List.range 32).map (fun b =>
      let v := 32 * ((o - 0x2000) / 4) + b
      if v < vectorsOf fn ∧ (s.msix fn v).pending then 2 ^ b else 0)).sum)
  else 0

/-- A write of a DW of BAR2: only the table is writable, and unmasking a pending vector sends its message (R65; PRESUMED: log entry 303). -/
def writeBar2 (fn o : Nat) (v : Word) (s : State) : State :=
  let m := s.msix fn (o / 16)
  if 16 * vectorsOf fn ≤ o then s
  else setMsix fn (o / 16) (match o % 16 / 4 with
    | 0 => { m with addr := BitVec.ofNat 64 (m.addr.toNat / 2 ^ 32 * 2 ^ 32 + v.toNat / 4 * 4) }
    | 1 => { m with addr := BitVec.ofNat 64 (m.addr.toNat % 2 ^ 32 + 2 ^ 32 * v.toNat) }
    | 2 => { m with data := v }
    | _ => { m with masked := bit v 0 }) s

/-- Answer a read of a BAR. -/
def answerRead (r : HostRead) (s : State) : State := { s with host := { s.host with lastRead := r } }

/-- HOST_REGISTER_ACCESS: a host access to BAR0 apart from the doorbells, or to BAR2 (R64, R66, R67). A request outside its stream is counted: a write is
discarded and a read is answered with Unsupported Request. A write that is not exactly one aligned DW is counted and ignored; a read of more than one
DW is answered with Completer Abort. -/
def execHostRegisterAccess (fn : Fin 513) (write : Bool) (offset : BarOffset) (value : Word) (dws : Nat) (stream : Option (Fin 8))
    (s : State) : Out :=
  let o := offset.offset
  if !s.hostUp then .next s
  else if !s.ideOk fn stream then
    .next (if write then s.bump Reg.MBX_IDE_REJECT else answerRead .unsupported (s.bump Reg.MBX_IDE_REJECT))
  else if write then
    if dws ≠ 1 ∨ o.val % 4 ≠ 0 then .next (s.bump Reg.MBX_HOST_WIDTH)
    else .next (if offset.bar2 then writeBar2 fn o value s else writeBar0 fn o value s)
  else if 1 < dws then .next (answerRead .aborted s)
  else .next (answerRead (.data (if offset.bar2 then s.bar2 fn o else s.bar0 fn o)) s)

/-! ### Fetching, reserving and replying -/

/-- The parameter bytes of an entry: inline, or those the host's memory answered (R69). -/
def entryParams (e host : Bytes) : Bytes := if nbit (field e 4 1) 1 then host.take (field e 6 2) else (e.drop 32).take (field e 6 2)

/-- Check 1 of R83 on the 64 bytes of an entry. -/
def entryWellFormed (e : Bytes) (fn : Nat) (q : Nat) : Bool :=
  let fl := field e 4 1
  fl / 8 == 0 && field e 28 4 == 0 && (nbit (field e 0 2) 15 && field e 5 1 != 0) == false
    && decide (field e 24 4 ≤ 1048576) && (if nbit fl 1 then true else decide (field e 6 2 ≤ 32) && field e 8 8 == 0)
    && queueExists fn q

/-- What an entry stages for a function (R64, R69). -/
def entryStaged (fn : Nat) (e host : Bytes) : HostStaged :=
  ⟨fnColour fn, nbit (field e 0 2) 15, field e 5 1, nbit (field e 4 1) 2, entryParams e host, field e 16 8, field e 24 4⟩

/-- COMMAND_FETCH: firmware reads the 64-byte entry at the submission head of a queue, applies the checks of R83 (a tenant named outside
the scope is given by `named`), the limit of R74, and enters the command as WAITING with what it stages. `dmaOk` says whether the ring read
succeeded; `params` is what the host's memory answers at the parameter address, `none` when that read fails. -/
def execCommandFetch (fn : Fin 513) (queue : Fin 8) (entry : Bytes) (dmaOk : Bool) (params : Option Bytes) (named : List Nat) (s : State) : Out :=
  let k := qkey fn queue
  let q := s.queue k
  if !s.ready || !s.queueServed k then .next s
  else if !dmaOk then .next (s.setQueue k { q with dmaErr := true, error := true })
  else
    let e := fit 64 entry
    let ident := field e 2 2
    let op := field e 0 2 % 0x8000
    let st := entryStaged fn e (params.getD [])
    let s1 := takeEntry k s
    let q := s1.queue k
    let fail (code : Nat) : State := putQueue k (q.post ⟨ident, code, q.sqHead, queue, false, 0, 0, [], 0⟩) s1
    if !entryWellFormed e fn queue then .next (fail 0x1F02)
    else if (q.find ident).isSome then .next (fail 0x1F05)
    else match checkOp s op fn st.expert st.ticket st.profile named params.isSome with
      | some code => .next (fail code)
      | none =>
        if s.outstandingOf fn ≥ outstandingLimit fn then .next (fail 0x3F02)
        else .next (s1.setQueue k { q with outstanding := q.outstanding ++ [⟨ident, op, nbit (field e 4 1) 0, .waiting, s.ms, st⟩] })

/-- Whether every earlier command of the queue has completed finally (R70). -/
def earliest (ident : Nat) : List Outstanding → Bool
  | [] => false
  | o :: _ => o.ident == ident

/-- Whether the operation of a command waits for a custody unit. -/
def State.parked (s : State) (r : CmdRef) : Bool := s.pke.queue.any (fun w => match w with | .host c _ _ => c == r | _ => false)

/-- COMMAND_RESERVE: a WAITING command whose resources are all free reserves them and starts; a FENCE command starts only when every
earlier command of its queue is complete (R70, R82, R84). The commands of one queue start in ring order (R72). One that waits for a custody unit
starts when the unit takes it (R434). -/
def execCommandReserve (fn : Fin 513) (queue : Fin 8) (ident : BitVec 16) (free : Bool) (s : State) : Out :=
  let k := qkey fn queue
  let q := s.queue k
  match q.outstanding.find? (fun o => o.stage == .waiting) with
  | none => .next s
  | some o =>
    if o.ident = ident.toNat ∧ free ∧ (!o.fence ∨ earliest o.ident q.outstanding) ∧ !q.orphan o.ident ∧ !s.parked ⟨fn, queue, o.ident⟩ then .next (s.setQueue k (q.restage o.ident .running))
    else .next s

/-- A WAITING command with the queue that holds it. -/
structure WaitingCmd where
  key : Nat
  ident : Nat
  fetched : Nat
  deriving DecidableEq, Repr

/-- Every WAITING command of the device. -/
def State.waitingCmds (s : State) : List WaitingCmd :=
  s.host.queues.flatMap (fun e => (e.2.outstanding.filter (fun o => o.stage == .waiting)).map (fun o => ⟨e.1, o.ident, o.fetched⟩))

/-- The oldest of a list of waiting commands; of those fetched at one instant the first in queue order (log entry 304). -/
def oldest : List WaitingCmd → Option WaitingCmd
  | [] => none
  | w :: ws => match oldest ws with
    | some v => if v.fetched < w.fetched then some v else some w
    | none => some w

/-- COMMAND_WATCHDOG: after `dt` nanoseconds, firmware completes the oldest WAITING command older than the period with 0x3F01, at most one
every 100 ms (R85). -/
def execCommandWatchdog (dt : Nat) (s : State) : Out :=
  let s := s.advance dt
  if !s.ready ∨ s.ms < s.host.lastWatchdog + 100 then .next s
  else
    let s := { s with host := { s.host with lastWatchdog := s.ms } }
    match oldest (s.waitingCmds.filter (fun w => decide (w.fetched + 1000 * s.fld Reg.MBX_WDOG 9 0 < s.ms))) with
    | some w =>
      let q := s.queue w.key
      .next (unpark (· == ⟨w.key / 8, w.key % 8, w.ident⟩)
        (putQueue w.key (q.complete ⟨w.ident, 0x3F01, q.sqHead, w.key % 8, false, 0, 0, [], 0⟩) s))
    | none => .next s

/-- REPLY_WRITE: the endpoint writes the oldest reply of a queue's backlog into its ring when it has room (R73). A write to the ring, this one or, with
nothing to write, the last, that ends in a PCIe error stops the queue (R68). -/
def execReplyWrite (fn : Fin 513) (queue : Fin 8) (ok : Bool) (s : State) : Out :=
  let k := qkey fn queue
  let q := s.queue k
  if !q.live then .next s
  else if !ok then .next (s.setQueue k { q with dmaErr := true, error := true })
  else .next (putQueue k (q.drain 1) s)

/-- INTERRUPT_COALESCE_TIMEOUT: COAL_US microseconds after the first unsignalled completion an interrupt message is sent (R67). -/
def execInterruptCoalesceTimeout (fn : Fin 513) (queue : Fin 8) (s : State) : Out :=
  let q := s.queue (qkey fn queue)
  if q.live ∧ 0 < q.unsignalled ∧ bits q.ctl 27 16 ≠ 0 then
    .next (putQueue (qkey fn queue) { q with unsignalled := 0, messages := q.messages + 1 } s)
  else .next s

/-! ### Function resets and the endpoint -/

/-- A queue after a function-level reset: at its reset values, but the commands that run go on without replies (R82, R94). -/
def Queue.flr (q : Queue) : Queue := { Queue.reset with orphans := q.goOn }

/-- A function-level reset (R82, R94) of the functions that satisfy `p`: their BAR0 registers return to their reset values, their MSI-X vectors to theirs,
their outstanding tables empty and their WAITING commands are discarded. The nonces they hold end (R484). -/
def flrWhere (p : Nat → Bool) (s : State) : State :=
  let running := s.host.queues.flatMap (fun e => if p (e.1 / 8) then e.2.goOn.map (fun o => (⟨e.1 / 8, e.1 % 8, o.ident⟩ : CmdRef)) else [])
  let s := unpark (fun r => p r.fn && !running.contains r) s
  let s := s.host.queues.foldl (fun (s : State) e => if p (e.1 / 8) then s.setQueue e.1 e.2.flr else s) s
  { s with
    host := { s.host with msix := tclear s.host.msix (fun k => p (k / 64)) }
    cer := { s.cer with nonces := s.cer.nonces.filter (fun n => !p n.fn) } }

/-- A function-level reset of one function. -/
def flr (fn : Nat) (s : State) : State := flrWhere (· == fn) s

/-- A function-level reset of every function (R590). -/
def flrAll (s : State) : State := flrWhere (fun _ => true) s

end Sys2Proof.Machine
end

