-- ==== Sys2Proof/Machine/KeyTree.lean ====
section
/-! DEFINITION. The key tree and the Vault (chapter 07): the derivation function and its labels (R217, R218), slots, metadata and the
key store (R222 to R231), usage charges (R232), key blocks and AES key wrap (R240), seed expansion (R220) and purges (R239). -/

namespace Sys2Proof.Machine

/-! ### Derivation -/

/-- The counter-mode KDF of R217 with CMAC-AES-256: 256 bits of output. -/
def kdf (ki label context : Bytes) : Bytes :=
  [1, 2].flatMap (fun i => cmac ki (be 1 i ++ label ++ [0] ++ context ++ be 2 256))

/-- An optional label field: all ones when it does not apply (R218). -/
def labelField (n : Nat) : Option Nat → Bytes
  | some v => be n v
  | none => List.replicate n 0xFF

/-- The 16-byte derivation label of R218. -/
def label (level purpose gen : Nat) (domain tenant region terminal : Option Nat) : Bytes :=
  be 1 (0x10 + level) ++ be 1 purpose ++ be 2 gen ++ labelField 2 domain ++ labelField 2 tenant ++ labelField 2 region
    ++ labelField 3 terminal ++ [0xFF, 0, 0]

/-- The label of the identity block's keys (R218, R248): every field but level and purpose all ones. -/
def idLabel (purpose : Nat) : Bytes := be 1 0x1F ++ be 1 purpose ++ List.replicate 12 0xFF ++ [0, 0]

/-- A zero context. -/
def noContext : Bytes := zeros 16

/-! ### Slot numbers and handles -/

/-- L2 and purpose slots of a tenant, and the device key slots (R216, R222). -/
def l2Slot (t : Nat) : Nat := 64 + t
def signSlot (t : Nat) : Nat := 576 + t
def x25519Slot (t : Nat) : Nat := 1088 + t
def mlkemSlot (t : Nat) : Nat := 1600 + t
def monitorSlot (t : Nat) : Nat := 2112 + t
def storeKeySlot : Nat := 2624
def imageKeySlot : Nat := 2625
def fpSlot : Nat := 2626

/-- Whether a slot lies in the pool (R222). -/
def isPool (n : Nat) : Bool := decide (2640 ≤ n) && decide (n ≤ 65535)

/-- The handle of a slot (R223). -/
def State.handle (s : State) (n : Nat) : Nat := n + 2 ^ 16 * (s.slot n).incarn

/-- The slot a handle names, when it is not stale and the slot is not EMPTY (R223). -/
def State.slotOf (s : State) (h : BitVec 32) : Option Nat :=
  let n := h.toNat % 2 ^ 16
  if h.toNat / 2 ^ 24 = 0 ∧ h.toNat / 2 ^ 16 % 256 = (s.slot n).incarn ∧ (s.slot n).state ≠ 0 then some n else none

/-- Whether a handle held in a table still names a slot (R223). -/
def State.handleLive (s : State) (h : Nat) : Bool := (s.slotOf (BitVec.ofNat 32 h)).isSome

/-- The bytes of a slot's key: the low bytes of the 256-bit value that its length names. -/
def Slot.keyBytes (v : Slot) : Bytes := v.key.take (8 * (v.len + 1))

/-- Metadata record of a slot (R230). -/
def Slot.metaBytes (v : Slot) (n : Nat) : Bytes :=
  let b := be 2 n ++ be 1 v.incarn ++ be 1 (v.state + 4 * v.level + 32 * v.origin) ++ be 1 v.cls ++ be 1 v.len ++ be 1 v.attr.toNat
    ++ be 1 v.gen ++ be 2 v.owner ++ be 1 v.domain ++ be 1 v.limitExp ++ be 1 v.childExp ++ zeros 3 ++ be 4 v.count ++ fit 5 v.kcv
    ++ zeros 3
  b ++ be 4 (crc32c b).toNat

/-- The key check value of a key (R245). -/
def kcvOf (key : Bytes) : Bytes := (cmac key (zeros 16)).take 5

/-! ### AES key wrap (SP 800-38F KW) and key blocks -/

/-- One pass of wrapping over the semiblocks: `i` counts from 1, `j` is the pass, `n` their number. -/
def kwPass (kek : Bytes) (n j : Nat) : Nat → Bytes → List Bytes → Bytes × List Bytes
  | _, a, [] => (a, [])
  | i, a, r :: rs =>
    let b := aesEnc kek (a ++ r)
    let (a', rs') := kwPass kek n j (i + 1) (xorB (b.take 8) (be 8 (n * j + i))) rs
    (a', b.drop 8 :: rs')

/-- One pass of unwrapping, over the semiblocks in reverse order. -/
def kwUnpass (kek : Bytes) (n j : Nat) : Nat → Bytes → List Bytes → Bytes × List Bytes
  | _, a, [] => (a, [])
  | i, a, r :: rs =>
    let b := aesDec kek (xorB a (be 8 (n * j + i)) ++ r)
    let (a', rs') := kwUnpass kek n j (i - 1) (b.take 8) rs
    (a', b.drop 8 :: rs')

/-- The initial value of KW. -/
def kwIv : Bytes := List.replicate 8 0xA6

/-- The 8-byte semiblocks of a string. -/
def semiblocks (b : Bytes) : List Bytes := (List.range (b.length / 8)).map (fun i => slice b (8 * i) 8)

/-- AES key wrap. -/
def kwWrap (kek b : Bytes) : Bytes :=
  let r := semiblocks b
  let (a, r) := (List.range 6).foldl (fun st j => kwPass kek r.length j 1 st.1 st.2) (kwIv, r)
  a ++ r.flatten

/-- AES key unwrap: `none` when the integrity check fails. -/
def kwUnwrap (kek c : Bytes) : Option Bytes :=
  let r := (semiblocks (c.drop 8)).reverse
  let n := r.length
  let (a, r) := (List.range 6).foldl (fun st j => kwUnpass kek n (5 - j) n st.1 st.2) (c.take 8, r)
  if a = kwIv then some r.reverse.flatten else none

/-- The clear header of a key block (R240). -/
def Slot.blockHeader (v : Slot) : Bytes :=
  [0x01] ++ be 1 v.cls ++ be 1 v.len ++ be 1 v.attr.toNat ++ be 2 v.owner ++ be 1 v.domain ++ be 1 v.gen ++ fit 5 v.kcv
    ++ be 1 v.limitExp ++ [0, 0]

/-- The key block of a slot under a KEK (R240). -/
def keyBlock (kek : Bytes) (v : Slot) : Bytes := v.blockHeader ++ kwWrap kek (v.blockHeader ++ fit 32 v.keyBytes)

/-! ### Shares outside the Vault (R18) -/

/-- The key that two shares make. -/
def Shares.key (x : Shares) : Bytes := xorB x.a x.b

/-- Split a key into two shares with fresh random bytes. -/
def share (key : Bytes) (s : State) : Shares × State :=
  let r := s.freeBytes key.length
  (⟨xorB key r, r⟩, s.drawnBytes key.length)

/-- Re-randomise shares, as before each transfer over the private key bus. -/
def Shares.renew (x : Shares) (s : State) : Shares × State :=
  let r := s.freeBytes x.a.length
  (⟨xorB x.a r, xorB x.b r⟩, s.drawnBytes x.a.length)

/-! ### The cells of the Vault (R226) -/

/-- Where share `b` (false A, true B) of a slot lies: in the keeper bank by the key of this start once the keeper pointer has passed the slot, and before
that by the key of the last; in the main bank by the key of this start. -/
def State.shareCell (s : State) (n : Nat) (b : Bool) : Nat :=
  let i := 2 * n + b2n b
  if n < 64 then Config.cellOf 128 (if n < s.keys.keeperMoved then s.keys.keeperPermKey else s.keys.keeperOldKey) i
  else Config.cellOf 131072 s.keys.permKey i

/-! ### Writing slots -/

/-- Split a key into two shares with fresh random bits (R222). -/
def withKey (key : Bytes) (v : Slot) (s : State) : Slot × State :=
  let k : BitVec 256 := BitVec.ofNat 256 (ofBe (fit 32 key))
  ({ v with shareA := k ^^^ s.freeBits, shareB := s.freeBits, kcv := kcvOf (key.take (8 * (v.len + 1))) }, s.drawn)

/-- Whether a slot has a key store record with a key block (R228); derived L2, purpose and device slots have a check record. -/
def storesBlock (n : Nat) (v : Slot) : Bool := n != 0 && v.origin != 0

/-- Write the key store record of a slot (R228). -/
def storeSlot (n : Nat) (s : State) : State :=
  let v := s.slot n
  let rec_ : KeyRecord := ⟨v.metaBytes n, if storesBlock n v then keyBlock (s.slot storeKeySlot).key v else []⟩
  if n = 0 then s
  else ({ s with keys := { s.keys with store := tput (dflt ⟨[], []⟩) s.keys.store n rec_ } }).bump Reg.VLT_STORE_WRITES

/-- The number of free pool slots (VLT_FREE, R222): the pool less the pool slots in use. -/
def State.poolFree (s : State) : Nat := 62896 - (s.keys.slots.filter (fun e => isPool e.1 && e.2.state != 0)).length

/-- Raise POOL_LOW when VLT_FREE has fallen below VLT_POOL_LOW. -/
def notePool (s : State) : State :=
  if s.poolFree < s.fld Reg.VLT_POOL_LOW 15 0 then irq Reg.VLT_IRQ_STATUS 12 3 s else s

/-- Pass a slot to EMPTY: both shares zero, the incarnation one higher (R223, R244). -/
def emptySlot (n : Nat) (s : State) : State :=
  let v := s.slot n
  let inc := if v.state = 1 ∨ v.state = 2 then (v.incarn + 1) % 256 else v.incarn
  s.setSlot n { Slot.empty with incarn := inc }

/-- The data bytes of a KEY event (R616). -/
def keyEventData (action n : Nat) (v : Slot) (tail : Bytes) : Bytes :=
  be 1 action ++ be 1 v.cls ++ be 2 n ++ be 1 v.incarn ++ be 1 v.gen ++ be 1 v.domain ++ be 1 v.origin ++ tail

/-- Write a KEY event for a slot (R616). -/
def keyEvent (action n : Nat) (s : State) : State :=
  let v := s.slot n
  event 0x0040 (srcMaster 260) v.owner (keyEventData action n v (fit 5 v.kcv)) s

/-- The KEY event of a slot `v` that has been destroyed: its metadata and KCV, with the incarnation after the change (R616). -/
def destroyedEvent (n : Nat) (v : Slot) (s : State) : State :=
  event 0x0040 (srcMaster 260) v.owner (keyEventData 4 n { v with incarn := (s.slot n).incarn } (fit 5 v.kcv)) s

/-- Make a slot LIVE with a key and metadata; the incarnation stays. -/
def fillSlot (n : Nat) (key : Bytes) (v : Slot) (s : State) : State :=
  let (w, s) := withKey key { v with incarn := (s.slot n).incarn, state := 1, count := 0 } s
  s.setSlot n w

/-- The lowest EMPTY pool slot (which one is not stated: DESIGN CHOICE, log entry 5), searching `fuel` slots from `n`. -/
def freePoolFrom (s : State) : Nat → Nat → Option Nat
  | _, 0 => none
  | n, fuel + 1 => if (s.slot n).state = 0 then some n else freePoolFrom s (n + 1) fuel

/-- The pool slots a tenant holds. -/
def State.poolHeld (s : State) (t : Nat) : Nat :=
  (s.keys.slots.filter (fun e => isPool e.1 && e.2.state != 0 && e.2.owner == t)).length

/-- A free pool slot for an owner, or the status that says there is none: 0x3203 at 1,024 slots of the tenant, 0x3201 when the pool is
full or allocation is off. -/
def poolSlot (owner : Nat) (s : State) : Except Nat Nat :=
  if owner < 512 ∧ 1024 ≤ s.poolHeld owner then .error 0x3203
  else if !s.bitOf Reg.VLT_CTL 0 then .error 0x3201
  else match freePoolFrom s 2640 62896 with
    | some n => .ok n
    | none => .error 0x3201

/-! ### Usage (R232) -/

/-- The limit on a slot's COUNT. -/
def Slot.limit (v : Slot) : Nat := if v.limitExp = 32 then 0xFFFFFFFF else 2 ^ v.limitExp

/-- Mark a slot EXHAUSTED when its COUNT has reached its limit, and LIVE again below it. A monitor slot takes its successor generation instead
(R219). -/
def settleSlot (n : Nat) (s : State) : State :=
  let v := s.slot n
  if v.state = 0 ∨ v.cls = 0x0C then s
  else if v.limitExp = 0 then s.setSlot n { v with state := 1 }
  else if v.limit ≤ v.count then
    if v.state = 1 then irq Reg.VLT_IRQ_STATUS 12 0 (s.setSlot n { v with state := 2 }) else s
  else s.setSlot n { v with state := 1 }

/-- Charge `k` invocations to a slot that counts. -/
def chargeSlot (n k : Nat) (s : State) : State :=
  let v := s.slot n
  if v.limitExp = 0 then s else settleSlot n (s.setSlot n { v with count := v.count + k })

/-- Charge one invocation to a slot that counts, and write its record (R228). -/
def chargeStored (n : Nat) (s : State) : State := if (s.slot n).limitExp = 0 then s else storeSlot n (chargeSlot n 1 s)

/-! ### Seeds (R220) -/

/-- X(c): a 256-bit output under a seed with purpose `c` and otherwise the seed slot's own label. -/
def seedX (seed lab : Bytes) (c : Nat) : Bytes := kdf seed (lab.take 1 ++ be 1 c ++ lab.drop 2) noContext

/-- The order of P-384. -/
def p384n : Nat :=
  0xFFFFFFFFFFFFFFFFFFFFFFFFFFFFFFFFFFFFFFFFFFFFFFFFC7634D81F4372DDF581A0DB248B0A77AECEC196ACCC52973

/-- Rotate a 256-bit string left by 8 bits. -/
def rot8 (b : Bytes) : Bytes := b.drop 1 ++ b.take 1

/-- The ECDSA scalar and the ML-DSA seed of a SEED_SIGN seed. -/
def signScalar (seed lab : Bytes) : Bytes :=
  be 48 (ofBe (seedX seed lab 0x70 ++ seedX seed lab 0x71) % (p384n - 1) + 1)
def mldsaSeed (seed lab : Bytes) : Bytes := xorB (seedX seed lab 0x70) (rot8 (seedX seed lab 0x71))

/-- Clamping of RFC 7748. -/
def clamp (b : Bytes) : Bytes :=
  match b with
  | x :: r => (x &&& 0xF8) :: (r.take 30 ++ (r.drop 30).map (fun y => (y &&& 0x7F) ||| 0x40))
  | [] => []

/-- The label of a purpose slot of a tenant (R218). -/
def tenantLabel (s : State) (purpose gen t : Nat) : Bytes := label 2 purpose gen (some (s.tenant t).domain) (some t) none none

/-- The label of a live seed slot. -/
def seedLabel (s : State) (purpose n t : Nat) : Bytes := tenantLabel s purpose (s.slot n).gen t

/-- Public keys of a tenant's seeds (R220): ledger (ECDSA then ML-DSA), X25519, ML-KEM-768. -/
def ledgerPublic (s : State) (t : Nat) : Bytes :=
  let k := (s.slot (signSlot t)).key
  let l := seedLabel s 0x11 (signSlot t) t
  Config.ecdsaPublic (signScalar k l) ++ Config.mldsaPublic (mldsaSeed k l)
def x25519Public (s : State) (t : Nat) : Bytes :=
  Config.x25519 (clamp (seedX (s.slot (x25519Slot t)).key (seedLabel s 0x12 (x25519Slot t) t) 0x70)) (fit 32 [9])
def mlkemPublic (s : State) (t : Nat) : Bytes :=
  let k := (s.slot (mlkemSlot t)).key
  let l := seedLabel s 0x13 (mlkemSlot t) t
  Config.mlkemPublic (seedX k l 0x70) (seedX k l 0x71)

/-- The identity seeds (R248). -/
def idSeed (purpose : Nat) : Bytes := kdf (be 32 Config.identitySeed.toNat) (idLabel purpose) noContext

/-- The identity block's ECDSA scalar and ML-DSA seed (R248), expanded as SEED_SIGN. -/
def idScalar : Bytes := signScalar (idSeed 0x01) (idLabel 0x01)
def idMldsa : Bytes := mldsaSeed (idSeed 0x02) (idLabel 0x02)

/-- The identity public keys. -/
def idPublic : Bytes := Config.ecdsaPublic idScalar ++ Config.mldsaPublic idMldsa

/-- ECDSA signature over SHA-384 of a message by the identity key, with the nonce drawn from the state. -/
def idSignE (msg : Bytes) (s : State) : Bytes := Config.ecdsaSign idScalar (sha384 msg) (s.freeBytes 48)

/-- The SHA-384 over measurement registers 0 to 31 in index order (R247, R249). -/
def State.mrDigest (s : State) : Bytes := sha384 ((List.range 32).flatMap s.mr)

/-! ### The chain -/

/-- A live Vault key, as bytes: `none` when the slot is not LIVE. -/
def State.liveKey (s : State) (n : Nat) : Option Bytes := if (s.slot n).state = 1 then some (s.slot n).key else none

/-- The region table entry (R252); region 4,095 exists for every tenant (R215). -/
def State.region (s : State) (t r : Nat) : Region :=
  let e := tget (dflt ⟨false, false, 0⟩) s.keys.regions (4096 * t + r)
  if r = 4095 then { e with present := true, preload := true } else e

/-- L2 of a tenant from the L1 of its domain (R213). -/
def deriveL2 (l1 : Bytes) (domain t gen : Nat) : Bytes := kdf l1 (label 2 0x10 gen (some domain) (some t) none none) noContext

/-- L3, L4 and L5 keys (R213, R218). -/
def deriveL3 (l2 : Bytes) (domain t region gen : Nat) : Bytes :=
  kdf l2 (label 3 0x20 gen (some domain) (some t) (some region) none) noContext
def deriveL4 (l3 : Bytes) (domain t region term l4ver : Nat) : Bytes :=
  kdf l3 (label 4 0x30 l4ver (some domain) (some t) (some region) (some term)) noContext
def deriveL5 (l4 : Bytes) (purpose gen domain t region term : Nat) (ctx : Bytes) : Bytes :=
  kdf l4 (label 5 purpose gen (some domain) (some t) (some region) (some term)) ctx

/-- The monitor key of a tenant at a monitor generation (R219). -/
def deriveMonitor (s : State) (t gen : Nat) : Option Bytes :=
  (s.liveKey (l2Slot t)).map (fun l2 =>
    let d := (s.tenant t).domain
    deriveL5 (deriveL4 (deriveL3 l2 d t 4095 (s.region t 4095).gen) d t 4095 0xFFFFFF 0) 0x43 gen d t 4095 0xFFFFFF noContext)

/-- The fingerprint key of an epoch (R216, R218). -/
def deriveFp (l0 : Bytes) (epoch : Nat) : Bytes := kdf l0 (label 0 0x04 0 none none none none) (be 8 epoch ++ zeros 8)

/-- The register image key, from L0 (R216). -/
def State.imageKey (s : State) : Bytes := kdf (s.slot 0).key (label 0 0x03 0 none none none none) noContext

/-- Metadata of the derived slots (R216). -/
def derivedSlot (level cls gen owner domain childExp : Nat) : Slot :=
  { Slot.empty with level := level, origin := 0, cls := cls, len := 3, gen := gen, owner := owner, domain := domain, childExp := childExp }

/-- Derive a tenant's L2 into its slot, keeping CHILD_EXP (default 31) and generation. -/
def makeL2 (t : Nat) (s : State) : State :=
  let d := (s.tenant t).domain
  match s.liveKey (1 + d) with
  | none => s
  | some l1 =>
    let v := s.slot (l2Slot t)
    let gen := v.gen
    fillSlot (l2Slot t) (deriveL2 l1 d t gen) (derivedSlot 2 0x03 gen t d (if v.childExp = 0 then 31 else v.childExp)) s

/-- Derive one purpose key of a tenant from its L2 (R216). -/
def makePurpose (t n purpose cls : Nat) (s : State) : State :=
  match s.liveKey (l2Slot t) with
  | none => s
  | some l2 =>
    let gen := (s.slot n).gen
    fillSlot n (kdf l2 (tenantLabel s purpose gen t) noContext) (derivedSlot 2 cls gen t (s.tenant t).domain 0) s

/-- Derive the monitor key of a tenant at a generation into its slot, counted against 2^CHILD_EXP of the L2 slot (R219). COUNT belongs to the key: it
stays when the same key is derived again, as at a start. -/
def makeMonitor (t gen : Nat) (s : State) : State :=
  let n := monitorSlot t
  match deriveMonitor s t gen with
  | none => s
  | some k =>
    let count := if kcvOf k = (s.slot n).kcv then (s.slot n).count else 0
    let s := fillSlot n k { derivedSlot 5 0x0C gen t (s.tenant t).domain 0 with limitExp := (s.slot (l2Slot t)).childExp } s
    s.setSlot n { s.slot n with count := count }

/-- Derive every purpose key of a tenant. -/
def makePurposes (t : Nat) (s : State) : State :=
  makeMonitor t (s.slot (monitorSlot t)).gen (makePurpose t (mlkemSlot t) 0x13 0x07 (makePurpose t (x25519Slot t) 0x12 0x06 (makePurpose t (signSlot t) 0x11 0x05 s)))

/-- Derive the device keys from L0 (R216): key store key, register image key and the fingerprint keys of this and the next epoch. -/
def makeDeviceKeys (s : State) : State :=
  match s.liveKey 0 with
  | none => s
  | some l0 =>
    let v := derivedSlot 0 0x04 0 0xFFFF 0xFF 0
    let s := fillSlot storeKeySlot (kdf l0 (label 0 0x02 0 none none none none) noContext) v s
    let s := fillSlot imageKeySlot (kdf l0 (label 0 0x03 0 none none none none) noContext) v s
    let s := fillSlot fpSlot (deriveFp l0 s.epoch) v s
    let s := fillSlot (fpSlot + 1) (deriveFp l0 (s.epoch + 1)) v s
    { s with keys := { s.keys with
        fpKeys := tput (dflt []) (tput (dflt []) s.keys.fpKeys s.epoch (deriveFp l0 s.epoch)) (s.epoch + 1) (deriveFp l0 (s.epoch + 1)) } }

/-- Seeds that are absent. -/
def noSeeds : Shares × Shares := (⟨[], []⟩, ⟨[], []⟩)

/-- Write both session seeds of a tenant into every tile seed table, as shares of their own (R221). -/
def fillSeeds (t : Nat) (s : State) : State :=
  [0, 1, 2, 3].foldl (fun (s : State) tile =>
    let (x, s) := share (s.slot (x25519Slot t)).key s
    let (m, s) := share (s.slot (mlkemSlot t)).key s
    { s with keys := { s.keys with seeds := tput (dflt noSeeds) s.keys.seeds (512 * tile + t) (x, m) } }) s

/-- The session seeds of a tenant in a tile seed table, recombined in a PKE unit of the tile; empty when they are absent. -/
def State.tileSeeds (s : State) (tile t : Nat) : Bytes × Bytes :=
  let e := tget (dflt noSeeds) s.keys.seeds (512 * tile + t)
  (e.1.key, e.2.key)

/-- The fingerprint key of an epoch as the engines hold it; which key an engine that holds none uses is not stated. -/
def State.fpKey (s : State) (epoch : Nat) : Bytes :=
  let k := tget (dflt []) s.keys.fpKeys epoch
  if k = [] then be 32 (Config.absentFpKey epoch).toNat else k

/-! ### Leaf Mint caches and grants -/

/-- Whether the Mint performs derivations: enabled and not stopped (R238). -/
def State.mintUp (s : State) : Bool := s.bitOf Reg.MNT_CTL 0 && !s.bitOf Reg.MNT_STATUS 5

/-- Whether a cluster's Leaf Mint refuses derivations: it failed its test (R240), or its DRBG is stopped (R419). -/
def State.leafRefuses (s : State) (c : Nat) : Bool := tget (dflt false) s.keys.leafStopped c || s.bitOf (Reg.RNG_CL_STATUS c) 1

/-- The L3 entries of a cluster, most recently used first. -/
def State.l3 (s : State) (c : Nat) : List L3Entry := tget (dflt []) s.keys.l3 c

/-- The L3 entry a cluster holds for a tenant and region at its present generation. -/
def State.l3Held (s : State) (c t r : Nat) : Option L3Entry :=
  (s.l3 c).find? (fun e => e.tenant == t && e.region == r && e.gen == (s.region t r).gen)

/-- The L3 key of that entry, as its Leaf Mint recombines it. -/
def State.l3Key (s : State) (c t r : Nat) : Option Bytes := (s.l3Held c t r).map (·.shares.key)

/-- Put an L3 entry first, replacing the least recently used of 2,048. -/
def putL3 (c : Nat) (e : L3Entry) (s : State) : State :=
  let rest := (s.l3 c).filter (fun x => !(x.tenant == e.tenant && x.region == e.region))
  { s with keys := { s.keys with l3 := tput (dflt []) s.keys.l3 c ((e :: rest).take 2048) } }

/-- Erase the L3 entries of a cluster that a purge names. -/
def dropL3 (c : Nat) (p : L3Entry → Bool) (s : State) : State :=
  { s with keys := { s.keys with l3 := tput (dflt []) s.keys.l3 c ((s.l3 c).filter (fun e => !p e)) } }

/-- Ask the Mint for something, once for each thing asked (R235). The Mint holds 64 L3 requests from each tile; a Leaf Mint that finds its
tile's queue full waits. -/
def askMint (r : MintReq) (s : State) : State :=
  if s.keys.mintQ.contains r then s
  else if r.rank = 3 ∧ 64 ≤ (s.keys.mintQ.filter (fun q => q.rank == 3 && q.cluster / 16 == r.cluster / 16)).length then
    irq Reg.MNT_IRQ_STATUS 11 2 s
  else { s with keys := { s.keys with mintQ := s.keys.mintQ ++ [r] } }

/-- A hit of a cluster's L3 cache: counted, and the entry is the most recently used (R236). -/
def hitL3 (c t r : Nat) (s : State) : State :=
  match s.l3Held c t r with
  | some e => putL3 c e (s.bump (Reg.MNT_LM_HITS c))
  | none => s

/-- Look for an L3 key in a cluster's cache, counting the hit or the miss; a miss asks the Mint (R236). -/
def needL3 (c t r : Nat) (s : State) : State :=
  match s.l3Held c t r with
  | some _ => hitL3 c t r s
  | none => askMint ⟨3, c, t, r, 0⟩ (s.bump (Reg.MNT_LM_MISSES c))

/-- The grants of a cluster. -/
def State.grants (s : State) (c : Nat) : List Grant := tget (dflt []) s.keys.grants c

/-- The grant a cluster holds of a slot at its present incarnation, with invocations left. -/
def State.grant (s : State) (c n : Nat) : Option Grant := (s.grants c).find? (fun g => g.slot == n && g.incarn == (s.slot n).incarn && decide (0 < g.left))

/-- Replace the grants of a cluster. -/
def setGrants (c : Nat) (l : List Grant) (s : State) : State := { s with keys := { s.keys with grants := tput (dflt []) s.keys.grants c l } }

/-- Ask for a grant of a slot when the cluster holds none with invocations left. -/
def wantGrant (c n : Nat) (s : State) : State := if (s.grant c n).isSome then s else askMint ⟨4, c, (s.slot n).owner, 0, n⟩ s

/-- Charge one invocation to a cluster's grant of a slot; at 2^12 left the cluster asks for a new one (R234). -/
def useGrant (c n : Nat) (s : State) : State :=
  match s.grant c n with
  | none => s
  | some g =>
    let s := setGrants c ((s.grants c).map (fun x => if x = g then { x with left := x.left - 1 } else x)) s
    if g.left ≤ 2 ^ 12 + 1 then askMint ⟨4, c, (s.slot n).owner, 0, n⟩ s else s

end Sys2Proof.Machine
end

