-- ==== Sys2Proof/Machine/CerOps.lean ====
section
/-! DEFINITION. Ceremony steps and the custody transaction journal (R490, R496 to R498): phases, steps with their undo data, and undoing. -/

namespace Sys2Proof.Machine

/-- Change the ceremony state. -/
def updCer (f : CeremonyState → CeremonyState) (s : State) : State := { s with cer := f s.cer }

/-- CRD_STATUS.CER_STATE of a phase (R490). -/
def CerPhase.code : CerPhase → Nat
  | .idle => 0 | .opened => 1 | .step => 2 | .closing => 3 | .restoring => 4

/-- Show the phase and the number of steps in CRD_STATUS. -/
def showCer (s : State) : State :=
  (s.wrF Reg.CRD_STATUS 10 8 s.cer.phase.code).wrF Reg.CRD_STATUS 23 16 s.cer.steps.length

/-- Enter a phase. -/
def setPhase (p : CerPhase) (s : State) : State := showCer (updCer (fun c => { c with phase := p }) s)

/-- Write a record of the custody transaction journal: 1 OPEN, 2 STEP_BEGIN, 3 STEP_DONE, 4 UNDONE, 5 COMMIT, 6 ABORTED (R496). -/
def cerRecord (typ op : Nat) (s : State) : State :=
  updCer (fun c => { c with journal := c.journal ++ [⟨typ, c.serial, c.steps.length, op⟩] }) s

/-- The bytes of undo data of an item: a roster entry and a key store record as their layouts give them, a handle, and the fields of the
others (their encoding is not stated). -/
def Undo.size : Undo → Nat
  | .roster _ _ => 128
  | .record _ r => 32 + r.block.length
  | .charter _ _ => 16
  | .pairing _ _ _ _ _ => 64
  | _ => 4

/-- Whether a step with this undo data would pass a limit of R496. -/
def State.stepLimit (s : State) (u : List Undo) : Bool := decide (128 ≤ s.cer.steps.length) || decide (2048 < (u.map Undo.size).sum)

/-- Begin a step: its STEP_BEGIN record and undo data are written and the ceremony is in STEP. -/
def beginStep (op : Nat) (u : List Undo) (s : State) : State :=
  setPhase .step (cerRecord 2 op (updCer (fun c => { c with steps := c.steps ++ [⟨op, u, false, false⟩] }) s))

/-- Change the last step. -/
def onLast (f : CerStep → CerStep) : List CerStep → List CerStep
  | [] => []
  | [x] => [f x]
  | x :: xs => x :: onLast f xs

/-- A step completes: STEP_DONE, and back to OPEN. -/
def doneStep (op : Nat) (s : State) : State :=
  if s.cer.phase = .step then
    setPhase .opened (cerRecord 3 op (updCer (fun c => { c with steps := onLast (fun x => { x with done := true }) c.steps }) s))
  else s

/-- An absent key store record. -/
def noRecord : KeyRecord := ⟨[], []⟩

/-- The permission words of the charter by default: READ and OWNER for PF0, none for a VF (R491). -/
def permDflt (fn : Nat) : Word := if fn = 0 then 0x41 else 0

/-- The pair key, while its slot is LIVE (R559). -/
def State.pairKey (s : State) : Option Bytes := s.pair.pairSlot.bind (fun n => s.liveKey n)

/-- Both sides derive the link keys from the pair key, at each start and when the pair is formed. -/
def deriveLink (s : State) : State :=
  match s.pairKey with
  | some k => { s with pair := { s.pair with linkKey := Config.linkKey k s.free }, free := s.free + 1 }
  | none => { s with pair := { s.pair with linkKey := [] } }

/-- Put back one item of undo data. A slot that the step created is destroyed, with its KEY event (R496, R616); one that it removed comes back as it was. -/
def undoItem (u : Undo) (s : State) : State :=
  match u with
  | .roster n old => updCer (fun c => { c with work := tput (dflt Custodian.empty) c.work n old }) s
  | .policy sc old => updCer (fun c => { c with workPolicies := tput (dflt Policy.dflt) c.workPolicies sc old }) s
  | .slot n old =>
    if old.state ≠ 0 then s.setSlot n old
    else if (s.slot n).state = 0 then s else destroyedEvent n (s.slot n) (emptySlot n s)
  | .record n old => { s with keys := { s.keys with store := tput (dflt noRecord) s.keys.store n old } }
  | .tenant t old =>
    let s := updCer (fun c => { c with tenants := tput (dflt Tenant.none) c.tenants t old }) s
    { s with ldg := { s.ldg with leaving := tput (dflt false) s.ldg.leaving t false } }
  | .charter t old => s.setCharter t old
  | .region i old => { s with keys := { s.keys with regions := tput (dflt ⟨false, false, 0⟩) s.keys.regions i old } }
  | .perm fn old => updCer (fun c => { c with perms := tput permDflt c.perms fn old }) s
  | .pairing p n d m k => deriveLink { s with pair := { s.pair with paired := p, partner := n, partnerDigest := d, member := m, pairSlot := k } }

/-- Undo a step, its items in reverse order, and write its UNDONE record (R498). -/
def undoStep (x : CerStep) (s : State) : State :=
  if x.undone then s else cerRecord 4 x.opcode (x.undo.reverse.foldl (fun s u => undoItem u s) s)

/-- A step fails with every card still present: only that step is undone (R490). -/
def failStep (s : State) : State :=
  match s.cer.steps.getLast? with
  | none => s
  | some x =>
    setPhase .opened (updCer (fun c => { c with steps := onLast (fun y => { y with undone := true }) c.steps }) (undoStep x s))

/-- Undo every step of the ceremony in reverse order and write ABORTED (R490, R498). -/
def undoAll (s : State) : State :=
  let s := s.cer.steps.reverse.foldl (fun s x => undoStep x s) s
  let s := { s with keys := { s.keys with purges := s.keys.purges.filter (fun p => match p.what with | .destroyTenant _ => false | _ => true) } }
  cerRecord 6 0 (updCer (fun c => { c with steps := [], card := none }) s)

/-- The roster that cards are held against: the working roster while a ceremony is open, else the committed one. -/
def State.cardRoster (s : State) : Tab Custodian := if s.cer.phase = .idle then s.cer.roster else s.cer.work

/-- A working policy, and the ENROLLED custodians of a scope in the working roster. -/
def State.workPolicy (s : State) (scope : Nat) : Policy := tget (dflt Policy.dflt) s.cer.workPolicies scope
def State.enrolled (s : State) (scope : Nat) : Nat :=
  (s.cer.work.filter (fun e => e.2.state == 1 && e.2.scope == scope)).length

/-- The custodian entries and key slots of a tenant, and its regions. -/
def State.tenantCustodians (s : State) (t : Nat) : List Nat := (s.cer.work.filter (fun e => e.2.state != 0 && e.2.scope == t)).map (·.1)
def State.tenantSlots (s : State) (t : Nat) : List Nat :=
  [l2Slot t, signSlot t, x25519Slot t, mlkemSlot t, monitorSlot t]
    ++ (s.keys.slots.filter (fun e => isPool e.1 && e.2.state != 0 && e.2.owner == t)).map (·.1)
def State.tenantRegions (s : State) (t : Nat) : List Nat := (s.keys.regions.filter (fun e => e.1 / 4096 == t)).map (·.1)

/-- What a tenant is besides its key slots passes away (R491): regions, charter, custodians, policy and permission word; its last root is to
carry LAST. -/
def removeTenant (t : Nat) (s : State) : State :=
  let ns := s.tenantCustodians t
  let s := updCer (fun c => { c with
    work := ns.foldl (fun w n => tput (dflt Custodian.empty) w n Custodian.empty) c.work
    workPolicies := tput (dflt Policy.dflt) c.workPolicies t Policy.dflt
    tenants := tput (dflt Tenant.none) c.tenants t Tenant.none
    perms := tput permDflt c.perms (t + 1) 0
    openedSet := { c.openedSet with map := c.openedSet.map &&& ~~~(1#512 <<< t) } }) s
  let held := s.holds t
  let s := s.setCharter t Charter.none
  { s with
    keys := { s.keys with regions := tclear s.keys.regions (fun k => k / 4096 == t) }
    ldg := { s.ldg with leaving := tput (dflt false) s.ldg.leaving t held } }

end Sys2Proof.Machine
end

