-- ==== Sys2Proof/Machine/LfsOps.lean ====
section
/-! DEFINITION. Ledger flash as shared operations (chapter 16, R459 to R463): blocks and their areas, erases and their log, the register image
partition, the rank of writes, and wear. -/

namespace Sys2Proof.Machine

/-! ### Blocks and areas (R459, R460) -/

/-- The good blocks below block `n` as they left the factory. -/
def factoryRank (n : Nat) : Nat := ((List.range n).filter (fun b => !Config.factoryBad b)).length

/-- The blocks marked bad at the factory. -/
def factoryBadCount : Nat := ((List.range Config.lflashFabricated).filter Config.factoryBad).length

/-- A block as it leaves the factory: the first 4,096 good blocks are the journal's, the next 64 hold the register image, and the others
are free (which block belongs to which area is not stated: log entry 30). -/
def lblockDefault (n : Nat) : LBlock :=
  ⟨0, if Config.factoryBad n then 4 else if factoryRank n < 4096 then 1 else if factoryRank n < 4160 then 3 else 0, none, false⟩

/-- A block of ledger flash. -/
def State.lblock (s : State) (n : Nat) : LBlock := tget lblockDefault s.lfs.blocks n

/-- Change a block. -/
def setLblock (n : Nat) (b : LBlock) (s : State) : State :=
  { s with lfs := { s.lfs with blocks := tput lblockDefault s.lfs.blocks n b } }

/-- The blocks retired since shipment. -/
def State.grownBad (s : State) : Nat := (s.lfs.blocks.filter (fun e => e.2.grown)).length

/-- The good blocks (LFS_GOOD). -/
def State.lfsGood (s : State) : Nat := Config.lflashFabricated - factoryBadCount - s.grownBad

/-- The blocks of the register image partition that hold pages: the one being filled, and those of the newest copies. -/
def State.imageUsed (s : State) : List Nat :=
  (s.lfs.imgOpen.toList.map (·.1)) ++ (s.lfs.imgMap.filterMap (fun e => e.2.map (· / 1024))).eraseDups

/-- The lowest block of an area that holds nothing and is not being erased. -/
def State.findBlock (s : State) (area : Nat) : Option Nat :=
  (List.range Config.lflashFabricated).find? (fun n =>
    (s.lblock n).area == area && !s.lfs.jblocks.contains n && !s.lfs.erasing.contains n && !(area == 3 && s.imageUsed.contains n))

/-! ### The rank of writes (R462) -/

/-- Whether a write of a higher rank waits: journal pages before image flushes, these before receipt pages, these before background
write-back and the relocations (R462). Background write-back is paced by TRM_WB_RATE and holds nothing back. -/
def State.writeWaits (s : State) (rank : Nat) : Bool :=
  (decide (1 < rank) && s.ldg.programming != []) || (decide (2 < rank) && s.flow.flushing) || (decide (3 < rank) && s.ldg.rcptProg != [])

/-- Count pages written to ledger flash for LFS_BW. -/
def noteWritten (pages : Nat) (s : State) : State :=
  let b := s.lfs.bw
  let b' : WriteRate := if s.secs = b.sec then { b with now := b.now + pages }
    else ⟨s.secs, pages, if s.secs = b.sec + 1 then b.now else 0⟩
  { s with lfs := { s.lfs with bw := b' } }

/-- LFS_BW: megabytes written in the last whole second of uptime. -/
def State.writeRate (s : State) : Nat :=
  let b := s.lfs.bw
  (if s.secs = b.sec then b.last else if s.secs = b.sec + 1 then b.now else 0) * 16384 / 1000000

/-! ### Wear (R461) -/

/-- Erase counts of the good blocks that have been erased. -/
def State.eraseCounts (s : State) : List Nat := (s.lfs.blocks.filter (fun e => e.2.area != 4 && !e.2.grown)).map (·.2.erases)

/-- LFS_WEAR_MAX, LFS_WEAR_MEAN and LFS_WEAR_MIN. -/
def State.wearMax (s : State) : Nat := s.eraseCounts.foldl max 0
def State.wearMean (s : State) : Nat := s.eraseCounts.sum / s.lfsGood
def State.wearMin (s : State) : Nat :=
  if s.eraseCounts.length < s.lfsGood then 0 else s.eraseCounts.foldl min (s.eraseCounts.headD 0)

/-- Begin the erase of a block: the increment of its counter is logged first and rises at once; the mean may set WEAR_ALARM (R461). -/
def beginErase (n : Nat) (s : State) : State :=
  let b := s.lblock n
  let s : State := { s with lfs := { s.lfs with eraseLog := s.lfs.eraseLog ++ [n] } }
  let s := setLblock n { b with erases := (b.erases + 1) % 2 ^ 32 } s
  let s := { s with lfs := { s.lfs with erasing := s.lfs.erasing ++ [n] } }
  if s.fld Reg.LFS_WEAR_ALARM 15 0 ≤ s.wearMean ∧ !s.bitOf Reg.LFS_STATUS 2 then
    irq Reg.LFS_IRQ_STATUS 8 3 (s.wrB Reg.LFS_STATUS 2 true)
  else s

/-- Replace a block by another in a map, both ways. -/
def swapBlock (a b n : Nat) : Nat := if n = a then b else if n = b then a else n

/-- The contents of two blocks change places: the journal, receipt and image maps follow. -/
def swapContents (n m : Nat) (s : State) : State :=
  let a := s.lblock n
  let b := s.lblock m
  let s := setLblock n { a with area := b.area, tenant := b.tenant } (setLblock m { b with area := a.area, tenant := a.tenant } s)
  { s with lfs := { s.lfs with
      jblocks := s.lfs.jblocks.map (swapBlock n m)
      rblocks := s.lfs.rblocks.map (fun r => (r.1, r.2.1, swapBlock n m r.2.2))
      imgMap := s.lfs.imgMap.map (fun e => (e.1, e.2.map (fun p => 1024 * swapBlock n m (p / 1024) + p % 1024)))
      imgOpen := s.lfs.imgOpen.map (fun o => (swapBlock n m o.1, o.2)) } }

/-- A wear move: the contents of a block move to a block of the lowest count, and the two exchange areas (R461). -/
def wearMove (n : Nat) (s : State) : State :=
  if s.bitOf Reg.LFS_CTL 1 ∧ s.wearMean + 300 < (s.lblock n).erases then
    match (List.range Config.lflashFabricated).find? (fun m =>
        (s.lblock m).erases == s.wearMin && (s.lblock m).area != 4 && m != n && !s.lfs.erasing.contains m) with
    | none => s
    | some m => (swapContents n m s).bump Reg.LFS_RELOCS
  else s

/-- A relocation: the contents of a block move to a free one, and the block is erased into the free pool (R463). -/
def relocate (n : Nat) (s : State) : State :=
  let a := s.lblock n
  if a.area = 0 ∨ a.area = 4 ∨ s.lfs.erasing.contains n then s
  else match s.findBlock 0 with
    | none => s
    | some m => (beginErase n (swapContents n m s)).bump Reg.LFS_RELOCS

/-- Serve the writes of the last rank when no other waits (R462): wear moves and relocations that have been scheduled. -/
def serveMoves (s : State) : State :=
  if s.writeWaits 5 then s
  else
    let l := s.lfs.moves
    l.foldl (fun s x => if x.2 then wearMove x.1 s else relocate x.1 s) { s with lfs := { s.lfs with moves := [] } }

/-- Schedule a wear move (true) or a relocation of a block. -/
def scheduleMove (n : Nat) (wear : Bool) (s : State) : State :=
  if s.lfs.moves.contains (n, wear) then s else { s with lfs := { s.lfs with moves := s.lfs.moves ++ [(n, wear)] } }

/-- Retire a block as grown bad (R463); SPARE_LOW is raised below 97 % of the blocks fabricated. -/
def retireBlock (n : Nat) (s : State) : State :=
  let s := setLblock n { s.lblock n with area := 4, tenant := none, grown := true } s
  if s.lfsGood * 100 < 97 * Config.lflashFabricated ∧ !s.bitOf Reg.LFS_STATUS 3 then
    irq Reg.LFS_IRQ_STATUS 8 4 (s.wrB Reg.LFS_STATUS 3 true)
  else s

/-! ### The register image partition (R460) -/

/-- A block of the partition whose pages are all superseded is erased into the free pool, and a free block takes its place. -/
def giveImageBlock (n : Nat) (s : State) : State :=
  match s.findBlock 0 with
  | none => s
  | some m =>
    let s := setLblock m { s.lblock m with area := 3 } s
    beginErase n (setLblock n { s.lblock n with area := 0 } s)

/-- The next free page of the partition, as block and page; none when the partition has no block left that is free. -/
def State.imagePlace (s : State) : Option (Nat × Nat) :=
  match s.lfs.imgOpen with
  | some (b, k) => if k < 1024 then some (b, k) else (s.findBlock 3).map (fun n => (n, 0))
  | none => (s.findBlock 3).map (fun n => (n, 0))

/-- Write an image page at the next free page of the partition, where the page map then finds it; the block that it leaves without a newest copy is
given up (R460). -/
def writeImagePage (page : Nat) (s : State) : State :=
  match s.imagePlace with
  | none => s
  | some (b, k) =>
    let old := (tget (dflt none) s.lfs.imgMap page).map (· / 1024)
    let s : State := { s with lfs := { s.lfs with
      imgOpen := some (b, k + 1), imgMap := tput (dflt none) s.lfs.imgMap page (some (1024 * b + k)) } }
    let s := noteWritten 1 s
    match old with
    | some n => if s.imageUsed.contains n then s else giveImageBlock n s
    | none => s

/-- Erase the whole image: every block that holds a page of it (R250). -/
def eraseImage (s : State) : State :=
  let used := s.imageUsed.eraseDups
  used.foldl (fun s n => giveImageBlock n s) { s with lfs := { s.lfs with imgMap := [], imgOpen := none } }

end Sys2Proof.Machine
end

