-- ==== Sys2Proof/Machine/RepairOps.lean ====
section
/-! DEFINITION. What repair and the public-key engines share (R438, R439, R566, R570, R571): the grown map, units out of service, and which
custody unit serves whom (R434). -/

namespace Sys2Proof.Machine

/-! ### The grown map (R566) -/

/-- Change the repair state. -/
def updRpr (f : RepairState → RepairState) (s : State) : State := { s with rpr := f s.rpr }

/-- The bytes of an entry. -/
def Grown.bytes (g : Grown) : Bytes :=
  let b := be 1 g.kind ++ be 1 g.cause ++ be 2 g.res ++ be 2 g.repl ++ be 2 g.port ++ be 4 g.secs
  b ++ be 4 (crc32c b).toNat

/-- Show the number of entries. -/
def showMap (s : State) : State := s.wr Reg.RPR_MAP_COUNT (BitVec.ofNat 32 s.rpr.grown.length)

/-- Enter a failure in the grown map; a full map sets MAP_FULL. -/
def recordGrown (kind cause res repl port : Nat) (s : State) : State :=
  if s.rpr.grown.any (fun g => g.kind == kind && g.res == res) then s
  else if 512 ≤ s.rpr.grown.length then s.wrB Reg.RPR_STATUS 0 true
  else showMap (updRpr (fun r => { r with grown := r.grown ++ [⟨kind, cause, res, repl, port, s.keeperSecs⟩] }) s)

/-- Note which resource now serves a port in place of one of the map: its last entry for the port without a replacement. -/
def noteReplacement (kind port repl : Nat) (s : State) : State :=
  updRpr (fun r => { r with grown := r.grown.map (fun g => if g.kind = kind ∧ g.port = port ∧ g.repl = 0xFFFF ∧ g.res % 2 = repl % 2 then { g with repl := repl } else g) }) s

/-! ### Tile units (R427, R570) -/

/-- A tile unit by number (R12), and its place in the tile's registers. -/
def State.tileUnit (s : State) (u : Nat) : TileUnit := tget (dflt TileUnit.reset) s.pke.tiles u
def unitTile (u : Nat) : Nat := if u < 64 then u / 16 else u - 64
def unitIndex (u : Nat) : Nat := if u < 64 then u % 16 else 16

/-- The number of the unit of index `i` of a tile. -/
def tileUnitNo (t i : Nat) : Nat := if i < 16 then 16 * t + i else 64 + t

/-- Change a tile unit; STATE and the tenants cached show. -/
def setTileUnit (u : Nat) (v : TileUnit) (s : State) : State :=
  let s := { s with pke := { s.pke with tiles := tput (dflt TileUnit.reset) s.pke.tiles u v } }
  let a := Reg.PKE_T_STATUS (unitTile u) (unitIndex u)
  (s.wrF a 1 0 (if v.out then 3 else 0)).wrF a 19 16 v.cached.length

/-- Whether a unit serves: in service, and a spare only once it has taken a unit's place. -/
def State.unitServes (s : State) (u : Nat) : Bool :=
  !(s.tileUnit u).out && (decide (u < 64) || tget (dflt 0) s.pke.spareFor (u - 64) != 0)

/-- What a tile unit does (PKE_T_STATUS.STATE): the units that serve take the exchanges of their tile's queue in order, and the next one its batch
(R442). -/
def State.tileUnitState (s : State) (t i : Nat) : Nat :=
  let u := tileUnitNo t i
  let ahead := ((List.range i).filter (fun j => s.unitServes (tileUnitNo t j))).length
  let q := (tget (dflt []) s.flow.exchanges t).length
  if (s.tileUnit u).out then 3
  else if !s.unitServes u then 0
  else if ahead < q then 1
  else if ahead = q ∧ tget (dflt []) s.pke.batches t ≠ [] then 2
  else 0

/-- Take a tile unit out of service: its keys are cleared (R443), RPR_PKE_OUT shows it and the map gains an entry. -/
def tileUnitOut (u cause : Nat) (s : State) : State :=
  if (s.tileUnit u).out then s
  else
    let s := setTileUnit u ⟨true, [], []⟩ s
    let s := recordGrown 2 cause u 0xFFFF 0xFFFF s
    irq Reg.RPR_IRQ_STATUS 19 3 (s.wrB (Reg.RPR_PKE_OUT (u / 32)) (u % 32) true)

/-- A failed invariant check of a tile unit (R439): counted, with a security alarm; the third within 1 s takes it out of service. -/
def tileUnitFault (u : Nat) (s : State) : State :=
  let v := s.tileUnit u
  let f := (v.faults ++ [s.now]).filter (fun t => decide (s.now < t + 1000000000))
  let s := (alarm 0x08 (32 + unitTile u) (srcMaster (768 + u)) true (setTileUnit u { v with faults := f } s)).bump (Reg.PKE_T_FAULTS (unitTile u) (unitIndex u))
  if 3 ≤ f.length then tileUnitOut u 4 (s.wrF (Reg.PKE_T_STATUS (unitTile u) (unitIndex u)) 15 8 7) else s

/-- A tile unit completes an operation for a tenant, whose expanded keys it keeps among those of the last eight (R221). -/
def tileUnitServed (u tenant : Nat) (s : State) : State :=
  let v := s.tileUnit u
  (setTileUnit u { v with cached := (tenant :: v.cached.filter (· != tenant)).take 8 } s).bump (Reg.PKE_T_OPS (unitTile u) (unitIndex u))

/-! ### Custody units (R434, R438) -/

/-- A custody unit. -/
def State.pkeUnit (s : State) (n : Nat) : PkeUnit := tget (dflt PkeUnit.reset) s.pke.units n

/-- Whether a unit's work is a job of the sequencer. -/
def PkeUnit.isSeq (u : PkeUnit) : Bool := u.work == some .seq

/-- Change a custody unit; STATE, SEQ_JOB and PKE_STATUS show it. -/
def setPkeUnit (n : Nat) (u : PkeUnit) (s : State) : State :=
  let s := { s with pke := { s.pke with units := tput (dflt PkeUnit.reset) s.pke.units n u } }
  let s := (s.wrF (Reg.PKE_U_STATUS n) 1 0 u.stat).wrB (Reg.PKE_U_STATUS n) 16 u.isSeq
  ((s.wrB Reg.PKE_STATUS n (u.stat == 1)).wrB Reg.PKE_STATUS (8 + n) (u.stat == 3)).wrB Reg.PKE_STATUS (16 + n) u.isSeq

/-- Whether a unit may take a job. -/
def State.pkeFree (s : State) (n : Nat) : Bool := (s.pkeUnit n).stat == 0 && s.bitOf Reg.PKE_CTL n

/-- The lowest free unit. -/
def State.freeUnit (s : State) : Option Nat := (List.range 8).find? s.pkeFree

/-- The units that serve the sequencer. -/
def State.seqUnits (s : State) : List Nat := (List.range 8).filter (fun n => (s.pkeUnit n).isSeq)

/-- Give the sequencer free units, up to the number it can use. -/
def seatSeq : Nat → State → State
  | 0, s => s
  | n + 1, s => match s.freeUnit with
    | some u => seatSeq n (setPkeUnit u { s.pkeUnit u with stat := 1, work := some .seq } s)
    | none => s

/-- A WAITING command has its unit and starts, with its interim reply (R82, R434). -/
def startParked (w : PkeWork) (s : State) : State :=
  match w with
  | .host c _ _ =>
    match (s.queue (qkey c.fn c.queue)).find c.ident with
    | some o => if o.stage = .waiting then interimReply c 0x0106 s else s
    | none => s
  | _ => s

/-- Waiting operations of host commands take free units, in order. -/
def serveQueue : Nat → State → State
  | 0, s => s
  | n + 1, s => match s.pke.queue, s.freeUnit with
    | w :: ws, some u =>
      serveQueue n (startParked w (setPkeUnit u { s.pkeUnit u with stat := 1, work := some w } { s with pke := { s.pke with queue := ws } }))
    | _, _ => s

/-- Seat the sequencer, which wants `want` units, ahead of every queued operation (R273, R434). -/
def seatUnits (want : Nat) (s : State) : State :=
  serveQueue 8 (seatSeq (want - s.seqUnits.length) s)

/-- The sequencer's units become free. -/
def freeSeqUnits (s : State) : State :=
  s.seqUnits.foldl (fun s n => (setPkeUnit n { s.pkeUnit n with stat := 0, work := none } s).bump (Reg.PKE_U_OPS n)) s

end Sys2Proof.Machine
end

