-- ==== Sys2Proof/Machine/FlowOps.lean ====
section
/-! DEFINITION. Terminals, register entries and flows as shared operations (chapter 06): slots and ranges (R179), entries and the image
(R181, R185, R187), the flow cache (R189), replay windows (R190), write-back and eviction (R194), quarantine (R209). -/

namespace Sys2Proof.Machine

/-! ### Slots -/

/-- BASE and QUOTA of a tenant in the tenant table of a tile. -/
def State.range (s : State) (tile t : Nat) : Nat × Nat := (s.fld (Reg.TRM_TNT_LO tile t) 10 0, s.fld (Reg.TRM_TNT_LO tile t) 27 16)

/-- The register slot of a terminal, when its index lies inside the quota (R179). -/
def State.termSlot (s : State) (tile t term : Nat) : Option Nat :=
  let r := s.range tile t
  if term < 4096 * r.2 then some (4096 * r.1 + term) else none

/-- Whether another existing tenant's range holds this unit (R212). -/
def State.unitOverlap (s : State) (tile t unit : Nat) : Bool :=
  s.tenants.any (fun u => u != t && decide ((s.range tile u).1 ≤ unit) && decide (unit < (s.range tile u).1 + (s.range tile u).2))

/-! ### Entries -/

/-- The default of the register and of its image: every slot FREE. -/
def noEntry : Nat → TermEntry := dflt TermEntry.free

/-- The entry of a slot in DRAM. -/
def State.term (s : State) (n : Nat) : TermEntry := tget noEntry s.flow.terms n

/-- The first change of terminal state after a flush clears the CLEAN flag (R185). -/
def touchTerms (s : State) : State :=
  let s := { s with flow := { s.flow with clean := false, changed := true } }
  [0, 1, 2, 3].foldl (fun s t => s.wrB (Reg.TRM_IMAGE t) 0 false) s

/-- Whether a slot's image page (256 entries) is in DRAM (R186). -/
def State.pageLoaded (s : State) (n : Nat) : Bool := s.flow.allLoaded || tget (dflt false) s.flow.loaded (n / 256)

/-- The version counter of an entry's line, of the counter line that holds sixteen of them, and of the third-level line above it, which stays on die
(R183). The load of a page writes each of its 256 entries once. -/
def State.version (s : State) (n : Nat) : Nat := tget (fun n => b2n (s.pageLoaded n)) s.flow.versions n
def State.lineVersion (s : State) (m : Nat) : Nat := tget (fun m => 16 * b2n (s.pageLoaded (16 * m))) s.flow.lineVersions m
def State.dieVersion (s : State) (k : Nat) : Nat := tget (fun k => 256 * b2n (s.pageLoaded (256 * k))) s.flow.dieVersions k

/-- A write of an entry increments its version counter and the counters above it (R183). -/
def countWrite (n : Nat) (s : State) : State :=
  let up (v : Nat) : Nat := (v + 1) % 2 ^ 32
  { s with flow := { s.flow with
    versions := tput (fun n => b2n (s.pageLoaded n)) s.flow.versions n (up (s.version n))
    lineVersions := tput (fun m => 16 * b2n (s.pageLoaded (16 * m))) s.flow.lineVersions (n / 16) (up (s.lineVersion (n / 16)))
    dieVersions := tput (fun k => 256 * b2n (s.pageLoaded (256 * k))) s.flow.dieVersions (n / 256) (up (s.dieVersion (n / 256))) } }

/-- Write an entry in DRAM. -/
def setTerm (n : Nat) (e : TermEntry) (s : State) : State :=
  touchTerms (countWrite n { s with flow := { s.flow with terms := tput noEntry s.flow.terms n e } })

/-- An entry as it goes through to its image page (R185). -/
def imageTerm (n : Nat) (e : TermEntry) (s : State) : State :=
  let s := setTerm n e s
  { s with flow := { s.flow with image := tput noEntry s.flow.image n e } }

/-- Write entries through to the image, each image page once (R185, R460). -/
def throughTerms (ns : List Nat) (f : TermEntry → TermEntry) (s : State) : State :=
  ((ns.map (· / 256)).eraseDups).foldl (fun s p => writeImagePage p s) (ns.foldl (fun s n => imageTerm n (f (s.term n)) s) s)

/-- Write one entry through to the image. -/
def throughTerm (n : Nat) (e : TermEntry) (s : State) : State := throughTerms [n] (fun _ => e) s

/-- The restart fence (R187). -/
def TermEntry.fenced (e : TermEntry) : TermEntry := { e with fence := true, txnext := (e.txnext + 2 ^ 24) % 2 ^ 47 }

/-- The tile with the controller of a slot's HBM3 stack, chosen by bit 0 of the slot: stack 0 is on tile 1, stack 1 on tile 2 (R11, R20). -/
def stackTile (n : Nat) : Nat := 1 + n % 2

/-- The slots whose entry differs from the image: the dirty lines (R185). -/
def State.dirty (s : State) : List Nat :=
  ((s.flow.terms.map (·.1)).filter (fun n => s.term n != tget noEntry s.flow.image n))
    ++ ((s.flow.image.map (·.1)).filter (fun n => s.pageLoaded n && s.term n == TermEntry.free && tget noEntry s.flow.image n != TermEntry.free))

/-- Bytes 0 to 47 of an entry (R181). -/
def TermEntry.bytes48 (e : TermEntry) : Bytes :=
  be 1 (e.state + 4 * e.mode + 8 * b2n e.ctx + 16 * b2n e.rekeyDue + 32 * b2n e.fence) ++ be 1 e.sgen ++ be 1 e.egen
    ++ be 1 (e.qreason + 16 * e.profile)
    ++ be 2 (match e.attach with | some p => 2 ^ 15 + p | none => 0)
    ++ be 1 (match e.home0 with | some c => 128 + c | none => 0) ++ be 1 (match e.home1 with | some c => 128 + c | none => 0)
    ++ be 2 e.region ++ be 6 e.rxhigh ++ be 8 e.rxmap.toNat ++ be 6 e.txnext ++ be 4 e.replycnt ++ be 4 e.suse0 ++ be 4 e.suse1
    ++ be 4 e.euse ++ be 2 e.l4ver

/-- The 64 bytes of an entry (R181). -/
def TermEntry.bytes (e : TermEntry) : Bytes := e.bytes48 ++ (if e.ctx then fit 16 e.sctx else zeros 16)

/-- A line of DRAM as it stands there (R183): its AES-XTS ciphertext, the data unit being its address in lines, and the 64-bit MAC over its number, its
version and the ciphertext. What the nonce of the GMAC is the spec does not say (log entry 332). -/
def protect (k : DramKeys) (level n version : Nat) (plain : Bytes) : Bytes × Bytes :=
  let c := xtsEnc k.data k.tweak (2 ^ 24 * level + n) plain
  (c, (gcmTag k.mac (be 1 level ++ be 7 n ++ be 4 version) (be 4 n ++ be 4 version ++ c) []).take 8)

/-- The DRAM line of an entry, the counter line that holds its version, and the third-level line above. -/
def State.dramLine (s : State) (n : Nat) : Bytes × Bytes := protect s.flow.dramKeys 0 n (s.version n) (s.term n).bytes
def State.counterLine (s : State) (m : Nat) : Bytes × Bytes :=
  protect s.flow.dramKeys 1 m (s.lineVersion m) ((List.range 16).flatMap (fun i => be 4 (s.version (16 * m + i))))
def State.thirdLine (s : State) (k : Nat) : Bytes × Bytes :=
  protect s.flow.dramKeys 2 k (s.dieVersion k) ((List.range 16).flatMap (fun i => be 4 (s.lineVersion (16 * k + i))))

/-- The register image's copy of an entry as it stands in ledger flash: under the register image key, in a mode the spec does not name (R185, log entry
334). -/
def State.imageLine (s : State) (n : Nat) : Bytes := Config.imageCipher s.imageKey n (tget noEntry s.flow.image n).bytes

/-! ### Replay windows (R190) -/

/-- Bit `d` of a 64-bit map. -/
def bit64 (d : Nat) : BitVec 64 := 1#64 <<< d

/-- Reserve a sequence: `none` when it fails REPLAY. -/
def Window.reserve (w : Window) (q : Nat) : Option Window :=
  if w.high < q then
    let d := q - w.high
    some ⟨q, (if d < 64 then w.map <<< d else 0) ||| 1, (if d < 64 then w.pend <<< d else 0) ||| 1⟩
  else
    let d := w.high - q
    if d < 64 ∧ w.map.getLsbD d = false then some ⟨w.high, w.map ||| bit64 d, w.pend ||| bit64 d⟩ else none

/-- Commit a reserved sequence. -/
def Window.commit (w : Window) (q : Nat) : Window :=
  if w.high < q ∨ 64 ≤ w.high - q then w else { w with pend := w.pend &&& ~~~(bit64 (w.high - q)) }

/-- Release a reserved sequence, provided it is still inside the window. -/
def Window.release (w : Window) (q : Nat) : Window :=
  if w.high < q ∨ 64 ≤ w.high - q then w
  else { w with map := w.map &&& ~~~(bit64 (w.high - q)), pend := w.pend &&& ~~~(bit64 (w.high - q)) }

/-! ### The flow cache (R189) -/

/-- The set of a flow in a cluster. -/
def flowSet (s : State) (c t term dir : Nat) : Nat :=
  (crc32c (be 4 (tget (dflt 0) s.dp.salt c) ++ be 2 t ++ be 3 term ++ be 1 dir)).toNat % 4096

/-- The key of way `w` of a set. -/
def wayKey (c set w : Nat) : Nat := 16384 * c + 4 * set + w

/-- A cache entry. -/
def State.flowAt (s : State) (k : Nat) : Option Flow := tget (dflt none) s.flow.flows k

/-- Replace a cache entry. -/
def setFlow (k : Nat) (f : Option Flow) (s : State) : State := { s with flow := { s.flow with flows := tput (dflt none) s.flow.flows k f } }

/-- The cache key of a flow in a cluster. -/
def State.findFlow (s : State) (c t term dir : Nat) : Option Nat :=
  let set := flowSet s c t term dir
  ((List.range 4).map (wayKey c set)).find? (fun k =>
    match s.flowAt k with
    | some f => f.tenant == t && f.terminal == term && f.dir == dir
    | none => false)

/-- Change a cached flow that exists; a change of a cached flow's state is a change of terminal state (R185). -/
def updFlow (k : Nat) (g : Flow → Flow) (s : State) : State :=
  match s.flowAt k with
  | some f => touchTerms (setFlow k (some (g f)) s)
  | none => s

/-- The register slot a flow belongs to. -/
def State.flowSlot (s : State) (k : Nat) (f : Flow) : Option Nat := s.termSlot (k / 16384 / 16) f.tenant f.terminal

/-- An entry with a flow's state written back (R194); the home field stays. The DIR = 0 flow holds the generations and flags, and keeps a REKEY_DUE that the
entry has taken for the same generation from the DIR = 1 flow (R200); the DIR = 1 flow holds its count of the generation it has been told, and the
flow lane. -/
def writeBackEntry (f : Flow) (e : TermEntry) : TermEntry :=
  if f.dir = 0 then
    let due := e.rekeyDue && e.sgen == f.sgen
    { e with
      sgen := f.sgen, egen := f.egen, rekeyDue := f.rekeyDue || due, reason := if f.rekeyDue || !due then f.rekeyReason else e.reason, fence := f.fence
      suse0 := f.scount, euse := f.ecount, rxhigh := f.win.high, rxmap := f.win.map, replycnt := f.replycnt }
  else { e with suse1 := if f.sgen = e.sgen then f.scount else 0, txnext := f.txnext }

/-- Whether a flow writes its state back: not one that its set-up has not made LIVE, nor one whose terminal has been freed (R211). -/
def Flow.writes (f : Flow) : Bool := f.stage != .setup && !f.detached

/-- Write a flow's state into its entry without evicting it. -/
def writeBackFlow (k : Nat) (f : Flow) (s : State) : State :=
  match s.flowSlot k f with
  | some n => if (s.term n).state = 0 || !f.writes then s else setTerm n (writeBackEntry f (s.term n)) s
  | none => s

/-- Clear the home field of a direction. -/
def TermEntry.clearHome (e : TermEntry) (dir : Nat) : TermEntry :=
  if dir = 0 then { e with home0 := none } else { e with home1 := none }

/-- Set the home field of a direction. -/
def TermEntry.setHome (e : TermEntry) (dir c : Nat) : TermEntry :=
  if dir = 0 then { e with home0 := some c } else { e with home1 := some c }

/-- The home of a direction. -/
def TermEntry.home (e : TermEntry) (dir : Nat) : Option Nat := if dir = 0 then e.home0 else e.home1

/-- Write a flow back, clear its home and remove it from the cache (R194). -/
def removeFlow (k : Nat) (s : State) : State :=
  match s.flowAt k with
  | none => s
  | some f =>
    let s := match s.flowSlot k f with
      | some n => if (s.term n).state = 0 || !f.writes then s else setTerm n ((writeBackEntry f (s.term n)).clearHome f.dir) s
      | none => s
    setFlow k none s

/-- Evict a flow: at once when no frame is in flight, else when it drains (R193). The way of a set-up holds no flow yet. -/
def evictFlow (k : Nat) (s : State) : State :=
  match s.flowAt k with
  | none => s
  | some f => if f.stage = .setup then s else if f.inflight = 0 then removeFlow k s else setFlow k (some { f with stage := .evicting }) s

/-- The keys of the cached flows that satisfy `p`. -/
def State.flowKeys (s : State) (p : Nat → Flow → Bool) : List Nat :=
  (s.flow.flows.filter (fun e => match e.2 with | some f => p e.1 f | none => false)).map (·.1)

/-- Evict every flow that satisfies `p`. -/
def evictFlows (p : Nat → Flow → Bool) (s : State) : State := (s.flowKeys p).foldl (fun s k => evictFlow k s) s

/-- Evict every flow of a terminal. -/
def evictTerminal (t term : Nat) (s : State) : State := evictFlows (fun _ f => f.tenant == t && f.terminal == term) s

/-! ### Exchange queues (R203) -/

/-- The exchange queue of a tile. -/
def State.exchQ (s : State) (tile : Nat) : List Exchange := tget (dflt []) s.flow.exchanges tile

/-- Replace the exchange queue of a tile, with its depth shown in TRM_XCHG_DEPTH. -/
def setExchQ (tile : Nat) (l : List Exchange) (s : State) : State :=
  ({ s with flow := { s.flow with exchanges := tput (dflt []) s.flow.exchanges tile l } }).wr (Reg.TRM_XCHG_DEPTH tile)
    (BitVec.ofNat 32 l.length)

/-- Discard the queued exchanges of a terminal in every tile (R209). -/
def dropExchanges (t term : Nat) (s : State) : State :=
  [0, 1, 2, 3].foldl (fun s tile =>
    let q := s.exchQ tile
    let r := q.filter (fun x => !(x.tenant == t && x.terminal == term))
    if r = q then s else setExchQ tile r s) s

/-! ### Quarantine (R208, R209) -/

/-- Quarantine a terminal for a reason: the entry is written through, both flows leave, queued exchanges are discarded, and a QUARANTINE
event carries the terminal index and QREASON. -/
def quarantine (tile t term reason : Nat) (s : State) : State :=
  match s.termSlot tile t term with
  | none => s
  | some n =>
    let s := evictTerminal t term s
    let s := throughTerm n { s.term n with state := 2, qreason := reason } s
    dropExchanges t term s

/-- Whether a terminal is quarantined. -/
def State.quarantined (s : State) (tile t term : Nat) : Bool :=
  match s.termSlot tile t term with
  | some n => (s.term n).state == 2
  | none => false

/-- An automatic quarantine counts, raises the interrupt and records a ledger event. A terminal quarantined already keeps its cause: a draining flow
triggers nothing more. -/
def autoQuarantine (c t term reason : Nat) (s : State) : State :=
  if s.quarantined (c / 16) t term then s else
  let s := quarantine (c / 16) t term reason s
  let s := irq (Reg.FLW_IRQ_STATUS c) (32 + c / 16) 0 (s.bump (Reg.FLW_QUAR_AUTO c))
  event 0x0020 (srcMaster (512 + c)) t (be 3 term ++ be 1 reason) s

/-- A register entry whose integrity code fails is quarantined with reason 0xF and a security alarm (R184). -/
def integrityQuarantine (c t term : Nat) (s : State) : State :=
  let s := quarantine (c / 16) t term 0xF s
  let s := irq (Reg.FLW_IRQ_STATUS c) (32 + c / 16) 2 (s.bump (Reg.TRM_MAC_FAIL (c / 16)))
  event 0x0020 (srcMaster (512 + c)) t (be 3 term ++ be 1 0xF) (alarm 0x02 6 (srcTile (c / 16)) true s)

/-- Count a refusal towards automatic quarantine in a window that opens at the first refusal (R208); answers the flow and whether the
threshold is reached. -/
def quarCount (word : Word) (count left : Nat) : Nat × Nat × Bool :=
  let thr := bits word 7 0
  if thr = 0 then (count, left, false)
  else
    let c := if left = 0 then 1 else count + 1
    let l := if left = 0 then bits word 23 16 + 1 else left
    (c, l, decide (thr ≤ c))

/-- Count a TAG (`isTag`) or REPLAY refusal of a DIR = 0 flow (R208). -/
def noteRefusal (isTag : Bool) (k : Nat) (s : State) : State :=
  match s.flowAt k with
  | none => s
  | some f =>
    let c := k / 16384
    if f.dir ≠ 0 then s
    else if isTag then
      let r := quarCount (s.rd (Reg.FLW_QUAR_TAG c)) f.qtag f.qtagLeft
      let s := setFlow k (some { f with qtag := r.1, qtagLeft := r.2.1 }) s
      if r.2.2 then autoQuarantine c f.tenant f.terminal 0x2 s else s
    else
      let r := quarCount (s.rd (Reg.FLW_QUAR_REPLAY c)) f.qreplay f.qreplayLeft
      let s := setFlow k (some { f with qreplay := r.1, qreplayLeft := r.2.1 }) s
      if r.2.2 then autoQuarantine c f.tenant f.terminal 0x3 s else s

/-! ### Profiles -/

/-- The profile of a tenant's terminals (R195). -/
def State.profile (s : State) (t p : Nat) : Profile := tget (dflt Profile.zero) s.flow.profiles (16 * t + p)

/-- The usage limit U of a tenant's terminal keys (R233). -/
def State.limitU (s : State) (t : Nat) : Nat :=
  let e := (s.slot (l2Slot t)).childExp
  if e = 32 then 0xFFFFFFFF else 2 ^ e

/-- The limit of S for one direction: U / 2, 2^31 when CHILD_EXP is 32 (R182, R233). -/
def State.limitS (s : State) (t : Nat) : Nat :=
  let e := (s.slot (l2Slot t)).childExp
  if e = 32 then 2 ^ 31 else 2 ^ e / 2

/-- The usage margin of a cluster (R149). -/
def State.margin (s : State) (c : Nat) : Nat := 2 ^ s.fld (Reg.DPL_USAGE_MARGIN c) 4 0

end Sys2Proof.Machine
end

