-- ==== Sys2Proof/Machine/Time.lean ====
section
/-! DEFINITION. The timebase, the second pulse, the uncertainty bound and close of sales (chapter 09). -/

namespace Sys2Proof.Machine

/-! ### State and uncertainty -/

/-- The timebase state: 0 FREE, 1 LOCKED, 2 HOLDOVER. -/
def State.timState (s : State) : Nat := s.fld Reg.TIM_STATUS 1 0

/-- U in units of 10^-9 ns at timebase instant `t` (R301). -/
def State.uncScaled (s : State) (t : Nat) : Nat :=
  (s.fld Reg.TIM_BASE_UNC 16 0 + s.tim.residual.natAbs) * 1000000000 + s.fld Reg.TIM_DRIFT 16 0 * (t - s.tim.lastPulse)

/-- The end of the interval of R301 that holds timebase instant `t`: 4,096 ns steps from each whole second. -/
def intervalEnd (t : Nat) : Nat :=
  t / 1000000000 * 1000000000 + min 1000000000 ((t % 1000000000 / 4096 + 1) * 4096)

/-- The U distributed for the interval that holds `t`, rounded up to a multiple of 4 ns; saturated in FREE. -/
def State.distributedU (s : State) (t : Nat) : Nat :=
  if s.timState = 0 then 0xFFFFFFFF else sat 0xFFFFFFFF ((s.uncScaled (intervalEnd t) + 3999999999) / 4000000000 * 4)

/-- Whether time is fit for a close decision at `t` (R302). -/
def State.timeFit (s : State) (t : Nat) : Bool :=
  s.timState != 0 && s.bitOf Reg.TIM_STATUS 2 && decide (s.distributedU t ≤ 1000 * s.fld Reg.TIM_MAX_UNC 19 0)

/-- Recompute TIM_UNC and the flags of TIM_STATUS; UNFIT is raised when U passes TIM_MAX_UNC. -/
def refreshUnc (s : State) : State :=
  let u := s.distributedU s.tim.now
  let was := s.bitOf Reg.TIM_STATUS 5
  let fit := s.timeFit s.tim.now
  let s := { s with tim := { s.tim with distU := u } }
  let s := s.wr Reg.TIM_UNC (BitVec.ofNat 32 u)
  let s := ((s.wrB Reg.TIM_STATUS 3 (s.tim.residual != 0)).wrB Reg.TIM_STATUS 4 (u == 0xFFFFFFFF)).wrB Reg.TIM_STATUS 5 fit
  if was ∧ !fit ∧ 1000 * s.fld Reg.TIM_MAX_UNC 19 0 < u then irq Reg.TIM_IRQ_STATUS 9 2 s else s

/-- UNCERTAINTY_UPDATE: after `dt` nanoseconds the Strongroom recomputes U and distributes it (R301). -/
def execUncertaintyUpdate (dt : Nat) (s : State) : Out := .next (refreshUnc (s.advance dt))

/-- Set the timebase state field. -/
def setTimState (v : Nat) (s : State) : State := s.wrF Reg.TIM_STATUS 1 0 v

/-! ### The pulse (R295 to R300, R619) -/

/-- The phase error of a pulse: the sub-second value taken as signed within half a second (R299). -/
def State.phaseError (s : State) : Int :=
  let sub := s.tim.now % 1000000000
  if sub < 500000000 then (sub : Int) else (sub : Int) - 1000000000

/-- Whether a phase error lies inside the window |e| ≤ U + 1 µs (R299). -/
def State.inWindow (s : State) (e : Int) : Bool := decide (e.natAbs * 1000000000 ≤ s.uncScaled s.tim.now + 1000000000000)

/-- TIM_PHASE shows the last phase error, saturating. -/
def phaseWord (e : Int) : Word := BitVec.ofInt 32 (max (-0x7FFFFFFF) (min 0x7FFFFFFF e))

/-- Put the timebase at a second and sub-second value, with the pulse recorded as accepted. -/
def acceptPulse (now : Nat) (residual : Int) (e : Int) (s : State) : State :=
  let s := { s with tim := { s.tim with now := now % (2 ^ 34 * 1000000000), residual := residual, lastPulse := now % (2 ^ 34 * 1000000000),
                                        slewFrom := s.tim.raw / 4, wraps := s.tim.wraps + now / (2 ^ 34 * 1000000000) } }
  let s := s.wr64 Reg.TIM_LAST_PULSE_LO (State.packStamp now).toNat
  (s.wr Reg.TIM_PHASE (phaseWord e)).bump Reg.TIM_PULSES

/-- Complete every pending REALIGN at the pulse that ends them. -/
def endRealigns (status : Nat) (s : State) : State :=
  let l := s.tim.realigns
  l.foldl (fun s r => finalReply? r.2 status s) { s with tim := { s.tim with realigns := [] } }

/-- Complete a pending SET_TIME. -/
def endSetTime (status : Nat) (s : State) : State :=
  match s.tim.pendSet with
  | none => s
  | some (_, c) => finalReply? c status { s with tim := { s.tim with pendSet := none } }

/-- The second a pending SET_TIME wants, if any: the value of TIM_NEXT_SEC (R619). -/
def State.wanted (s : State) : Nat := if s.tim.pendSet.isSome then s.rd64 Reg.TIM_NEXT_SEC_LO % 2 ^ 34 else 0

/-- A pulse in FREE: with a SET_TIME pending the count is set and the state becomes LOCKED; otherwise it steps to the next second. -/
def pulseFree (s : State) : State :=
  let next := s.tim.now / 1000000000 + 1
  let e := s.phaseError
  if s.tim.pendSet.isSome then
    let s1 := endSetTime 0 (acceptPulse (max s.wanted next * 1000000000) 0 e s)
    irq Reg.TIM_IRQ_STATUS 9 0 (setTimState 1 (endRealigns 0 s1))
  else endRealigns 0 (acceptPulse (next * 1000000000) 0 e s)

/-- A pulse accepted in LOCKED or HOLDOVER: slewed, or stepped when it lags by more than 100 µs (R300); a pending SET_TIME moves the
seconds forward (R619). -/
def pulseAccepted (s : State) : State :=
  let e := s.phaseError
  let sec := (s.tim.now + 500000000) / 1000000000
  let jump := (max s.wanted sec - sec) * 1000000000
  let step := decide (e < -100000)
  let was := s.timState
  let s1 := if step then irq Reg.TIM_IRQ_STATUS 9 4 ((acceptPulse (sec * 1000000000 + jump) 0 e s).bump Reg.TIM_STEPS)
    else acceptPulse (s.tim.now + jump) e e s
  let s1 := endRealigns 0 (endSetTime 0 s1)
  let s1 := setTimState 1 s1
  if was = 1 then s1 else irq Reg.TIM_IRQ_STATUS 9 0 s1

/-- SECOND_PULSE: `dt` nanoseconds after the last event the active edge of SECPULSE arrives, its active level lasting `width` ns. -/
def execSecondPulse (dt width : Nat) (s : State) : Out :=
  let s := s.advance dt
  if !s.bitOf Reg.TIM_CTL 2 then .next s
  else if width < 100 then .next (s.bump Reg.TIM_PULSE_NARROW)
  else if s.timState = 0 then .next (refreshUnc (pulseFree s))
  else if s.inWindow s.phaseError ∨ s.tim.realigns ≠ [] then .next (refreshUnc (pulseAccepted s))
  else .next (irq Reg.TIM_IRQ_STATUS 9 3 (s.bump Reg.TIM_PULSE_REJ))

/-- HOLDOVER_TIMEOUT: after `dt` nanoseconds, in LOCKED, no pulse has been accepted by t_last + 1 s + U + 1 µs (states table). -/
def execHoldoverTimeout (dt : Nat) (s : State) : Out :=
  let s := s.advance dt
  let t1 := s.tim.lastPulse + 1000000000
  if s.timState = 1 ∧ (t1 + 1000) * 1000000000 + s.uncScaled t1 ≤ s.tim.now * 1000000000 then
    .next (refreshUnc (irq Reg.TIM_IRQ_STATUS 9 1 (setTimState 2 s)))
  else .next s

/-- TIME_REQUEST_TIMEOUT: after `dt` nanoseconds, a SET_TIME or REALIGN that no pulse has applied within 2 s is withdrawn (R619). -/
def execTimeRequestTimeout (dt : Nat) (s : State) : Out :=
  let s := s.advance dt
  let s := match s.tim.pendSet with
    | some (t, _) => if t + 2000 ≤ s.ms then endSetTime 0x2503 (s.wr64 Reg.TIM_NEXT_SEC_LO 0) else s
    | none => s
  let late := s.tim.realigns.filter (fun r => decide (r.1 + 2000 ≤ s.ms))
  let s := { s with tim := { s.tim with realigns := s.tim.realigns.filter (fun r => decide (s.ms < r.1 + 2000)) } }
  .next (late.foldl (fun s r => finalReply? r.2 0x2503 s) s)

/-! ### The game table (R303) -/

/-- The set of a game. -/
def gameSet (t g : Nat) : Nat := (crc32c (be 2 t ++ be 4 g)).toNat % 2048

/-- The table entry at index set * 4 + way. -/
def State.game (s : State) (i : Nat) : Game := tget (dflt Game.none) s.tim.games i

/-- The entry as the last change on its way will leave it. -/
def State.gameNext (s : State) (i : Nat) : Game :=
  match (s.tim.changes.filter (fun c => c.idx == i)).getLast? with
  | some c => c.new
  | none => s.game i

/-- The index of a tenant's game, counting changes on their way. -/
def State.findGame (s : State) (t g : Nat) : Option Nat :=
  ((List.range 4).map (fun w => 4 * gameSet t g + w)).find? (fun i =>
    let e := s.gameNext i
    e.valid && e.tenant == t && e.game == g)

/-- A free way of a game's set. -/
def State.freeGame (s : State) (t g : Nat) : Option Nat :=
  ((List.range 4).map (fun w => 4 * gameSet t g + w)).find? (fun i => !(s.gameNext i).valid && !(s.game i).valid)

/-- The entry a frame stamped at `at_` is judged by: a change applies from its activation stamp (R306, R308). -/
def State.gameAt (s : State) (i at_ : Nat) : Game :=
  s.tim.changes.foldl (fun e c => if c.idx = i then (if c.active && decide (at_ < c.stampA) then c.old else if c.stampA ≤ at_ then c.new else e)
    else e) (s.game i)

/-- The entry that judges a tenant's game for a frame stamped at `at_`. -/
def State.judge (s : State) (t g at_ : Nat) : Option Game :=
  (((List.range 4).map (fun w => s.gameAt (4 * gameSet t g + w) at_)).find? (fun e => e.valid && e.tenant == t && e.game == g))

/-- The close decision (R305): CLOSED when the stamp has reached CLOSE less the guard. -/
def closedAt (e : Game) (u stampNs : Nat) : Bool := decide (State.stampNs e.close ≤ stampNs + (u + 1000 * e.margin))

/-- The valid entries of the table. -/
def State.gameCount (s : State) : Nat := (s.tim.games.filter (fun e => e.2.valid)).length

/-- The games a tenant holds, counting additions on their way. -/
def State.gamesOf (s : State) (t : Nat) : Nat :=
  (s.tim.games.filter (fun e => e.2.valid && e.2.tenant == t)).length
    + (s.tim.changes.filter (fun c => !c.active && c.new.valid && !c.old.valid && c.new.tenant == t)).length

/-- The table entry as its 16 bytes (R303). -/
def Game.bytes (e : Game) : Bytes :=
  be 4 e.game ++ be 2 (2 ^ 15 * b2n e.valid + e.tenant) ++ be 2 e.margin ++ be 8 e.close.toNat

/-! ### Changes (R306, R307) -/

/-- The activation stamp: now plus 200 µs, rounded up to a whole microsecond. -/
def State.activation (s : State) : Nat := (s.tim.now + 200000 + 999) / 1000 * 1000

/-- The clusters. -/
def clusters : List Nat := List.range 64

/-- Stage an entry's image and its activation stamp in a cluster (the TIM block's cluster part), which then awaits the stamp. -/
def stageImage (i : Nat) (new : Game) (a : Nat) (s : State) (c : Nat) : State :=
  let s := (List.range 4).foldl (fun s k => s.wr (Reg.TIM_GT_ENTRY c (4 * i + k)) (BitVec.ofNat 32 (ofBe ((new.bytes.drop (4 * k)).take 4)))) s
  (s.wr64 (Reg.TIM_GT_ACT_LO c) (State.packStamp a).toNat).wr (Reg.TIM_GT_STATUS c) 1

/-- TIM_GT_STATUS.PENDING of every cluster: some staged change awaits its stamp. -/
def showPending (s : State) : State :=
  clusters.foldl (fun s c => s.wrB (Reg.TIM_GT_STATUS c) 0 (s.tim.changes.any (fun x => !x.active))) s

/-- Stage a change and extend measurement register 21 with it (R307). -/
def stageChange (i : Nat) (new : Game) (cmd : Option CmdRef) (s : State) : State :=
  let old := s.gameNext i
  let a := s.activation
  let t := if new.valid then new.tenant else old.tenant
  let g := if new.valid then new.game else old.game
  let s := extendMr 21 (sha384 (be 2 t ++ be 4 g ++ be 8 old.close.toNat ++ be 8 new.close.toNat ++ be 2 old.margin ++ be 2 new.margin
    ++ be 8 (State.packStamp a).toNat)) s
  let s := { s with tim := { s.tim with changes := s.tim.changes ++ [⟨i, old, new, a, false, [], cmd⟩] } }
  let s := sendConfig t ([8] ++ be 1 (b2n new.valid) ++ be 4 g ++ be 8 new.close.toNat ++ be 2 new.margin) s
  clusters.foldl (stageImage i new a) s

/-- GAME_CHANGE_ACTIVATE: after `dt` nanoseconds every change whose activation stamp has come is applied to the tables (R306). -/
def execGameChangeActivate (dt : Nat) (s : State) : Out :=
  let s := s.advance dt
  let due (c : GameChange) : Bool := !c.active && decide (c.stampA ≤ s.tim.now)
  let games := s.tim.changes.foldl (fun g c => if due c then tput (dflt Game.none) g c.idx c.new else g) s.tim.games
  .next (showPending { s with tim := { s.tim with games := games
                                                  changes := s.tim.changes.map (fun c => if due c then { c with active := true } else c) } })

/-- Whether a cluster is waited for: its tile is not in reset. -/
def State.clusterUp (s : State) (c : Nat) : Bool := tget (dflt TileCond.up) s.sys.tiles (c / 16) == .up

/-- Whether every cluster that is waited for has acknowledged. -/
def State.allAcked (s : State) (acks : List Nat) : Bool := clusters.all (fun c => acks.contains c || !s.clusterUp c)

/-- Complete every active change that all clusters waited for have acknowledged (R306). -/
def settleChanges (s : State) : State :=
  let full (c : GameChange) : Bool := c.active && s.allAcked c.acks
  let l := s.tim.changes.filter full
  l.foldl (fun s c => finalReply? c.cmd 0 s) { s with tim := { s.tim with changes := s.tim.changes.filter (fun c => !full c) } }

/-- Withdraw a change everywhere (R306): the entry is again what it was before it, unless a later change of the same entry stands, which
then counts as made to the old entry. -/
def withdrawChange (ch : GameChange) (t : TimeState) : TimeState :=
  let rest := t.changes.filter (fun c => c != ch)
  if rest.any (fun c => c.idx == ch.idx && c.active && decide (c.old = ch.new)) then
    { t with changes := rest.map (fun c => if c.idx = ch.idx ∧ c.old = ch.new then { c with old := ch.old } else c) }
  else { t with changes := rest.map (fun c => if c.idx = ch.idx ∧ c.old = ch.new then { c with old := ch.old } else c)
                games := if ch.active then tput (dflt Game.none) t.games ch.idx ch.old else t.games }

/-- GAME_CHANGE_ACK: a cluster acknowledges the first active change it has not acknowledged; when all have, the change completes. -/
def execGameChangeAck (cluster : Fin 64) (s : State) : Out :=
  if !s.linkOk (cluster / 16) then .next s else
  match s.tim.changes.find? (fun c => c.active && !c.acks.contains cluster) with
  | none => .next s
  | some ch =>
    let s := s.wrB (Reg.TIM_GT_STATUS cluster) 1 true
    .next (settleChanges { s with tim := { s.tim with
      changes := s.tim.changes.map (fun c => if c = ch then { ch with acks := ch.acks ++ [cluster.val] } else c) } })

/-- GAME_CHANGE_TIMEOUT: after `dt` nanoseconds, a change whose acknowledgements are not all in within 10 ms of its stamp is withdrawn
everywhere and completes with 0x4501 (R306). -/
def execGameChangeTimeout (dt : Nat) (s : State) : Out :=
  let s := s.advance dt
  match s.tim.changes.find? (fun c => decide (c.stampA + 10000000 ≤ s.tim.now)) with
  | none => .next s
  | some ch => .next (finalReply? ch.cmd 0x4501 (showPending { s with tim := withdrawChange ch s.tim }))

/-! ### Commands (R309) -/

/-- GET_TIME: stamp, state, U, last phase error, TIM_DRIFT, stamp of the last accepted pulse. -/
def execGetTime (c : HostCmd) (s : State) : Out :=
  .next (hostRun 0x0501 c [] (fun s =>
    .done 0 (be 8 s.stamp.toNat ++ be 1 s.timState ++ be 4 (s.rd Reg.TIM_UNC).toNat ++ be 4 (s.rd Reg.TIM_PHASE).toNat
      ++ be 4 (s.rd Reg.TIM_DRIFT).toNat ++ be 8 (s.rd64 Reg.TIM_LAST_PULSE_LO)) 0 s) s)

/-- GET_GAME: the table entry of a tenant's game. -/
def execGetGame (c : HostCmd) (tenant : Fin 512) (game : BitVec 32) (s : State) : Out :=
  let t := c.target tenant
  .next (hostRun 0x0502 c [t] (fun s =>
    match s.judge t game.toNat s.tim.now with
    | some e => .done 0 e.bytes 0 s
    | none => .fail 0x1501) s)

/-- LIST_GAMES: a tenant's entries in table order, from an index, at most `count`. -/
def execListGames (c : HostCmd) (tenant : Fin 512) (first count : Nat) (s : State) : Out :=
  let t := c.target tenant
  .next (hostRun 0x0503 c [t] (fun s =>
    let l := (((s.tim.games.filter (fun e => e.2.valid && e.2.tenant == t)).map (·.2)).drop first).take count
    if c.outLen < 16 * l.length then .fail 0x3401 else .done 0 (l.flatMap Game.bytes) 0 s) s)

/-- SET_TIME: the seconds of the next pulse (R619). -/
def execSetTime (c : HostCmd) (seconds : BitVec 64) (s : State) : Out :=
  .next (hostRun 0x0510 c [] (fun s =>
    if 2 ^ 34 ≤ seconds.toNat then .fail 0x1502
    else if seconds.toNat < s.secs then .fail 0x2501
    else
      let s := match s.tim.pendSet with
        | some (_, old) => finalReply? old 0x2504 s
        | none => s
      let s := (s.wr64 Reg.TIM_NEXT_SEC_LO seconds.toNat).wrB Reg.TIM_STATUS 2 true
      .wait 0x0105 { s with tim := { s.tim with pendSet := some (s.ms, some c.ref) } }) s)

/-- SET_TIME_PARAMS: drift (ppb), base (ns) and maximum uncertainty (µs) within the ranges of their registers. -/
def execSetTimeParams (c : HostCmd) (drift base maxUnc : Nat) (s : State) : Out :=
  .next (hostRun 0x0511 c [] (fun s =>
    if drift < 1 ∨ 100000 < drift ∨ 100000 < base ∨ maxUnc < 1 ∨ 1000000 < maxUnc then .fail 0x1502
    else .done 0 [] 0 (refreshUnc (((s.wr Reg.TIM_DRIFT (BitVec.ofNat 32 drift)).wr Reg.TIM_BASE_UNC (BitVec.ofNat 32 base)).wr
      Reg.TIM_MAX_UNC (BitVec.ofNat 32 maxUnc)))) s)

/-- REALIGN: the next well-formed pulse is taken without the window; it needs a device-scope ticket (R619). -/
def execRealign (c : HostCmd) (s : State) : Out :=
  .next (hostRun 0x0512 c [] (withTicket 0x0512 c devScope true 0x2502 (fun _ s =>
    .wait 0x0105 { s with tim := { s.tim with realigns := s.tim.realigns ++ [(s.ms, some c.ref)] } })) s)

/-- The high-water mark of a tenant (R304). -/
def State.mark (s : State) (t : Nat) : Nat := tget (dflt 0) s.tim.marks t

/-- Whether a packed stamp is valid: nanoseconds below 10^9. -/
def validStamp (b : BitVec 64) : Bool := decide (b.toNat % 2 ^ 30 < 1000000000)

/-- ADD_GAME (R304): an identifier above the mark, or a quorum ticket; the mark follows. -/
def execAddGame (c : HostCmd) (game : BitVec 32) (close : BitVec 64) (margin : BitVec 16) (s : State) : Out :=
  let t := c.own
  let g := game.toNat
  let m := if c.expert then margin.toNat else 0
  .next (hostRun 0x0520 c [t] (fun s =>
    withTicket 0x0520 c t (decide (g ≤ s.mark t) && g != 0 && (s.findGame t g).isNone) 0x2502 (fun _ s =>
      if g = 0 ∨ !validStamp close then .fail 0x1503
      else if (s.findGame t g).isSome then .fail 0x1504
      else if 1024 ≤ s.gamesOf t ∨ 8192 ≤ s.gameCount then .fail 0x3501
      else match s.freeGame t g with
        | none => .fail 0x3502
        | some i =>
          let s := { s with tim := { s.tim with marks := tput (dflt 0) s.tim.marks t (max g (s.mark t)) } }
          .wait 0x0105 (stageChange i ⟨true, g, t, m, close⟩ (some c.ref) s)) s) s)

/-- SET_CLOSE (R307): an earlier close or a raised margin needs OPERATE alone; a later close or a lowered margin needs a ticket; an equal
close and margin change nothing. The basic form takes MARGIN 0 (R309). -/
def execSetClose (c : HostCmd) (game : BitVec 32) (close : BitVec 64) (margin : BitVec 16) (s : State) : Out :=
  let t := c.own
  .next (hostRun 0x0521 c [t] (fun s =>
    match s.findGame t game.toNat with
    | none => withTicket 0x0521 c t false 0 (fun _ _ => .fail 0x1501) s
    | some i =>
      let e := s.gameNext i
      let m := if c.expert then margin.toNat else 0
      withTicket 0x0521 c t (decide (e.close.toNat < close.toNat) || decide (m < e.margin)) 0x2502 (fun _ s =>
        if close = e.close ∧ m = e.margin then .done 0 [] 0 s
        else .wait 0x0105 (stageChange i { e with close := close, margin := m } (some c.ref) s)) s) s)

/-- CLOSE_NOW (R307): CLOSE set to A; a close that already lies before A is kept. -/
def execCloseNow (c : HostCmd) (game : BitVec 32) (s : State) : Out :=
  let t := c.own
  .next (hostRun 0x0522 c [t] (withTicket 0x0522 c t false 0 (fun _ s =>
    match s.findGame t game.toNat with
    | none => .fail 0x1501
    | some i =>
      let e := s.gameNext i
      let a := State.packStamp s.activation
      .wait 0x0105 (stageChange i { e with close := if e.close.toNat < a.toNat then e.close else a } (some c.ref) s))) s)

/-- DELETE_GAME (R307): without a ticket only when the close lies before A0. -/
def execDeleteGame (c : HostCmd) (game : BitVec 32) (s : State) : Out :=
  let t := c.own
  .next (hostRun 0x0523 c [t] (fun s =>
    match s.findGame t game.toNat with
    | none => withTicket 0x0523 c t false 0 (fun _ _ => .fail 0x1501) s
    | some i =>
      withTicket 0x0523 c t (decide (s.tim.now + 200000 ≤ State.stampNs (s.gameNext i).close)) 0x2502 (fun _ s =>
        .wait 0x0105 (stageChange i Game.none (some c.ref) s)) s) s)

end Sys2Proof.Machine
end

