-- ==== Sys2Proof/Machine/Frames.lean ====
section
/-! DEFINITION. Seal frames as bytes (chapter 04): encapsulations (R97 to R101), the seal header (R103), IVs (R108), the actions (R109),
the field descriptor and its translation (R112 to R116), verdict records (R122, R123) and leaf inputs (R125 to R128). -/

namespace Sys2Proof.Machine

/-! ### Encapsulation -/

/-- What the bytes of a frame show of its encapsulation: a fault of R99, a seal frame whose header starts at `hoff` (IP version 0, 4 or 6,
and the offset of the IP header), an unsealed frame, or not enough bytes yet. -/
inductive Encap where
  | fault
  | seal (hoff ip l3 : Nat)
  | unsealed (ip l3 : Nat)
  | short
  deriving DecidableEq, Repr

/-- The offset of the EtherType after any tags: `none` for a tag order that R97 does not permit (R99). -/
def etherOffset (b : Bytes) : Option Nat :=
  let t0 := field b 12 2
  let tag (t : Nat) : Bool := t == 0x8100 || t == 0x88A8
  if t0 = 0x88A8 then
    if field b 16 2 = 0x8100 ∧ !tag (field b 20 2) then some 20 else none
  else if t0 = 0x8100 then
    if tag (field b 16 2) then none else some 16
  else some 12

/-- The EtherType after any tags, in whatever order they stand; 0 when it has not arrived (R127, R617). -/
def typeAfter (b : Bytes) : Nat → Nat → Nat
  | 0, _ => 0
  | n + 1, o =>
    let t := field b o 2
    if b.length < o + 2 then 0 else if t = 0x8100 ∨ t = 0x88A8 then typeAfter b n (o + 4) else t

/-- The one's complement sum of a string's 16-bit words, an odd last byte padded with zero. -/
def sum16 : Bytes → Nat
  | a :: b :: r => a.toNat * 256 + b.toNat + sum16 r
  | [a] => a.toNat * 256
  | [] => 0

/-- Fold a sum to 16 bits. -/
def fold16 (n : Nat) : Nat := if n = 0 then 0 else (n - 1) % 65535 + 1

/-- The Internet checksum of a string. -/
def inetSum (b : Bytes) : Nat := 0xFFFF - fold16 (sum16 b)

/-- The IPv4 conditions of R99 that the header alone decides. -/
def ip4Ok (b : Bytes) (l : Nat) : Bool :=
  field b l 1 == 0x45 && field b (l + 6) 2 % 0x4000 == 0 && fold16 (sum16 (slice b l 20)) == 0xFFFF

/-- The IPv6 next headers that are never parsed (R99). -/
def ip6Bad : List Nat := [0, 43, 44, 50, 51, 60, 135, 139, 140, 253, 254]

/-- The encapsulation that the bytes of a frame before its FCS show, for a seal EtherType and UDP port. For a seal frame over UDP the lengths of
R136 are tested here; the tail conditions of other IP frames are tested by `tailFault`. -/
def encap (b : Bytes) (etype uport : Nat) : Encap :=
  if b.length < 14 ∨ (b.length < 24 ∧ (field b 12 2 = 0x8100 ∨ field b 12 2 = 0x88A8)) then .short
  else
    match etherOffset b with
    | none => .fault
    | some e =>
      let t := field b e 2
      let l := e + 2
      if t = etype then .seal l 0 0
      else if t = 0x0800 then
        if b.length < l + 28 then .short
        else if !ip4Ok b l then .fault
        else if field b (l + 9) 1 = 17 then
          if field b (l + 24) 2 + 20 ≠ field b (l + 2) 2 then .fault
          else if field b (l + 22) 2 = uport then
            if b.length < l + 60 then .short
            else if field b (l + 24) 2 = 8 + 32 + field b (l + 42) 2 + 16 then .seal (l + 28) 4 l else .fault
          else .unsealed 4 l
        else .unsealed 4 l
      else if t = 0x86DD then
        if b.length < l + 48 then .short
        else if field b l 1 / 16 ≠ 6 ∨ ip6Bad.contains (field b (l + 6) 1) then .fault
        else if field b (l + 6) 1 = 17 then
          if field b (l + 44) 2 ≠ field b (l + 4) 2 then .fault
          else if field b (l + 42) 2 = uport then
            if b.length < l + 80 then .short
            else if field b (l + 44) 2 = 8 + 32 + field b (l + 62) 2 + 16 then .seal (l + 48) 6 l else .fault
          else .unsealed 6 l
        else .unsealed 6 l
      else .unsealed 0 l

/-- The conditions of R99 on an unsealed IP frame of `len` bytes, FCS included, that need its whole length. -/
def tailFault (b : Bytes) (len ip l : Nat) : Bool :=
  (ip == 4 && l + field b (l + 2) 2 + 4 != len) || (ip == 6 && l + 40 + field b (l + 4) 2 + 4 != len)

/-- The encapsulation of a whole frame whose bytes before the FCS are `b`. Where they are too few for the headers they announce, no UDP length can equal
the IP payload length and no IP length can reach to the FCS with a whole seal header, so that a datagram is a fault (R99); other IPv6 frames are tested
by what they have. -/
def encapWhole (b : Bytes) (etype uport : Nat) : Encap :=
  match encap b etype uport with
  | .short =>
    match etherOffset b with
    | none => .fault
    | some e =>
      let l := e + 2
      if field b e 2 ≠ 0x86DD then .fault
      else if field b l 1 / 16 ≠ 6 ∨ ip6Bad.contains (field b (l + 6) 1) ∨ field b (l + 6) 1 = 17 then .fault
      else .unsealed 6 l
  | r => r

/-! ### The seal header (R103) -/

/-- The fields of a seal header. -/
structure Hdr where
  version : Nat
  cls : Nat
  action : Nat
  tenant : Nat
  flags : Nat
  terminal : Nat
  gen : Nat
  seq : Nat
  plen : Nat
  game : Nat
  stamp : Nat
  crc : Nat
  deriving DecidableEq, Repr

/-- Read a header from its 32 bytes. -/
def Hdr.read (b : Bytes) : Hdr :=
  { version := field b 0 1 / 16, cls := field b 0 1 % 16, action := field b 1 1, tenant := field b 2 2 / 128, flags := field b 2 2 % 128
    terminal := field b 4 3, gen := field b 7 1, seq := field b 8 6, plen := field b 14 2, game := field b 16 4
    stamp := field b 20 8, crc := field b 28 4 }

/-- The 28 bytes that the CRC covers. -/
def Hdr.body (h : Hdr) : Bytes :=
  be 1 (16 * h.version + h.cls) ++ be 1 h.action ++ be 2 (128 * h.tenant + h.flags) ++ be 3 h.terminal ++ be 1 h.gen ++ be 6 h.seq
    ++ be 2 h.plen ++ be 4 h.game ++ be 8 h.stamp

/-- The 32 bytes of a header with its CRC recomputed (R104). -/
def Hdr.bytes (h : Hdr) : Bytes := h.body ++ be 4 (crc32c h.body).toNat

/-- FD, VERDICT and DIR. -/
def Hdr.fd (h : Hdr) : Bool := nbit h.flags 0
def Hdr.dir (h : Hdr) : Nat := h.flags / 4 % 2

/-- The seal header of a received frame. -/
def InFrame.hdr (f : InFrame) : Hdr := Hdr.read (slice f.data f.hoff 32)

/-- The bytes of a frame without its FCS, once its tail has arrived. -/
def InFrame.body (f : InFrame) : Bytes := if f.complete then f.data.take (f.data.length - 4) else f.data

/-- The payload of a complete seal frame, and its tag, with zero bytes for any that never arrived (R126). -/
def InFrame.payload (f : InFrame) : Bytes := slice f.body (f.hoff + 32) f.hdr.plen
def InFrame.tag (f : InFrame) : Bytes := slice f.body (f.hoff + 32 + f.hdr.plen) 16

/-- A register, or a field or bit of one, as it stood when the frame's first byte arrived (R22). -/
def InFrame.rd (f : InFrame) (a : Nat) : Word := tget regDefault f.cfg.regs a
def InFrame.fld (f : InFrame) (a hi lo : Nat) : Nat := bits (f.rd a) hi lo
def InFrame.bitOf (f : InFrame) (a i : Nat) : Bool := bit (f.rd a) i

/-- Whether COMPUTE is set for the port that a frame entered (R101, R134). -/
def InFrame.compute6 (f : InFrame) : Bool := f.bitOf (Reg.PRT_CTL f.port) 4

/-- A profile of a tenant as it stood when the frame's first byte arrived (R22, R195). -/
def InFrame.profile (f : InFrame) (t p : Nat) : Profile := tget (dflt Profile.zero) f.cfg.profiles (16 * t + p)

/-- The outer encapsulation. -/
def InFrame.outer (f : InFrame) : Bytes := f.data.take f.hoff

/-- The 96-bit IV of R108 as 12 bytes. -/
def ivOf (h : Hdr) (domain : Nat) : Bytes :=
  be 12 (h.dir * 2 ^ 95 + h.gen * 2 ^ 87 + h.tenant * 2 ^ 78 + h.terminal * 2 ^ 54 + h.seq * 2 ^ 6 + domain)

/-- The tag of a frame: confidential protection for OPEN, integrity for every other action (R107). -/
def frameTag (key : Bytes) (h : Hdr) (hdrBytes payload : Bytes) : Bytes :=
  if h.action = 5 then gcmTag key (ivOf h 0) hdrBytes payload else gcmTag key (ivOf h 0) (hdrBytes ++ payload) []

/-! ### Actions (R109) -/

/-- Whether an action's tag is checked, and which keys it invokes (R107, R148). Class 4 is checked as VERIFY. -/
def actionChecked (a : Nat) : Bool := a == 1 || a == 3 || a == 4 || a == 5
def usesIngress (a : Nat) : Bool := a == 1 || a == 3 || a == 4 || a == 5
def usesEgress (a : Nat) : Bool := a == 2 || a == 3 || a == 4 || a == 5 || a == 6

/-- Whether action, port role, DIR and FD agree (R109). -/
def actionOk (a : Nat) (sealIn : Bool) (dir : Nat) (fd : Bool) : Bool :=
  match a with
  | 0 => true
  | 1 => true
  | 2 => sealIn && dir == 1 && !fd
  | 3 => dir == 0 && !fd
  | 4 => dir == 0 && fd
  | 5 => dir == 0 && !fd
  | 6 => sealIn && dir == 1 && !fd
  | _ => false

/-- The action that leaves (R109). -/
def emittedAction (a : Nat) : Nat := if a = 0 then 0 else if a = 6 then 5 else 1

/-- The header of the emitted frame: generation, sequence and stamp are written by the actions of R109, the CRC with them. -/
def emitHdr (f : InFrame) : Hdr :=
  let h := f.hdr
  let h' := { h with action := emittedAction h.action }
  if h.action = 0 ∨ h.action = 1 then h'
  else
    let g := { h' with gen := f.egGen, stamp := f.stamp.toNat }
    if h.action = 2 ∨ h.action = 6 then { g with seq := f.txSeq } else g

/-! ### Fields (R112 to R116) -/

/-- The descriptor of a REWRAP_FIELD payload. -/
structure Desc where
  profile : Nat
  src : Nat
  dst : Nat
  rsv : Nat
  off : Nat
  len : Nat
  auxOff : Nat
  auxLen : Nat
  deriving DecidableEq, Repr

/-- Read a descriptor. -/
def Desc.read (b : Bytes) : Desc :=
  ⟨field b 0 1, field b 1 1, field b 2 1, field b 3 1, field b 4 2, field b 6 2, field b 8 2, field b 10 2⟩

/-- The descriptor of the emitted frame: the source zone holds the former destination zone, the destination zone is 0 (R116). -/
def emitDesc (p : Bytes) : Bytes := p.take 1 ++ slice p 2 1 ++ [0] ++ slice p 3 9

/-- Whether a descriptor is valid for a payload (R113). -/
def descOk (p : Bytes) : Bool :=
  let d := Desc.read p
  let n := p.length - 12
  let aux := slice p (12 + d.auxOff) d.auxLen
  decide (12 ≤ p.length) && (d.profile == 0 || d.profile == 1) && d.rsv == 0 && d.src != d.dst && decide (d.off + d.len ≤ n) &&
  (if d.profile = 0 then decide (17 ≤ d.len) && decide (d.len ≤ 4112) && d.auxOff == 0xFFFF && d.auxLen == 0
   else d.len == 16 && decide (12 ≤ d.auxLen) && decide (d.auxLen ≤ 19) && decide (d.auxOff + d.auxLen ≤ n)
    && (decide (d.auxOff + d.auxLen ≤ d.off) || decide (d.off + d.len ≤ d.auxOff))
    && aux.all (fun x => decide (0x30 ≤ x.toNat) && decide (x.toNat ≤ 0x39)))

/-- The nibbles of a string. -/
def nibbles (b : Bytes) : List Nat := b.flatMap (fun x => [x.toNat / 16, x.toNat % 16])

/-- Pack nibbles into bytes. -/
def packNibbles : List Nat → Bytes
  | a :: b :: r => BitVec.ofNat 8 (16 * a + b) :: packNibbles r
  | [a] => [BitVec.ofNat 8 (16 * a)]
  | [] => []

/-- The PAN field of R115. -/
def panField (digits : Bytes) : Bytes := fit 16 (packNibbles ((digits.length - 12) :: digits.map (fun x => x.toNat - 0x30)))

/-- The PIN field check of R116. -/
def pinOk (pin : Bytes) : Bool :=
  let n := nibbles pin
  let k := n.getD 1 0
  n.getD 0 0 == 4 && decide (4 ≤ k) && decide (k ≤ 12) && ((n.drop 2).take k).all (fun x => decide (x ≤ 9))
    && ((n.take 16).drop (2 + k)).all (fun x => x == 10)

/-- Replace `n` bytes at `a`. -/
def splice (b : Bytes) (a : Nat) (r : Bytes) : Bytes := b.take a ++ r ++ b.drop (a + r.length)

/-- Translate the field of a payload between two zone keys (R114, R115): `none` when the field tag or PIN check fails. -/
def rewrap (p : Bytes) (ivIn ivOut : Bytes) (src dst : Bytes) : Option Bytes :=
  let d := Desc.read p
  let fld := slice p (12 + d.off) d.len
  let q := emitDesc p ++ p.drop 12
  if d.profile = 0 then
    let ct := fld.take (d.len - 16)
    if src.length ≠ 32 ∨ dst.length ≠ 32 ∨ gcmTag src ivIn (p.take 12) ct ≠ fld.drop (d.len - 16) then none
    else
      let c := gcmCrypt dst ivOut (gcmCrypt src ivIn ct)
      some (splice q (12 + d.off) (c ++ gcmTag dst ivOut (emitDesc p) c))
  else
    let pan := panField (slice p (12 + d.auxOff) d.auxLen)
    let pin := aesDec src (xorB (aesDec src fld) pan)
    if pinOk pin then some (splice q (12 + d.off) (aesEnc dst (xorB (aesEnc dst pin) pan))) else none

/-! ### Emission -/

/-- The UDP checksum over the pseudo-header of IPv6 (R101 COMPUTE). -/
def udp6Sum (ipHdr udp : Bytes) : Nat :=
  let c := inetSum (slice ipHdr 8 32 ++ be 4 udp.length ++ [0, 0, 0, 17] ++ udp)
  if c = 0 then 0xFFFF else c

/-- Write the UDP checksum of an emitted frame (no FCS): 0 under IPv4; 0 or computed under IPv6 (R101). -/
def fixUdp (b : Bytes) (ip l : Nat) (compute : Bool) : Bytes :=
  if ip = 4 then splice b (l + 26) [0, 0]
  else if ip = 6 then
    let z := splice b (l + 46) [0, 0]
    if compute then splice z (l + 46) (be 2 (udp6Sum (slice z l 40) (z.drop (l + 40)))) else z
  else b

/-- The payload that leaves: ciphertext for SEAL_ENC, plaintext for OPEN, the translated field for REWRAP_FIELD, else as received. -/
def emitPayload (f : InFrame) (zones : Option (Bytes × Bytes)) : Option Bytes :=
  let h := f.hdr
  let h' := emitHdr f
  if h.action = 5 then some (gcmCrypt f.inKey (ivOf h 0) f.payload)
  else if h.action = 6 then some (gcmCrypt f.egKey (ivOf h' 0) f.payload)
  else if h.action = 4 then
    match zones with
    | some (a, b) => rewrap f.payload (ivOf h 1) (ivOf h' 1) a b
    | none => none
  else some f.payload

/-- The emitted header bytes: as received for PASS and VERIFY, else rewritten. -/
def emitHdrBytes (f : InFrame) : Bytes :=
  if f.hdr.action = 0 ∨ f.hdr.action = 1 then slice f.data f.hoff 32 else (emitHdr f).bytes

/-- The emitted tag: the received one for PASS and VERIFY, else a new one under the egress key. -/
def emitTag (f : InFrame) (payload : Bytes) : Bytes :=
  if f.hdr.action = 0 ∨ f.hdr.action = 1 then f.tag else frameTag f.egKey (emitHdr f) (emitHdrBytes f) payload

/-- The emitted frame without its FCS, from a payload and tag. -/
def emitFrame (f : InFrame) (payload tag : Bytes) : Bytes := fixUdp (f.outer ++ emitHdrBytes f ++ payload ++ tag) f.ip f.l3 f.compute6

/-- A frame ended as failed (R121): the bytes sent, the verdict trailer and the poisoned FCS. -/
def poisoned (sent : Bytes) (code port : Nat) (stamp : BitVec 64) : Bytes :=
  let b := sent ++ [0xFD] ++ be 1 code ++ be 2 port ++ be 4 (stamp.toNat % 2 ^ 32)
  b ++ (fcs b).map (fun x => ~~~x)

/-- A frame ended by a MAC-stage fault (R139): the bytes sent and a poisoned FCS, no trailer. -/
def cutShort (sent : Bytes) : Bytes := sent ++ (fcs sent).map (fun x => ~~~x)

/-! ### Leaf inputs (R125 to R128) -/

/-- The refusal leaf input (R126): zero bytes stand for a tag that never arrived. -/
def refusalLeaf (f : InFrame) (code : Nat) : Bytes :=
  slice f.data f.hoff 32 ++ f.tag ++ be 1 code ++ be 2 f.port ++ be 4 (f.stamp.toNat % 2 ^ 32)

/-- The content fingerprint (R128): an AES-256-GMAC over the frame before its FCS. -/
def fingerprint (key : Bytes) (f : InFrame) (body : Bytes) : Bytes :=
  gcmTag key (be 2 f.port ++ be 8 f.stamp.toNat ++ be 2 f.count.toNat) body []

/-- The notary leaf input (R127): `arrived` is false for a frame ended before its tail (R617), which has no FCS. -/
def notaryLeaf (key : Bytes) (f : InFrame) (disp egress : Nat) (arrived : Bool) : Bytes :=
  let body := if arrived then f.data.take (f.data.length - 4) else f.data
  let et := typeAfter body (body.length / 4) 12
  [0x00] ++ be 1 disp ++ be 2 f.port ++ be 2 egress ++ be 2 f.data.length ++ be 8 f.stamp.toNat ++ fingerprint key f body
    ++ (if arrived then slice f.data (f.data.length - 4) 4 else zeros 4) ++ be 2 et ++ be 2 f.count.toNat ++ zeros 8

/-! ### Outer headers of frames the device makes (R123, R211) -/

/-- Set the IP and UDP lengths and the checksums of an outer encapsulation in front of a body. -/
def fillOuter (o body : Bytes) (compute : Bool) : Bytes :=
  match etherOffset o with
  | none => o ++ body
  | some e =>
    let t := field o e 2
    let l := e + 2
    if t = 0x0800 then
      let o := splice o (l + 2) (be 2 (28 + body.length))
      let o := splice o (l + 10) [0, 0]
      let o := splice o (l + 10) (be 2 (inetSum (slice o l 20)))
      splice o (l + 24) (be 2 (8 + body.length) ++ [0, 0]) ++ body
    else if t = 0x86DD then
      let o := splice o (l + 4) (be 2 (8 + body.length))
      let o := splice o (l + 44) (be 2 (8 + body.length) ++ [0, 0])
      fixUdp (o ++ body) 6 l compute
    else o ++ body

/-- Swap MAC addresses, IP addresses and UDP ports, and set the IPv4 TTL to 64 (R123). -/
def swapOuter (o : Bytes) : Bytes :=
  let o := slice o 6 6 ++ slice o 0 6 ++ o.drop 12
  match etherOffset o with
  | none => o
  | some e =>
    let t := field o e 2
    let l := e + 2
    if t = 0x0800 then
      splice (splice o (l + 8) [64]) (l + 12) (slice o (l + 16) 4 ++ slice o (l + 12) 4 ++ slice o (l + 22) 2 ++ slice o (l + 20) 2)
    else if t = 0x86DD then
      splice o (l + 8) (slice o (l + 24) 16 ++ slice o (l + 8) 16 ++ slice o (l + 42) 2 ++ slice o (l + 40) 2)
    else o

/-- A frame the device makes: outer headers, header, payload and tag under a key; no FCS. -/
def madeFrame (outer : Bytes) (h : Hdr) (payload key : Bytes) (compute : Bool) : Bytes :=
  fillOuter outer (h.bytes ++ payload ++ frameTag key h h.bytes payload) compute

/-- The verdict record body (R122). -/
def recordBody (f : InFrame) (code : Nat) : Bytes :=
  let h := f.hdr
  be 1 code ++ be 1 h.action ++ be 1 h.cls ++ be 1 h.gen ++ be 3 h.terminal ++ [0] ++ be 6 h.seq ++ be 2 f.port ++ be 2 h.plen ++ [0, 0]
    ++ be 4 h.game ++ be 8 f.stamp.toNat ++ sha256 (refusalLeaf f code)

/-- The header of a frame of class 4 the device makes with DIR = 1, action VERIFY (R122, R202). -/
def controlHdr (tenant term gen seq plen : Nat) (verdict : Bool) (stamp : BitVec 64) : Hdr :=
  { version := 1, cls := 4, action := 1, tenant := tenant, flags := 4 + 2 * b2n verdict, terminal := term, gen := gen, seq := seq
    plen := plen, game := 0, stamp := stamp.toNat, crc := 0 }

end Sys2Proof.Machine
end

