-- ==== Sys2Proof/Machine/Pipeline.lean ====
section
/-! DEFINITION. What the pipeline does with a frame (chapters 04 and 05): ports and buffers, ending a frame, refusals with their leaf,
record and counter, lookup and the stage C and D checks, emission, verdict records and control frames. -/

namespace Sys2Proof.Machine

/-! ### Ports -/

/-- The mode whose data plane is in force: CEREMONY keeps that of the mode it was opened from (R30). -/
def State.plane (s : State) : Mode := if s.sys.mode = .ceremony then s.cer.openedFrom else s.sys.mode

/-- Whether the data plane seals (SERVICE or MAINTENANCE). -/
def State.sealing (s : State) : Bool := s.plane == .service || s.plane == .maintenance

/-- PRT_STATUS.STATE and LINK. -/
def State.portState (s : State) (p : Nat) : Nat := s.fld (Reg.PRT_STATUS p) 2 0
def State.portLink (s : State) (p : Nat) : Bool := s.bitOf (Reg.PRT_STATUS p) 3

/-- The lanes of the port whose lowest lane is `p` under a GROUP value (R14, R177). -/
def groupLanes (g p : Nat) : List Nat := if g = 1 then [p, p + 1] else if g = 2 then [p, p + 1, p + 2, p + 3] else [p]

/-- The lanes of the port whose lowest lane is `p`; in NOTARY no ports are grouped (R14, R53, R177). -/
def State.lanes (s : State) (p : Nat) : List Nat := if s.plane = .notary then [p] else groupLanes (s.fld (Reg.PRT_CTL p) 7 6) p

/-- Whether a lane is a non-lowest member of a group (PRT_STATUS.MEMBER). -/
def State.member (s : State) (p : Nat) : Bool := s.bitOf (Reg.PRT_STATUS p) 9

/-- The port that a lane belongs to: the lowest lane of its group (R14). -/
def State.leadOf (s : State) (p : Nat) : Nat :=
  if !s.member p then p else (((List.range 4).map (p - ·)).find? (fun q => (s.lanes q).contains p)).getD p

/-- Whether every lane of a port has its verify or seal engine; 0x7FF means none (R15, R166). -/
def State.hasVerify (s : State) (p : Nat) : Bool := (s.lanes p).all (fun q => s.fld (Reg.PRT_ENGINES q) 10 0 != 0x7FF)
def State.hasSeal (s : State) (p : Nat) : Bool := (s.lanes p).all (fun q => s.fld (Reg.PRT_ENGINES q) 26 16 != 0x7FF)

/-- The lane whose engine serves a flow on a port, chosen from the flow's cache index; frames of no flow use the lowest lane's (R15). -/
def State.engineLane (s : State) (p : Nat) (idx : Option Nat) : Nat :=
  match idx with
  | some k => p + k % (s.lanes p).length
  | none => p

/-- Whether a port waits to move to a spare verify or seal engine (R165). -/
def State.moving (s : State) (p : Nat) (isSeal : Bool) : Bool :=
  (s.lanes p).any (fun q => (s.port q).takeover.any (fun b => nbit b (b2n isSeal)))

/-- Whether a port is available as an egress (R14, R169). -/
def State.egressOk (s : State) (p : Nat) : Bool := s.portState p == 3 && !s.member p && s.hasSeal p

/-- Whether the route from one port's tile to another's is up (R162). -/
def State.routeOk (s : State) (src dst : Nat) : Bool :=
  tileOf src == tileOf dst || !s.bitOf (Reg.DPL_FAB_ROUTE (tileOf src)) (tileOf dst)

/-- A PRT counter of port `p` at offset `o`, counted once. -/
def count (p o : Nat) (s : State) : State := s.bump (Reg.portBase p + o)

/-- The frame in progress at a port that is queued under a number. -/
def State.arrived (s : State) (src num : Nat) : Option InFrame := (s.port src).cur.filter (fun f => f.num == num)

/-- The bytes of a queued frame that wait at its ingress: what has arrived of it. -/
def State.queuedBytes (s : State) (g : EgFrame) : Nat :=
  if g.complete then g.len else ((s.arrived g.src g.num).map (fun f => f.data.length)).getD 0

/-- The bytes of frames in the ingress buffer space of port `p`: its frame in progress, frames that wait for set-up or a takeover, and complete frames
queued that have not crossed. Bytes in the hold buffer, bytes that have passed to the egress buffer and frames the device makes take none (R154). -/
def State.ingressUse (s : State) (p : Nat) : Nat :=
  let sum (l : List InFrame) : Nat := ((l.filter (fun f => f.hold.isNone)).map (fun f => f.data.length)).sum
  let queue := s.dp.ports.flatMap (fun e => e.2.queue.filter (fun g => g.src == p))
  sum ((s.port p).cur.filter (fun f => !queue.any (fun g => g.num == f.num && g.crossed))).toList
    + sum (s.dp.waiting.flatMap (fun e => e.2.filter (fun f => f.port == p))) + sum (s.port p).moved
    + ((queue.filter (fun g => g.complete && !g.crossed && g.orig.isSome && g.hold.isNone)).map (·.len)).sum

/-- Whether a frame may begin to arrive: its port's reserved share or the shared area has room for a further 16 KiB (R156). -/
def State.bufferRoom (s : State) (p : Nat) : Bool :=
  let own := s.ingressUse p
  let shared := ((List.range 8).map (fun i => s.ingressUse (8 * clusterOf p + i) - 32768)).sum
  decide (own + 16384 ≤ 32768) || decide (shared + 16384 ≤ 262144)

/-- The bytes waiting at the ingress cluster for an egress port (R156). -/
def State.queuedFor (s : State) (src dst : Nat) : Nat :=
  (((s.port dst).queue.filter (fun g => clusterOf g.src == clusterOf src && !g.crossed)).map s.queuedBytes).sum

/-- Whether the egress buffer can reserve `len` more bytes in a queue (R155). -/
def State.egressRoom (s : State) (p len : Nat) (urgent : Bool) : Bool :=
  let used (u : Bool) : Nat := (((s.port p).queue.filter (fun g => g.crossed && g.urgent == u)).map (·.len)).sum
  let u := used true + (if urgent then len else 0)
  let n := used false + (if urgent then 0 else len)
  decide ((u - 16384) + (n - 16384) ≤ 32768)

/-! ### Leaves -/

/-- The epoch number of an instant of the timebase (R265). -/
def State.epochAt (s : State) (ns : Nat) : Nat := s.tim.wraps * 2 ^ 34 + ns / 1000000000

/-- The instant an ingress stamp stands for. -/
def InFrame.at (f : InFrame) : Nat := State.stampNs f.stamp

/-- Put a leaf input into a cluster's FIFO (R259). -/
def pushLeaf (c : Nat) (l : LeafIn) (s : State) : State :=
  { s with ldg := { s.ldg with fifos := tput (dflt []) s.ldg.fifos c (tget (dflt []) s.ldg.fifos c ++ [l]) } }

/-- The sealed leaf of a header and tag (R125) of a frame that leaves by port `p`, or is consumed there. -/
def sealedLeaf (s : State) (p : Nat) (hdr tag : Bytes) (ns : Nat) : LeafIn :=
  ⟨hdr ++ tag, (Hdr.read hdr).tenant, s.epochAt ns, (Hdr.read hdr).cls, 0, p⟩

/-- The owner of a refusal leaf (R257): the tenant named, when it exists here and this device seals it; else the device. -/
def refusalOwner (s : State) (f : InFrame) : Nat :=
  if (s.tenant f.hdr.tenant).present ∧ s.seals f.hdr.tenant f.at then f.hdr.tenant else 0xFFFF

/-- The refusal leaf of a frame, in its ingress cluster. -/
def pushRefusal (f : InFrame) (code : Nat) (s : State) : State :=
  pushLeaf (clusterOf f.port) ⟨refusalLeaf f code, refusalOwner s f, s.epochAt f.at, f.hdr.cls, 1, f.port⟩ s

/-- The notary leaf of a frame. -/
def notaryIn (s : State) (f : InFrame) (disp egress : Nat) (arrived : Bool) : LeafIn :=
  ⟨notaryLeaf (s.fpKey (s.epochAt f.at)) f disp egress arrived, 0xFFFF, s.epochAt f.at, 0, 2, f.port⟩

/-- A notary leaf in cluster `c`. -/
def pushNotary (c : Nat) (f : InFrame) (disp egress : Nat) (arrived : Bool) (s : State) : State :=
  pushLeaf c (notaryIn s f disp egress arrived) s

/-! ### Queues of emitted frames -/

/-- Change the queue of an egress port. -/
def updEgress (p : Nat) (g : List EgFrame → List EgFrame) (s : State) : State :=
  s.setPort p { s.port p with queue := g (s.port p).queue }

/-- Find a queued frame. -/
def State.queued (s : State) (p num : Nat) : Option EgFrame := (s.port p).queue.find? (fun g => g.num == num)

/-- Change a half of a slice's hold buffer (R134). -/
def setHold (p i : Nat) (v : HoldHalf) (s : State) : State := s.setPort p { s.port p with holds := (s.port p).holds.set i v }

/-- Free a half whose frame has been released: its bytes have passed to the egress. -/
def passHold (p : Nat) (i : Option Nat) (s : State) : State :=
  match i with
  | some n => setHold p n { ((s.port p).holds.getD n HoldHalf.empty) with used := false } s
  | none => s

/-- Free a half whose frame has failed or whose hold ends without release: its bytes are overwritten with zeros (R135). -/
def clearHold (p : Nat) (i : Option Nat) (s : State) : State :=
  match i with
  | some n => setHold p n ⟨false, zeros ((s.port p).holds.getD n HoldHalf.empty).bytes.length⟩ s
  | none => s

/-- What a held frame's half contains: plaintext under OPEN, else the bytes as received (R135). -/
def InFrame.holdBytes (f : InFrame) : Bytes :=
  if f.kind = .seal ∧ f.hdr.action = 5 then
    f.data.take (f.hoff + 32) ++ gcmCrypt f.inKey (ivOf f.hdr 0) ((f.body.drop (f.hoff + 32)).take f.hdr.plen)
      ++ f.data.drop (f.hoff + 32 + f.hdr.plen)
  else f.data

/-- The bytes of a held frame go into its half. -/
def fillHold (f : InFrame) (s : State) : State :=
  match f.hold with
  | some n => setHold f.port n ⟨true, f.holdBytes⟩ s
  | none => s

/-- A frame to be held takes a free half of its slice's hold buffer; with both in use its bytes stay in the ingress buffer. -/
def takeHold (f : InFrame) (s : State) : InFrame × State :=
  let f := { f with hold := [0, 1].find? (fun n => !((s.port f.port).holds.getD n HoldHalf.empty).used) }
  (f, fillHold f s)

/-- Remove a queued frame; a hold it still has ends without release. -/
def dropQueued (p num : Nat) (s : State) : State :=
  let s := match s.queued p num with
    | some g => clearHold g.src g.hold s
    | none => s
  updEgress p (fun q => q.filter (fun g => g.num != num)) s

/-- Record a frame as sent on a port's wire: octets and, with a correct FCS, frames; a poisoned one counts in PRT_TX_POISONED (R176). -/
def wireDone (p : Nat) (bytes : Bytes) (good : Bool) (s : State) : State :=
  let s := s.bump64By (Reg.portBase p + 0x98) bytes.length
  let s := if good then s.bump64 (Reg.portBase p + 0x90) else count p 0x188 s
  s.setPort p { s.port p with lastSent := bytes }

/-- Send a complete frame on its port's wire; its leaf enters the leaf pipe of the egress cluster (R21). The ingress keeps its record until the
acknowledgement (R160). -/
def sendQueued (g : EgFrame) (s : State) : State :=
  let s := wireDone g.dst g.bytes true (dropQueued g.dst g.num s)
  let s := if g.acked then s else { s with dp := { s.dp with records := s.dp.records ++ [⟨g.num, g.src, g.dst⟩] } }
  match g.leaf with
  | some l => pushLeaf (clusterOf g.dst) l s
  | none => s

/-- Finish a queued frame whose bytes and leaf are known: if it is on the wire it is sent now, else it becomes complete and waits. A frame
whose egress link was lost with its head on the wire is journaled in its emitted form (R119). -/
def settleQueued (p num : Nat) (bytes : Bytes) (leaf : LeafIn) (f : InFrame) (s : State) : State :=
  match s.queued p num with
  | none => pushLeaf (clusterOf p) leaf s
  | some g =>
    let g' := { g with complete := true, bytes := bytes, len := bytes.length, leaf := some leaf, orig := some f }
    if g.onWire then sendQueued g' s else updEgress p (fun q => q.map (fun x => if x.num = num then g' else x)) s

/-- End a queued frame that has failed: on the wire it ends with `bytes` as poisoned, else it leaves the queue. -/
def failQueued (p num : Nat) (bytes : Bytes) (s : State) : State :=
  match s.queued p num with
  | none => s
  | some g => if g.onWire then wireDone p bytes false (dropQueued p num s) else dropQueued p num s

/-- Put a frame into the queue of an egress port. -/
def enqueueEgress (g : EgFrame) (s : State) : State := updEgress g.dst (fun q => q ++ [g]) s

/-- Whether a frame of a class is urgent under a value of DPL_URGENT (R143). -/
def urgentClass (w : Word) (cls : Nat) (verdict : Bool) : Bool := cls == 4 || bit w (cls % 16) || (verdict && bit w 16)

/-- Count a frame number as taken; the first is 1, so that 0 names no queued frame. -/
def nextNum (s : State) : State := { s with dp := { s.dp with nextNum := s.dp.nextNum + 1 } }

/-- Queue a complete frame at its egress port. -/
def queueFrame (src dst : Nat) (bytes : Bytes) (urgent : Bool) (leaf : LeafIn) (orig : Option InFrame) (s : State) : State :=
  nextNum (enqueueEgress ⟨s.dp.nextNum + 1, src, dst, bytes.length, true, bytes, urgent, false, false, false, some leaf, orig, orig.bind (·.hold)⟩ s)

/-- Queue a frame the device made, given without its FCS. -/
def sendMade (src dst : Nat) (bytes : Bytes) (cls : Nat) (verdict : Bool) (leaf : LeafIn) (s : State) : State :=
  queueFrame src dst (bytes ++ fcs bytes) (urgentClass (s.rd (Reg.DPL_URGENT (clusterOf src))) cls verdict) leaf none s

/-- Whether a frame the device makes finds its egress port available and the queue towards it not full (R124, R156). -/
def State.canSend (s : State) (src dst : Nat) : Bool := s.egressOk dst && s.routeOk src dst && decide (s.queuedFor src dst < 131072)

/-! ### Reply and monitor frames (R123, R206) -/

/-- The next reply-lane sequence of a cached DIR = 0 flow. -/
def replySeq (f : Flow) : Nat := 2 ^ 47 + f.replycnt

/-- Whether COMPUTE is set for a port's IPv6 checksum. -/
def State.compute6 (s : State) (p : Nat) : Bool := s.bitOf (Reg.PRT_CTL p) 4

/-- Count one invocation of S, with the REKEY_DUE of R200 at the margin. -/
def useS (margin : Nat) (fl : Flow) : Flow :=
  let n := fl.scount + 1
  { fl with scount := n, rekeyDue := fl.rekeyDue || decide (fl.slimit ≤ n + margin)
            rekeyReason := if fl.rekeyDue = false ∧ fl.slimit ≤ n + margin then 1 else fl.rekeyReason }

/-- Send a frame on a flow's reply lane in answer to a received frame (R202, R206): it counts as an invocation of S and is not sent at the
limit. `some` state when sent. -/
def sendReply (k port : Nat) (outer : Bytes) (stamp : BitVec 64) (payload : Bytes) (verdict : Bool) (s : State) : Option State :=
  match s.flowAt k with
  | none => none
  | some fl =>
    match fl.skey with
    | none => none
    | some key =>
      if fl.slimit ≤ fl.scount ∨ !s.canSend port port then none
      else
        let h := controlHdr fl.tenant fl.terminal fl.sgen (replySeq fl) payload.length verdict stamp
        let b := madeFrame (swapOuter outer) h payload key (s.compute6 port)
        let s := updFlow k (fun f => useS (s.margin (k / 16384)) { f with replycnt := f.replycnt + 1 }) s
        some (sendMade port port b 4 verdict (sealedLeaf s port h.bytes (frameTag key h h.bytes payload) (State.stampNs stamp)) s)

/-- The monitor header template of a frame's tenant (R211): the first bytes of its 24 words, length in byte 70. -/
def InFrame.monitorTemplate (f : InFrame) : Bytes :=
  let b := (List.range 24).flatMap (fun w => le 4 (f.rd (Reg.TRM_MON_TPL (tileOf f.port) (24 * f.hdr.tenant + w))).toNat)
  b.take ((b.getD 70 0).toNat)

/-- The monitor sequence of a cluster for a tenant (R206). -/
def State.monitorSeq (s : State) (c t : Nat) : Nat := c * 2 ^ 42 + tget (dflt 0) s.dp.monSeq (512 * c + t)

/-- Send a verdict record on the monitor flow (R123): the flow is up, the port available and a grant held. -/
def sendMonitor (f : InFrame) (code : Nat) (s : State) : Option State :=
  let t := f.hdr.tenant
  let c := clusterOf f.port
  let w := f.rd (Reg.TRM_TNT_HI (tileOf f.port) t)
  let port := bits w 24 16
  if !bit w 31 ∨ !s.canSend f.port port then none
  else match s.grant c (monitorSlot t) with
    | none => none
    | some g =>
        let h := controlHdr t 0xFFFFFF g.gen (s.monitorSeq c t) 64 true f.stamp
        let body := recordBody f code
        let b := madeFrame f.monitorTemplate h body g.shares.key (s.compute6 port)
        let s := useGrant c (monitorSlot t) s
        let s := { s with dp := { s.dp with monSeq := tupd (dflt 0) s.dp.monSeq (512 * c + t) (· + 1) } }
        some (sendMade f.port port b 4 true (sealedLeaf s port h.bytes (frameTag g.shares.key h h.bytes body) f.at) s)

/-- Verdicts that a sender may see (R120). -/
def toSender (code : Nat) : Bool := !([0x11, 0x14, 0x15, 0x16].contains code)

/-- A record that is not sent counts in PRT_TX_VERDICT_DROP of the ingress port. -/
def orDropped (p : Nat) (s : State) : Option State → State
  | some s' => s'
  | none => count p 0x184 s

/-- Send the record of a refusal to the sender (R123, R124): DIR 0, a permitted code, a token, and S at the current generation cached. -/
def recordToSender (f : InFrame) (code : Nat) (s : State) : State :=
  if f.hdr.dir ≠ 0 ∨ !toSender code then s
  else
    let d := s.port f.port
    if d.tokens = 0 then count f.port 0x184 s
    else
      let ask := match s.findFlow f.home f.hdr.tenant f.hdr.terminal 0 with
        | some k => sendReply k f.port f.outer f.stamp (recordBody f code) true s
        | none => none
      match ask with
      | some s' => s'.setPort f.port { s'.port f.port with tokens := d.tokens - 1 }
      | none => count f.port 0x184 s

/-- The verdict setting of a frame's tenant: 0 neither, 1 monitor, 2 sender, 3 both (R211). -/
def InFrame.verdictSetting (f : InFrame) : Nat := f.fld (Reg.TRM_TNT_HI (tileOf f.port) f.hdr.tenant) 1 0

/-- The verdict records of a refusal (R122 to R124). A refused DIR = 1 frame's records go to the monitor only; a frame the device does not
know the tenant of yields none. -/
def sendRecords (f : InFrame) (code : Nat) (s : State) : State :=
  let t := f.hdr.tenant
  let v := f.verdictSetting
  if !(s.tenant t).present then s
  else
    let s := if v / 2 = 1 then recordToSender f code s else s
    if v % 2 = 1 then orDropped f.port (wantGrant (clusterOf f.port) (monitorSlot t) s) (sendMonitor f code s) else s

/-! ### Ending a frame -/

/-- The PRT counter offset of a verdict (R117, R119). -/
def verdictCounter (code : Nat) : Nat :=
  match code with
  | 0x10 => 0x134 | 0x11 => 0x130 | 0x12 => 0x138 | 0x13 => 0x13C | 0x14 => 0x140 | 0x15 => 0x144 | 0x16 => 0x148 | 0x17 => 0x14C
  | 0x18 => 0x150 | 0x19 => 0x154 | 0x1A => 0x158 | 0x1B => 0x15C | 0x1C => 0x160 | 0x1D => 0x164 | 0x1E => 0x168 | 0x20 => 0x16C
  | 0x21 => 0x170 | 0x22 => 0x170 | 0x23 => 0x170 | 0x30 => 0x174 | _ => 0x178

/-- The window of a lane. -/
def updLane (lane : Nat) (g : Window → Window) (f : Flow) : Flow := if lane = 0 then { f with win := g f.win } else { f with win1 := g f.win1 }

/-- Release the sequence a frame reserved (R118). -/
def releaseSeq (f : InFrame) (s : State) : State :=
  match f.idx, f.res with
  | some k, some r => updFlow k (updLane r.lane (fun w => w.release r.seq)) s
  | _, _ => s

/-- Commit the sequence a frame reserved (R118). -/
def commitSeq (f : InFrame) (s : State) : State :=
  match f.idx, f.res with
  | some k, some r => updFlow k (updLane r.lane (fun w => w.commit r.seq)) s
  | _, _ => s

/-- A frame bound to a flow completes: INFLIGHT falls by one, and an evicting flow that has drained leaves (R193). -/
def leaveFlow (f : InFrame) (s : State) : State :=
  match f.idx with
  | none => s
  | some k =>
    match s.flowAt k with
    | none => s
    | some fl =>
      let s := setFlow k (some { fl with inflight := fl.inflight - 1 }) s
      if fl.inflight = 1 ∧ fl.stage = .evicting then removeFlow k s else s

/-- The bytes a frame would have emitted of what has arrived, without its FCS: headers as rewritten, payload transformed (R121). -/
def emittedSoFar (f : InFrame) : Bytes :=
  match f.kind with
  | .seal =>
    let rest := f.body.drop (f.hoff + 32)
    let p := rest.take f.hdr.plen
    let p := if f.hdr.action = 6 then gcmCrypt f.egKey (ivOf (emitHdr f) 0) p else p
    let tag := if f.hdr.action = 0 ∨ f.hdr.action = 1 then (rest.drop f.hdr.plen).take 16
      else if 16 + f.hdr.plen ≤ rest.length then emitTag f p else []
    emitFrame f p tag
  | _ => f.body

/-- Refuse a frame with a verdict: counter, sequence, leaf, records, and the quarantine counts of R208; its emitted part ends under R121. -/
def refuse (f : InFrame) (code : Nat) (sent : Option Nat) (s : State) : State :=
  let s := clearHold f.port f.hold (count f.port (verdictCounter code) s)
  let s := releaseSeq f s
  let s := match f.egress with
    | some p =>
      let b := emittedSoFar f
      failQueued p f.num (poisoned (match sent with | some n => b.take n | none => b) code f.port f.stamp) s
    | none => s
  let s := pushRefusal f code s
  let s := sendRecords f code s
  let s := match f.idx.orElse (fun _ => s.findFlow f.home f.hdr.tenant f.hdr.terminal f.hdr.dir) with
    | some k => if code = 0x20 then noteRefusal true k s else if code = 0x1A then noteRefusal false k s else s
    | none => s
  leaveFlow f s

/-- A stage B drop: counter and notary leaf in the ingress cluster. -/
def dropNotary (f : InFrame) (disp counter : Nat) (s : State) : State :=
  pushNotary (clusterOf f.port) f disp 0xFFFF true (clearHold f.port f.hold (count f.port counter s))

/-- A frame that fails a MAC rule (R139, R140): no leaf; its head, if it left, ends with a poisoned FCS and no trailer. -/
def macFail (f : InFrame) (counter : Nat) (s : State) : State :=
  let s := clearHold f.port f.hold (count f.port counter s)
  let s := releaseSeq f s
  let s := match f.egress with
    | some p => failQueued p f.num (cutShort (emittedSoFar f)) s
    | none => s
  leaveFlow f s

/-- Give a frame the frame counter of its port, which rises (R128). -/
def takeCount (f : InFrame) (s : State) : InFrame × State :=
  let n := (s.port f.port).count
  ({ f with count := n }, s.setPort f.port { s.port f.port with count := n + 1 })

/-- A frame ended in transit before its tail (R119, R617): a refusal leaf and records when its header passed stage B in SERVICE or
MAINTENANCE, else a notary leaf of disposition 0x06; counted once. -/
def endInTransit (f : InFrame) (code : Nat) (sent : Nat) (s : State) : State :=
  let (f, s) := takeCount f s
  match f.kind with
  | .discarded _ => s
  | .seal => refuse f code (some sent) s
  | _ =>
    let s := clearHold f.port f.hold (count f.port (verdictCounter code) s)
    let s := match f.egress with
      | some p => failQueued p f.num (poisoned ((emittedSoFar f).take sent) code f.port f.stamp) s
      | none => s
    pushNotary (clusterOf f.port) f 0x06 (f.egress.getD 0xFFFF) false s

/-! ### Lookup and the stage C checks -/

/-- What a lookup answers: a verdict, a wait for set-up (and whether a successor session key is what is missing), or the frame bound. -/
inductive Look where
  | verdict (code : Nat) (s : State)
  | setup (successor : Bool)
  | bound (f : InFrame) (s : State)

/-- The window a received frame's sequence falls in: DIR = 1 frames use the reply-lane window for bit 47 set (R618). -/
def laneOf (h : Hdr) : Nat := if h.dir = 1 ∧ nbit h.seq 47 then 1 else 0

/-- The window of a lane of a flow. -/
def Flow.lane (f : Flow) (l : Nat) : Window := if l = 0 then f.win else f.win1

/-- How a generation is accepted (R198). -/
inductive GenAns where
  | current | next | previous | refuse
  deriving DecidableEq, Repr

/-- The KEYGEN check (R198) at millisecond `now` of uptime. `hello` says the frame is a HELLO. -/
def genOk (mode : Nat) (ctx : Bool) (now : Nat) (fl : Flow) (h : Hdr) (hello : Bool) : GenAns :=
  let cur := h.gen == fl.sgen
  let nxt := decide (fl.sgen < 255) && h.gen == fl.sgen + 1
  let prev := fl.prev == some h.gen && decide (now < fl.grace)
  if h.dir = 1 then (if cur then .current else .refuse)
  else if hello then
    if fl.fence then (if nxt then .next else .refuse) else if nxt then .next else if cur && !ctx then .current else .refuse
  else if mode = 0 then
    if fl.fence then (if nxt then .next else .refuse)
    else if cur then .current else if nxt then .next else if prev then .previous else .refuse
  else if fl.fence then .refuse
  else if cur && ctx then .current else if prev then .previous else .refuse

/-- Whether a frame is a HELLO, and whether a class 4 frame's form is one the device takes (R202). -/
def InFrame.isHello (f : InFrame) : Bool := f.hdr.cls == 4 && f.hdr.dir == 0 && field f.data (f.hoff + 32) 1 == 1
def controlOk (mode : Nat) (f : InFrame) : Bool :=
  let h := f.hdr
  let ty := field f.data (f.hoff + 32) 1
  h.action == 1 &&
  (if h.dir = 1 then true else (ty == 1 && mode == 1 && h.plen == 1124) || (ty == 4 && h.plen == 4))

/-- The POLICY check (R196, R202). -/
def policyOk (p : Profile) (mode : Nat) (f : InFrame) : Bool :=
  if f.hdr.cls = 4 then controlOk mode f && p.classes.getLsbD 4 && p.actions.getLsbD 1
  else p.classes.getLsbD f.hdr.cls && p.actions.getLsbD f.hdr.action

/-- The egress port of a flow's frames: the profile's for DIR = 0, ATTACH as told for DIR = 1 (R197). -/
def egressOf (fl : Flow) (p : Profile) : Option Nat := if fl.dir = 0 then some p.egress else fl.egress

/-- Count usage of the egress key E, asking for its successor at the margin (R149). -/
def useE (margin : Nat) (fl : Flow) : Flow :=
  let n := fl.ecount + 1
  { fl with ecount := n, egWait := fl.egWait || (decide (fl.elimit ≤ n + margin) && decide (fl.egen < 255)) }

/-- The key usage test and counts of R148 for a frame: `none` when any key it invokes is at its limit. -/
def chargeKeys (margin : Nat) (g : GenAns) (hello : Bool) (h : Hdr) (fl : Flow) : Option Flow :=
  let ing := (h.cls == 4 || usesIngress h.action) && !hello
  let eg := h.cls != 4 && usesEgress h.action
  let sIn := ing && g != .next
  let nIn := ing && g == .next
  let sEg := eg && fl.dir == 1
  let eEg := eg && fl.dir == 0
  if (sIn || sEg) && decide (fl.slimit ≤ fl.scount) then none
  else if nIn && decide (fl.slimit ≤ fl.nextCount) then none
  else if eEg && decide (fl.elimit ≤ fl.ecount) then none
  else
    let fl := if sIn || sEg then useS margin fl else fl
    let fl := if nIn then { fl with nextCount := fl.nextCount + 1 } else fl
    some (if eEg then useE margin fl else fl)

/-- The close-of-sales checks of a class 1, DIR = 0 frame: the verdict they give, 0 when none (R117, R305). -/
def closeVerdict (s : State) (f : InFrame) : Nat :=
  let h := f.hdr
  if h.cls ≠ 1 ∨ h.dir ≠ 0 then 0
  else match (if h.game = 0 then none else s.judge h.tenant h.game f.at) with
    | none => 0x1C
    | some e => if !f.fit then 0x1D else if closedAt e f.unc f.at then 0x1E else 0

/-- The DIR = 0 flow of a terminal is told that its DIR = 1 flow has reached the margin, so that it sends REKEY (R200, log entry 333). -/
def markDue (t term : Nat) (s : State) : State :=
  (s.flowKeys (fun _ f => f.tenant == t && f.terminal == term && f.dir == 0 && f.writes && !f.rekeyDue)).foldl
    (fun s k => updFlow k (fun f => { f with rekeyDue := true, rekeyReason := 1 }) s) s

/-- The checks from the flow on (POLICY to CLOSED) for a frame whose flow is LIVE, in table order; the sequence is reserved, the keys are
counted and bound, and DIR = 1 sealing takes its sequence. -/
def boundChecks (k : Nat) (fl : Flow) (f : InFrame) (s : State) : Look :=
  let h := f.hdr
  let c := f.home
  let e := match s.termSlot (c / 16) h.tenant h.terminal with
    | some n => s.term n
    | none => TermEntry.free
  let p := f.profile h.tenant fl.profile
  let eg := egressOf fl p
  let hello := f.isHello
  if !policyOk p e.mode f then .verdict 0x17 s
  else if (h.cls != 4) && (match eg with
      | none => true
      | some q => !s.egressOk q || !s.routeOk f.port q || decide (131072 ≤ s.queuedFor f.port q)) then .verdict 0x18 s
  else
    let chk := h.cls == 4 || actionChecked h.action
    let g := if chk then genOk e.mode e.ctx s.ms fl h hello else .current
    if g = .refuse then .verdict 0x19 s
    else if g = .next ∧ !hello ∧ fl.nextKey = none then .setup true
    else
      let lane := laneOf h
      let w := if chk then (fl.lane lane).reserve h.seq else some (fl.lane lane)
      match w with
      | none => .verdict 0x1A s
      | some w =>
        match chargeKeys (2 ^ f.fld (Reg.DPL_USAGE_MARGIN c) 4 0) g hello h fl with
        | none => .verdict 0x1B (updFlow k (updLane lane (fun _ => if chk then w.release h.seq else w)) s)
        | some fl' =>
          let sealing := h.action == 2 || h.action == 6
          let fl' := { updLane lane (fun _ => w) fl' with
            txnext := if sealing then fl'.txnext + 1 else fl'.txnext, inflight := fl'.inflight + 1, idle := 0, used := s.flow.useClock }
          let inKey := if hello then fl.hkey.getD [] else match g with
            | .next => fl.nextKey.getD []
            | .previous => fl.prevKey
            | _ => fl.skey.getD []
          let f' := { f with
            egress := if h.cls = 4 then none else eg, res := if chk then some ⟨lane, h.seq⟩ else none, inKey := inKey
            egKey := if fl.dir = 0 then fl.ekey.getD [] else fl.skey.getD [], egGen := if fl.dir = 0 then fl.egen else fl.sgen
            derivedCtx := g == .next && !hello, idx := some k, txSeq := fl.txnext, closePend := closeVerdict s f }
          let s := touchTerms (setFlow k (some fl') s)
          let s := if fl'.egWait && !fl.egWait then needL3 c h.tenant e.region s else s
          let s := if fl'.rekeyDue && !fl.rekeyDue && h.dir == 1 then
              (match s.termSlot (c / 16) h.tenant h.terminal with
                | some n => markDue h.tenant h.terminal (setTerm n { s.term n with rekeyDue := true, reason := 1 } s)
                | none => s)
            else s
          .bound f' { s with flow := { s.flow with useClock := s.flow.useClock + 1 } }

/-- A set-up failure with verdict SETUP is counted (R191). -/
def countSetupFail (c : Nat) (s : State) : State := irq (Reg.FLW_IRQ_STATUS c) (32 + c / 16) 1 (s.bump (Reg.FLW_SETUP_FAIL c))

/-- The flow lookup of a frame past the LENGTH check: TERMINAL, QUARANTINE, then the cache (R189, R191). -/
def lookup (f : InFrame) (s : State) : Look :=
  let h := f.hdr
  let c := f.home
  let tile := tileOf f.port
  match s.termSlot tile h.tenant h.terminal with
  | none => .verdict 0x14 s
  | some n =>
    if s.unitOverlap tile h.tenant (n / 4096) then .verdict 0x16 (countSetupFail c s)
    else
      let e := s.term n
      if s.pageLoaded n ∧ e.state = 0 then .verdict 0x14 s
      else if s.pageLoaded n ∧ e.state = 2 then .verdict 0x15 s
      else match s.findFlow c h.tenant h.terminal h.dir with
        | none => .setup false
        | some k =>
          match s.flowAt k with
          | none => .setup false
          | some fl =>
            if fl.stage ≠ .live then .setup false
            else if fl.skey = none ∧ !f.isHello then
              (if (tget (dflt []) s.flow.setups c).any (fun x => x.session && x.tenant == h.tenant && x.terminal == h.terminal && x.dir == h.dir) then .setup true
               else .verdict 0x16 (countSetupFail c s))
            else boundChecks k fl f s

/-- The stage C checks before the flow: TENANT, MAINTENANCE, ACTION, LENGTH. -/
def earlyChecks (s : State) (f : InFrame) : Option Nat :=
  let h := f.hdr
  let p := f.port
  if !(s.tenant h.tenant).present ∨ !f.bitOf (Reg.PRT_TNT_ADMIT p (h.tenant / 32)) (h.tenant % 32) then some 0x11
  else if (!s.seals h.tenant f.at ∨ (s.plane = .maintenance ∧ s.sys.maint.has h.tenant)) ∧ !(h.cls == 0 && h.action == 0) then some 0x10
  else if !actionOk h.action (f.bitOf (Reg.PRT_CTL p) 2) h.dir h.fd then some 0x12
  else if h.plen < 2 ∨ 9000 < h.plen then some 0x13
  else none

/-- The largest frame, for which space is reserved while a frame's length is not known from its header (R102, R155). -/
def maxFrame : Nat := 9216

/-- Whether a frame is held (R134). -/
def InFrame.toHold (f : InFrame) : Bool :=
  !f.bitOf (Reg.DPL_CTL (clusterOf f.port)) 1 ||
  (match f.kind with
    | .seal => f.hdr.action == 5 || f.hdr.action == 4 || f.closePend != 0 || (f.ip == 6 && f.compute6)
    | .unsealed => f.ip != 0
    | _ => false)

/-- Whether a frame of a class is urgent under the configuration of a frame (R143). -/
def InFrame.urgent (f : InFrame) : Bool := f.kind == .seal && urgentClass (f.rd (Reg.DPL_URGENT (clusterOf f.port))) f.hdr.cls false

/-- Queue a cut-through frame at its egress before its tail, under a new number, with the space it reserves. -/
def startEgress (f : InFrame) (dst len : Nat) (s : State) : InFrame × State :=
  ({ f with num := s.dp.nextNum + 1 },
   nextNum (enqueueEgress ⟨s.dp.nextNum + 1, f.port, dst, len, false, [], f.urgent, false, false, false, none, none, none⟩ s))

/-- A frame whose egress is known goes on: a held frame waits for its tail, any other starts towards its egress with the length its header gives. -/
def release (f : InFrame) (s : State) : InFrame × State :=
  let f := { f with hdrDone := true }
  match f.egress with
  | none => (f, s)
  | some q =>
    if f.toHold then takeHold { f with held := true } s
    else startEgress f q (if f.kind = .seal then f.hoff + 52 + f.hdr.plen else maxFrame) s

/-- Ask the set-up unit of a cluster for a flow (R191), once for each flow and want. -/
def askSetup (c t term dir : Nat) (successor : Bool) (s : State) : State :=
  let l := tget (dflt []) s.flow.setups c
  if l.any (fun x => x.tenant == t && x.terminal == term && x.dir == dir) then s
  else
    let s := { s with flow := { s.flow with setups := tput (dflt []) s.flow.setups c (l ++ [⟨t, term, dir, false, false, none, successor, false, false, 0, none, none, none, none, none⟩]) } }
    if successor then s else s.bump64 (Reg.FLW_MISSES_LO c)

/-- The cluster whose set-up queue a frame joins: the claimant's while the flow here is migrating, else its own (R192). -/
def setupHome (s : State) (f : InFrame) : Nat :=
  let h := f.hdr
  let same (x : Setup) : Bool := x.tenant == h.tenant && x.terminal == h.terminal && x.dir == h.dir && x.migrating == some f.home
  match s.findFlow f.home h.tenant h.terminal h.dir, s.flow.setups.find? (fun e => e.2.any same) with
  | some _, some e => e.1
  | _, _ => f.home

/-- Lookup and what follows from it. -/
def lookupStage (f : InFrame) (s : State) : InFrame × State :=
  match lookup f s with
  | .verdict v s => ({ f with verdict := v, hdrDone := true },
      if v = 0x18 then (match (s.findFlow f.home f.hdr.tenant f.hdr.terminal f.hdr.dir).bind s.flowAt with
        | some fl => (match egressOf fl (f.profile fl.tenant fl.profile) with
          | some q => if 131072 ≤ s.queuedFor f.port q then count q 0x18C s else s
          | none => s)
        | none => s) else s)
  | .setup suc =>
    let home := setupHome s f
    ({ f with waiting := true, hdrDone := true, home := home }, askSetup home f.hdr.tenant f.hdr.terminal f.hdr.dir suc s)
  | .bound f' s' => release f' (s'.bump64 (Reg.FLW_HITS_LO f.home))

/-- Whether a frame is a MAC control frame: its EtherType is 0x8808 (R140). -/
def isControl (b : Bytes) : Bool := field b 12 2 == 0x8808

/-- The Check stage of an unsealed frame (R100, R132): under FORWARD it goes to its partner when that port is RELEASED and the route to it is up (R161). -/
def unsealedStage (f : InFrame) (s : State) : InFrame × State :=
  let f := { f with kind := .unsealed }
  if !f.bitOf (Reg.PRT_CTL f.port) 3 then ({ f with hdrDone := true }, s)
  else
    let q := f.fld (Reg.PRT_PARTNER f.port) 8 0
    if s.portState q ≠ 3 ∨ s.member q then ({ f with hdrDone := true }, s)
    else if !s.routeOk f.port q then ({ f with hdrDone := true, verdict := 0x18 }, s)
    else release { f with egress := some q } s

/-- Parse and stages B and C of a frame at its header beat, as far as its bytes allow (R97 to R101, R117, R131); `last` says its tail has
arrived. A MAC control frame goes nowhere: the MAC consumes it at its tail (R54, R140). -/
def headerStage (f : InFrame) (last : Bool) (s : State) : InFrame × State :=
  let c := clusterOf f.port
  if f.hdrDone ∨ f.body.length < 14 ∨ isControl f.body then (f, s)
  else if s.plane = .notary then
    let q := if f.port % 2 = 0 then f.port + 1 else f.port - 1
    release { f with kind := .bridge, egress := if s.portLink q then some q else none } s
  else if !s.sealing then ({ f with kind := .discarded 0x118, hdrDone := true }, s)
  else
    let etype := f.fld (Reg.DPL_SEAL_ENC c) 15 0
    let uport := f.fld (Reg.DPL_SEAL_ENC c) 31 16
    match (if last then encapWhole f.body etype uport else encap f.body etype uport) with
    | .short => (f, s)
    | .fault => ({ f with kind := .notaryDrop 2, hdrDone := true }, s)
    | .unsealed ip l => unsealedStage { f with ip := ip, l3 := l } s
    | .seal hoff ip l =>
      if f.body.length < hoff + 33 then (if last then ({ f with kind := .notaryDrop 2, hdrDone := true }, s) else (f, s))
      else
        let f := { f with hoff := hoff, ip := ip, l3 := l }
        let h := Hdr.read (slice f.data hoff 32)
        if h.crc ≠ (crc32c (slice f.data hoff 28)).toNat then ({ f with kind := .notaryDrop 3, hdrDone := true }, s)
        else if h.version ≠ 1 ∨ 8 ≤ h.flags then ({ f with kind := .notaryDrop 4, hdrDone := true }, s)
        else
          let f := { f with kind := .seal }
          match earlyChecks s f with
          | some v => ({ f with verdict := v, hdrDone := true }, s)
          | none => lookupStage f s

/-! ### The tail (R138, R140, stage D) -/

/-- The MAC rule a complete frame breaks, as its counter (R140): a poisoned frame first, then the table's order. -/
def macRule (b : Bytes) : Option Nat :=
  let body := b.take (b.length - 4)
  let f := b.drop (b.length - 4)
  let good := fcs body
  if 12 ≤ b.length ∧ f = good.map (fun x => ~~~x) ∧ field b (b.length - 12) 1 = 0xFD then some 0x110
  else if b.length < 64 then some 0x104
  else if 9216 < b.length then some 0x108
  else if f ≠ good then some 0x100
  else if isControl b then some 0x10C
  else none

/-- The Vault slot behind a zone of a frame's tenant, by the binding in force when its first byte arrived (R246): FIELD_ZONE for a zone without a key
then, USAGE for one whose key has been destroyed since (R244). -/
def zoneSlot (s : State) (f : InFrame) (z : Nat) : Except Nat Nat :=
  let h := tget (dflt 0) f.cfg.zones (256 * f.hdr.tenant + z)
  if h = 0 then .error 0x22 else if s.handleLive h then .ok (h % 2 ^ 16) else .error 0x1B

/-- The stage D checks of REWRAP_FIELD: the verdict, or the two zone slots, with their grants charged when FIELD_ZONE and USAGE pass. -/
def fieldChecks (f : InFrame) (s : State) : Except Nat (Nat × Nat) :=
  let p := f.payload
  let d := Desc.read p
  let h := f.hdr
  if !descOk p then .error 0x21
  else
    let prof := match f.idx.bind s.flowAt with
      | some fl => f.profile h.tenant fl.profile
      | none => Profile.zero
    if !prof.zones.contains (d.src, d.dst) then .error 0x22
    else match zoneSlot s f d.src, zoneSlot s f d.dst with
      | .ok a, .ok b => .ok (a, b)
      | .error v, .ok _ => .error v
      | .ok _, .error v => .error v
      | .error v, .error w => .error (max v w)

/-- Whether a cluster's grant of a slot has an invocation left. -/
def State.grantLeft (s : State) (c n : Nat) : Bool := (s.grant c n).isSome

/-- The key a cluster's grant carries. -/
def State.grantKey (s : State) (c n : Nat) : Bytes := match s.grant c n with | some g => g.shares.key | none => []

/-- Write ATTACH at once when a DIR = 0 frame commits on another port (R197). -/
def noteAttach (f : InFrame) (s : State) : State :=
  if f.hdr.dir ≠ 0 then s
  else match s.termSlot (tileOf f.port) f.hdr.tenant f.hdr.terminal with
    | none => s
    | some n => if (s.term n).attach = some f.port then s else setTerm n { s.term n with attach := some f.port } s

/-- Promotion (R199): the tag of a frame under SGEN + 1 has passed. -/
def promote (f : InFrame) (s : State) : State :=
  if !f.derivedCtx then s
  else match f.idx with
    | none => s
    | some k =>
      match s.flowAt k with
      | none => s
      | some fl =>
        if f.hdr.gen ≠ fl.sgen + 1 then s
        else
          let c := k / 16384
          let fl' := { fl with
            sgen := fl.sgen + 1, prev := some fl.sgen, prevKey := fl.skey.getD [], grace := s.ms + f.fld (Reg.FLW_GRACE c) 15 0
            scount := fl.nextCount, skey := fl.nextKey, nextKey := none, nextCount := 0, rekeyDue := false, fence := false }
          let s := (setFlow k (some fl') s).bump (Reg.FLW_PROMOTE c)
          match s.flowSlot k fl' with
          | some n => setTerm n { s.term n with sgen := fl'.sgen, suse0 := fl'.scount, rekeyDue := false, fence := false } s
          | none => s

/-- REKEY in reply to a committed DIR = 0 frame of a flow with REKEY_DUE and notice (R200), once in each second. -/
def sendRekey (f : InFrame) (s : State) : State :=
  match f.idx with
  | none => s
  | some k =>
    match s.flowAt k with
    | none => s
    | some fl =>
      if fl.dir ≠ 0 ∨ !fl.rekeyDue ∨ !(f.profile fl.tenant fl.profile).notice ∨ fl.rekeySent = s.secs + 1 then s
      else
        let body := [0x03] ++ be 1 fl.sgen ++ be 1 (if fl.sgen = 255 then 0 else fl.sgen + 1) ++ be 1 fl.rekeyReason
        match sendReply k f.port f.outer f.stamp body false s with
        | some s' => (updFlow k (fun x => { x with rekeySent := s.secs + 1 }) s').bump (Reg.FLW_REKEY_SENT (k / 16384))
        | none => s

/-- A frame whose tag has passed: sequence committed, attach noted, generation promoted. -/
def committed (f : InFrame) (s : State) : State := promote f (noteAttach f (commitSeq f s))

/-- Release a frame whose checks have all passed: a held one joins the queue of its egress, one that has started there is complete. -/
def sendOn (f : InFrame) (q : Nat) (bytes : Bytes) (leaf : LeafIn) (s : State) : State :=
  if f.held then queueFrame f.port q bytes f.urgent leaf (some f) s else settleQueued q f.num bytes leaf f s

/-- Send a passing frame: bytes to its egress, sealed leaf there, and the flow's frame done. -/
def forward (f : InFrame) (q : Nat) (payload tag : Bytes) (s : State) : State :=
  let b := emitFrame f payload tag
  leaveFlow f (sendOn f q (b ++ fcs b) (sealedLeaf s q (emitHdrBytes f) tag f.at) s)

/-- A HELLO that passed every check joins its tile's exchange queue, unless an exchange for its terminal waits in any tile's (R203). -/
def takeHello (f : InFrame) (s : State) : State :=
  let tile := tileOf f.port
  let c := clusterOf f.port
  let q := s.exchQ tile
  let h := f.hdr
  if [0, 1, 2, 3].any (fun t => (s.exchQ t).any (fun x => x.tenant == h.tenant && x.terminal == h.terminal)) then s.bump (Reg.FLW_HELLO_DUP c)
  else if 524288 ≤ q.length then s.bump (Reg.TRM_XCHG_DROP tile)
  else (setExchQ tile (q ++ [⟨h.tenant, h.terminal, h.gen, f.payload, f.outer, f.port, f.stamp, s.ms, false⟩]) s).bump (Reg.FLW_HELLO c)

/-- A consumed class 4 frame whose tag passed (R111, R202, R203). -/
def consume (f : InFrame) (s : State) : State :=
  let s := pushLeaf (clusterOf f.port) (sealedLeaf s f.port (slice f.data f.hoff 32) f.tag f.at) s
  if f.hdr.dir = 1 then leaveFlow f s
  else if f.isHello then leaveFlow f (takeHello f s)
  else
    let s := leaveFlow f s
    match f.idx with
    | some k => evictFlow k s
    | none => s

/-- Stage D and the end of a bound seal frame whose last beat has arrived. -/
def stageD (f : InFrame) (s : State) : State :=
  let h := f.hdr
  let chk := h.cls == 4 || actionChecked h.action
  if !chk ∧ f.closePend ≠ 0 then refuse f f.closePend none s
  else if f.data.length ≠ f.hoff + 52 + h.plen then refuse f 0x13 none s
  else if chk ∧ frameTag f.inKey h (slice f.data f.hoff 32) f.payload ≠ f.tag then refuse f 0x20 none s
  else
    let s := if chk then sendRekey f (committed f s) else s
    let f := if chk then { f with res := none } else f
    if h.cls = 4 then consume f s
    else
      let c := clusterOf f.port
      let r : Except (Nat × State) (Option (Bytes × Bytes) × State) :=
        if h.action = 4 then
          match fieldChecks f s with
          | .error v => .error (v, s)
          | .ok (a, b) =>
            let s' := useGrant c a s
            if !s.grantLeft c a ∨ !s'.grantLeft c b then .error (0x1B, wantGrant c b (wantGrant c a s))
            else .ok (some (s.grantKey c a, s'.grantKey c b), useGrant c b s')
        else .ok (none, s)
      match r with
      | .error (v, s) => refuse f v none s
      | .ok (z, s) =>
        match emitPayload f z with
        | none => refuse f 0x23 none s
        | some p =>
          if f.closePend ≠ 0 then refuse f f.closePend none s
          else match f.egress with
            | none => refuse f 0x18 none s
            | some q => forward f q p (emitTag f p) s

/-- The end of a frame without a seal header that goes on as received, with its counters: dropped for want of a partner, refused with EGRESS because its
queue was given up or its route is down (R153, R161), or sent. -/
def endPlain (f : InFrame) (noPartner : Nat) (s : State) : State :=
  if f.verdict ≠ 0 then dropNotary f 0x01 (verdictCounter f.verdict) s
  else match f.egress with
    | none => dropNotary f 0x01 noPartner s
    | some q => sendOn f q f.data (notaryIn s f 0x00 q true) (if f.kind = .unsealed then count f.port noPartner s else s)

/-- The end of a frame accepted by the MAC and not waiting for set-up. -/
def endFrame (f : InFrame) (s : State) : State :=
  match f.kind with
  | .discarded _ => s
  | .unknown => dropNotary f 0x05 0x124 s
  | .notaryDrop d => dropNotary f d (if d = 2 then 0x120 else if d = 3 then 0x128 else 0x12C) s
  | .bridge => endPlain f 0x11C s
  | .unsealed =>
    if tailFault f.body f.data.length f.ip f.l3 then dropNotary f 0x02 0x120 s
    else if !f.bitOf (Reg.PRT_CTL f.port) 3 then dropNotary f 0x05 0x124 s
    else endPlain f 0x124 s
  | .seal => if f.verdict ≠ 0 then refuse f f.verdict none s else stageD f s

/-- Count an accepted frame and give it its frame counter (R128, R176). -/
def accept (f : InFrame) (s : State) : InFrame × State :=
  takeCount f ((s.bump64 (Reg.portBase f.port + 0x80)).bump64By (Reg.portBase f.port + 0x88) f.data.length)

/-- Frames waiting for set-up in a cluster whose tails have arrived. -/
def State.waitingIn (s : State) (c : Nat) : List InFrame := tget (dflt []) s.dp.waiting c

/-- Replace them. -/
def setWaiting (c : Nat) (l : List InFrame) (s : State) : State := { s with dp := { s.dp with waiting := tput (dflt []) s.dp.waiting c l } }

/-- Replace the frame being received at a port. -/
def setCur (p : Nat) (f : Option InFrame) (s : State) : State := s.setPort p { s.port p with cur := f }

/-- Whether the work of a port's verify engine waits: the port moves to a spare, or has none until firmware has arranged a loan (R165, R166). -/
def State.verifyWaits (s : State) (p : Nat) : Bool := s.moving p false || !s.hasVerify p

/-- A complete frame that the MAC has accepted: its header stage where that is to come, then its wait for set-up or its end. -/
def finishFrame (f : InFrame) (s : State) : State :=
  let (f, s) := headerStage f true s
  if f.waiting then setWaiting f.home (s.waitingIn f.home ++ [f]) s else endFrame f s

/-- The last beat of a frame: MAC rules first, then acceptance, and the end of the frame or its wait for an engine (R165) or for set-up. -/
def tailStage (f : InFrame) (s : State) : State :=
  let f := { f with complete := true }
  let s := setCur f.port none s
  match f.kind with
  | .discarded _ => s
  | _ =>
    match macRule f.data with
    | some o => macFail f o s
    | none =>
      let (f, s) := accept f s
      if s.verifyWaits f.port ∧ !f.hdrDone then s.setPort f.port { s.port f.port with moved := (s.port f.port).moved ++ [f] }
      else finishFrame f s

end Sys2Proof.Machine
end

