-- ==== Sys2Proof/Machine/FlowSetup.lean ====
section
/-! DEFINITION. Flow set-up, migration, eviction, generations and exchanges (chapter 06): what the set-up units, the sweep, the register image
and the tile PKE units do. -/

namespace Sys2Proof.Machine

/-! ### Keys of a terminal (R182, R217 to R219) -/

/-- The 128-bit context of S: SCTX in HYBRID mode, zero in DERIVED (R182, R219). -/
def TermEntry.context (e : TermEntry) : Bytes := if e.mode = 1 then fit 16 e.sctx else noContext

/-- L4 of a terminal from its L3 key. -/
def l4Of (s : State) (t term : Nat) (e : TermEntry) (l3 : Bytes) : Bytes := deriveL4 l3 (s.tenant t).domain t e.region term e.l4ver

/-- S, E and H of a terminal from its L4 key. -/
def sOf (s : State) (t term gen : Nat) (e : TermEntry) (l4 : Bytes) : Bytes :=
  deriveL5 l4 0x40 gen (s.tenant t).domain t e.region term e.context
def eOf (s : State) (t term gen : Nat) (e : TermEntry) (l4 : Bytes) : Bytes :=
  deriveL5 l4 0x41 gen (s.tenant t).domain t e.region term noContext
def hOf (s : State) (t term : Nat) (e : TermEntry) (l4 : Bytes) : Bytes :=
  deriveL5 l4 0x42 0 (s.tenant t).domain t e.region term noContext

/-- Bind a flow to the successor egress key (R149); an L3 key not cached is asked for and the flow waits. -/
def advanceEgress (k : Nat) (f : Flow) (s : State) : State :=
  let c := k / 16384
  match s.flowSlot k f with
  | none => s
  | some n =>
    let e := s.term n
    match s.l3Key c f.tenant e.region with
    | none => needL3 c f.tenant e.region s
    | some l3 =>
      let g := f.egen + 1
      (updFlow k (fun x => { x with egen := g, ekey := some (eOf s f.tenant f.terminal g e (l4Of s f.tenant f.terminal e l3))
                                    ecount := 0, egWait := false }) s).bump64By (Reg.MNT_LM_DERIVES_LO c) 2

/-! ### The image (R185 to R187) -/

/-- The entries of an image page. -/
def State.imagePage (s : State) (page : Nat) : List (Nat × TermEntry) := s.flow.image.filter (fun e => e.1 / 256 == page)

/-- Load a page of the image into DRAM; each of its 256 entries takes the restart fence when the image was not CLEAN at start (R187). -/
def loadPage (page : Nat) (s : State) : State :=
  if s.flow.allLoaded || tget (dflt false) s.flow.loaded page then s
  else
    let put (t : Tab TermEntry) (n : Nat) : Tab TermEntry :=
      let e := tget noEntry s.flow.image n
      tput noEntry t n (if s.flow.fencedStart then e.fenced else e)
    let slots : List Nat := if s.flow.fencedStart then (List.range 256).map (256 * page + ·) else (s.imagePage page).map (·.1)
    let s : State := { s with flow := { s.flow with
      terms := slots.foldl put s.flow.terms
      loaded := tput (dflt false) s.flow.loaded page true
      demand := s.flow.demand.filter (· != page) } }
    let s := (s.bump (Reg.TRM_IMAGE_LOADS 1)).bump (Reg.TRM_IMAGE_LOADS 2)
    if s.flow.loaded.length = 32768 then
      [0, 1, 2, 3].foldl (fun s t => s.wrB (Reg.TRM_IMAGE t) 2 false) { s with flow := { s.flow with allLoaded := true } }
    else s

/-- Load the page of a slot. -/
def loadSlot (n : Nat) (s : State) : State := loadPage (n / 256) s

/-- Count an entry read from DRAM. -/
def noteLoad (n : Nat) (s : State) : State := s.bump (Reg.TRM_LOADS (stackTile n))

/-! ### The set-up unit (R191 to R193) -/

/-- The set-ups of a cluster. -/
def State.setups (s : State) (c : Nat) : List Setup := tget (dflt []) s.flow.setups c

/-- Replace them. -/
def putSetups (c : Nat) (l : List Setup) (s : State) : State := { s with flow := { s.flow with setups := tput (dflt []) s.flow.setups c l } }

/-- Whether a set-up is for a flow. -/
def Setup.is (x : Setup) (t term dir : Nat) : Bool := x.tenant == t && x.terminal == term && x.dir == dir

/-- The set-up of a flow in a cluster. -/
def State.setupOf (s : State) (c t term dir : Nat) : Option Setup := (s.setups c).find? (fun x => x.is t term dir)

/-- Replace or remove the set-up of a flow. -/
def putSetup (c : Nat) (x : Setup) (s : State) : State :=
  putSetups c ((s.setups c).map (fun y => if y.is x.tenant x.terminal x.dir then x else y)) s
def dropSetup (c t term dir : Nat) (s : State) : State := putSetups c ((s.setups c).filter (fun y => !y.is t term dir)) s

/-- Whether a frame waits for a flow in a cluster. -/
def InFrame.waitsFor (f : InFrame) (c t term dir : Nat) : Bool :=
  f.waiting && f.home == c && f.hdr.tenant == t && f.hdr.terminal == term && f.hdr.dir == dir

/-- The frames still arriving that wait for a flow. -/
def State.arriving (s : State) (c t term dir : Nat) : List InFrame :=
  s.dp.ports.flatMap (fun e => (e.2.cur.filter (fun f => f.waitsFor c t term dir)).toList)

/-- Refuse every frame that waits for a flow: at once when complete, else at its tail. -/
def refuseWaiting (c t term dir code : Nat) (s : State) : State :=
  let w := (s.waitingIn c).filter (fun f => f.waitsFor c t term dir)
  let s := setWaiting c ((s.waitingIn c).filter (fun f => !f.waitsFor c t term dir)) s
  let s := (s.arriving c t term dir).foldl (fun s f => setCur f.port (some { f with waiting := false, verdict := code }) s) s
  w.foldl (fun s f => refuse { f with waiting := false } code none s) s

/-- Release what a failed set-up took: its way and its claim. -/
def releaseSetup (c : Nat) (x : Setup) (s : State) : State :=
  let s := match x.way with
    | some k => setFlow k none s
    | none => s
  if x.claimed then
    match s.termSlot (c / 16) x.tenant x.terminal with
    | some n => setTerm n ((s.term n).clearHome x.dir) s
    | none => s
  else s

/-- A set-up fails: its frames are refused; SETUP failures are counted (R191). A flow whose new S cannot be derived leaves the cache. -/
def failSetup (c : Nat) (x : Setup) (code : Nat) (s : State) : State :=
  let s := dropSetup c x.tenant x.terminal x.dir s
  let s := if x.session then (match s.findFlow c x.tenant x.terminal x.dir with | some k => evictFlow k s | none => s)
    else if x.successor then s else releaseSetup c x s
  let s := if code = 0x16 then countSetupFail c s else s
  refuseWaiting c x.tenant x.terminal x.dir code s

/-- Claim the home of a flow (R192): at once when free; a stale home that names this cluster is replaced with the restart fence; another
cluster is asked to migrate, or its fabric node answers NOT_HELD. While this cluster's own flow of the terminal drains, the claim waits (R188, R193). -/
def claimHome (c : Nat) (x : Setup) (n : Nat) (s : State) : Setup × State :=
  let e := s.term n
  let take (e : TermEntry) : Setup × State := ({ x with claimed := true, migrating := none }, setTerm n (e.setHome x.dir c) s)
  match e.home x.dir with
  | none => take e
  | some h =>
    if h = c ∧ (s.findFlow c x.tenant x.terminal x.dir).isSome then (x, s)
    else if h = c ∨ !s.clusterUp h ∨ !s.routeOk (8 * c) (8 * h) then take e.fenced
    else ({ x with migrating := some h }, s)

/-- The ways of a flow's set in a cluster. -/
def waysOf (s : State) (c t term dir : Nat) : List Nat := (List.range 4).map (wayKey c (flowSet s c t term dir))

/-- The least recently used of the flows that may be evicted. -/
def lruOf (s : State) (ks : List Nat) : Option Nat :=
  ks.foldl (fun b k =>
    match s.flowAt k with
    | some f =>
      if f.stage = .live ∧ f.inflight = 0 then
        match b.bind s.flowAt with
        | some g => if f.used < g.used then some k else b
        | none => some k
      else b
    | none => b) none

/-- An entry of the cache that a set-up has taken (STATE SETUP). -/
def setupFlow (x : Setup) : Flow :=
  ⟨.setup, x.dir, x.tenant, x.terminal, 0, 0, 0, 0, none, 0, [], none, none, none, [], none, 0, false, 0, 0, 0, 0, ⟨0, 0, 0⟩, ⟨2 ^ 47, 0, 0⟩, 0, 0,
    none, 0, 0, none, false, 0, 0, false, 0, 0, false, 0, 0, 0, 0, 0⟩

/-- Choose a way (R193): a free one, else the least recently used idle flow is evicted; else the set-up waits, as it does while an earlier flow of the
terminal drains (R188). -/
def takeWay (c : Nat) (x : Setup) (s : State) : Setup × State :=
  let ks := waysOf s c x.tenant x.terminal x.dir
  if (s.findFlow c x.tenant x.terminal x.dir).isSome then (x, s) else
  match ks.find? (fun k => s.flowAt k = none) with
  | some k => ({ x with way := some k }, setFlow k (some (setupFlow x)) s)
  | none =>
    match lruOf s ks with
    | some k => ({ x with way := some k }, setFlow k (some (setupFlow x)) ((removeFlow k s).bump (Reg.FLW_EVICT_LRU c)))
    | none => (x, s)

/-- Steps 1 to 3 of R191 as far as they go: read the entry (a page not yet loaded is asked for), check it, claim the home, take a way. -/
def runSetup (c : Nat) (x : Setup) (s : State) : State :=
  match s.termSlot (c / 16) x.tenant x.terminal with
  | none => failSetup c x 0x14 s
  | some n =>
    if !s.pageLoaded n then
      let p := n / 256
      putSetup c x (if s.flow.demand.contains p then s else { s with flow := { s.flow with demand := s.flow.demand ++ [p] } })
    else
      let s := if x.read then s else noteLoad n s
      let x := { x with read := true }
      let e := s.term n
      if e.state = 0 then failSetup c x 0x14 s
      else if e.state = 2 then failSetup c x 0x15 s
      else if !s.bitOf (Reg.FLW_CTL c) 0 ∨ !s.bitOf (Reg.TRM_CTL (c / 16)) 0 ∨ s.unitOverlap (c / 16) x.tenant (n / 4096)
          ∨ (e.mode = 1 ∧ !s.bitOf (Reg.FLW_CTL c) 1) ∨ s.leafRefuses c
          ∨ !(s.region x.tenant e.region).present ∨ s.keys.badL2.contains x.tenant then failSetup c x 0x16 s
      else if x.successor then putSetup c { x with claimed := true } s
      else
        let (x, s) := if x.claimed ∨ x.migrating.isSome then (x, s) else claimHome c x n s
        let (x, s) := if x.claimed ∧ x.way = none then takeWay c x s else (x, s)
        putSetup c x s

/-- Set-ups in progress in a cluster. -/
def State.setupsBusy (s : State) (c : Nat) : Nat := ((s.setups c).filter (fun x => x.started)).length

/-- FLOW_SETUP_START: a waiting set-up takes one of the 32 slots of the unit and begins (R191). `macOk` = false stands for a register entry
whose MAC or version fails at its read from DRAM (R184). -/
def execFlowSetupStart (cluster : Fin 64) (tenant : Fin 512) (terminal : BitVec 24) (dir : Fin 2) (macOk : Bool) (s : State) : Out :=
  match s.setupOf cluster tenant terminal.toNat dir with
  | none => .next s
  | some x =>
    if x.started ∨ 32 ≤ s.setupsBusy cluster then .next s
    else
      let x := { x with started := true, begun := s.now }
      let inDram : Bool := match s.termSlot (cluster.val / 16) tenant terminal.toNat with | some n => s.pageLoaded n | none => false
      if !macOk && inDram then .next (failSetup cluster x 0x15 (integrityQuarantine cluster tenant terminal.toNat s))
      else .next (runSetup cluster x (putSetup cluster x s))

/-- The keys a set-up still lacks, given its entry. -/
def Setup.needsS (x : Setup) (e : TermEntry) : Bool := x.skey.isNone && !(e.mode == 1 && !e.ctx)
def Setup.needsE (x : Setup) : Bool := x.ekey.isNone && x.dir == 0 && !x.successor
def Setup.needsH (x : Setup) (e : TermEntry) : Bool := x.hkey.isNone && x.dir == 0 && !x.successor && e.mode == 1

/-- LEAF_MINT_DERIVATION: the Leaf Mint of a cluster completes the next derivation of a set-up: L4, then S, E and H (R237). -/
def execLeafMintDerivation (cluster : Fin 64) (tenant : Fin 512) (terminal : BitVec 24) (dir : Fin 2) (s : State) : Out :=
  let c := cluster.val
  let t := tenant.val
  let term := terminal.toNat
  match s.setupOf c t term dir, s.termSlot (c / 16) t term with
  | some x, some n =>
    let e := s.term n
    let done (x : Setup) : Out := .next ((putSetup c x s).bump64 (Reg.MNT_LM_DERIVES_LO c))
    if !x.started ∨ !x.claimed ∨ s.leafRefuses c then .next s
    else match x.l4 with
      | none =>
        if !x.needsS e && !x.needsE && !x.needsH e then .next s
        else match s.l3Key c t e.region with
          | none =>
            if s.bitOf Reg.MNT_STATUS 5 then .next (failSetup c x 0x16 s) else .next (needL3 c t e.region s)
          | some l3 => .next ((putSetup c { x with l4 := some (l4Of s t term e l3) } (hitL3 c t e.region s)).bump64 (Reg.MNT_LM_DERIVES_LO c))
      | some l4 =>
        let clear (x : Setup) : Setup := if !x.needsS e && !x.needsE && !x.needsH e then { x with l4 := none } else x
        if x.needsS e then done (clear { x with skey := some (sOf s t term (if x.successor && !x.session then e.sgen + 1 else e.sgen) e l4) })
        else if x.needsE then done (clear { x with ekey := some (eOf s t term e.egen e l4) })
        else if x.needsH e then done (clear { x with hkey := some (hOf s t term e l4) })
        else .next s
  | _, _ => .next s

/-- The flow a completed set-up makes (R189, R233), with the key contexts that the engines give it (log entry 331). -/
def liveFlow (s : State) (n : Nat) (x : Setup) (e : TermEntry) : Flow :=
  { setupFlow x with
    stage := .live, slot := n, ctxS := s.freeBits.toNat % 4096, ctxE := s.freeBits.toNat / 4096 % 4096, profile := e.profile, sgen := e.sgen, egen := e.egen, sctx := e.context, skey := x.skey, ekey := x.ekey, hkey := x.hkey
    scount := if x.dir = 0 then e.suse0 else e.suse1, slimit := s.limitS x.tenant, ecount := e.euse, elimit := s.limitU x.tenant
    win := if x.dir = 0 then ⟨e.rxhigh, e.rxmap, 0⟩ else ⟨0, 0, 0⟩, txnext := e.txnext, replycnt := e.replycnt
    egress := e.attach, rekeyDue := e.rekeyDue, rekeyReason := e.reason, fence := e.fence, used := s.flow.useClock }

/-- A frame that waited rejoins the pipeline at Lookup. -/
def rejoin (f : InFrame) (s : State) : State :=
  let (f, s) := lookupStage { f with waiting := false } s
  if !f.complete then setCur f.port (some f) s
  else if f.waiting then setWaiting f.home (s.waitingIn f.home ++ [f]) s
  else endFrame f s

/-- Every frame that waited for a flow rejoins, in order. -/
def rejoinAll (c t term dir : Nat) (s : State) : State :=
  let w := (s.waitingIn c).filter (fun f => f.waitsFor c t term dir)
  let s := setWaiting c ((s.waitingIn c).filter (fun f => !f.waitsFor c t term dir)) s
  let a := s.arriving c t term dir
  (w ++ a).foldl (fun s f => rejoin f s) s

/-- WELCOME, which the DIR = 0 flow owes (R202, R205). -/
def sendWelcome (k : Nat) (s : State) : State :=
  match s.flowAt k with
  | some f => match f.welcome with
    | some x =>
      let s := setFlow k (some { f with welcome := none }) s
      (sendReply k x.port x.outer x.stamp ([0x02] ++ be 1 f.sgen ++ [0, 0] ++ sha256 x.payload) false s).getD s
    | none => s
  | none => s

/-- A flow that was told of a new generation has its S (R199, R205): the DIR = 0 flow sends the WELCOME it owes, and frames that waited rejoin. -/
def giveSession (c : Nat) (x : Setup) (s : State) : State :=
  let s := dropSetup c x.tenant x.terminal x.dir s
  match s.findFlow c x.tenant x.terminal x.dir with
  | some k => rejoinAll c x.tenant x.terminal x.dir (sendWelcome k (updFlow k (fun f => { f with skey := x.skey }) s))
  | none => s

/-- Ask for S at the present generation for a cached flow of a terminal (R199, R205): the Leaf Mint of its cluster derives it at once when it has the L3
key, else a set-up fetches that. -/
def wantSession (k : Nat) (t term dir n : Nat) (s : State) : State :=
  let c := k / 16384
  let e := s.term n
  let x : Setup := ⟨t, term, dir, true, false, none, true, true, false, 0, none, none, none, none, none⟩
  match (if s.leafRefuses c then none else s.l3Key c t e.region) with
  | some l3 =>
    giveSession c { x with skey := some (sOf s t term e.sgen e (l4Of s t term e l3)) } ((hitL3 c t e.region s).bump64By (Reg.MNT_LM_DERIVES_LO c) 2)
  | none =>
    let s := dropSetup c t term dir s
    putSetups c (s.setups c ++ [x]) s

/-- FLOW_SETUP_DONE: the key contexts are loaded, the entry is LIVE and the frames rejoin (R191); for a successor generation the derived
context is kept with the flow (R199). A terminal freed or quarantined during the set-up has its frames refused (R180, R209). -/
def execFlowSetupDone (cluster : Fin 64) (tenant : Fin 512) (terminal : BitVec 24) (dir : Fin 2) (s : State) : Out :=
  let c := cluster.val
  let t := tenant.val
  let term := terminal.toNat
  match s.setupOf c t term dir, s.termSlot (c / 16) t term with
  | some x, some n =>
    let e := s.term n
    if !x.started ∨ !x.claimed ∨ x.needsS e ∨ x.needsE ∨ x.needsH e then .next s
    else if e.state = 0 ∨ e.state = 2 then .next (failSetup c x (if e.state = 0 then 0x14 else 0x15) s)
    else if x.session then .next (giveSession c x s)
    else if x.successor then
      let s := dropSetup c t term dir s
      let s := match s.findFlow c t term dir with
        | some k => updFlow k (fun f => { f with nextKey := x.skey, nextCount := 0 }) s
        | none => s
      .next (rejoinAll c t term dir s)
    else match x.way with
      | none => .next s
      | some k =>
        let s := (setFlow k (some (liveFlow s n x e)) (dropSetup c t term dir s)).drawn
        .next (rejoinAll c t term dir (s.bump (Reg.FLW_SETUPS c)))
  | _, _ => .next s

/-- FLOW_SETUP_TIMEOUT: after `dt` nanoseconds, a set-up that began more than 1 ms ago fails with SETUP (R191). -/
def execFlowSetupTimeout (dt : Nat) (cluster : Fin 64) (tenant : Fin 512) (terminal : BitVec 24) (dir : Fin 2) (s : State) : Out :=
  let s := s.advance dt
  match s.setupOf cluster tenant terminal.toNat dir with
  | none => .next s
  | some x => if x.started ∧ x.begun + 1000000 < s.now then .next (failSetup cluster x 0x16 s) else .next s

/-! ### Migration (R192) -/

/-- The cluster that asks another for a flow. -/
def State.claimant (s : State) (holder t term dir : Nat) : Option (Nat × Setup) :=
  s.flow.setups.findSome? (fun e => (e.2.find? (fun x => x.is t term dir && x.migrating == some holder)).map (fun x => (e.1, x)))

/-- The claimant retries its claim (R192): it takes a free home; on NOT_HELD (`stale`) it replaces a home that still names the cluster it asked, with
the restart fence; a home that has moved on is asked for again. -/
def retryClaim (c : Nat) (x : Setup) (stale : Bool) (s : State) : State :=
  match s.termSlot (c / 16) x.tenant x.terminal with
  | none => s
  | some n =>
    let e := s.term n
    let moved := match e.home x.dir with | some h => x.migrating != some h | none => false
    if moved then putSetup c { x with migrating := e.home x.dir } s
    else
      let held := (e.home x.dir).isSome
      let s := setTerm n ((if stale && held then e.fenced else e).setHome x.dir c) s
      let s := if stale then s else s.bump (Reg.FLW_MIGRATE_IN c)
      runSetup c { x with claimed := true, migrating := none } s

/-- MIGRATION_REQUEST: a cluster receives a migration request for a flow; it marks its entry MIGRATING, or answers NOT_HELD and the claimant
replaces the stale home. -/
def execMigrationRequest (cluster : Fin 64) (tenant : Fin 512) (terminal : BitVec 24) (dir : Fin 2) (s : State) : Out :=
  match s.claimant cluster tenant terminal.toNat dir with
  | none => .next s
  | some (c, x) =>
    match s.findFlow cluster tenant terminal.toNat dir with
    | none => .next (retryClaim c x true s)
    | some k =>
      match s.flowAt k with
      | some f => .next (if f.stage = .live then setFlow k (some { f with stage := .migrating }) s else s)
      | none => .next s

/-- MIGRATION_DRAINED: INFLIGHT of a migrating flow has reached 0; the holder writes back, clears the home and evicts, and the claimant
retries. -/
def execMigrationDrained (cluster : Fin 64) (tenant : Fin 512) (terminal : BitVec 24) (dir : Fin 2) (s : State) : Out :=
  match s.findFlow cluster tenant terminal.toNat dir with
  | none => .next s
  | some k =>
    match s.flowAt k with
    | none => .next s
    | some f =>
      if f.stage ≠ .migrating ∨ f.inflight ≠ 0 then .next s
      else
        let s := (removeFlow k s).bump (Reg.FLW_MIGRATE_OUT cluster)
        match s.claimant cluster tenant terminal.toNat dir with
        | some (c, x) => .next (retryClaim c x false s)
        | none => .next s

/-- FLOW_WAY_DRAINED: a way has drained and a waiting set-up takes it (R193). -/
def execFlowWayDrained (cluster : Fin 64) (tenant : Fin 512) (terminal : BitVec 24) (dir : Fin 2) (s : State) : Out :=
  match s.setupOf cluster tenant terminal.toNat dir with
  | none => .next s
  | some x =>
    if x.started ∧ x.read ∧ x.way = none ∧ !x.successor then .next (runSetup cluster x s) else .next s

/-! ### The image and write-back -/

/-- The set-ups that waited for a page go on (R186). -/
def resumeSetups (s : State) : State :=
  (s.flow.setups.flatMap (fun e => (e.2.filter (fun x => x.started && !x.read)).map (fun x => (e.1, x)))).foldl
    (fun s p => runSetup p.1 p.2 s) s

/-- IMAGE_PAGE_READ_DONE: the on-demand read of the page first asked for completes (R186). -/
def execImagePageReadDone (s : State) : Out :=
  match s.flow.demand with
  | [] => .next s
  | p :: _ => .next (resumeSetups (loadPage p s))

/-- IMAGE_BACKGROUND_LOAD: the background read of a page completes. Pages come in slot order from the start of stage 6, and on-demand reads go ahead of
them (R186). -/
def execImageBackgroundLoad (page : Fin 32768) (s : State) : Out :=
  if s.flow.demand ≠ [] ∨ page.val ≠ s.flow.nextPage ∨ s.fld Reg.SYS_BOOT_STAGE 3 0 < 6 then .next s
  else
    let s := loadPage page s
    .next (resumeSetups { s with flow := { s.flow with nextPage := page.val + 1 } })

/-- The tenant whose register range holds a slot (R179). -/
def State.slotTenant (s : State) (n : Nat) : Option Nat :=
  s.tenants.find? (fun t => decide ((s.range 0 t).1 ≤ n / 4096) && decide (n / 4096 < (s.range 0 t).1 + (s.range 0 t).2))

/-- In a pair, the holder sends an entry of its tenants to the partner (R557). -/
def sendLine (n : Nat) (s : State) : State :=
  match s.slotTenant n with
  | some t =>
    if s.pair.paired && ((s.charter t).role == 1 || (s.charter t).role == 3) then
      sendPair ⟨.line, t, be 3 n ++ (s.term n).bytes48 ++ fit 16 (s.term n).sctx⟩ s
    else s
  | none => s

/-- Put one line into its image page, and send it to the partner. -/
def writeLine (n : Nat) (s : State) : State :=
  sendLine n { s with flow := { s.flow with image := tput noEntry s.flow.image n (s.term n) } }

/-- Write lines back: each image page of theirs is written once (R460). -/
def writeLines (l : List Nat) (s : State) : State :=
  ((l.map (· / 256)).eraseDups).foldl (fun s p => writeImagePage p s) (l.foldl (fun s n => writeLine n s) s)

/-- REGISTER_WRITEBACK: a dirty line is written back to the image in the background (R185), while TRM_CTL.WB_EN is 1 and no write of a higher rank waits
(R462). -/
def execRegisterWriteback (slot : Fin 8388608) (s : State) : Out :=
  if s.bitOf (Reg.TRM_CTL (stackTile slot)) 1 ∧ s.pageLoaded slot ∧ !s.writeWaits 4 then .next (writeLines [slot.val] s) else .next s

/-- Begin a flush (R185): the state of every cached flow goes into its entry, without eviction. -/
def beginFlush (s : State) : State :=
  let s := (s.flow.flows).foldl (fun s e => match e.2 with
    | some f => if f.stage = .setup then s else writeBackFlow e.1 f s
    | none => s) s
  { s with flow := { s.flow with changed := false, flushing := true } }

/-- End a flush: every dirty line is in the image, and the CLEAN flag is set when nothing has changed since. -/
def endFlush (s : State) : State :=
  let s := writeLines s.dirty s
  let clean := !s.flow.changed
  let s := { s with flow := { s.flow with clean := clean, cleanCopy := clean, flushing := false } }
  [0, 1, 2, 3].foldl (fun s t => s.wrB (Reg.TRM_IMAGE t) 0 clean) s

/-- FLUSH_DONE: the flush in progress completes, once no journal page waits (R462), and the commands that wait for it receive their final reply. -/
def execFlushDone (s : State) : Out :=
  if !s.flow.flushing ∨ s.writeWaits 2 then .next s
  else
    let cmds := s.flow.flushCmds
    let s := endFlush s
    .next (serveMoves (cmds.foldl (fun s r => finalReply r 0 [] 0 s) { s with flow := { s.flow with flushCmds := [] } }))

/-! ### Sweep, grace and notices (R193, R197, R199, R208) -/

/-- One second of a flow: IDLE counts and the quarantine windows run. -/
def Flow.sweep (f : Flow) : Flow :=
  { f with
    idle := sat 4095 (f.idle + 1)
    qtag := if f.qtagLeft ≤ 1 then 0 else f.qtag, qtagLeft := f.qtagLeft - 1
    qreplay := if f.qreplayLeft ≤ 1 then 0 else f.qreplay, qreplayLeft := f.qreplayLeft - 1 }

/-- Evict an idle flow, with the time-out counted for its port (R193, R543). -/
def evictIdle (k : Nat) (f : Flow) (s : State) : State :=
  let s := match (s.flowSlot k f).bind (fun n => (s.term n).attach) with
    | some p => { s with dp := { s.dp with timeouts := tupd (dflt 0) s.dp.timeouts p (· + 1) } }
    | none => s
  (evictFlow k s).bump (Reg.FLW_EVICT_IDLE (k / 16384))

/-- FLOW_IDLE_SWEEP: the once-a-second sweep of a cluster (R193, R208). A flow whose IDLE had reached FLW_TIMEOUT goes, between T and T + 1 s after its last
frame. -/
def execFlowIdleSweep (cluster : Fin 64) (s : State) : Out :=
  let t := s.fld (Reg.FLW_TIMEOUT cluster) 11 0
  let ks := s.flowKeys (fun k f => k / 16384 == cluster.val && f.stage != .setup)
  .next (ks.foldl (fun s k =>
    match s.flowAt k with
    | none => s
    | some f =>
      let s := setFlow k (some f.sweep) s
      if t ≤ f.idle ∧ f.stage = .live then evictIdle k f.sweep s else s) s)

/-- GRACE_EXPIRY: the grace period of a flow ends (R199). -/
def execGraceExpiry (cluster : Fin 64) (tenant : Fin 512) (terminal : BitVec 24) (s : State) : Out :=
  match s.findFlow cluster tenant terminal.toNat 0 with
  | some k => .next (match s.flowAt k with
    | some f => setFlow k (some { f with prev := none, prevKey := [], grace := 0 }) s
    | none => s)
  | none => .next s

/-- FLOW_NOTICE: a cached DIR = 1 flow takes the entry's SGEN and attach port (R197, R199): under a new SGEN its key is S at that generation
and SUSE1 starts at 0. The Leaf Mint of its cluster derives that key. -/
def execFlowNotice (cluster : Fin 64) (tenant : Fin 512) (terminal : BitVec 24) (s : State) : Out :=
  match s.findFlow cluster tenant terminal.toNat 1 with
  | none => .next s
  | some k =>
    match s.flowAt k with
    | none => .next s
    | some f =>
      match s.flowSlot k f with
      | none => .next s
      | some n =>
        let e := s.term n
        let f := { f with egress := e.attach }
        if f.stage = .setup then .next s
        else if e.sgen = f.sgen ∧ e.context = f.sctx then .next (setFlow k (some f) s)
        else .next (wantSession k tenant terminal.toNat 1 n (touchTerms (setFlow k (some { f with
          sgen := e.sgen, sctx := e.context, skey := none, scount := 0, rekeyDue := e.rekeyDue, fence := e.fence }) s)))

/-! ### Exchanges (R203 to R205) -/

/-- SCTX of an exchange: `none` when it ends without a change (R204, R221). -/
def exchangeContext (s : State) (tile : Nat) (x : Exchange) : Option Bytes :=
  let (xs, ms) := s.tileSeeds tile x.tenant
  let pk := slice x.payload 4 32
  let ct := slice x.payload 36 1088
  let lx := seedLabel s 0x12 (x25519Slot x.tenant) x.tenant
  let lm := seedLabel s 0x13 (mlkemSlot x.tenant) x.tenant
  let z1 := Config.x25519 (clamp (seedX xs lx 0x70)) pk
  let d := seedX ms lm 0x70
  let z := seedX ms lm 0x71
  if xs = [] ∨ ms = [] ∨ z1 = zeros 32 ∨ Config.mlkemRejects d z ct then none
  else some ((sha256 (z1 ++ Config.mlkemDecaps d z ct ++ pk ++ ct)).take 16)

/-- A failed exchange: counted; eight in a row quarantine the terminal (R204, R208). -/
def exchangeFailed (tile : Nat) (x : Exchange) (n : Nat) (s : State) : State :=
  let s := s.bump (Reg.TRM_XCHG_FAIL tile)
  let k := tget (dflt 0) s.flow.xchgFails n + 1
  let s := { s with flow := { s.flow with xchgFails := tput (dflt 0) s.flow.xchgFails n (if k < 8 then k else 0) } }
  if k < 8 then s else autoQuarantine (clusterOf x.port) x.tenant x.terminal 0x4 s

/-- The DIR = 0 flow of a terminal, wherever it is cached. -/
def State.flow0 (s : State) (t term : Nat) : Option Nat := (s.flowKeys (fun _ f => f.tenant == t && f.terminal == term && f.dir == 0 && f.writes)).head?

/-- A successful exchange (R205): the entry takes SCTX and the new generation in one write, the DIR = 0 flow follows under R199 and sends
WELCOME under the new S once its Leaf Mint has derived that. -/
def exchangeDone (tile : Nat) (x : Exchange) (n : Nat) (ctx : Bytes) (s : State) : State :=
  let s := s.bump (Reg.TRM_XCHG_DONE tile)
  let e := { s.term n with sctx := ctx, ctx := true, sgen := x.sgen, suse0 := 0, suse1 := 0, rekeyDue := false, fence := false }
  let s := setTerm n e s
  let s := { s with flow := { s.flow with xchgFails := tput (dflt 0) s.flow.xchgFails n 0 } }
  match s.flow0 x.tenant x.terminal with
  | none => s
  | some k =>
    let s := (updFlow k (fun f => { f with
      prev := if f.skey.isSome then some f.sgen else none, prevKey := f.skey.getD [], grace := s.ms + s.fld (Reg.FLW_GRACE (k / 16384)) 15 0
      sgen := x.sgen, sctx := ctx, skey := none, scount := 0, nextKey := none, nextCount := 0, welcome := some x
      rekeyDue := false, fence := false }) s).bump (Reg.FLW_PROMOTE (k / 16384))
    wantSession k x.tenant x.terminal 0 n s

/-- EXCHANGE_DONE: a tile PKE unit completes the exchange at the head of its tile's queue (R204). A terminal quarantined or freed meanwhile
has its exchange discarded (R205). A unit that faults returns the HELLO to the head, once (R443). -/
def execExchangeDone (tile : Fin 4) (unit : Fin 17) (fault : Bool) (s : State) : Out :=
  let u := tileUnitNo tile unit
  match s.exchQ tile with
  | [] => .next s
  | x :: r =>
    if !s.unitServes u then .next s
    else if fault ∧ !x.retried then .next (setExchQ tile ({ x with retried := true } :: r) (tileUnitFault u s))
    else
    let s := if fault then tileUnitFault u s else tileUnitServed u x.tenant s
    let s := setExchQ tile r s
    match s.termSlot tile x.tenant x.terminal with
    | none => .next s
    | some n =>
      if (s.term n).state = 0 ∨ (s.term n).state = 2 then .next s
      else match (if fault then none else exchangeContext s tile x) with
        | none => .next (exchangeFailed tile x n s)
        | some ctx => .next (exchangeDone tile x n ctx s)

/-- EXCHANGE_WAIT_TIMEOUT: after `dt` nanoseconds, a HELLO that has waited longer than TRM_XCHG_WAIT is discarded and counted (R203). -/
def execExchangeWaitTimeout (dt : Nat) (tile : Fin 4) (s : State) : Out :=
  let s := s.advance dt
  let q := s.exchQ tile
  let keep := q.filter (fun x => decide (s.ms ≤ x.queued + s.fld (Reg.TRM_XCHG_WAIT tile) 15 0))
  .next ((setExchQ tile keep s).bumpBy (Reg.TRM_XCHG_DROP tile) (q.length - keep.length))

end Sys2Proof.Machine
end

