-- ==== Sys2Proof/Machine/Keys.lean ====
section
/-! DEFINITION. The Vault, the Mint and the key commands (chapter 07): refresh, derivations and deliveries, purges, grants, known-answer tests
and group 0x02. IMPORT_COMPONENTS, which runs through the card reader, is in Cards.lean. -/

namespace Sys2Proof.Machine

/-! ### The Vault (R225) -/

/-- Both shares of a slot exclusive-or the same random bits (R225): the key stays as it is. -/
def Slot.refreshed (v : Slot) (r : BitVec 256) : Slot := { v with shareA := v.shareA ^^^ r, shareB := v.shareB ^^^ r }

/-- The Vault after a refresh of every slot, LIVE or not, with the random bits numbered from `k` (R225). -/
def State.refreshed (s : State) (k : Nat) : Tab Slot :=
  ((List.range 65536).map (fun n => (n, (s.slot n).refreshed (Config.freeBits (k + n))))).filter (fun e => e.2 != Slot.empty)

/-- VAULT_REFRESH_ROUND: the shares of all 65,536 slots are re-randomised; the keys stay as they are (R225). The order of the visits shows
nowhere. A central DRBG that has stopped refreshes nothing (R417). -/
def execVaultRefreshRound (s : State) : Out :=
  if !s.drbgMasks then .next s
  else
    let slots := s.refreshed s.free
    let s := s.drawnBytes (32 * 65536)
    .next ({ s with keys := { s.keys with slots := slots } }.bump Reg.VLT_REFRESH_ROUNDS)

/-- VAULT_REFRESH_LATE: a round did not finish within 10 ms. -/
def execVaultRefreshLate (s : State) : Out := .next (irq Reg.VLT_IRQ_STATUS 12 2 (s.wrB Reg.VLT_STATUS 4 true))

/-! ### The Mint (R235 to R239) -/

/-- The tenant and, for a region, the region that a purge names. -/
def PurgeWhat.tenant : PurgeWhat → Nat
  | .tenantGen t => t | .regionGen t _ => t | .destroyTenant t => t | .seed t _ => t
def PurgeWhat.covers (p : PurgeWhat) (t r : Nat) : Bool :=
  match p with
  | .regionGen u q => u == t && q == r
  | w => w.tenant == t

/-- Whether a purge that covers a tenant's region awaits its commit. -/
def State.purged (s : State) (t r : Nat) : Bool := s.keys.purges.any (fun p => p.what.covers t r)

/-- The Mint derives the L3 key of a tenant's region from its live L2, as shares. -/
def mintL3 (t r : Nat) (s : State) : Option (L3Entry × State) :=
  (s.liveKey (l2Slot t)).map (fun l2 =>
    let (x, s) := share (deriveL3 l2 (s.tenant t).domain t r (s.region t r).gen) s
    (⟨t, r, (s.region t r).gen, x⟩, s))

/-- The shares of an L3 entry re-randomised for a transfer (R18). -/
def L3Entry.renew (e : L3Entry) (s : State) : L3Entry × State :=
  let (x, s) := e.shares.renew s
  ({ e with shares := x }, s)

/-- Whether an L3 request waits that no open purge holds back: it goes before grants and fingerprint keys (R235). -/
def State.l3Waits (s : State) : Bool := s.keys.mintQ.any (fun q => q.rank == 3 && !s.purged q.tenant q.region)

/-- Count derivations of the Mint. -/
def derives (n : Nat) (s : State) : State := s.bump64By Reg.MNT_DERIVES_LO n

/-- MINT_DERIVATION: the Mint completes the first L3 request that no open purge holds back (R235, R239); the key goes on its way to the cluster.
Requests of command rank are served within their commands, grants by GRANT_ISSUE. -/
def execMintDerivation (s : State) : Out :=
  if !s.mintUp ∨ !s.drbgMasks then .next s
  else match s.keys.mintQ.find? (fun q => q.rank == 3 && !s.purged q.tenant q.region) with
    | none => .next s
    | some q =>
      let s := { s with keys := { s.keys with mintQ := s.keys.mintQ.filter (fun x => x != q) } }
      match mintL3 q.tenant q.region s with
      | none => .next s
      | some (e, s) =>
        let (e, s) := e.renew s
        .next (derives 1 { s with keys := { s.keys with deliver := s.keys.deliver ++ [(q.cluster, e)] } })

/-- L3_DELIVERY: an L3 key arrives at a cluster's Leaf Mint and its entry becomes valid (R236). -/
def execL3Delivery (cluster : Fin 64) (s : State) : Out :=
  if !s.linkOk (cluster / 16) then .next s else
  match s.keys.deliver.find? (fun d => d.1 == cluster.val) with
  | none => .next s
  | some d =>
    let s := { s with keys := { s.keys with deliver := s.keys.deliver.filter (fun x => x != d) } }
    .next ((putL3 cluster d.2 s).bump Reg.MNT_L3_SENT)

/-- The monitor slot of a tenant takes its successor generation when COUNT reaches the limit less the usage margin (R219); after 255 the
generation wraps to 0. -/
def rollMonitor (c n : Nat) (s : State) : State :=
  let v := s.slot n
  if v.cls ≠ 0x0C ∨ v.state ≠ 1 ∨ v.count + s.margin c < v.limit then s
  else storeSlot n (derives 3 (makeMonitor v.owner ((v.gen + 1) % 256) s))

/-- GRANT_ISSUE: the Mint serves a cluster's first request for a grant of a slot, when no L3 request goes before it (R235): 2^16 invocations, or what is
left of the slot's limit, charged in full, with the key as shares (R234). A monitor slot whose limit has been lowered takes its successor first. -/
def execGrantIssue (cluster : Fin 64) (s : State) : Out :=
  match s.keys.mintQ.find? (fun q => q.rank == 4 && q.cluster == cluster.val) with
  | none => .next s
  | some q =>
    if !s.mintUp ∨ s.l3Waits then .next s
    else
      let s := rollMonitor cluster q.slot { s with keys := { s.keys with mintQ := s.keys.mintQ.filter (fun x => x != q) } }
      let v := s.slot q.slot
      let n := if v.limitExp = 0 then 2 ^ 16 else min (2 ^ 16) (v.limit - v.count)
      if v.state ≠ 1 ∨ n = 0 then .next s
      else
        let old := (s.grants cluster).filter (fun g => decide (0 < g.left))
        let same (g : Grant) : Bool := g.slot == q.slot && g.incarn == v.incarn && g.gen == v.gen && g.shares.key == v.keyBytes
        let (x, s) := share v.keyBytes s
        let l := if old.any same then old.map (fun g => if same g then { g with left := g.left + n, shares := x } else g)
          else old ++ [⟨q.slot, v.incarn, v.gen, x, n⟩]
        let s := (chargeSlot q.slot n (setGrants cluster l s)).bump Reg.MNT_GRANTS
        .next (rollMonitor cluster q.slot (if v.cls = 0x0C ∨ v.limitExp = 0 then s else storeSlot q.slot s))

/-- FINGERPRINT_KEY_DELIVERY: the fingerprint key of the next epoch is derived and delivered to every engine, when nothing of a higher rank waits (R235);
engines hold two (R239). -/
def execFingerprintKeyDelivery (s : State) : Out :=
  match s.liveKey 0 with
  | none => .next s
  | some l0 =>
    if !s.mintUp ∨ s.l3Waits ∨ s.keys.mintQ.any (fun q => q.rank == 4) then .next s
    else
      let v := derivedSlot 0 0x04 0 0xFFFF 0xFF 0
      let s := fillSlot (fpSlot + 1) (deriveFp l0 (s.epoch + 1)) v (fillSlot fpSlot (deriveFp l0 s.epoch) v s)
      let keep := tclear s.keys.fpKeys (fun e => decide (e < s.epoch))
      .next (derives 1 { s with keys := { s.keys with fpKeys := tput (dflt []) keep (s.epoch + 1) (deriveFp l0 (s.epoch + 1)) } })

/-- MINT_KAT: the known-answer derivation of the Mint (`unit` none) or of a cluster's Leaf Mint passes or fails (R238). A failing Mint stops, and is tested
again only after a custody reset; a failing Leaf Mint evicts every flow of its cluster. -/
def execMintKat (unit : Option (Fin 64)) (pass : Bool) (s : State) : Out :=
  match unit with
  | none =>
    if s.bitOf Reg.MNT_STATUS 5 && !s.keys.mintRetest then .next s
    else
      let s : State := { s with keys := { s.keys with mintRetest := false } }
      if pass then .next ((s.wrB Reg.MNT_STATUS 4 true).wrB Reg.MNT_STATUS 5 false)
      else .next (irq Reg.MNT_IRQ_STATUS 11 0 (((s.wrB Reg.MNT_STATUS 4 false).wrB Reg.MNT_STATUS 5 true).bump Reg.MNT_KAT_FAIL))
  | some c =>
    if pass then .next (s.wrB (Reg.MNT_LM_STATUS c) 16 true)
    else
      let s := ((s.wrB (Reg.MNT_LM_STATUS c) 16 false).wrB (Reg.MNT_LM_STATUS c) 17 true).bump Reg.MNT_KAT_FAIL
      let s := { s with keys := { s.keys with leafStopped := tput (dflt false) s.keys.leafStopped c true } }
      .next (evictFlows (fun k _ => k / 16384 == c.val) s)

/-! ### Purges (R239) -/

/-- Open a purge. -/
def openPurge (w : PurgeWhat) (cmd : Option CmdRef) (s : State) : State :=
  ({ s with keys := { s.keys with purges := s.keys.purges ++ [(⟨w, [], cmd⟩ : Purge)] } } : State).wrB Reg.MNT_STATUS 6 true

/-- The seed of a roll: 0 ledger, 1 X25519, 2 ML-KEM: its slot, purpose code and class. -/
def seedSlot (t which : Nat) : Nat := if which = 0 then signSlot t else if which = 1 then x25519Slot t else mlkemSlot t
def seedPurpose (which : Nat) : Nat := 0x11 + which

/-- Raise a slot's generation, wrapping. -/
def rollGen (n : Nat) (s : State) : State := s.setSlot n { s.slot n with gen := ((s.slot n).gen + 1) % 256 }

/-- The purpose slots and the L2 slot of a tenant pass to EMPTY, with their store records. -/
def removeTenantKeys (t : Nat) (s : State) : State :=
  let ns := s.tenantSlots t
  let s := ns.foldl (fun s n => if (s.slot n).state = 0 then s else
    let v := s.slot n
    let s := emptySlot n s
    event 0x0040 (srcMaster 260) t (keyEventData 4 n { v with incarn := (s.slot n).incarn } (fit 5 v.kcv)) s) s
  { s with keys := { s.keys with
      store := ns.foldl (fun st n => tput (dflt (⟨[], []⟩ : KeyRecord)) st n (⟨[], []⟩ : KeyRecord)) s.keys.store
      seeds := tclear s.keys.seeds (fun k => k % 512 == t) } }

/-- The monitor key after a change of its parents, at the generation it has, with its check record (R216, R228). -/
def remakeMonitor (t : Nat) (s : State) : State :=
  storeSlot (monitorSlot t) (derives 3 (makeMonitor t (s.slot (monitorSlot t)).gen s))

/-- What a purge commits when every tile has acknowledged it. -/
def commitPurge (w : PurgeWhat) (s : State) : State :=
  let s := s.bump Reg.MNT_PURGES
  match w with
  | .tenantGen t =>
    let s := makePurposes t (makeL2 t (rollGen (l2Slot t) s))
    let s := fillSeeds t ([l2Slot t, signSlot t, x25519Slot t, mlkemSlot t, monitorSlot t].foldl (fun s n => storeSlot n s) s)
    sendConfig t ([5] ++ be 1 (s.slot (l2Slot t)).gen) (keyEvent 5 (l2Slot t) (derives 7 s))
  | .regionGen t r =>
    let e := s.region t r
    let g := (e.gen + 1) % 256
    let s := { s with keys := { s.keys with regions := tput (dflt ⟨false, false, 0⟩) s.keys.regions (4096 * t + r) { e with gen := g } } }
    let s := if r = 4095 then remakeMonitor t s else s
    sendConfig t ([4] ++ be 2 r ++ be 1 g) (event 0x0040 (srcMaster 260) t ([6, 0] ++ be 2 r ++ [0] ++ be 1 g ++ be 1 (s.tenant t).domain ++ [0]) s)
  | .destroyTenant t => doneStep 0x0918 (sendConfig t [2] (removeTenant t (removeTenantKeys t s)))
  | .seed t w =>
    let n := seedSlot t w
    let s := storeSlot n (makePurpose t n (seedPurpose w) (0x05 + w) (rollGen n s))
    let s := derives 1 (if w = 0 then s else fillSeeds t s)
    let v := s.slot n
    event 0x0040 (srcMaster 260) t (keyEventData 5 n v (if w = 0 then sha256 (ledgerPublic s t) else fit 5 v.kcv)) s

/-- A tile's Leaf Mints erase what a purge names, L3 keys still on their way to them with it, and evict the matching flows. -/
def purgeTile (tile : Nat) (w : PurgeWhat) (s : State) : State :=
  let s : State := { s with keys := { s.keys with
    deliver := s.keys.deliver.filter (fun d => !(d.1 / 16 == tile && w.covers d.2.tenant d.2.region)) } }
  let s := (List.range 16).foldl (fun s i => dropL3 (16 * tile + i) (fun e => w.covers e.tenant e.region) s) s
  let regionOf (k : Nat) (f : Flow) : Nat := match s.flowSlot k f with | some n => (s.term n).region | none => 4095
  evictFlows (fun k f => k / 16384 / 16 == tile && w.covers f.tenant (regionOf k f)) s

/-- Whether every tile that is waited for has acknowledged. -/
def State.tilesAcked (s : State) (acks : List Nat) : Bool :=
  [0, 1, 2, 3].all (fun t => acks.contains t || tget (dflt TileCond.up) s.sys.tiles t != .up)

/-- PURGE_ACK: a tile acknowledges the open purge; when every tile has, the change commits and its command completes (R239). -/
def execPurgeAck (tile : Fin 4) (s : State) : Out :=
  if !s.linkOk tile then .next s else
  match s.keys.purges with
  | [] => .next s
  | p :: rest =>
    let s := purgeTile tile p.what s
    let p := { p with acks := p.acks ++ [tile.val] }
    if !s.tilesAcked p.acks then .next { s with keys := { s.keys with purges := p :: rest } }
    else
      let s := { s with keys := { s.keys with purges := rest } }
      let s := s.wrB Reg.MNT_STATUS 6 (rest != [])
      .next (finalReply? p.cmd 0 (commitPurge p.what s))

/-! ### Queries of group 0x02 (R253) -/

/-- Whether a slot belongs to the caller: a VF's tenant, or the device for PF0. -/
def ownsSlot (c : HostCmd) (v : Slot) : Bool := v.owner == (if c.fn.val = 0 then 0xFFFF else c.own)

/-- GET_SLOT: the metadata record of a slot of the caller. -/
def execGetSlot (c : HostCmd) (handle : BitVec 32) (s : State) : Out :=
  .next (hostRun 0x0201 c [] (fun s =>
    match s.slotOf handle with
    | none => .fail 0x1201
    | some n => if ownsSlot c (s.slot n) then .done 0 ((s.slot n).metaBytes n) 0 s else .fail 0x2204) s)

/-- GET_KCV: the recorded key check value (R245). -/
def execGetKcv (c : HostCmd) (handle : BitVec 32) (s : State) : Out :=
  .next (hostRun 0x0202 c [] (fun s =>
    match s.slotOf handle with
    | none => .fail 0x1201
    | some n => if ownsSlot c (s.slot n) then .done 0 (s.slot n).kcv 0 s else .fail 0x2204) s)

/-- GET_PUBKEYS: the public keys expanded from a tenant's seeds, all three kinds in basic form (R220). -/
def execGetPubkeys (c : HostCmd) (tenant : Fin 512) (which : Fin 3) (s : State) : Out :=
  let t := c.target tenant
  .next (hostRun 0x0203 c [t] (fun s =>
    if !s.mintUp then .fail 0x4201
    else
      let out := if c.expert then (match which.val with | 0 => ledgerPublic s t | 1 => x25519Public s t | _ => mlkemPublic s t)
        else ledgerPublic s t ++ x25519Public s t ++ mlkemPublic s t
      .done 0 out 0 (derives (if c.expert then 2 else 6) s)) s)

/-- A region table entry as two bytes: EXISTS and PRELOAD, and the generation. -/
def regionBytes (r : Region) : Bytes := be 1 (b2n r.present + 2 * b2n r.preload) ++ be 1 r.gen

/-- GET_REGIONS: entries of the tenant's region table (R252). -/
def execGetRegions (c : HostCmd) (first count : BitVec 16) (s : State) : Out :=
  let t := c.own
  .next (hostRun 0x0204 c [t] (fun s =>
    if 4096 < first.toNat + count.toNat then .fail 0x1205
    else .done 0 ((List.range count.toNat).flatMap (fun i => regionBytes (s.region t (first.toNat + i)))) 0 s) s)

/-- The attestation statement of R247. -/
def attestStatement (s : State) (n : Nat) (challenge : Bytes) : Bytes :=
  [0x41, 0x54, 0x54, 0x31] ++ be 8 Config.serial.toNat ++ be 8 s.epoch ++ be 2 n ++ be 1 s.sys.mode.code
    ++ be 1 (s.fld Reg.SYS_HOLD 7 0) ++ fit 32 challenge ++ s.mrDigest

/-- ATTEST: the statement with its CMAC under the slot's key; one invocation is charged (R247) and the slot's record written (R228). -/
def execAttest (c : HostCmd) (handle : BitVec 32) (challenge : Bytes) (s : State) : Out :=
  .next (hostRun 0x0205 c [] (fun s =>
    match s.slotOf handle with
    | none => .fail 0x1201
    | some n =>
      let v := s.slot n
      if !ownsSlot c v ∨ v.cls ≠ 0x0A ∨ !v.attr.getLsbD 5 then .fail 0x2201
      else if v.state = 2 then .fail 0x3202
      else
        let st := attestStatement s n challenge
        .done 0 (st ++ cmac v.key st) 0 (chargeStored n s)) s)

/-! ### Changes of group 0x02 -/

/-- The attributes a class permits (R230). -/
def classAttrs (cls : Nat) : BitVec 8 :=
  match cls with
  | 0x02 => 0x40 | 0x08 => 0x11 | 0x09 => 0x07 | 0x0A => 0x20 | 0x0B => 0x09 | _ => 0

/-- The default attributes of a class (R253). -/
def defaultAttrs (cls : Nat) : BitVec 8 :=
  match cls with
  | 0x08 => 0x10 | 0x09 => 0x06 | 0x0A => 0x20 | 0x0B => 0x08 | _ => 0

/-- The classes a stored key may have. -/
def storedClass (cls : Nat) : Bool := decide (0x08 ≤ cls) && decide (cls ≤ 0x0B)

/-- Whether a LIMIT_EXP is permitted. -/
def limitOk (e : Nat) : Bool := e == 0 || (decide (20 ≤ e) && decide (e ≤ 32))

/-- Metadata of a pool slot: level 7, no domain. -/
def poolMeta (cls len : Nat) (attr : BitVec 8) (origin owner limit : Nat) : Slot :=
  { Slot.empty with level := 7, origin := origin, cls := cls, len := len, attr := attr, owner := owner, domain := 0xFF, limitExp := limit }

/-- Fill a free pool slot, with its store record and KEY event; the handle is the output. -/
def newPoolKey (n : Nat) (key : Bytes) (v : Slot) (action : Nat) (s : State) : State :=
  notePool (keyEvent action n (storeSlot n (fillSlot n key v s)))

/-- GENERATE_KEY: a pool slot is filled from the central DRBG (R244, R253). -/
def execGenerateKey (c : HostCmd) (cls len : BitVec 8) (attr : BitVec 8) (limit : BitVec 8) (s : State) : Out :=
  let t := c.own
  .next (hostRun 0x0210 c [t] (fun s =>
    let k := cls.toNat
    let l := if c.expert then len.toNat else 3
    let a := if c.expert then attr else defaultAttrs k
    let e := if c.expert then limit.toNat else 31
    if !storedClass k ∨ l < 1 ∨ 3 < l ∨ a &&& ~~~(classAttrs k) ≠ 0 then .fail 0x1202
    else if !limitOk e then .fail 0x1206
    else if s.bitOf Reg.RNG_STATUS 1 then .fail 0x4720
    else match poolSlot t s with
      | .error st => .fail st
      | .ok n =>
        let key := s.freeBytes (8 * (l + 1))
        let s := newPoolKey n key (poolMeta k l a 1 t e) 1 (s.drawnBytes 32)
        .done 0 (be 4 (s.handle n)) 0 s) s)

/-- Whether a clear key block header is well formed and of a stored class (R241, step 2). -/
def blockOk (b : Bytes) : Bool :=
  b.length == 72 && field b 0 1 == 1 && storedClass (field b 1 1) && decide (1 ≤ field b 2 1) && decide (field b 2 1 ≤ 3)
    && (BitVec.ofNat 8 (field b 3 1) &&& ~~~(classAttrs (field b 1 1))) == 0 && limitOk (field b 13 1) && field b 14 2 == 0

/-- IMPORT_WRAPPED: the checks of R241 in order, then a pool slot with ORIGIN WRAPPED; the KEK is charged one invocation. -/
def execImportWrapped (c : HostCmd) (kek : BitVec 32) (block : Bytes) (s : State) : Out :=
  let t := c.own
  .next (hostRun 0x0212 c [t] (fun s =>
    match s.slotOf kek with
    | none => .fail 0x1201
    | some kn =>
      let kv := s.slot kn
      if !ownsSlot c kv ∨ !kv.attr.getLsbD 2 then .fail 0x2201
      else if kv.state = 2 then .fail 0x3202
      else if !blockOk block then .fail 0x1202
      else if field block 4 2 ≠ t then .fail 0x2204
      else match kwUnwrap kv.key (block.drop 16) with
        | none => .fail 0x1203
        | some p =>
          let len := 8 * (field block 2 1 + 1)
          let key := slice p 16 len
          if p.take 16 ≠ block.take 16 then .fail 0x1203
          else if (p.drop (16 + len)).any (fun x => x != 0) ∨ kcvOf key ≠ slice block 8 5 then .fail 0x1204
          else match poolSlot t s with
            | .error st => .fail st
            | .ok n =>
              let v := poolMeta (field block 1 1) (field block 2 1) (BitVec.ofNat 8 (field block 3 1)) 3 t (field block 13 1)
              let s := newPoolKey n key { v with domain := field block 6 1, gen := field block 7 1 } 2 s
              .done 0 (be 4 (s.handle n)) 0 (chargeStored kn s)) s)

/-- EXPORT_WRAPPED: the key block of an exportable slot under a KEK of the tenant (R242). -/
def execExportWrapped (c : HostCmd) (handle kek : BitVec 32) (s : State) : Out :=
  let t := c.own
  .next (hostRun 0x0213 c [t] (fun s =>
    match s.slotOf handle, s.slotOf kek with
    | some n, some kn =>
      let v := s.slot n
      let kv := s.slot kn
      if !ownsSlot c v ∨ !ownsSlot c kv then .fail 0x2204
      else if !s.bitOf Reg.VLT_CTL 1 ∨ !v.attr.getLsbD 0 ∨ v.attr.getLsbD 6 ∨ !kv.attr.getLsbD 1 then .fail 0x2201
      else if kv.state = 2 then .fail 0x3202
      else .done 0 (keyBlock kv.key v) 0 (chargeStored kn s)
    | _, _ => .fail 0x1201) s)

/-- Remove a slot's key store record. -/
def unstoreSlot (n : Nat) (s : State) : State :=
  { s with keys := { s.keys with store := tput (dflt ⟨[], []⟩) s.keys.store n ⟨[], []⟩ } }

/-- Destroy a slot: both shares zeroed, the store record removed, the slot EMPTY with its incarnation raised, and a KEY event (R244, R616). -/
def destroySlot (n : Nat) (s : State) : State :=
  let v := s.slot n
  destroyedEvent n v (unstoreSlot n (emptySlot n s))

/-- DESTROY_KEY: both shares zeroed, the store record removed, the slot EMPTY with its incarnation raised, and a KEY event (R244, R616). -/
def execDestroyKey (c : HostCmd) (handle : BitVec 32) (s : State) : Out :=
  .next (hostRun 0x0214 c [c.own] (fun s =>
    match s.slotOf handle with
    | none => .fail 0x1201
    | some n =>
      let v := s.slot n
      if !ownsSlot c v then .fail 0x2204
      else if !isPool n then .fail 0x2201
      else
        .done 0 [] 0 (destroySlot n s)) s)

/-- BIND_ZONE: a zone of the tenant is bound to a ZONE slot with ZONE_USE, or unbound by handle 0 (R246). -/
def execBindZone (c : HostCmd) (zone : BitVec 16) (handle : BitVec 32) (s : State) : Out :=
  let t := c.own
  .next (hostRun 0x0215 c [t] (fun s =>
    let bind (h : Nat) (s : State) : State :=
      { s with keys := { s.keys with zones := tput (dflt 0) s.keys.zones (256 * t + zone.toNat) h } }
    if 256 ≤ zone.toNat then .fail 0x1205
    else if handle = 0 then .done 0 [] 0 (bind 0 s)
    else match s.slotOf handle with
      | none => .fail 0x1201
      | some n =>
        let v := s.slot n
        if !ownsSlot c v ∨ !isPool n ∨ v.cls ≠ 0x08 ∨ !v.attr.getLsbD 4 then .fail 0x2201 else .done 0 [] 0 (bind handle.toNat s)) s)

/-- CREATE_REGION: a region of the tenant exists from now on; the expert form gives PRELOAD (R252). -/
def execCreateRegion (c : HostCmd) (region : BitVec 16) (preload : Bool) (s : State) : Out :=
  let t := c.own
  .next (hostRun 0x0216 c [t] (fun s =>
    if 4096 ≤ region.toNat then .fail 0x1205
    else
      let e := tget (dflt ⟨false, false, 0⟩) s.keys.regions (4096 * t + region.toNat)
      .done 0 [] 0 (sendConfig t ([3] ++ be 2 region.toNat ++ be 1 (b2n preload)) { s with keys := { s.keys with
        regions := tput (dflt ⟨false, false, 0⟩) s.keys.regions (4096 * t + region.toNat)
          { e with present := true, preload := if c.expert then preload else e.preload } } })) s)

/-- CHILD_EXP of a tenant's L2 slot, which is also the exponent of the monitor slot's limit (R219, R233). -/
def setChildExp (t e : Nat) (s : State) : State :=
  let s := s.setSlot (l2Slot t) { s.slot (l2Slot t) with childExp := e }
  let s := if (s.slot (monitorSlot t)).state = 0 then s else s.setSlot (monitorSlot t) { s.slot (monitorSlot t) with limitExp := e }
  storeSlot (l2Slot t) s

/-- SET_USAGE_LIMIT: CHILD_EXP of the tenant's L2, or in expert form the LIMIT_EXP of a pool slot (R253, R254). -/
def execSetUsageLimit (c : HostCmd) (childExp : BitVec 8) (handle : BitVec 32) (limit : BitVec 8) (s : State) : Out :=
  let t := c.own
  .next (hostRun 0x0217 c [t] (fun s =>
    if !c.expert then
      if childExp.toNat < 20 ∨ 32 < childExp.toNat then .fail 0x1206
      else .done 0 [] 0 (setChildExp t childExp.toNat s)
    else match s.slotOf handle with
      | none => .fail 0x1201
      | some n =>
        if !ownsSlot c (s.slot n) ∨ !isPool n then .fail 0x1201
        else if !limitOk limit.toNat then .fail 0x1206
        else .done 0 [] 0 (storeSlot n (settleSlot n (s.setSlot n { s.slot n with limitExp := limit.toNat })))) s)

/-- ROLL_PURPOSE: a seed of the tenant moves to a new generation under a purge (R254). -/
def execRollPurpose (c : HostCmd) (which : Fin 3) (s : State) : Out :=
  let t := c.own
  .next (hostRun 0x0218 c [t] (fun s =>
    if !s.sys.maint.has t then .fail 0x2203
    else if !s.mintUp then .fail 0x4201
    else .wait 0x0101 (openPurge (.seed t which) (some c.ref) s)) s)

/-- ROLL_HIERARCHY: the tenant generation, or a region generation, moves on under a ticket and a purge (R254). -/
def execRollHierarchy (c : HostCmd) (region : Option (BitVec 16)) (s : State) : Out :=
  let t := c.own
  .next (hostRun 0x0219 c [t] (withTicket 0x0219 c t true 0x2202 (fun _ s =>
    if !s.sys.maint.has t then .fail 0x2203
    else match region with
      | some r =>
        if 4096 ≤ r.toNat ∨ !(s.region t r.toNat).present then .fail 0x1205
        else if !s.mintUp then .fail 0x4201
        else .wait 0x0101 (openPurge (.regionGen t r.toNat) (some c.ref) s)
      | none => if !s.mintUp then .fail 0x4201 else .wait 0x0101 (openPurge (.tenantGen t) (some c.ref) s))) s)

end Sys2Proof.Machine
end

