-- ==== Sys2Proof/Machine/Digest.lean ====
section
/-! DEFINITION. The digest engine (chapter 13): SHA-2 and HMAC computations in blocks, contexts and host sessions, feeds, the boot image
stream, escrow blobs, measurement registers and comparison flags. -/

namespace Sys2Proof.Machine

/-! ### Computations in blocks (R386, R388) -/

/-- Block and output sizes of an algorithm: 0 SHA-256, 1 SHA-384, 2 SHA-512. -/
def algBlock (alg : Nat) : Nat := if alg = 0 then 64 else 128
def algOut (alg : Nat) : Nat := if alg = 0 then 32 else if alg = 1 then 48 else 64

/-- The words of a chaining value. -/
def stateWords (w : Nat) (b : Bytes) : List (BitVec w) := (List.range 8).map (fun i => BitVec.ofNat w (field b (i * (w / 8)) (w / 8)))

/-- The initial chaining value, as bytes. -/
def algInit (alg : Nat) : Bytes :=
  if alg = 0 then iv256.flatMap (fun x => be 4 x.toNat)
  else if alg = 1 then iv384.flatMap (fun x => be 8 x.toNat)
  else iv512.flatMap (fun x => be 8 x.toNat)

/-- Compress whole blocks into a chaining value. -/
def algBlocks (alg : Nat) (h b : Bytes) : Bytes :=
  if alg = 0 then (shaBlocks sha256Params k256 (b.length / 64) (stateWords 32 h) b).flatMap (fun x => be 4 x.toNat)
  else (shaBlocks sha512Params k512 (b.length / 128) (stateWords 64 h) b).flatMap (fun x => be 8 x.toNat)

/-- Finish a computation of `len` bytes in all (the key block of an HMAC included) with the pending bytes. -/
def algFinish (alg : Nat) (h tail : Bytes) (len : Nat) : Bytes :=
  if alg = 0 then shaFinish sha256Params k256 (stateWords 32 h) len tail
  else (shaFinish sha512Params k512 (stateWords 64 h) len tail).take (algOut alg)

/-- The two HMAC midstates of a key: inner and outer (R388). -/
def midstates (alg : Nat) (key : Bytes) : Bytes × Bytes :=
  let k := fit (algBlock alg) key
  (algBlocks alg (algInit alg) (k.map (· ^^^ 0x36)), algBlocks alg (algInit alg) (k.map (· ^^^ 0x5C)))

/-- Absorb bytes: whole blocks are compressed, the rest is kept. -/
def DigSession.absorb (x : DigSession) (b : Bytes) : DigSession :=
  let all := x.partBlock ++ b
  let n := all.length / algBlock x.alg * algBlock x.alg
  { x with inner := algBlocks x.alg x.inner (all.take n), partBlock := all.drop n, absorbed := x.absorbed + b.length }

/-- The digest of a session whose bytes are all absorbed. -/
def DigSession.digest (x : DigSession) : Bytes :=
  if x.hmac then
    let i := algFinish x.alg x.inner x.partBlock (algBlock x.alg + x.absorbed)
    algFinish x.alg x.outer i (algBlock x.alg + algOut x.alg)
  else algFinish x.alg x.inner x.partBlock x.absorbed

/-! ### Slots of keyed computations (R388, R389) -/

/-- Whether a slot's owner is the tenant of a colour, or the device for colours 0 and 1023. -/
def ownerOfColour (colour owner : Nat) : Bool :=
  if colour = 0 ∨ colour = 1023 then owner == 0xFFFF else colour == owner + 1

/-- Why a slot handle may not key a computation under a colour: `none` when it may; 3 SLOT, 4 USAGE. -/
def State.macSlot (s : State) (handle colour : Nat) : Except Nat Nat :=
  match s.slotOf (BitVec.ofNat 32 handle) with
  | none => .error 3
  | some n =>
    let v := s.slot n
    if v.cls ≠ 0x0B ∨ !v.attr.getLsbD 3 ∨ !ownerOfColour colour v.owner then .error 3
    else if v.state = 2 then .error 4
    else .ok n

/-- A new session: its midstates are formed by the Mint and the slot is charged one invocation; error 6 is a Mint that has stopped (R238). -/
def openSession (fn : Option Nat) (colour alg total : Nat) (hmac : Bool) (handle : Nat) (job : Word) (ring0 : Bool) (s : State) : Except Nat (DigSession × State) :=
  let base : DigSession := ⟨fn, colour, alg, hmac, if hmac then handle else 0, total, 0, algInit alg, [], [], job, 1, 0, [], ring0⟩
  if !hmac then .ok (base, s)
  else if !s.mintUp then .error 6
  else match s.macSlot handle colour with
    | .error e => .error e
    | .ok n =>
      let m := midstates alg (s.slot n).keyBytes
      .ok ({ base with inner := m.1, outer := m.2 }, chargeStored n s)

/-- Whether the slot of a keyed session still lives under its handle. -/
def State.sessionLive (s : State) (x : DigSession) : Bool := !x.hmac || (s.slotOf (BitVec.ofNat 32 x.handle)).isSome

/-! ### Contexts (R387, R390, R391) -/

/-- Change the digest engine. -/
def updDig (f : DigestState → DigestState) (s : State) : State := { s with dig := f s.dig }

/-- A context, and a host session. -/
def State.ctx (s : State) (i : Nat) : DigSession := tget (dflt DigSession.free) s.dig.ctxs i
def State.session (s : State) (n : Nat) : DigSession := tget (dflt DigSession.free) s.dig.sessions n

/-- Replace a context, or a host session. -/
def setCtx (i : Nat) (x : DigSession) (s : State) : State := updDig (fun d => { d with ctxs := tput (dflt DigSession.free) d.ctxs i x }) s
def setSession (n : Nat) (x : DigSession) (s : State) : State :=
  updDig (fun d => { d with sessions := tput (dflt DigSession.free) d.sessions n x }) s

/-- Close the host sessions of functions (R405). -/
def closeSessions (p : Nat → Bool) (s : State) : State :=
  let gone (x : DigSession) : Bool := x.fn.any p
  updDig (fun d => { d with
    sessions := d.sessions.filter (fun e => !gone e.2)
    resident := d.resident.filter (fun n => !gone (s.session n))
    blobs := d.blobs.filter (fun e => !gone (s.session e.1))
    feeds := d.feeds.filter (fun f => !f.cmd.any (fun r => p r.fn))
    ctxs := d.ctxs.filter (fun e => !gone e.2)
    evicted := d.evicted.filter (fun x => !gone x) }) s

/-- The pair of comparison words (R398). -/
def cmpPair (reg inv : Nat) (ok : Bool) (s : State) : State :=
  if ok then (s.wr reg 0x5AC33CA5).wr inv 0xA53CC35A else (s.wr reg 0).wr inv 0xFFFFFFFF

/-- The comparison words while no result is known. -/
def cmpClear (reg inv : Nat) (s : State) : State := (s.wr reg 0).wr inv 0

/-- The expected value of DIG_EXP, cut to `n` bytes. -/
def State.digExpected (s : State) (n : Nat) : Bytes := ((List.range 16).flatMap (fun i => le 4 (s.rd (Reg.DIG_EXP i)).toNat)).take n

/-- Whether ring 0 (or the snoop context) may extend a measurement register (R396). -/
def State.mrOpen (s : State) (i : Nat) (snoop : Bool) : Bool :=
  if i < 8 then !s.bitOf Reg.DIG_MR_LOCK 0
  else if snoop then false
  else if i < 16 then !s.bitOf Reg.DIG_MR_LOCK 1
  else decide (i < 24)

/-- An extension refused at gate 8 with FIXED. -/
def mrRefuse (master : Nat) (s : State) : State :=
  violate 0x8 ((s.rgnsAt 8 Reg.DIG_MR_CTL).headD 15) none ⟨Reg.DIG_MR_CTL, 2, true, 0, master, 1023⟩ s

/-- Finish the computation of a context: the result, or a comparison that hides it; and the extension that DIG_JOB asks for. -/
def finishCtx (i : Nat) (x : DigSession) (dis : Bool) (s : State) : State :=
  let d := x.digest
  let cmp := bit x.job 3
  let s := setCtx i { x with stat := 3, result := if cmp then [] else d } s
  let s := if cmp then
      (if dis then irq Reg.DIG_IRQ_STATUS 4 10 (cmpClear Reg.DIG_CMP Reg.DIG_CMP_INV s)
       else cmpPair Reg.DIG_CMP Reg.DIG_CMP_INV (d == s.digExpected d.length) s)
    else s
  let s := if bit x.job 4 then
      (if x.ring0 && s.mrOpen (bits x.job 9 5) false then extendMr (bits x.job 9 5) d s else mrRefuse 256 s)
    else s
  irq Reg.DIG_IRQ_STATUS 4 i s

/-- A context ends in an error. -/
def failCtx (i err : Nat) (s : State) : State :=
  irq Reg.DIG_IRQ_STATUS 4 8 (setCtx i { s.ctx i with stat := 4, err := err } s)

/-! ### The boot image stream (R392) -/

/-- The end of the stream is reached: compared, extended, or both. -/
def snoopDone (x : DigSession) (s : State) : State :=
  let d := x.digest
  let ctl := s.rd Reg.DIG_SNOOP_CTL
  let s := setCtx 6 { x with stat := 3, result := if bit ctl 1 then [] else d } s
  let s := if bit ctl 1 then cmpPair Reg.DIG_CMP Reg.DIG_CMP_INV (d == s.digExpected d.length) s else s
  let s := if bit ctl 2 then (if s.mrOpen (bits ctl 7 3) true then extendMr (bits ctl 7 3) d s else mrRefuse 256 s) else s
  irq Reg.DIG_IRQ_STATUS 4 9 (irq Reg.DIG_IRQ_STATUS 4 6 s)

/-- Arm the snoop context: a write of DIG_SNOOP_CTL with ARM set. -/
def snoopArm (s : State) : State :=
  let ctl := s.rd Reg.DIG_SNOOP_CTL
  if !bit ctl 0 then s
  else
    let alg := bits ctl 9 8
    let x : DigSession := ⟨none, 1023, alg, false, 0, s.fld Reg.DIG_SNOOP_LEN 24 0, 0, algInit alg, [], [], 0, 2, 0, [], true⟩
    let s := if bit ctl 1 then cmpClear Reg.DIG_CMP Reg.DIG_CMP_INV s else s
    updDig (fun d => { d with snoopNext := (s.rd Reg.DIG_SNOOP_BASE).toNat }) (setCtx 6 x s)

/-- Whether a read touches a sector that is INCOMPLETE_ERASE. -/
def State.readsIncomplete (s : State) (a n : Nat) : Bool :=
  (List.range 144).any (fun k => s.sectorIncomplete k && decide ((sectorRange k).1 < a + n) && decide (a < (sectorRange k).1 + (sectorRange k).2))

/-- A read burst of the flash window feeds the snoop context; one that starts above the next expected address, or that reads an incomplete
sector, ends the snoop with error GAP. -/
def snoopFeed (a n : Nat) (s : State) : State :=
  let x := s.ctx 6
  let base := (s.rd Reg.DIG_SNOOP_BASE).toNat
  let last := base + s.fld Reg.DIG_SNOOP_LEN 24 0
  if x.stat ≠ 2 ∨ a + n ≤ base ∨ last ≤ a then s
  else
    let a1 := max a base
    let e1 := min (a + n) last
    let next := s.dig.snoopNext
    if e1 ≤ next then s
    else if next < a1 ∨ s.readsIncomplete (a1 - 0x04000000) (e1 - a1) then failCtx 6 2 s
    else
      let x := x.absorb (s.flashBytes (next - 0x04000000) (e1 - next))
      let s := updDig (fun d => { d with snoopNext := e1 }) s
      if e1 = last then snoopDone x s else setCtx 6 x s

/-- Serve a read of the flash window: note an indeterminate one, feed the snoop, and restart the idle time of the window. -/
def serveRead (a n : Nat) (s : State) : State :=
  snoopFeed (0x04000000 + a) n (noteIndet a n (updFsh (fun f => { f with lastRead := s.now }) s))

/-- A read by an engine of the Strongroom, which the snoop context sees when it reads the flash window (R392). -/
def dmaRead (master colour addr len : Nat) (host : Bytes) (s : State) : Option Bytes × State :=
  match gateRead master colour addr len host s with
  | (some b, s) => (some b, if inFlash addr then serveRead (addr - 0x04000000) len s else s)
  | r => r

/-- Whether a read by an engine waits: it reads the flash window while an operation holds it (R453). -/
def State.readWaits (s : State) (addr : Nat) : Bool := inFlash addr && !s.flashIdle

/-! ### Escrow blobs (R393, R394) -/

/-- The blob of a session under the escrow key. -/
def blobOf (x : DigSession) (s : State) : Bytes :=
  let hdr := [0x45, 0x53, 0x43, 0x31] ++ be 2 x.colour ++ be 1 x.alg ++ be 1 (b2n x.hmac) ++ be 8 s.dig.serial ++ be 8 x.total
    ++ be 8 x.absorbed ++ be 4 x.handle ++ zeros 4
  let body := fit 64 x.inner ++ fit 64 x.outer ++ fit 128 x.partBlock
  let iv := be 8 s.dig.serial ++ zeros 4
  let c := gcmCrypt s.dig.escrowKey iv body
  hdr ++ c ++ gcmTag s.dig.escrowKey iv hdr c

/-- Count a blob serial as used. -/
def nextSerial (s : State) : State := updDig (fun d => { d with serial := d.serial + 1 }) s

/-- Checks 2 and 3 of R394 on a blob: the status that fails, or the session it holds. -/
def readBlob (b : Bytes) (s : State) : Except Nat DigSession :=
  let alg := field b 6 1
  let total := field b 16 8
  let done := field b 24 8
  if b.length ≠ 312 ∨ b.take 4 ≠ [0x45, 0x53, 0x43, 0x31] ∨ 1023 < field b 4 2 ∨ 2 < alg ∨ 1 < field b 7 1 ∨ field b 36 4 ≠ 0
      ∨ total < done ∨ 2 ^ 48 ≤ total then .error 0x1704
  else
    let iv := slice b 8 8 ++ zeros 4
    let c := slice b 40 256
    if gcmTag s.dig.escrowKey iv (b.take 40) c ≠ slice b 296 16 then .error 0x1705
    else
      let p := gcmCrypt s.dig.escrowKey iv c
      .ok ⟨none, field b 4 2, alg, field b 7 1 == 1, field b 32 4, total, done, (slice p 0 64).take (if alg = 0 then 32 else 64),
        (slice p 64 64).take (if alg = 0 then 32 else 64), slice p 128 (done % algBlock alg), 0, 1, 0, [], false⟩

/-! ### Host sessions in contexts (R391) -/

/-- The contexts 0 to 5 that host sessions may hold: those no register job holds. -/
def State.hostContexts (s : State) : Nat := 6 - ((List.range 6).filter (fun i => (s.ctx i).stat != 0)).length

/-- A host session leaves its context, or the area of evicted sessions. -/
def leaveContext (n : Nat) (s : State) : State :=
  updDig (fun d => { d with resident := d.resident.erase n, blobs := tput (dflt []) d.blobs n [] }) s

/-- A host session closes. -/
def closeHostSession (n : Nat) (s : State) : State := leaveContext n (setSession n DigSession.free s)

/-- Evict a host session: its state goes to the DRAM area as an escrow blob. -/
def evictSession (n : Nat) (s : State) : State :=
  let x := s.session n
  let b := blobOf x s
  nextSerial (setSession n { x with inner := [], outer := [], partBlock := [] }
    (updDig (fun d => { d with resident := d.resident.erase n, blobs := tput (dflt []) d.blobs n b }) s))

/-- The host session to evict: the least recently fed that is not running. -/
def State.evictable (s : State) : Option Nat := s.dig.resident.find? (fun n => (s.session n).stat != 2)

/-- A register job has taken a context: a host session is evicted when too few are left. -/
def fitContexts (s : State) : State :=
  if s.dig.resident.length < s.hostContexts then s
  else match s.evictable with
    | some n => evictSession n s
    | none => s

/-- Restore a session from its blob. -/
def restoreSession (n : Nat) (s : State) : State :=
  match readBlob (tget (dflt []) s.dig.blobs n) s with
  | .ok y => setSession n { s.session n with inner := y.inner, outer := y.outer, partBlock := y.partBlock }
      (updDig (fun d => { d with blobs := tput (dflt []) d.blobs n [] }) s)
  | .error _ => s

/-- Give a host session a context, as the most recently fed: one that holds none takes a free one, or that of the least recently fed session that is not
running, which is evicted; `none` while all are running. -/
def seatSession (n : Nat) (s : State) : Option State :=
  let last (s : State) : State := restoreSession n (updDig (fun d => { d with resident := d.resident.erase n ++ [n] }) s)
  if s.dig.resident.contains n ∨ s.dig.resident.length < s.hostContexts then some (last s)
  else s.evictable.map (fun m => last (evictSession m s))

/-! ### Jobs of the registers -/

/-- The context selected; contexts 6 and 7 take no job. -/
def State.ctxSel (s : State) : Nat := s.fld Reg.DIG_CTX_SEL 2 0
def State.jobCtx (s : State) : Bool := decide (s.ctxSel < 6) && s.bitOf Reg.DIG_CTL 0 && (s.ctx s.ctxSel).stat != 2

/-- A write of DIG_GO that the gate refuses: from ring 2 or 3 (R406). -/
def digRefuse (ring : Nat) (s : State) : State := refuseFixed ring Reg.DIG_GO true s

/-- An OPEN written by a ring: it opens a session in the selected context with the staged job; an open session there is evicted (R390, R391). A computation that
needs the Mint while it has stopped fails as SLOT. -/
def digOpen (ring : Nat) (s : State) : Out :=
  let i := s.ctxSel
  if 1 < ring then .next (digRefuse ring s)
  else if !s.jobCtx then .next s
  else
    let old := s.ctx i
    let s := if old.stat = 1 then updDig (fun d => { d with evicted := d.evicted ++ [old] }) s else s
    let job := s.rd Reg.DIG_JOB
    if bits job 1 0 = 3 then .next (failCtx i 5 s)
    else match openSession none (s.fld Reg.DIG_JOB_COLOUR 9 0) (bits job 1 0) (s.rd64 Reg.DIG_TOTAL_LO) (bit job 2)
        (s.rd Reg.DIG_SLOT).toNat job (ring == 0) s with
      | .error e => .next (failCtx i (if e = 6 then 3 else e) s)
      | .ok (x, s) =>
        let s := fitContexts s
        let s := if bit job 3 then cmpClear Reg.DIG_CMP Reg.DIG_CMP_INV s else s
        if x.total = 0 then .next (finishCtx i x false s) else .next (setCtx i x s)

/-- DIG_GO_OPEN: the custody core writes OPEN in the ring it runs in (R390). -/
def execDigGoOpen (s : State) : Out := digOpen s.core.cring s

/-- DIG_GO_FEED: a DMA feed starts; one that would pass the declared total is refused before any byte is read (R390). -/
def execDigGoFeed (s : State) : Out :=
  let i := s.ctxSel
  let x := s.ctx i
  let n := (s.rd Reg.DIG_LEN).toNat
  if !s.jobCtx ∨ x.stat ≠ 1 ∨ n = 0 ∨ x.total < x.absorbed + n then .next s
  else if !s.sessionLive x then .next (failCtx i 3 s)
  else
    let f : DigFeed := ⟨.context i, s.rd64 Reg.DIG_SRC_LO, n, s.fld Reg.DIG_JOB_COLOUR 9 0, none, none, false⟩
    .next (updDig (fun d => { d with feeds := d.feeds ++ [f] }) (setCtx i { x with stat := 2, err := 0 } s))

/-- DIG_GO_ABORT: the selected context is abandoned (R406). -/
def execDigGoAbort (s : State) : Out :=
  let i := s.ctxSel
  .next (updDig (fun d => { d with feeds := d.feeds.filter (fun f => f.target != .context i) }) (setCtx i DigSession.free s))

/-- DIG_GO_EXPORT: the selected session is written as a blob at DIG_ESC_ADDR and closed. -/
def execDigGoExport (s : State) : Out :=
  let i := s.ctxSel
  let x := s.ctx i
  if !s.jobCtx ∨ x.stat ≠ 1 ∨ !s.bitOf Reg.DIG_CTL 1 then .next s
  else
    let a := s.rd64 Reg.DIG_ESC_ADDR_LO
    let b := blobOf x s
    match s.dmaCheck 256 x.colour true a 312 with
    | some (ac, c, r, t) => .next (failCtx i 1 (violate c r t ac s))
    | none => .next (setCtx i DigSession.free (nextSerial (memPut a b s)))
where
  /-- Store bytes of a blob into custody SRAM or DRAM; host memory is outside the device. -/
  memPut (a : Nat) (b : Bytes) (s : State) : State :=
    if a < 0x200000 then { s with gte := { s.gte with sram := tputBytes (dflt 0) s.gte.sram a b } }
    else match s.dramAddr a with
      | some d => if 0x40000000 ≤ a ∧ a < 0x80000000 then { s with gte := { s.gte with dram := tputBytes (dflt 0) s.gte.dram d b } } else s
      | none => s

/-- An IMPORT written by a ring: the blob at DIG_ESC_ADDR becomes the session of the selected context when every check passes; `host` is what host memory
answers when the address lies there. -/
def digImport (ring : Nat) (host : Bytes) (s : State) : Out :=
  let i := s.ctxSel
  let col := s.fld Reg.DIG_JOB_COLOUR 9 0
  if 1 < ring then .next (digRefuse ring s)
  else if !s.jobCtx ∨ !s.bitOf Reg.DIG_CTL 1 then .next s
  else match dmaRead 256 col (s.rd64 Reg.DIG_ESC_ADDR_LO) 312 host s with
    | (none, s) => .next (failCtx i 1 s)
    | (some b, s) =>
      match readBlob b s with
      | .error _ => .next (failCtx i 5 s)
      | .ok x =>
        let x := { x with job := s.rd Reg.DIG_JOB, ring0 := ring == 0 }
        if x.colour ≠ col then .next (failCtx i 5 s)
        else if !x.hmac then .next (setCtx i x (fitContexts s))
        else match s.macSlot x.handle col with
          | .error e => .next (failCtx i e s)
          | .ok n => .next (chargeStored n (setCtx i x (fitContexts s)))

/-- DIG_GO_IMPORT: the custody core writes IMPORT in the ring it runs in (R394). -/
def execDigGoImport (host : Bytes) (s : State) : Out := digImport s.core.cring host s

/-! ### Feeds of host sessions and their end (R390, R404) -/

/-- The final reply of a feed. -/
def endFeed (f : DigFeed) (status : Nat) (out : Bytes) (s : State) : State :=
  match f.cmd with
  | some c => finalReply c status out 0 s
  | none => s

/-- Finish a host session: its digest, or the comparison with an expected value; DIGEST closes it. -/
def finishSession (n : Nat) (x : DigSession) (f : DigFeed) (dis : Bool) (s : State) : State :=
  let d := x.digest
  let s := if f.oneShot then closeHostSession n s else leaveContext n (setSession n { x with stat := 3, result := d } s)
  match f.expect with
  | none => endFeed f 0 d s
  | some e =>
    if dis then endFeed f 0xE701 [] (alarm 0x08 4 (srcMaster 256) true (irq Reg.DIG_IRQ_STATUS 4 10 s))
    else endFeed f (if d = e then 0 else 0x1706) [] s

/-- DIGEST_FEED_DONE: the oldest feed ends; a refused read or an engine fault leaves the session as it was at its start. The buffer of a host
command lies in the memory of its function. -/
def execDigestFeedDone (host : Bytes) (r : EngineResult) (s : State) : Out :=
  match s.dig.feeds with
  | [] => .next s
  | f :: fs =>
    if f.cmd.isNone && s.readWaits f.addr then .next (askSuspend s) else
    let s := updDig (fun d => { d with feeds := fs }) s
    let x := match f.target with | .context i => s.ctx i | .session n => s.session n
    match (if f.cmd.isSome then (some (fit f.len host), s) else dmaRead 256 f.colour f.addr f.len host s) with
    | (data, s) =>
      let bad := data.isNone || r == .readFail
      match f.target with
      | .context i =>
        if !s.sessionLive x then .next (failCtx i 3 s)
        else if bad then .next (irq Reg.DIG_IRQ_STATUS 4 8 (setCtx i { x with stat := 1, err := 1 } s))
        else if r = .fault then .next (irq Reg.DIG_IRQ_STATUS 4 8 (setCtx i { x with stat := 1 } s))
        else
          let x := x.absorb (data.getD [])
          if x.absorbed = x.total then .next (finishCtx i x (r == .disagree) s) else .next (setCtx i { x with stat := 1 } s)
      | .session n =>
        let back (s : State) : State := if f.oneShot then closeHostSession n s else setSession n { x with stat := 1 } s
        if !s.sessionLive x then .next (endFeed f 0x2701 [] (back s))
        else if bad then .next (endFeed f 0x1703 [] (back s))
        else if r = .fault then .next (endFeed f 0x4701 [] (back s))
        else
          let x := x.absorb (data.getD [])
          if x.absorbed = x.total then .next (finishSession n x f (r == .disagree) s)
          else .next (endFeed f 0 [] (setSession n { x with stat := 1 } s))

/-! ### Measurement registers (R395 to R397) -/

/-- MR_EXTEND_START: a write of DIG_MR_CTL by the cores in a ring; registers it has no right to, or locked ranges, are refused at gate 8. -/
def execMrExtendStart (ring : Fin 4) (value : Word) (s : State) : Out :=
  let i := bits value 4 0
  let n := bits value 14 8
  if ring ≠ 0 ∨ !s.mrOpen i false then
    .next (refuseFixed ring Reg.DIG_MR_CTL true s)
  else if s.dig.extend.isSome then .next (s.wrB Reg.DIG_MR_STAT 1 true)
  else if n = 0 ∨ 64 < n then .next s
  else
    let v := ((List.range 16).flatMap (fun k => le 4 (s.rd (Reg.DIG_MR_DATA k)).toNat)).take n
    .next ((updDig (fun d => { d with extend := some (i, v) }) s).wrB Reg.DIG_MR_STAT 0 true)

/-- MR_EXTEND_DONE: context 7 completes the extension as one step. -/
def execMrExtendDone (s : State) : Out :=
  match s.dig.extend with
  | none => .next s
  | some (i, v) =>
    let s := (updDig (fun d => { d with extend := none }) s).wrB Reg.DIG_MR_STAT 0 false
    .next (irq Reg.DIG_IRQ_STATUS 4 7 (extendMr i v s))

/-- A master's read of DIG_MR_VAL0 snapshots DIG_MR_VAL1 to DIG_MR_VAL11 for it (R397). -/
def snapMr (master : Nat) (s : State) : State :=
  let v := s.mr (s.fld Reg.DIG_MR_SEL 4 0)
  let word (i : Nat) : Word := BitVec.ofNat 32 (ofLe (slice v (4 * i) 4))
  { s with gte := { s.gte with
    snaps := ((List.range 11).map (· + 1)).foldl (fun t i => tput (dflt none) t (2048 * Reg.DIG_MR_VAL i + master) (some (word i))) s.gte.snaps } }

/-- MR_VALUE_SNAPSHOT: the custody core, master 0, reads DIG_MR_VAL0 (R397). -/
def execMrValueSnapshot (s : State) : Out := .next (snapMr 0 s)

/-! ### Commands (R404) -/

/-- The sessions of a function, by number. -/
def State.sessionsOf (s : State) (fn : Nat) : List (Nat × DigSession) := s.dig.sessions.filter (fun e => e.2.fn == some fn)

/-- The session share of a function (R391). -/
def sessionLimit (fn : Nat) : Nat := if fn = 0 then 64 else 16

/-- The lowest free session number (which number a session receives is not stated: log entry 5). -/
def State.freeSession (s : State) : Nat := ((List.range 8448).find? (fun n => (s.session n).fn == none)).getD 8447

/-- The status of an error code of the engine: USAGE, a stopped Mint (R238), or any other slot error. -/
def slotStatus (e : Nat) : Nat := if e = 4 then 0x3702 else if e = 6 then 0x4201 else 0x2701

/-- GET_DIGEST_SESSIONS: 24 bytes each: number, ALG, HMAC and state, handle, declared total and bytes absorbed. -/
def execGetDigestSessions (c : HostCmd) (s : State) : Out :=
  .next (hostRun 0x0701 c [] (fun s =>
    .done 0 ((s.sessionsOf c.fn).flatMap (fun e => be 2 e.1 ++ be 1 (e.2.alg + 128 * b2n e.2.hmac) ++ be 1 e.2.stat ++ be 4 e.2.handle
      ++ be 8 e.2.total ++ be 8 e.2.absorbed)) 0 s) s)

/-- The algorithm of a command: its profile in basic form, a parameter in expert form. -/
def algOf (c : HostCmd) (alg : Fin 3) : Nat := if c.expert then alg else c.profile.toNat

/-- The handle and the expected value that an expert form adds. -/
def exHandle (c : HostCmd) (handle : Option (BitVec 32)) : Option (BitVec 32) := if c.expert then handle else none
def exExpect (c : HostCmd) (e : Option Bytes) : Option Bytes := if c.expert then e else none

/-- Open a host session for a command in a context: what the command answers of its number, the session and the state, or the status that refuses it.
A session that stays open counts against the share of R391; while every context is running the command waits. -/
def hostSession (c : HostCmd) (alg : Fin 3) (total : Nat) (handle : Option (BitVec 32)) (counts : Bool) (k : Nat → DigSession → State → Ans)
    (s : State) : Ans :=
  if 2 ^ 48 ≤ total then .fail 0x1702
  else if counts ∧ sessionLimit c.fn ≤ (s.sessionsOf c.fn).length then .fail 0x3701
  else
    let h := exHandle c handle
    match openSession (some c.fn) c.fn (algOf c alg) total h.isSome ((h.getD 0).toNat) 0 false s with
    | .error e => .fail (slotStatus e)
    | .ok (x, s) =>
      match seatSession s.freeSession s with
      | none => .later
      | some s => k s.freeSession x s

/-- DIGEST: a one-shot digest or HMAC. -/
def execDigest (c : HostCmd) (alg : Fin 3) (addr len : BitVec 64) (handle : Option (BitVec 32)) (expect : Option Bytes) (s : State) : Out :=
  .next (hostRun 0x0710 c [] (hostSession c alg len.toNat handle false (fun n x s =>
    let f : DigFeed := ⟨.session n, addr.toNat, len.toNat, c.fn, some c.ref, exExpect c expect, true⟩
    .wait 0x0107 (updDig (fun d => { d with feeds := d.feeds ++ [f] }) (setSession n { x with stat := 2 } s)))) s)

/-- DIGEST_OPEN: a session with a declared total; its number is the reply's detail. A total of 0 is complete at once. -/
def execDigestOpen (c : HostCmd) (alg : Fin 3) (total : BitVec 64) (handle : Option (BitVec 32)) (s : State) : Out :=
  .next (hostRun 0x0711 c [] (hostSession c alg total.toNat handle true (fun n x s =>
    .done 0 [] n (if x.total = 0 then leaveContext n (setSession n { x with stat := 3, result := x.digest } s) else setSession n x s))) s)

/-- The session a command names, when it is the caller's. -/
def ownSession (c : HostCmd) (n : BitVec 16) (s : State) : Option DigSession :=
  let x := s.session n.toNat
  if x.fn = some c.fn.val then some x else none

/-- DIGEST_FEED: a feed of a session; one that would pass the declared total is refused. A session that is running is a resource the command waits
for (R390). -/
def execDigestFeed (c : HostCmd) (session : BitVec 16) (addr : BitVec 64) (len : BitVec 32) (expect : Option Bytes) (s : State) : Out :=
  .next (hostRun 0x0712 c [] (fun s =>
    match ownSession c session s with
    | none => .fail 0x1701
    | some x =>
      if x.stat = 2 then .later
      else if len = 0 ∨ x.total < x.absorbed + len.toNat then .fail 0x1702
      else if !s.sessionLive x then .fail 0x2701
      else
        match seatSession session.toNat s with
        | none => .later
        | some s =>
          let f : DigFeed := ⟨.session session.toNat, addr.toNat, len.toNat, c.fn, some c.ref, exExpect c expect, false⟩
          .wait 0x0107 (updDig (fun d => { d with feeds := d.feeds ++ [f] }) (setSession session.toNat { s.session session.toNat with stat := 2 } s))) s)

/-- DIGEST_EXPORT: the session as an escrow blob; the session closes. -/
def execDigestExport (c : HostCmd) (session : BitVec 16) (s : State) : Out :=
  .next (hostRun 0x0713 c [] (fun s =>
    match ownSession c session s with
    | none => .fail 0x1701
    | some x =>
      if x.stat = 2 then .later
      else if !s.bitOf Reg.DIG_CTL 1 then .fail 0x2702
      else if c.outLen < 312 then .fail 0x3703
      else
        let s := restoreSession session.toNat s
        .done 0 (blobOf (s.session session.toNat) s) 0 (closeHostSession session.toNat (nextSerial s))) s)

/-- DIGEST_IMPORT: the six checks of R394 in order; a slot that passes the fifth is charged even when the sixth fails. -/
def execDigestImport (c : HostCmd) (blob : Bytes) (s : State) : Out :=
  .next (hostRun 0x0714 c [] (fun s =>
    if !s.bitOf Reg.DIG_CTL 1 then .fail 0x2702
    else match readBlob blob s with
      | .error e => .fail e
      | .ok x =>
        if x.colour ≠ c.fn.val then .fail 0x2701
        else
          let put (s : State) : Ans :=
            if sessionLimit c.fn ≤ (s.sessionsOf c.fn).length then .done 0x3701 [] 0 s
            else match seatSession s.freeSession s with
              | none => .later
              | some s => .done 0 [] s.freeSession (setSession s.freeSession { x with fn := some c.fn.val } s)
          if !x.hmac then put s
          else match s.macSlot x.handle c.fn with
            | .error e => .fail (slotStatus e)
            | .ok n => put (chargeStored n s)) s)

/-- DIGEST_CLOSE: the session loses its state. -/
def execDigestClose (c : HostCmd) (session : BitVec 16) (s : State) : Out :=
  .next (hostRun 0x0715 c [] (fun s =>
    match ownSession c session s with
    | none => .fail 0x1701
    | some x => if x.stat = 2 then .later else .done 0 [] 0 (closeHostSession session.toNat s)) s)

end Sys2Proof.Machine
end

