-- ==== Sys2Proof/Machine/Cipher.lean ====
section
/-! DEFINITION. The custody cipher engine (chapter 13, R400 to R403, R407): the register key, main and urgent jobs, and the CMAC command. -/

namespace Sys2Proof.Machine

/-- Change the cipher engine. -/
def updCph (f : CipherState → CipherState) (s : State) : State := { s with cph := f s.cph }

/-- Show MAIN_BUSY, URGENT_BUSY and SUSPENDED. -/
def showCph (s : State) : State :=
  ((s.wrB Reg.CPH_STATUS 0 (s.cph.main != [])).wrB Reg.CPH_STATUS 1 (s.cph.urgent != [])).wrB Reg.CPH_STATUS 2
    (s.cph.main != [] && s.cph.urgent != [])

/-- The last error of the engine, with the ERROR interrupt. -/
def cphError (e : Nat) (s : State) : State := irq Reg.CPH_IRQ_STATUS 5 2 (s.wrF Reg.CPH_STATUS 15 8 e)

/-- The register key: the XOR of its two shares (R401). -/
def State.wkey (s : State) : Bytes :=
  xorB ((List.range 8).flatMap (fun i => le 4 (s.rd (Reg.CPH_WKEYA i)).toNat)) ((List.range 8).flatMap (fun i => le 4 (s.rd (Reg.CPH_WKEYB i)).toNat))

/-- Clear the register key (R402). -/
def clearWkey (s : State) : State :=
  let s := (List.range 8).foldl (fun s i => (s.wr (Reg.CPH_WKEYA i) 0).wr (Reg.CPH_WKEYB i) 0) s
  (updCph (fun c => { c with written := [] }) ((s.wrB Reg.CPH_STATUS 3 false).wr Reg.CPH_WKEY_USED 0))

/-- CPH_WKEY_WRITE: a word of share A (false) or B (true); the register key is loaded once all 16 words have been written (R401). -/
def execCphWkeyWrite (share : Bool) (word : Fin 8) (value : Word) (s : State) : Out :=
  let s := s.wr (if share then Reg.CPH_WKEYB word else Reg.CPH_WKEYA word) value
  let k := word.val + 8 * b2n share
  let s := updCph (fun c => { c with written := if c.written.contains k then c.written else c.written ++ [k] }) s
  .next (s.wrB Reg.CPH_STATUS 3 (s.cph.written.length == 16))

/-- CPH_WKEY_CLEAR: a write of CPH_WKEY_CLR with bit 0 set. -/
def execCphWkeyClear (s : State) : Out := .next (clearWkey s)

/-- Count a job on the register key; at the limit the key is cleared and WKEY_SPENT raised (R402). -/
def spendWkey (s : State) : State :=
  let n := s.fld Reg.CPH_WKEY_USED 15 0 + 1
  let s := s.wr Reg.CPH_WKEY_USED (BitVec.ofNat 32 n)
  if s.fld Reg.CPH_WKEY_LIMIT 15 0 ≤ n then irq Reg.CPH_IRQ_STATUS 5 4 (clearWkey s) else s

/-- The staged job with its key: an error code, or the job and the state in which its key is charged. -/
def stageJob (s : State) : Except Nat (CphJob × State) :=
  let j := s.rd Reg.CPH_JOB
  let col := s.fld Reg.CPH_COLOUR 9 0
  let exp (u : Bool) : Bytes := (List.range 4).flatMap (fun i => le 4 (s.rd (if u then Reg.CPH_UEXP i else Reg.CPH_EXP i)).toNat)
  let job (key : Bytes) (h : Option Nat) : CphJob :=
    ⟨bit j 0, key, h, col, s.rd64 Reg.CPH_SRC_LO, (s.rd Reg.CPH_LEN).toNat, bit j 4, exp (bit j 5), none⟩
  if bit j 1 then
    if bits j 3 2 = 0 ∨ !s.bitOf Reg.CPH_CTL 1 ∨ !s.bitOf Reg.CPH_STATUS 3 then .error 5
    else .ok (job (s.wkey.take (8 * (bits j 3 2 + 1))) none, spendWkey s)
  else
    let h := (s.rd Reg.CPH_SLOT).toNat
    match s.macSlot h col with
    | .error e => .error (if e = 4 then 2 else 3)
    | .ok n => .ok (job (s.slot n).keyBytes (some h), chargeStored n s)

/-- CPH_JOB_START: a write of CPH_GO with GO set, from a ring. A ring 1 GO with URGENT is refused at gate 9 with FIXED; a GO while the context is busy
has no effect beyond NO_WKEY for a job that needed the register key (R407). -/
def execCphJobStart (ring : Fin 4) (s : State) : Out :=
  let j := s.rd Reg.CPH_JOB
  if ring ≠ 0 ∧ bit j 5 then
    .next (refuseFixed ring Reg.CPH_GO true s)
  else if !s.bitOf Reg.CPH_CTL 0 then .next s
  else if (if bit j 5 then s.cph.urgent else s.cph.main) ≠ [] then
    .next (if bit j 1 then s.wrF Reg.CPH_STATUS 15 8 5 else s)
  else match stageJob s with
    | .error e => .next (cphError e s)
    | .ok (job, s) =>
      let s := if bit j 4 then
          (if bit j 5 then cmpClear Reg.CPH_UCMP Reg.CPH_UCMP_INV s else cmpClear Reg.CPH_CMP Reg.CPH_CMP_INV s) else s
      if bit j 5 then
        let s := if s.cph.main ≠ [] then s.bump Reg.CPH_SUSPENDS else s
        .next (showCph (updCph (fun c => { c with urgent := [job] }) s))
      else .next (showCph (updCph (fun c => { c with main := [job] }) s))

/-- The tag of a job: 16 bytes; a KCV fills the first five. -/
def CphJob.tag (j : CphJob) (data : Bytes) : Bytes := if j.kcv then fit 16 (kcvOf j.key) else cmac j.key data

/-- Report a register job: tag or comparison. -/
def reportJob (urgent : Bool) (j : CphJob) (tag : Bytes) (dis : Bool) (s : State) : State :=
  let put (t : Bytes) (s : State) : State :=
    (List.range 4).foldl (fun s i => s.wr (if urgent then Reg.CPH_UTAG i else Reg.CPH_TAG i) (BitVec.ofNat 32 (ofLe (slice t (4 * i) 4)))) s
  let c := if urgent then Reg.CPH_UCMP else Reg.CPH_CMP
  let ci := if urgent then Reg.CPH_UCMP_INV else Reg.CPH_CMP_INV
  let n := if j.kcv then 5 else 16
  let s := if !j.compare then put tag s
    else if dis then irq Reg.CPH_IRQ_STATUS 5 3 (cmpClear c ci (put [] s))
    else cmpPair c ci (tag.take n == j.expect.take n) (put [] s)
  irq Reg.CPH_IRQ_STATUS 5 (b2n urgent) s

/-- Whether the slot of a job still lives. -/
def State.jobLive (s : State) (j : CphJob) : Bool :=
  match j.handle with
  | none => true
  | some h => (s.slotOf (BitVec.ofNat 32 h)).isSome

/-- End a job that a command waits for. -/
def endCmac (c : CmdRef) (j : CphJob) (tag : Bytes) (r : EngineResult) (s : State) : State :=
  if !s.jobLive j then finalReply c 0x2701 [] 0 s
  else if r = .readFail then finalReply c 0x1703 [] 0 s
  else if r = .fault then finalReply c 0x4701 [] 0 s
  else if !j.compare then finalReply c 0 tag 0 s
  else if r = .disagree then finalReply c 0xE701 [] 0 (alarm 0x08 5 (srcMaster 257) true (irq Reg.CPH_IRQ_STATUS 5 3 s))
  else finalReply c (if tag = j.expect then 0 else 0x1706) [] 0 s

/-- CPH_JOB_DONE: the running job ends, an urgent one before a main one; a job whose slot was destroyed ends with SLOT_GONE (R403). -/
def execCphJobDone (host : Bytes) (r : EngineResult) (s : State) : Out :=
  let urgent := s.cph.urgent != []
  match (if urgent then s.cph.urgent else s.cph.main) with
  | [] => .next s
  | j :: js =>
    if j.cmd.isNone && !j.kcv && s.readWaits j.addr then .next (askSuspend s) else
    let s := showCph (updCph (fun c => if urgent then { c with urgent := js } else { c with main := js }) s)
    match j.cmd with
    | some c => .next (endCmac c j (j.tag (fit j.len host)) r (s.bump Reg.CPH_JOBS))
    | none =>
      if !s.jobLive j then .next (cphError 4 s)
      else match (if j.kcv then (some [], s) else dmaRead 257 j.colour j.addr j.len host s) with
        | (none, s) => .next (cphError 1 s)
        | (some d, s) =>
          if r = .readFail ∧ !j.kcv then .next (cphError 1 s)
          else if r = .fault then .next (irq Reg.CPH_IRQ_STATUS 5 2 s)
          else .next (reportJob urgent j (j.tag d) (r == .disagree) (s.bump Reg.CPH_JOBS))

/-- CMAC: AES-CMAC under a slot of the caller; it waits for the main context (R84). -/
def execCmac (c : HostCmd) (handle : BitVec 32) (addr : BitVec 64) (len : BitVec 32) (expect : Option Bytes) (s : State) : Out :=
  .next (hostRun 0x0716 c [] (fun s =>
    match s.macSlot handle.toNat c.fn with
    | .error e => .fail (slotStatus e)
    | .ok n =>
      if s.cph.main ≠ [] then .later else
      let e := exExpect c expect
      let j : CphJob := ⟨false, (s.slot n).keyBytes, some handle.toNat, c.fn, addr.toNat, len.toNat, e.isSome, e.getD [], some c.ref⟩
      .wait 0x0107 (showCph (updCph (fun x => { x with main := x.main ++ [j] }) (chargeStored n s)))) s)

end Sys2Proof.Machine
end

