-- ==== Sys2Proof/Machine/PortCmds.lean ====
section
/-! DEFINITION. The commands of ports, frames, engines and the fabric (chapters 04 and 05). -/

namespace Sys2Proof.Machine

/-! ### Frames at a port's ingress (R129 to R140) -/

/-- Whether a frame in progress has already been discarded. -/
def InFrame.isDiscarded (f : InFrame) : Bool := match f.kind with | .discarded _ => true | _ => false

/-- The frame in progress at a port, unless discarded. -/
def State.live (s : State) (p : Nat) : Option InFrame := (s.port p).cur.filter (fun f => !f.isDiscarded)

/-- A frame whose first byte has just arrived at port `p`: the configuration it completes under is the present one (R22). -/
def newFrame (s : State) (p : Nat) (k : FrameKind) : InFrame :=
  ⟨p, s.stamp, 0, [], k, 0, 0, 0, false, none, none, [], [], 0, false, false, false, false, s.distributedU s.tim.now, s.timeFit s.tim.now,
    none, 0, 0, clusterOf p, 0, 0, false, none, ⟨s.regs, s.flow.profiles, s.keys.zones.filter (fun e => s.handleLive e.2)⟩⟩

/-- The rule of R140 that discards a frame when it begins, as its counter. -/
def startRule (s : State) (p : Nat) : Option Nat :=
  if s.portState p ≠ 3 ∨ !s.bitOf (Reg.DPL_CTL (clusterOf p)) 0 then some 0x118
  else if !s.bufferRoom p then some 0x114
  else if !s.hasVerify p then some 0x17C
  else none

/-- The codewords of a lane's RS(544,514) decoder since the last frame: corrected, and not correctable (R176). -/
def countFec (p corrected lost : Nat) (s : State) : State := (s.bumpBy (Reg.portBase p + 0x194) corrected).bumpBy (Reg.portBase p + 0x198) lost

/-- Begin a frame at a port by the start rules of R140: discarded and counted, or in progress. -/
def beginFrame (p : Nat) (k : FrameKind) (s : State) : State :=
  match startRule s p with
  | some o =>
    let s := if o = 0x114 then irq (Reg.DPL_IRQ_STATUS (clusterOf p)) (32 + tileOf p) 4 s else s
    setCur p (some (newFrame s p (.discarded o))) (count p o s)
  | none => setCur p (some (newFrame s p k)) s

/-- At the start of a frame the fragment mark clears (R152). -/
def clearFragment (p : Nat) (s : State) : State := s.setPort p { s.port p with fragment := false, fragSeen := false }

/-- FRAME_START: `dt` nanoseconds after the last event a frame begins at a port whose link is up (R49, R140), whose decoder has corrected and lost the
codewords given. A frame already in progress at the port goes on. -/
def execFrameStart (dt : Nat) (start : PortStart) (s : State) : Out :=
  let s := s.advance dt
  let port := start.port
  if !s.portLink port ∨ s.member port ∨ (s.live port).isSome then .next s
  else .next (beginFrame port .unknown (clearFragment port (countFec port start.corrected.toNat start.lost.toNat s)))

/-- Bytes with no frame in progress: after a stall they are one fragment, counted once as a runt (R152). -/
def fragmentBytes (p : Nat) (s : State) : State :=
  let d := s.port p
  if d.fragment ∧ !d.fragSeen then count p 0x104 (s.setPort p { d with fragSeen := true }) else s

/-- Whether a seal frame past its header stage is to be held whatever its flow. -/
def InFrame.waitsTail (f : InFrame) : Bool := f.held || (f.waiting && f.toHold)

/-- What a beat that has been appended leads to. A cut-through seal frame that has grown past the length its header implies is over: it ends with the
verdict it already has, as LENGTH, or once its flow is set up (R137). Any other frame is discarded as a giant at byte 9,217 (R140). A held frame's bytes
go into the hold buffer. -/
def beatRules (f : InFrame) (s : State) : State :=
  if f.kind = .seal ∧ f.hdrDone ∧ !f.waitsTail ∧ f.hoff + 52 + f.hdr.plen < f.data.length then
    let (f, s) := accept f s
    let s := setCur f.port (some { f with kind := .discarded 0x13C, data := [], waiting := false }) s
    if f.waiting then setWaiting f.home (s.waitingIn f.home ++ [{ f with complete := true }]) s
    else refuse f (if f.verdict = 0 then 0x13 else f.verdict) none s
  else if maxFrame < f.data.length then setCur f.port (some { f with kind := .discarded 0x108, data := [] }) (macFail f 0x108 s)
  else setCur f.port (some f) (fillHold f s)

/-- A beat of at most 16 bytes joins a frame (R129); the rest of a frame that an underrun has failed is discarded (R151). The header stage follows as soon
as the bytes allow, while the port's verify engine works (R165). -/
def takeBeat (f : InFrame) (bytes : Bytes) (s : State) : State :=
  if f.under then s
  else
    let f := { f with data := f.data ++ bytes.take 16 }
    if s.verifyWaits f.port then beatRules f s
    else
      let (f, s) := headerStage f false s
      beatRules f s

/-- FRAME_BEAT: a beat of a frame arrives. -/
def execFrameBeat (port : Fin 512) (bytes : Bytes) (s : State) : Out :=
  match s.live port with
  | none => .next (fragmentBytes port s)
  | some f => .next (takeBeat f bytes s)

/-- HEADER_BEAT: the header beat arrives; parse, lookup and the stage C checks follow (R130, R131). -/
def execHeaderBeat (port : Fin 512) (bytes : Bytes) (s : State) : Out :=
  match s.live port with
  | none => .next (fragmentBytes port s)
  | some f => .next (takeBeat f bytes s)

/-- A consumed PAUSE frame (R141): opcode 1 pauses the transmitter while PAUSE_RX is 1. -/
def pauseBy (p quanta : Nat) (s : State) : State :=
  if s.bitOf (Reg.PRT_CTL p) 5 then
    (s.setPort p { s.port p with pause := quanta }).wrB (Reg.PRT_STATUS p) 10 (quanta != 0)
  else s

/-- Whether the bytes of a frame are a PAUSE frame. -/
def isPause (b : Bytes) : Option Nat :=
  if macRule b = some 0x10C ∧ field b 14 2 = 1 then some (field b 16 2) else none

/-- FRAME_TAIL: the last beat arrives, FCS included; the MAC rules and the stage D checks decide the frame (R138, R140). A frame that an
underrun has already failed ends as STALL (R151). -/
def execFrameTail (port : Fin 512) (bytes : Bytes) (s : State) : Out :=
  match (s.port port).cur with
  | none => .next (clearFragment port (fragmentBytes port s))
  | some f =>
    if f.isDiscarded then .next (setCur port none s)
    else if f.under then .next (endInTransit f 0x30 0 (setCur port none s))
    else
      let f := { f with data := f.data ++ bytes.take 16 }
      let s' := tailStage f (fillHold f s)
      .next (match isPause f.data with | some q => pauseBy port q s' | none => s')

/-- STALL_TIMER_EXPIRY: the stall timer of an incomplete frame expires (R150, R152); `sent` emitted bytes had left. -/
def execStallTimerExpiry (port : Fin 512) (sent : Nat) (s : State) : Out :=
  match s.live port with
  | none => .next s
  | some f =>
    let s := setCur port none s
    let s := s.setPort port { s.port port with fragment := true, fragSeen := false }
    .next (endInTransit f 0x30 sent s)

/-- End the frame in progress at a port as STALL or ENGINE; one that an underrun has failed ends as STALL (R151), and nothing is counted for a frame
already discarded. -/
def endCur (p code : Nat) (s : State) : State :=
  match s.live p with
  | none => setCur p none s
  | some f => endInTransit f (if f.under then 0x30 else code) 65536 (setCur p none s)

/-! ### PAUSE (R141) -/

/-- PAUSE_FRAME: a whole MAC control frame with opcode PAUSE arrives at a port; the start rules come first (R140). -/
def execPauseFrame (port : Fin 512) (quanta : BitVec 16) (s : State) : Out :=
  if !s.portLink port ∨ s.member port ∨ (s.live port).isSome then .next s
  else
    let s := clearFragment port s
    if (startRule s port).isSome then .next (setCur port none (beginFrame port .unknown s))
    else .next (pauseBy port quanta.toNat (count port 0x10C s))

/-- PAUSE_EXPIRY: the requested quanta have passed. -/
def execPauseExpiry (port : Fin 512) (s : State) : Out :=
  .next ((s.setPort port { s.port port with pause := 0 }).wrB (Reg.PRT_STATUS port) 10 false)

/-! ### The fabric and the egress (R145, R151, R155 to R162) -/

/-- Whether the link of a tile towards another is retraining. -/
def State.retraining (s : State) (a b : Nat) : Bool := s.bitOf (Reg.DPL_FAB_STATUS a) (4 + b)

/-- FABRIC_TRANSFER: the first frame that waits in a cluster's queue for an egress port crosses, once the egress buffer can reserve its full
length (R154, R155, R158). A frame for another tile leaves a record until it is acknowledged (R160). -/
def execFabricTransfer (cluster : Fin 64) (dst : Fin 512) (s : State) : Out :=
  match (s.port dst).queue.find? (fun g => clusterOf g.src == cluster && !g.crossed) with
  | none => .next s
  | some g =>
    if s.retraining (tileOf g.src) (tileOf dst) ∨ !s.routeOk g.src dst ∨ !s.egressRoom dst g.len g.urgent then .next s
    else .next (passHold g.src g.hold (updEgress dst (fun q => q.map (fun x =>
      if x = g then { x with crossed := true, acked := tileOf g.src == tileOf dst, hold := none } else x)) s))

/-- FABRIC_ACKNOWLEDGEMENT: the egress cluster's acknowledgement of the last beat of the oldest unacknowledged frame from a tile reaches its ingress,
which drops its record of the frame (R160). -/
def execFabricAcknowledgement (src : Fin 4) (dst : Fin 512) (s : State) : Out :=
  match s.dp.records.find? (fun r => tileOf r.src == src.val && r.dst == dst.val) with
  | some r => .next { s with dp := { s.dp with records := s.dp.records.filter (· != r) } }
  | none =>
    match (s.port dst).queue.find? (fun g => g.crossed && g.complete && !g.acked && tileOf g.src == src) with
    | none => .next s
    | some g => .next (updEgress dst (fun q => q.map (fun x => if x = g then { x with acked := true } else x)) s)

/-- The frame the egress MAC begins next: the head of the urgent queue when complete, else the head of the normal queue (R145). -/
def State.nextOut (s : State) (p : Nat) : Option EgFrame :=
  let q := (s.port p).queue.filter (fun g => g.crossed)
  match q.find? (fun g => g.urgent) with
  | some g => if g.complete then some g else q.find? (fun g => !g.urgent)
  | none => q.find? (fun g => !g.urgent)

/-- EGRESS_FRAME_START: at a frame boundary on the wire the egress MAC begins a frame; a complete one is sent, one still arriving goes on the
wire (R145). While the port moves to a spare seal engine frames wait in its queues (R165). -/
def execEgressFrameStart (port : Fin 512) (s : State) : Out :=
  if s.portState port ≠ 3 ∨ s.member port ∨ s.moving port true ∨ 0 < (s.port port).pause ∨ (s.port port).queue.any (fun g => g.onWire) then .next s
  else match s.nextOut port with
    | none => .next s
    | some g =>
      if g.complete then .next (sendQueued g s)
      else .next (updEgress port (fun q => q.map (fun x => if x = g then { x with onWire := true } else x)) s)

/-- The ingress frame behind a queued frame that is still arriving. -/
def State.source (s : State) (g : EgFrame) : Option InFrame := (s.live g.src).filter (fun f => f.num == g.num && f.egress == some g.dst)

/-- EGRESS_UNDERRUN: the frame on a port's wire runs dry after `sent` bytes; it ends at once with the STALL trailer (R151). -/
def execEgressUnderrun (port : Fin 512) (sent : Nat) (s : State) : Out :=
  match (s.port port).queue.find? (fun g => g.onWire) with
  | none => .next s
  | some g =>
    match s.source g with
    | none => .next s
    | some f =>
      let b := poisoned ((emittedSoFar f).take sent) 0x30 f.port f.stamp
      let s := count port 0x190 (wireDone port b false (dropQueued port g.num s))
      .next (setCur g.src (some { f with under := true }) s)

/-- A complete queued frame that will not be sent: a seal frame is refused with a verdict, any other frame from the wire leaves a notary leaf,
a record the device made is counted as dropped (R124, R153, R161). -/
def refuseQueued (code : Nat) (g : EgFrame) (s : State) : State :=
  let s := dropQueued g.dst g.num s
  match g.orig with
  | none => count g.src 0x184 s
  | some f =>
    let s := count g.src (verdictCounter code) s
    match f.kind with
    | .seal => sendRecords f code (pushRefusal f code s)
    | _ => pushNotary (clusterOf g.src) f (if code = 0x18 then 0x01 else 0x06) (if code = 0x18 then 0xFFFF else g.dst) true s

/-- Give up a queued frame: a complete one at once; one still arriving is refused at its tail. -/
def giveUp (code : Nat) (g : EgFrame) (s : State) : State :=
  if g.complete then refuseQueued code g s
  else
    let f? := s.source g
    let s := dropQueued g.dst g.num s
    match f? with
    | some f => setCur g.src (some { f with verdict := if f.verdict = 0 then code else f.verdict, egress := none }) s
    | none => s

/-- Give up every frame of a port's queue that is not on the wire. -/
def flushEgress (p : Nat) (s : State) : State :=
  ((s.port p).queue.filter (fun g => !g.onWire)).foldl (fun s g => giveUp 0x18 g s) s

/-- End a frame on a lost wire (R119, R153): counted, and journaled in its emitted form when its tail has passed. -/
def loseWire (p : Nat) (s : State) : State :=
  ((s.port p).queue.filter (fun g => g.onWire)).foldl (fun s g => count p 0x180 (dropQueued p g.num s)) s

/-- What a lost link does to a port's frames (R153). -/
def linkFrames (p : Nat) (s : State) : State := flushEgress p (loseWire p (clearFragment p (endCur p 0x30 s)))

/-! ### Tile-to-tile links (R160 to R162) -/

/-- The frames of every port queue that satisfy `p`. -/
def State.inQueues (s : State) (p : EgFrame → Bool) : List EgFrame := s.dp.ports.flatMap (fun e => e.2.queue.filter p)

/-- A frame sent over a failed link and not acknowledged: ended as STALL; an egress that has begun to send it ends it as an underrun (R151, R161). -/
def stallCrossed (g : EgFrame) (s : State) : State :=
  if g.complete then refuseQueued 0x30 g s
  else match s.source g with
    | some f => endInTransit f 0x30 65536 (setCur g.src none (if g.onWire then count g.dst 0x190 s else s))
    | none => dropQueued g.dst g.num s

/-- The link from tile `a` to tile `b` enters retraining: what was sent on it and not acknowledged ends as STALL (R161). -/
def linkFault (a b : Fin 4) (s : State) : State :=
    let s := ((s.wrB (Reg.DPL_FAB_STATUS a) b false).wrB (Reg.DPL_FAB_STATUS a) (4 + b) true).bump (Reg.DPL_FAB_RETRAIN a b)
    let l := s.inQueues (fun g => g.crossed && !g.acked && tileOf g.src == a.val && tileOf g.dst == b.val)
    let s : State := { s with dp := { s.dp with records := s.dp.records.filter (fun r => !(tileOf r.src == a.val && tileOf r.dst == b.val)) } }
    let s := l.foldl (fun s g => stallCrossed g s) s
    report ⟨0x07, 1, false, srcTile b, srcTile a, 0xFFFF, 0⟩ s

/-- TILE_LINK_FAULT: a tile-to-tile link loses lock or delivers a bad beat. -/
def execTileLinkFault (a b : Fin 4) (s : State) : Out := if a = b then .next s else .next (linkFault a b s)

/-- TILE_LINK_RETRAINED: the link is up again; firmware clears its route bit (R161, R162). -/
def execTileLinkRetrained (a b : Fin 4) (s : State) : Out :=
  if a = b then .next s
  else .next (((s.wrB (Reg.DPL_FAB_STATUS a) b true).wrB (Reg.DPL_FAB_STATUS a) (4 + b) false).wrB (Reg.DPL_FAB_ROUTE a) b false)

/-- TILE_LINK_RETRAIN_TIMEOUT: 1 ms without success; frames still queued are refused with EGRESS and firmware marks the route down. -/
def execTileLinkRetrainTimeout (a b : Fin 4) (s : State) : Out :=
  if a = b ∨ !s.retraining a b then .next s
  else
    let l := s.inQueues (fun g => !g.crossed && tileOf g.src == a.val && tileOf g.dst == b.val)
    let s := l.foldl (fun s g => giveUp 0x18 g (s.bump (Reg.DPL_FAB_DROP a b))) s
    .next ((s.wrB (Reg.DPL_FAB_STATUS a) (4 + b) false).wrB (Reg.DPL_FAB_ROUTE a) b true)

/-! ### Port states (R169, R170, R177, R178) -/

/-- Put a port, with its lanes, into a state, with or without a link. -/
def setPortState (p st : Nat) (link : Bool) (s : State) : State :=
  let s := if st = 3 ∧ !s.bitOf Reg.SYS_STATUS 2 then (s.wrB Reg.SYS_STATUS 2 true).wr Reg.SYS_BOOT_TIME (BitVec.ofNat 32 s.ms) else s
  (s.lanes p).foldl (fun s q => (s.wrF (Reg.PRT_STATUS q) 2 0 st).wrB (Reg.PRT_STATUS q) 3 link) s

/-- Whether a port is released: RELEASE is set, its tile is up (R44) and not in a hot hold (R537), and the Ledger is not halted (R289). -/
def State.releaseOn (s : State) (p : Nat) : Bool :=
  s.bitOf (Reg.PRT_CTL p) 1 && !s.bitOf Reg.THM_STATUS (tileOf p) && !s.bitOf Reg.LDG_STATUS 0
    && tget (dflt TileCond.up) s.sys.tiles (tileOf p) == .up

/-- PORT_LINK_UP: the link of a training port comes up (R169). -/
def execPortLinkUp (port : Fin 512) (s : State) : Out :=
  if s.portState port ≠ 1 ∨ s.member port then .next s
  else .next (setPortState port (if s.releaseOn port then 3 else 2) true s)

/-- A port's link is lost, or it is disabled or reset: its frames end and it trains or goes OFF. -/
def portDown (p st : Nat) (s : State) : State := setPortState p st false (linkFrames p s)

/-- PORT_LINK_LOST: a port loses its link (R153, R169). The report of a lost port lane names the external partner (R541). -/
def execPortLinkLost (port : Fin 512) (s : State) : Out :=
  if !s.portLink port ∨ s.member port then .next s
  else .next (report ⟨0x07, 4, false, srcPort port, srcExternal port, 0xFFFF, 0⟩ (portDown port 1 s))

/-! ### Engines and spares (R12, R163 to R167) -/

/-- The cluster and DPL_KAT_STATUS bit of an engine (R12). -/
def engineCluster (e : Nat) : Nat := if e < 1024 then e / 16 else (e - 1024) / 2
def engineBit (e : Nat) : Nat := if e < 1024 then e % 16 else 16 + e % 2

/-- Whether an engine is a seal engine. -/
def isSealEngine (e : Nat) : Bool := e % 2 == 1

/-- The engine that serves a port, of a kind. -/
def State.engineOf (s : State) (p : Nat) (isSeal : Bool) : Nat :=
  if isSeal then s.fld (Reg.PRT_ENGINES p) 26 16 else s.fld (Reg.PRT_ENGINES p) 10 0

/-- Set the engine that serves a port; 0x7FF = none. -/
def setEngine (p : Nat) (isSeal : Bool) (e : Nat) (s : State) : State :=
  if isSeal then s.wrF (Reg.PRT_ENGINES p) 26 16 e else s.wrF (Reg.PRT_ENGINES p) 10 0 e

/-- The port an engine serves. -/
def State.portOf (s : State) (e : Nat) : Option Nat := (List.range 512).find? (fun p => s.engineOf p (isSealEngine e) == e)

/-- The spare of a cluster of a kind, and whether it is free and healthy. -/
def spareOf (c : Nat) (isSeal : Bool) : Nat := 1024 + 2 * c + b2n isSeal
def State.spareFree (s : State) (c : Nat) (isSeal : Bool) : Bool :=
  let w := s.rd (Reg.DPL_SPARE c)
  let k := b2n isSeal
  !bit w k && !bit w (2 + k) && !bit w (4 + k)

/-- An engine of a kind stops serving a port: a spare becomes free again, or keeps its failed mark. -/
def releaseEngine (p : Nat) (isSeal : Bool) (e : Nat) (s : State) : State :=
  let k := b2n isSeal
  let s := (s.wrB (Reg.PRT_STATUS p) (5 + k) false).wrB (Reg.PRT_STATUS p) (7 + k) false
  if e < 1024 ∨ 1152 ≤ e then s
  else
    let c := engineCluster e
    let s := (s.wrB (Reg.DPL_SPARE c) k false).wrB (Reg.DPL_SPARE c) (4 + k) false
    let s := s.wrF (Reg.DPL_SPARE c) (11 + 4 * k) (8 + 4 * k) 0xF
    s.wrF (Reg.DPL_SPARE c) (21 + 8 * k) (16 + 8 * k) 0

/-- At a port reset, an active engine that has passed a retest takes up its port again, which frees what had served in its place (R578). -/
def regainEngines (p : Nat) (s : State) : State :=
  let l := s.rpr.regained.filter (fun e => e / 2 == p)
  l.foldl (fun (s : State) e => setEngine p (isSealEngine e) e (releaseEngine p (isSealEngine e) (s.engineOf p (isSealEngine e)) s))
    (updRpr (fun r => { r with regained := r.regained.filter (fun e => e / 2 != p) }) s)

/-- Whether a takeover of any lane of a port is in progress (R165). -/
def State.takingOver (s : State) (p : Nat) : Bool := (s.lanes p).any (fun q => (s.port q).takeover.isSome)

/-- The MAC of a port is reset: a pause in force ends. -/
def resetMac (p : Nat) (s : State) : State := (s.setPort p { s.port p with pause := 0 }).wrB (Reg.PRT_STATUS p) 10 false

/-- A port reset (R170), of every member when the port is grouped: it waits for a takeover in progress; a port that is OFF stays OFF. -/
def portReset (lane : Nat) (s : State) : State :=
  let p := s.leadOf lane
  if s.takingOver p then s.setPort p { s.port p with resetPending := true }
  else
    let s := resetMac p ((s.lanes p).foldl (fun s q => regainEngines q s) s)
    if s.portState p = 0 then s else portDown p 1 s

/-- PORT_RESET: a write of PRT_RESET (R178). -/
def execPortReset (port : Fin 512) (value : Word) (s : State) : Out :=
  if bit value 0 ∧ bits value 31 16 = 0x7C3D then .next (portReset port s) else .next s

/-- Set or clear PRT_CTL.ENABLE (R169). It is ignored in a non-lowest member of a group. In ZEROIZED all ports are
held down (R30). -/
def setEnable (p : Nat) (on : Bool) (s : State) : State :=
  let s := s.wrB (Reg.PRT_CTL p) 0 on
  if s.member p then s
  else if on then
    if s.portState p = 0 ∧ !(s.lanes p).any (fun q => s.bitOf (Reg.PRT_STATUS q) 4) ∧ s.plane ≠ .zeroized then
      setPortState p 1 false (s.setPort p { s.port p with trainStart := s.ms })
    else s
  else if s.portState p = 0 then s
  else portDown p 0 s

/-- Bring every port of a range to the state that RELEASE, hot hold and HALT give it; frames in progress complete. -/
def settlePorts (first n : Nat) (s : State) : State :=
  (List.range n).foldl (fun s i =>
    let p := first + i
    if s.member p then s
    else if s.portState p = 2 ∧ s.releaseOn p then setPortState p 3 true s
    else if s.portState p = 3 ∧ !s.releaseOn p then setPortState p 2 true s
    else s) s

/-- PRT_CTL.RELEASE set or cleared (R169): frames in progress complete. -/
def setRelease (p : Nat) (on : Bool) (s : State) : State :=
  let s := s.wrB (Reg.PRT_CTL p) 1 on
  if s.member p then s
  else if s.portState p = 2 ∧ s.releaseOn p then setPortState p 3 true s
  else if s.portState p = 3 ∧ !s.releaseOn p then setPortState p 2 true s
  else s

/-- Whether GROUP may change (R177): every member lane of the old and the new grouping is OFF, the port is the lowest lane of the new group,
and the value is defined. -/
def groupOk (s : State) (p g : Nat) : Bool :=
  g != 3 && p % (groupLanes g p).length == 0
    && (groupLanes (s.fld (Reg.PRT_CTL p) 7 6) p ++ groupLanes g p).all (fun q => s.portState q == 0)

/-- PRT_STATUS.MEMBER of a range of lanes follows the groups in force: none in NOTARY (R53, R177). -/
def regroup (first n : Nat) (s : State) : State :=
  let ps := (List.range n).map (first + ·)
  let s := ps.foldl (fun (s : State) p => if s.member p then s.wrB (Reg.PRT_STATUS p) 9 false else s) s
  ps.foldl (fun (s : State) p => ((s.lanes p).drop 1).foldl (fun (s : State) q => s.wrB (Reg.PRT_STATUS q) 9 true) s) s

/-- Change GROUP when it may change; MEMBER of the lanes follows. -/
def setGroup (p g : Nat) (s : State) : State :=
  if s.fld (Reg.PRT_CTL p) 7 6 = g ∨ !groupOk s p g then s
  else regroup (p / 4 * 4) 4 (s.wrF (Reg.PRT_CTL p) 7 6 g)

/-- The ingress drop counters of a port: PRT offsets 0x100 to 0x17C (R157). -/
def dropOffsets : List Nat := (List.range 32).map (fun i => 0x100 + 4 * i)

/-- Clear every counter of a port (R176). -/
def clearPortCounters (p : Nat) (s : State) : State :=
  let base := dropOffsets.foldl (fun t o =>
    let i := 1024 * p + o / 4
    tput (dflt 0) t i (tget (dflt 0) t i - ((s.rd (Reg.portBase p + o)).toNat : Int))) s.dp.dropBase
  ({ s with dp := { s.dp with dropBase := base } } : State).clearRegs (fun a => decide (Reg.portBase p + 0x80 ≤ a) && decide (a < Reg.portBase p + 0x19C))

/-- A write of PRT_CTL: the plain fields first, then GROUP, RELEASE, ENABLE and CNT_CLR. -/
def writePortCtl (p : Nat) (v : Word) (s : State) : State :=
  let s := s.wrF (Reg.PRT_CTL p) 5 2 (bits v 5 2)
  let s := setGroup p (bits v 7 6) s
  let s := if s.bitOf (Reg.PRT_CTL p) 1 = bit v 1 then s else setRelease p (bit v 1) s
  let s := if s.bitOf (Reg.PRT_CTL p) 0 = bit v 0 then s else setEnable p (bit v 0) s
  if bit v 8 then clearPortCounters p s else s

/-- PORT_ENABLE: PRT_CTL.ENABLE is set. -/
def execPortEnable (port : Fin 512) (s : State) : Out := .next (setEnable port true s)

/-- PORT_DISABLE: PRT_CTL.ENABLE is cleared; the port goes OFF as for a lost link. -/
def execPortDisable (port : Fin 512) (s : State) : Out := .next (setEnable port false s)

/-- PORT_RELEASE: PRT_CTL.RELEASE is set. -/
def execPortRelease (port : Fin 512) (s : State) : Out := .next (setRelease port true s)

/-- PORT_HOLD: PRT_CTL.RELEASE is cleared. -/
def execPortHold (port : Fin 512) (s : State) : Out := .next (setRelease port false s)

/-- PORT_COUNTER_CLEAR: PRT_CTL.CNT_CLR is written 1. -/
def execPortCounterClear (port : Fin 512) (s : State) : Out := .next (clearPortCounters port s)

/-- PORT_GROUP_WRITE: a write of PRT_CTL that changes GROUP; GROUP keeps its value unless every member lane is OFF, the rest takes effect. -/
def execPortGroupWrite (port : Fin 512) (value : Word) (s : State) : Out := .next (writePortCtl port value s)

/-! ### Engines (R163 to R167) -/

/-- ENGINE_KAT_WINDOW: a 100 ms window of a cluster ends with every engine's known-answer vector run (R163). -/
def execEngineKatWindow (cluster : Fin 64) (s : State) : Out := .next (s.bump (Reg.DPL_KAT_RUNS cluster))

/-- Whether the seal engine of a lane works on a queued frame (R132): a seal frame other than PASS that has crossed and is not complete, of a flow that the
lane serves. -/
def State.sealsIn (s : State) (lane : Nat) (g : EgFrame) : Bool :=
  g.crossed && !g.complete && (match s.source g with
    | some f => f.kind == .seal && f.hdr.action != 0 && s.engineLane (s.leadOf lane) f.idx == lane
    | none => false)

/-- End the frames whose work in a lane's engine is incomplete, in either context, as ENGINE (R164): the frame arriving that its verify engine works on, or
the frames in its seal engine. -/
def endEngineFrames (lane : Nat) (isSeal : Bool) (s : State) : State :=
  let p := s.leadOf lane
  if isSeal then
    ((s.port p).queue.filter (s.sealsIn lane)).foldl (fun s g =>
      match s.source g with
      | some f => endInTransit f 0x31 65536 (setCur g.src none s)
      | none => s) s
  else match s.live p with
    | some f => if s.engineLane p f.idx = lane then endCur p 0x31 s else s
    | none => s

/-- The takeover bits of a port: 1 verify, 2 seal. -/
def takeBit (isSeal : Bool) : Nat := if isSeal then 2 else 1

/-- Ask for a takeover of one engine of a port. -/
def wantTakeover (p : Nat) (isSeal : Bool) (s : State) : State :=
  let d := s.port p
  s.setPort p { d with takeover := some ((d.takeover.getD 0) ||| takeBit isSeal) }

/-- A spare that fails, or stops serving, is marked in DPL_SPARE of its cluster. -/
def markSpareFailed (e : Nat) (s : State) : State :=
  if e < 1024 then s
  else
    let c := engineCluster e
    let k := b2n (isSealEngine e)
    ((s.wrB (Reg.DPL_SPARE c) k false).wrB (Reg.DPL_SPARE c) (2 + k) true).wrB (Reg.DPL_SPARE c) (4 + k) false

/-- Whether the fabric route from tile `a` to tile `b` is up (DPL_FAB_STATUS, R162). -/
def State.routeUp (s : State) (a b : Nat) : Bool := a == b || (s.bitOf (Reg.DPL_FAB_STATUS a) b && !s.bitOf (Reg.DPL_FAB_ROUTE a) b)

/-- SYS_STATUS.DEGRADED and RPR_STATUS: a port disabled or with a borrowed engine, and the free spares of each kind. -/
def showRepair (s : State) : State :=
  let deg := (List.range 512).any (fun p => bit (s.rd (Reg.PRT_STATUS p)) 4 || bit (s.rd (Reg.PRT_STATUS p)) 7 || bit (s.rd (Reg.PRT_STATUS p)) 8)
  let free (k : Bool) : Nat := ((List.range 64).filter (fun c => s.spareFree c k)).length
  (((s.wrB Reg.SYS_STATUS 0 deg).wrB Reg.RPR_STATUS 1 deg).wrF Reg.RPR_STATUS 15 8 (free false)).wrF Reg.RPR_STATUS 23 16 (free true)

/-- End the frames that wait for a takeover of a port's verify engine as ENGINE: none is left for them. -/
def endMoved (p : Nat) (s : State) : State :=
  let l := (s.port p).moved
  l.foldl (fun s f => endInTransit f 0x31 0 s) (if l = [] then s else s.setPort p { s.port p with moved := [] })

/-- Disable a lane that has no engine of a kind left, and with it the port it belongs to (R169, R572, R174), with its alarm. -/
def disablePort (lane : Nat) (s : State) : State :=
  if s.bitOf (Reg.PRT_STATUS lane) 4 then s
  else
    let p := s.leadOf lane
    let s := endMoved p (if s.portState p = 0 then s else portDown p 0 s)
    let s := ((s.wrB (Reg.PRT_STATUS lane) 4 true).wrB (Reg.RPR_PORT_DIS (lane / 32)) (lane % 32) true).bump Reg.RPR_DISABLES
    let s := irq (Reg.DPL_IRQ_STATUS (clusterOf lane)) (32 + tileOf lane) 3 s
    showRepair (report ⟨0x08, 19, false, srcMaster 0, srcMaster 0, 0xFFFF, lane⟩ (s.wrB Reg.RPR_IRQ_STATUS 2 true))

/-- Whether a lender of a kind exists for a cluster (R567). -/
def State.lenderExists (s : State) (c : Nat) (isSeal : Bool) : Bool :=
  (List.range 64).any (fun l => l != c && s.spareFree l isSeal
    && (l / 16 == c / 16 || (s.bitOf Reg.RPR_CTL 0 && s.routeUp (c / 16) (l / 16))))

/-- A port left without an engine that no cluster can lend is disabled. -/
def disableStranded (p : Nat) (s : State) : State :=
  let lacks (k : Bool) : Bool := s.engineOf p k == 0x7FF && !s.lenderExists (clusterOf p) k
  if lacks false || lacks true then disablePort p s else s

/-- A lane is left without an engine of a kind (R166): NO_SPARE is raised, and the port is disabled when no cluster can lend one. -/
def loseEngine (p : Nat) (isSeal : Bool) (s : State) : State :=
  let s := setEngine p isSeal 0x7FF (releaseEngine p isSeal 0x7FF s)
  disableStranded p (irq (Reg.DPL_IRQ_STATUS (clusterOf p)) (32 + tileOf p) 2 s)

/-- Whether a takeover in progress in a cluster has claimed its spare of a kind already (R165). -/
def State.spareClaimed (s : State) (c : Nat) (isSeal : Bool) : Bool :=
  (List.range 8).any (fun i => (s.port (8 * c + i)).takeover.any (fun b => nbit b (b2n isSeal)))

/-- An engine fails (R164): its frames end, its bit in DPL_KAT_STATUS is set, and its port moves to the cluster's spare, when that is free, healthy and not
claimed by a port that moves already, or is left without the engine (R16, R165, R166). -/
def engineFails (e cause : Nat) (s : State) : State :=
  let c := engineCluster e
  let k := isSealEngine e
  let served := s.portOf e
  let s := match served with
    | some p => endEngineFrames p k s
    | none => s
  let s := irq (Reg.DPL_IRQ_STATUS c) (32 + c / 16) 0 (s.wrB (Reg.DPL_KAT_STATUS c) (engineBit e) true)
  let s := markSpareFailed e s
  match served with
  | none => recordGrown 1 cause e 0xFFFF 0xFFFF s
  | some p =>
    if (s.port p).takeover.any (fun b => nbit b (b2n k)) then recordGrown 1 cause e 0xFFFF p s
    else if e < 1024 ∧ s.spareFree c k ∧ !s.spareClaimed c k then wantTakeover p k (recordGrown 1 cause e (spareOf c k) p s)
    else loseEngine p k (releaseEngine p k e (recordGrown 1 cause e 0xFFFF p s))

/-- ENGINE_FAILURE: an engine gives a wrong known answer (cause 0), a bad integrity code (1) or a context parity error (2) (R164). -/
def execEngineFailure (engine : Fin 1152) (cause : Fin 3) (s : State) : Out := .next (engineFails engine (cause.val + 1) s)

/-- Move a lane to its cluster's spare of a kind: PRT_ENGINES, PRT_STATUS and DPL_SPARE show it. A spare that has failed meanwhile leaves the lane without
the engine, and the grown map without the replacement. -/
def takeSpare (p : Nat) (isSeal : Bool) (s : State) : State :=
  let c := clusterOf p
  if !s.spareFree c isSeal then
    loseEngine p isSeal (updRpr (fun r => { r with grown := r.grown.map (fun g =>
      if g.kind = 1 ∧ g.port = p ∧ g.repl = spareOf c isSeal then { g with repl := 0xFFFF } else g) }) s)
  else
    let s := (setEngine p isSeal (spareOf c isSeal) s).wrB (Reg.PRT_STATUS p) (5 + b2n isSeal) true
    let s := s.wrB (Reg.DPL_SPARE c) (b2n isSeal) true
    let s := if isSeal then s.wrF (Reg.DPL_SPARE c) 15 12 (sliceOf p) else s.wrF (Reg.DPL_SPARE c) 11 8 (sliceOf p)
    showRepair (irq (Reg.DPL_IRQ_STATUS c) (32 + tileOf p) 1 (s.bump Reg.RPR_TAKEOVERS))

/-- The frames that waited for a port's verify engine go on, in order, once it has one (R165). -/
def runMoved (p : Nat) (s : State) : State :=
  let l := (s.port p).moved
  if s.verifyWaits p ∨ l = [] then s else l.foldl (fun s f => finishFrame f s) (s.setPort p { s.port p with moved := [] })

/-- SPARE_TAKEOVER: at the next frame boundary, at the ingress for a verify engine and on the wire for a seal engine, the hardware moves the lane to the
spare (R165); a port reset that waited then takes effect (R170). -/
def execSpareTakeover (port : Fin 512) (s : State) : Out :=
  match (s.port port).takeover with
  | none => .next s
  | some b =>
    let p := s.leadOf port
    let v := nbit b 0 && (s.live p).isNone
    let w := nbit b 1 && !(s.port p).queue.any (fun g => g.onWire)
    let left := b - b2n v - 2 * b2n w
    let s := s.setPort port { s.port port with takeover := if left = 0 then none else some left }
    let s := if v then takeSpare port false s else s
    let s := if w then takeSpare port true s else s
    let s := runMoved p s
    if (s.port p).resetPending ∧ !s.takingOver p then .next (portReset p (s.setPort p { s.port p with resetPending := false })) else .next s

/-- VERDICT_TOKEN_REFILL: `n` tokens of R124 return to a port's bucket of 64. -/
def execVerdictTokenRefill (port : Fin 512) (n : Nat) (s : State) : Out :=
  .next (s.setPort port { s.port port with tokens := min 64 ((s.port port).tokens + n) })

/-- EGRESS_KEY_DELIVERED: the Leaf Mint of a cluster delivers the successor egress key of a flow (R149): later frames bind to it and its count
starts at 0. -/
def execEgressKeyDelivered (cluster : Fin 64) (tenant : Fin 512) (terminal : BitVec 24) (s : State) : Out :=
  match s.findFlow cluster tenant terminal.toNat 0 with
  | none => .next s
  | some k =>
    match s.flowAt k with
    | none => .next s
    | some f =>
      if !f.egWait then .next s
      else .next (advanceEgress k f s)

end Sys2Proof.Machine
end

