-- ==== Sys2Proof/Machine/Lflash.lean ====
section
/-! DEFINITION. Ledger flash (chapter 16, R459 to R466): erases, and the blocks that the journal and the receipts of a tenant take and give back
(R287 to R289). -/

namespace Sys2Proof.Machine

/-! ### The receipt area (R282) -/

/-- Blocks of the receipt area that are being erased. -/
def State.receiptErasing (s : State) : Nat := (s.lfs.erasing.filter (fun n => (s.lblock n).area == 2)).length

/-- The receipt area: good blocks outside the reserved 64 GiB and the register image partition (R282). -/
def State.receiptArea (s : State) : Nat := s.lfsGood - 4160

/-- Free receipt-area blocks (LDG_RCPT_FREE). -/
def State.receiptFree (s : State) : Nat := s.receiptArea - s.lfs.borrowed - s.lfs.rblocks.length - s.receiptErasing

/-! ### Erases (R460, R461, R463) -/

/-- LFLASH_BLOCK_ERASE_DONE: an erased block enters the free pool, or stays with the journal unless the journal borrows blocks, and is moved when its
count exceeds the mean by 300; a failed erase retires the block, and the lowest free block takes its place in the journal's area (R460, R461, R463). -/
def execLflashBlockEraseDone (block : BitVec 18) (ok : Bool) (s : State) : Out :=
  let n := block.toNat
  if !s.lfs.erasing.contains n then .next s
  else
    let s := { s with lfs := { s.lfs with erasing := s.lfs.erasing.filter (· != n) } }
    let b := s.lblock n
    let give := decide (b.area ≠ 1) || decide (0 < s.lfs.borrowed)
    if ok then
      let s := { s with lfs := { s.lfs with borrowed := if b.area = 1 then s.lfs.borrowed - 1 else s.lfs.borrowed } }
      let s := if give then setLblock n { b with area := 0, tenant := none } s else s
      .next (serveMoves (if s.wearMean + 300 < b.erases then scheduleMove n true s else s))
    else
      let s := irq Reg.LFS_IRQ_STATUS 8 1 ((retireBlock n s).bump Reg.LFS_ERASE_FAIL)
      if give then .next { s with lfs := { s.lfs with borrowed := if b.area = 1 then s.lfs.borrowed - 1 else s.lfs.borrowed } }
      else match s.findBlock 0 with
        | some m => .next (setLblock m { s.lblock m with area := 1 } s)
        | none => .next s

/-- ERASE_COUNT_CHECKPOINT: every 60 s the erase counters are checkpointed into custody flash sectors 6 and 7, and the erase log starts again (R461). -/
def execEraseCountCheckpoint (s : State) : Out :=
  .next { s with lfs := { s.lfs with
    eraseLog := []
    checkpoint := (s.lfs.blocks.filter (fun e => e.2.erases != 0)).map (fun e => (e.1, e.2.erases)) } }

/-- LFS_BLK_INFO of a block. -/
def State.blockInfo (s : State) (n : Nat) : Nat :=
  let b := s.lblock n
  b.area + 2 ^ 3 * b2n (Config.factoryBad n) + 2 ^ 4 * b2n b.grown + 2 ^ 16 * b.tenant.getD 0 + 2 ^ 25 * b2n b.tenant.isSome

/-- GET_LFLASH_BLOCKS: 8 bytes per block: erase counter, then LFS_BLK_INFO (R464). -/
def execGetLflashBlocks (c : HostCmd) (first count : BitVec 32) (s : State) : Out :=
  .next (hostRun 0x0802 c [] (fun s =>
    if Config.lflashFabricated < first.toNat + count.toNat ∨ 4096 < count.toNat then .fail 0x1801
    else if c.outLen < 8 * count.toNat then .fail 0x3801
    else .done 0 ((List.range count.toNat).flatMap (fun i =>
      be 4 (s.lblock (first.toNat + i)).erases ++ be 4 (s.blockInfo (first.toNat + i)))) 0 s) s)

/-! ### Receipt blocks (R287) -/

/-- The receipt blocks a tenant holds. -/
def State.tenantBlocks (s : State) (t : Nat) : Nat := (s.lfs.rblocks.filter (fun r => r.1 == t)).length

/-- The block group of a page sequence: 1,024 pages to a block. -/
def pageGroup (seq : Nat) : Nat := seq / 1024

/-- Whether a tenant holds the block of a page group. -/
def State.hasGroup (s : State) (t g : Nat) : Bool := s.lfs.rblocks.any (fun r => r.1 == t && r.2.1 == g)

/-- Erase the block of a tenant's page group: its pages are lost. -/
def eraseGroup (t g : Nat) (s : State) : State :=
  match s.lfs.rblocks.find? (fun r => r.1 == t && r.2.1 == g) with
  | none => s
  | some r =>
    beginErase r.2.2 { s with
      lfs := { s.lfs with rblocks := s.lfs.rblocks.filter (· != r) }
      ldg := { s.ldg with pages := s.ldg.pages.filter (fun p => !(p.tenant == t && pageGroup p.seq == g)) } }

/-- The range of page sequences of a group that are held. -/
def State.groupRange (s : State) (t g : Nat) : Nat × Nat :=
  let l := ((s.ldg.pages.filter (fun p => p.tenant == t && pageGroup p.seq == g)).map (·.seq))
  (l.foldl min (1024 * g + 1023), l.foldl max (1024 * g))

/-- The oldest page group of a tenant. -/
def State.oldestGroup (s : State) (t : Nat) : Option Nat :=
  match (s.lfs.rblocks.filter (fun r => r.1 == t)).map (·.2.1) with
  | [] => none
  | g :: gs => some (gs.foldl min g)

/-- Erase the oldest block of a tenant whether or not it is acknowledged, with an OVERWRITE event naming the page range lost (R277, R287,
R288). -/
def overwriteOldest (t : Nat) (s : State) : State :=
  match s.oldestGroup t with
  | none => s
  | some g =>
    let r := s.groupRange t g
    event 0x0033 (srcMaster 0) t (be 2 t ++ be 8 r.1 ++ be 8 r.2) (eraseGroup t g s)

/-- RCPT_LOW when the free receipt blocks have fallen below 1 %. -/
def noteFree (s : State) : State :=
  if s.receiptFree * 100 < s.receiptArea then irq Reg.LDG_IRQ_STATUS 10 4 s else s

/-- Give a tenant a free block for a page group. -/
def allocGroup (t g : Nat) (s : State) : State :=
  match s.findBlock 0 with
  | none => s
  | some n =>
    noteFree (setLblock n { s.lblock n with area := 2, tenant := some t }
      { s with lfs := { s.lfs with rblocks := s.lfs.rblocks ++ [(t, g, n)] } })

/-- The receipt quota of a tenant, in blocks (0 = none). -/
def State.quota (s : State) (t : Nat) : Nat := s.fld (Reg.LDG_RET_HI t) 17 0

/-- Find a block for a page group of a tenant under its quota and FULL policy (R287): the state, and whether the tenant has a block. -/
def needGroup (t g : Nat) (s : State) : Bool × State :=
  if s.hasGroup t g then (true, s)
  else if (s.quota t = 0 ∨ s.tenantBlocks t < s.quota t) ∧ 0 < s.receiptFree then
    let s := allocGroup t g s
    (s.hasGroup t g, s)
  else if s.bitOf (Reg.LDG_RET_LO t) 16 then
    let s := overwriteOldest t s
    let s := allocGroup t g s
    (s.hasGroup t g, s)
  else (false, s)

/-! ### Journal blocks (R288, R289) -/

/-- The tenant that holds the most receipt blocks, the lowest of several. -/
def State.fattest (s : State) : Option Nat :=
  (List.range 512).foldl (fun best t =>
    if s.tenantBlocks t = 0 then best
    else match best with
      | none => some t
      | some b => if s.tenantBlocks b < s.tenantBlocks t then some t else best) none

/-- The number of the next journal page, and whether a block holds it. -/
def State.nextPage (s : State) : Nat := s.ldg.firstPage + s.ldg.journal.length
def State.pageHasBlock (s : State) : Bool := decide (s.nextPage / 1024 - s.ldg.firstPage / 1024 < s.lfs.jblocks.length)

/-- Note 75 % of the reserved area unacknowledged. -/
def noteFill (s : State) : State := if s.lfs.jblocks.length = 3072 then irq Reg.LDG_IRQ_STATUS 10 1 s else s

/-- The Ledger halts (R289): every port behaves as though RELEASE were 0. -/
def halt (s : State) : State :=
  if s.bitOf Reg.LDG_STATUS 0 then s
  else
    let s := irq Reg.LDG_IRQ_STATUS 10 3 (s.wrB Reg.LDG_STATUS 0 true)
    settlePorts 0 512 { s with ldg := { s.ldg with reclaimed := 0 } }

/-- HALT clears; released ports become active again. -/
def unhalt (s : State) : State := settlePorts 0 512 (s.wrB Reg.LDG_STATUS 0 false)

/-- A block taken from the receipt area for the journal. -/
def borrow (n : Nat) (s : State) : State :=
  let s := setLblock n { s.lblock n with area := 1, tenant := none } { s with lfs := { s.lfs with borrowed := s.lfs.borrowed + 1 } }
  if s.bitOf Reg.LDG_STATUS 1 then s else irq Reg.LDG_IRQ_STATUS 10 2 (s.wrB Reg.LDG_STATUS 1 true)

/-- Obtain a block for the next journal page (R288): one of the reserved area, a free block of the receipt area, or the oldest block of
the tenant that holds most, which is erased first; when nothing can be obtained the Ledger halts. -/
def obtainJournal (s : State) : Bool × State :=
  if s.pageHasBlock then (true, s)
  else match s.findBlock 1 with
    | some n => (true, noteFill { s with lfs := { s.lfs with jblocks := s.lfs.jblocks ++ [n] } })
    | none =>
      match s.findBlock 0 with
      | some n =>
        let s := borrow n s
        (true, noteFill { s with lfs := { s.lfs with jblocks := s.lfs.jblocks ++ [n] } })
      | none =>
        if s.lfs.erasing.any (fun n => (s.lblock n).area == 1) then (false, s)
        else match s.fattest with
          | none => (false, halt s)
          | some t =>
            match s.oldestGroup t with
            | none => (false, halt s)
            | some g =>
              match s.lfs.rblocks.find? (fun r => r.1 == t && r.2.1 == g) with
              | none => (false, halt s)
              | some r => (false, borrow r.2.2 (overwriteOldest t s))

/-- Reclaim journal pages that are wholly acknowledged (R288): `n` pages leave; the blocks they leave empty are erased. HALT clears when 256
blocks have become reclaimable. -/
def reclaimJournal (n : Nat) (s : State) : State :=
  let k := min ((s.ldg.firstPage + n) / 1024 - s.ldg.firstPage / 1024) s.lfs.jblocks.length
  let gone := s.lfs.jblocks.take k
  let s := { s with
    ldg := { s.ldg with journal := s.ldg.journal.drop n, firstPage := s.ldg.firstPage + n, reclaimed := s.ldg.reclaimed + k }
    lfs := { s.lfs with jblocks := s.lfs.jblocks.drop k } }
  let s := gone.foldl (fun s b => beginErase b s) s
  let s := if s.lfs.borrowed ≤ (s.lfs.erasing.filter (fun b => (s.lblock b).area == 1)).length then s.wrB Reg.LDG_STATUS 1 false else s
  if s.bitOf Reg.LDG_STATUS 0 ∧ 256 ≤ s.ldg.reclaimed then unhalt s else s

end Sys2Proof.Machine
end

