-- ==== Sys2Proof/Machine/Ledger.lean ====
section
/-! DEFINITION. The Ledger (chapter 8): leaves, chunks and receipts, the tile trees, epochs and their close, roots and their signatures,
and the journal with its records, pages and events. -/

namespace Sys2Proof.Machine

/-! ### Trees (R263, R264) -/

/-- The size of the left subtree of `n` leaves, `n` at least 2: the largest power of two below `n` (RFC 9162, section 2.1.1). -/
def leftSize (n : Nat) : Nat := 2 ^ Nat.log2 (n - 1)

/-- An interior node. -/
def node (l r : Bytes) : Bytes := sha256 (1 :: (l ++ r))

/-- MTH over roots in index order: the roots stand in place of leaf hashes, and the empty list gives 32 zero bytes. `fuel` bounds the
depth. -/
def mth : Nat → List Bytes → Bytes
  | _, [] => zeros 32
  | _, [x] => x
  | 0, x :: _ => x
  | f + 1, l => node (mth f (l.take (leftSize l.length))) (mth f (l.drop (leftSize l.length)))

/-- The depth no tree of the Ledger passes. -/
def mthFuel : Nat := 32

/-- The siblings of an index from the leaf level upward (RFC 9162, section 2.1.3). -/
def mthPath : Nat → Nat → List Bytes → List Bytes
  | _, _, [] => []
  | _, _, [_] => []
  | 0, _, _ => []
  | f + 1, m, l =>
    let k := leftSize l.length
    if m < k then mthPath f m (l.take k) ++ [mth f (l.drop k)] else mthPath f (m - k) (l.drop k) ++ [mth f (l.take k)]

/-- The stream root of four tile roots (R264). -/
def streamRoot (a0 a1 a2 a3 : Bytes) : Bytes := node (node a0 a1) (node a2 a3)

/-! ### Counts of an epoch (R270, R271) -/

/-- The device as an owner of leaves. -/
def devOwner : Nat := 0xFFFF

/-- The counts of an owner in an epoch. -/
def State.counts (s : State) (o e : Nat) : EpochCount :=
  (s.ldg.counts.find? (fun c => c.owner == o && c.epoch == e)).getD ⟨o, e, 0, 0, 0, none, none⟩

/-- Change the counts of an owner in an epoch. -/
def updCounts (o e : Nat) (f : EpochCount → EpochCount) (s : State) : State :=
  let c := f (s.counts o e)
  { s with ldg := { s.ldg with counts := s.ldg.counts.filter (fun x => !(x.owner == o && x.epoch == e)) ++ [c] } }

/-! ### Receipts (R282 to R287) -/

/-- The index of this device in its pair, in bit 63 of every page sequence (R557). -/
def State.memberBit (s : State) : Nat := if s.pair.paired then s.pair.member * 2 ^ 63 else 0

/-- The sequence of the page a tenant is filling. -/
def State.openSeq (s : State) (t : Nat) : Nat := s.memberBit + tget (dflt 0) s.ldg.pageSeq t

/-- The entries of the page a tenant is filling. -/
def State.openEntries (s : State) (t : Nat) : List Bytes := tget (dflt []) s.ldg.openPage t

/-- Close the page a tenant is filling: it waits to be programmed. -/
def closePage (t : Nat) (s : State) : State :=
  if s.openEntries t = [] then s
  else
    let p : RcptPage := ⟨t, s.keys.l0gen, s.openSeq t, tget (dflt 0) s.ldg.openEpoch t, s.openEntries t, false⟩
    { s with ldg := { s.ldg with
        rcptProg := s.ldg.rcptProg ++ [p]
        openPage := tput (dflt []) s.ldg.openPage t []
        openEpoch := tput (dflt 0) s.ldg.openEpoch t 0
        pageSeq := tupd (dflt 0) s.ldg.pageSeq t (· + 1) } }

/-- Add a 48-byte entry to a tenant's page; a page of 340 entries is full. -/
def addEntry (t e : Nat) (x : Bytes) (s : State) : State :=
  let l := s.openEntries t ++ [x]
  let s := { s with ldg := { s.ldg with
    openPage := tput (dflt []) s.ldg.openPage t l
    openEpoch := if l.length = 1 then tput (dflt 0) s.ldg.openEpoch t e else s.ldg.openEpoch } }
  if l.length = 340 then closePage t s else s

/-- Whether the receipt staging area is full: 2 GiB less the 16 MiB kept for chunk records (R285). -/
def State.stageFull (s : State) : Bool := decide (130048 ≤ s.ldg.openPage.length + s.ldg.rcptProg.length)

/-- Drop a receipt: counted in LDG_RCPT_DROP and in the receipts lost of the tenant's root (R285, R287). -/
def dropReceipt (t e : Nat) (s : State) : State :=
  (updCounts t e (fun c => { c with lost := c.lost + 1 }) s).bump Reg.LDG_RCPT_DROP

/-- The receipt of a leaf (R283). -/
def receiptBytes (digest : Bytes) (e cluster seq pos cls form port : Nat) : Bytes :=
  digest ++ be 8 e ++ be 1 (0x40 + cluster) ++ be 3 seq ++ be 1 pos ++ be 1 (cls % 16 + 16 * form) ++ be 2 port

/-- RECEIPT: a retained leaf yields a receipt when it enters its chunk (R283). -/
def receipt (t e cluster : Nat) (x : Bytes) (s : State) : State :=
  if !s.bitOf Reg.LDG_CTL 0 then updCounts t e (fun c => { c with lost := c.lost + 1 }) s
  else if s.stageFull then dropReceipt t e (s.wrB Reg.LDG_STATUS 4 true)
  else
    let s := s.wrB Reg.LDG_STATUS 4 false
    let p := s.openSeq t
    match needGroup t (pageGroup p) s with
    | (false, s) => dropReceipt t e s
    | (true, s) =>
      let s := updCounts t e (fun c => { c with
        firstPage := some (match c.firstPage with | some f => f | none => p)
        lastPage := some p }) s
      addEntry t e x (s.bump (Reg.LDG_CL_RCPT cluster))

/-- The bytes of a receipt page (R282). -/
def RcptPage.bytes (p : RcptPage) : Bytes :=
  let b := be 2 0x5250 ++ be 2 p.tenant ++ be 4 p.l0gen ++ be 8 p.seq ++ be 8 p.epoch ++ be 2 p.entries.length ++ zeros 6
    ++ fit 16320 p.entries.flatten
  b ++ be 4 (crc32c b).toNat ++ zeros 28

/-! ### Chunks (R260, R261) -/

/-- The open chunks of a cluster. -/
def State.chunks (s : State) (c : Nat) : List Chunk := tget (dflt []) s.ldg.chunks c

/-- Replace the open chunks of a cluster. -/
def setChunks (c : Nat) (l : List Chunk) (s : State) : State :=
  { s with ldg := { s.ldg with chunks := tput (dflt []) s.ldg.chunks c l } }

/-- The chunk header (R260). -/
def chunkHeader (st : Stream) (cluster seq : Nat) : Bytes :=
  [0x02] ++ be 1 (b2n st.retained) ++ be 2 st.owner ++ be 8 st.epoch ++ be 1 cluster ++ be 3 seq ++ zeros 16

/-- The chunk trailer (R260). -/
def chunkTrailer (count reason : Nat) : Bytes := be 2 count ++ be 1 reason ++ zeros 29

/-- The chunk root (R260). -/
def chunkRoot (cluster reason : Nat) (ch : Chunk) : Bytes :=
  sha256 (chunkHeader ch.stream cluster ch.seq ++ ch.leaves.flatten ++ chunkTrailer ch.leaves.length reason)

/-- CHUNK_CLOSE: a chunk leaves the cluster, its root on its way to the tree unit (R261, R262). -/
def closeChunk (cluster reason : Nat) (ch : Chunk) (s : State) : State :=
  let s := setChunks cluster ((s.chunks cluster).filter (fun x => x.stream != ch.stream)) s
  let r : ChunkRoot := ⟨cluster, ch.stream, ch.seq, ch.leaves.length, chunkRoot cluster reason ch⟩
  State.bump { s with ldg := { s.ldg with roots := s.ldg.roots ++ [r] } } (Reg.LDG_CL_CHUNKS cluster)

/-- The next chunk sequence of a stream in a cluster. -/
def State.chunkSeq (s : State) (c : Nat) (st : Stream) : Nat :=
  (((tget (dflt []) s.ldg.chunkSeqs c).find? (fun e => e.1 == st)).map (·.2)).getD 0

/-- The open chunk of a stream, opened when there is none. -/
def openChunk (c : Nat) (st : Stream) (s : State) : Chunk × State :=
  match (s.chunks c).find? (fun x => x.stream == st) with
  | some ch => (ch, s)
  | none =>
    let n := s.chunkSeq c st
    let seqs := (tget (dflt []) s.ldg.chunkSeqs c).filter (fun e => e.1 != st) ++ [(st, n + 1)]
    (⟨st, n, []⟩, { s with ldg := { s.ldg with chunkSeqs := tput (dflt []) s.ldg.chunkSeqs c seqs } })

/-- Whether a leaf is retained (R258). -/
def State.retained (s : State) (l : LeafIn) : Bool :=
  decide (l.owner < 512) && decide (l.form < 2) && s.bitOf (Reg.LDG_RET_LO l.owner) (l.cls % 16)

/-- A leaf digest enters the chunk of its stream. -/
def enterChunk (c : Nat) (l : LeafIn) (d : Bytes) (s : State) : State :=
  let ret := s.retained l
  let (ch, s) := openChunk c ⟨l.owner, ret, l.epoch⟩ s
  let ch' := { ch with leaves := ch.leaves ++ [d] }
  let s := setChunks c ((s.chunks c).filter (fun x => x.stream != ch.stream) ++ [ch']) s
  let s := updCounts l.owner l.epoch (fun x => { x with leaves := x.leaves + 1 }) s
  let s := if ret then
      receipt l.owner l.epoch c (receiptBytes d l.epoch c ch.seq ch.leaves.length l.cls l.form l.port) s
    else s
  if ch'.leaves.length = 256 then closeChunk c 1 ch' s else s

/-- A late leaf (R267): counted in its cluster and written as a LATE_LEAF event; one that the event queue drops (R278) is not counted as an event
written. -/
def lateLeaf (c : Nat) (l : LeafIn) (d : Bytes) (s : State) : State :=
  let s := s.bump (Reg.LDG_CL_LATE c)
  let s := if s.ldg.evq.length < 3840 then updCounts l.owner s.epoch (fun x => { x with late := x.late + 1 }) (s.bump Reg.LDG_LATE_LEAF)
    else s
  irq Reg.LDG_IRQ_STATUS 10 6 (event 0x0030 (srcPort l.port) l.owner (d ++ be 8 l.epoch) s)

/-- LEAF_PIPE_OUTPUT: the oldest leaf input of a cluster leaves the pipe as its digest (R258, R259). -/
def execLeafPipeOutput (cluster : Fin 64) (s : State) : Out :=
  match tget (dflt []) s.ldg.fifos cluster with
  | [] => .next s
  | l :: ls =>
    let s := { s with ldg := { s.ldg with fifos := tput (dflt []) s.ldg.fifos cluster ls } }
    let s := s.bump64 (Reg.LDG_CL_LEAVES_LO cluster)
    let d := sha256 l.input
    if l.epoch < s.ldg.nextClose then .next (lateLeaf cluster l d s) else .next (enterChunk cluster l d s)

/-! ### Tile trees (R263, R284) -/

/-- The chunk record (R284). -/
def chunkRecord (r : ChunkRoot) (index : Nat) : Bytes :=
  r.root ++ be 8 r.stream.epoch ++ be 1 (0x80 + r.cluster) ++ be 3 r.seq ++ be 3 index ++ be 1 (r.count - 1)

/-- The roots a tile has of a stream, in index order. -/
def State.treeOf (s : State) (tile : Nat) (st : Stream) : List Bytes :=
  ((s.ldg.trees.find? (fun t => t.tile == tile && t.stream == st)).map (·.roots)).getD []

/-- A chunk root enters its tile tree; a retained chunk writes its record into the tenant's receipt stream. -/
def deliverRoot (r : ChunkRoot) (s : State) : State :=
  let tile := r.cluster / 16
  let l := s.treeOf tile r.stream
  let s : State := { s with ldg := { s.ldg with
    roots := s.ldg.roots.filter (· != r)
    trees := s.ldg.trees.filter (fun t => !(t.tile == tile && t.stream == r.stream)) ++ [⟨tile, r.stream, l ++ [r.root]⟩] } }
  let s := s.bump64 (Reg.LDG_TL_CHUNKS_LO tile)
  if r.stream.retained then
    addEntry r.stream.owner r.stream.epoch (chunkRecord r l.length) (s.bump (Reg.LDG_TL_CHREC tile))
  else s

/-- CHUNK_ROOT_DELIVERED: the oldest chunk root of a cluster reaches the tile's tree unit (R262, R263). -/
def execChunkRootDelivered (cluster : Fin 64) (s : State) : Out :=
  match s.ldg.roots.find? (fun r => r.cluster == cluster.val) with
  | none => .next s
  | some r => .next (deliverRoot r s)

/-! ### Records and the journal (R274 to R279) -/

/-- The magic of a journal record, and the header before the body (R274). -/
def recordHeader (s : State) (typ len : Nat) : Bytes :=
  be 2 0x4C52 ++ be 1 typ ++ [0x01] ++ be 4 len ++ be 8 s.ldg.nextSeq ++ be 8 s.epoch ++ be 4 s.ldg.dropped ++ zeros 4
    ++ fit 32 s.ldg.chain

/-- The register an event record's chain digest extends (R291): 25 for START, ZEROIZE, MODE, TAMPER and TORN, 26 for KEY, CHARTER and
OVERWRITE, 27 for UPDATE. -/
def eventMr (code : Nat) : Option Nat :=
  if [0x01, 0x02, 0x03, 0x10, 0x31].contains code then some 25
  else if [0x40, 0x50, 0x33].contains code then some 26
  else if code = 0x60 then some 27
  else none

/-- The bytes of the next record with a body. -/
def recordBytes (s : State) (typ : Nat) (body : Bytes) : Bytes :=
  let b := recordHeader s typ (68 + body.length) ++ body
  b ++ be 4 (crc32c b).toNat

/-- Whether a record of `n` bytes fits in the page being assembled (16 KiB, R279). -/
def State.fits (s : State) (n : Nat) : Bool := decide (((s.ldg.page.map (·.bytes.length)).sum) + n ≤ 16384)

/-- Add a record to the page being assembled; the chain goes on from it. -/
def appendRecord (typ owner epoch code : Nat) (body : Bytes) (s : State) : State :=
  let b := recordBytes s typ body
  let d := sha256 b
  let s := { s with ldg := { s.ldg with
    page := s.ldg.page ++ [⟨s.ldg.nextSeq, typ, owner, epoch, b⟩]
    nextSeq := s.ldg.nextSeq + 1, chain := d, dropped := 0 } }
  match eventMr code with
  | some n => if typ = 0x10 then extendMr n d (stageMr d s) else s
  | none => s

/-- Program the page being assembled when no page is being programmed and a journal page can be obtained (R279, R288); the epoch of a root
record goes to the keeper domain first (R298). -/
def startProgram (s : State) : State :=
  if s.ldg.page = [] ∨ s.ldg.programming ≠ [] then s
  else match obtainJournal s with
    | (false, s) => s
    | (true, s) =>
      let e := (s.ldg.page.filter (fun r => r.typ != 0x10)).foldl (fun m r => max m r.epoch) s.ldg.lastRoot
      { s with ldg := { s.ldg with programming := s.ldg.page, page := [], pageForced := false, lastRoot := e } }

/-- The tenant root record body (R275). -/
def tenantRecord (r : FormedRoot) (first last : Option Nat) : Bytes :=
  r.body ++ be 8 (first.getD 0xFFFFFFFFFFFFFFFF) ++ be 8 (last.getD 0xFFFFFFFFFFFFFFFF) ++ be 1 r.keyGen ++ be 1 (b2n r.unsigned)
    ++ zeros 2 ++ be 4 r.idle ++ fit 96 r.sigE ++ fit 3309 r.sigM ++ zeros 3

/-- The device root record body (R275). -/
def deviceRecord (r : FormedRoot) : Bytes :=
  r.body ++ be 4 r.idle ++ zeros 4 ++ fit 96 r.sigE ++ fit 3309 r.sigM ++ zeros 3

/-- Whether a receipt page of a tenant up to `p` is still open or waits to be programmed (R285). -/
def State.pageWaits (s : State) (t p : Nat) : Bool :=
  (s.openEntries t != [] && decide (s.openSeq t ≤ p)) || s.ldg.rcptProg.any (fun x => x.tenant == t && decide (x.seq ≤ p))

/-- Whether the record of a formed root may be written: it is signed, the receipt pages it names are programmed, and the partner of its pair
has acknowledged it (R285, R557). -/
def State.recordable (s : State) (r : FormedRoot) : Bool :=
  (r.signed || r.unsigned) &&
  (if r.owner < 512 then
    (match (s.counts r.owner r.epoch).lastPage with | some p => !s.pageWaits r.owner p | none => true)
      && !s.pair.ackWait.any (fun w => w.1 == r.owner && w.2.1 == r.epoch)
   else true)

/-- The bytes a formed root's record takes. -/
def FormedRoot.recordSize (r : FormedRoot) : Nat := if r.owner < 512 then 3628 else 3660

/-- Close the page a tenant is filling when it holds receipts that the next root record names. -/
def closeNamed (r : FormedRoot) (s : State) : State :=
  match (s.counts r.owner r.epoch).lastPage with
  | some p => if r.owner < 512 ∧ s.openSeq r.owner ≤ p then closePage r.owner s else s
  | none => s

/-- Move an event held at its source into the event queue when an entry is free, and end the replies that waited for it (R278). -/
def takeHeld (s : State) : State :=
  match s.ldg.evHeld with
  | [] => s
  | e :: es =>
    if 4096 ≤ s.ldg.evq.length then s
    else
      let hs := s.ldg.heldReplies.map (fun h => { h with after := h.after - 1 })
      let s := { s with ldg := { s.ldg with
        evq := s.ldg.evq ++ [e], evHeld := es, heldReplies := hs.filter (fun h => h.after != 0) } }
      (hs.filter (fun h => h.after == 0)).foldl (fun s h => finalReply h.cmd h.status h.out h.detail s) s

/-- Place the next event in a record; a protected event forces the page out. Events wait while a page is being programmed (R279). -/
def placeEvent (s : State) : State :=
  match s.ldg.evq with
  | [] => s
  | e :: es =>
    if s.ldg.programming ≠ [] then s
    else if !s.fits 124 then startProgram s
    else
      let s := appendRecord 0x10 devOwner s.epoch e.code e.body { s with ldg := { s.ldg with evq := es } }
      let s := takeHeld s
      if e.isProtected then startProgram { s with ldg := { s.ldg with pageForced := true } } else s

/-- Place the record of the first formed root in record order (R276); the device root forces the page out. -/
def placeRoot (s : State) : State :=
  match s.ldg.signQ with
  | [] => s
  | r :: rs =>
    let s := if r.signed ∨ r.unsigned then closeNamed r s else s
    if !s.recordable r then s
    else if !s.fits r.recordSize then startProgram { s with ldg := { s.ldg with pageForced := true } }
    else
      let s := { s with ldg := { s.ldg with signQ := rs } }
      if r.owner < 512 then
        let c := s.counts r.owner r.epoch
        let s := appendRecord 0x02 r.owner r.epoch 0 (tenantRecord r c.firstPage c.lastPage) s
        { s with ldg := { s.ldg with counts := s.ldg.counts.filter (fun x => !(x.owner == r.owner && x.epoch == r.epoch)) } }
      else
        let s := appendRecord 0x01 devOwner r.epoch 0 (deviceRecord r) s
        startProgram { s with ldg := { s.ldg with
          pageForced := true
          counts := s.ldg.counts.filter (fun x => !(x.owner == devOwner && x.epoch == r.epoch)) } }

/-- Place what can be placed: events before roots (their order is the model's choice, log entry 31). -/
def pumpSteps : Nat → State → State
  | 0, s => s
  | n + 1, s => pumpSteps n (placeRoot (placeEvent (takeHeld s)))

/-- Let the sequencer place events and root records, and program a page that is forced (R276, R278, R279). -/
def pump (s : State) : State :=
  if !s.ldg.started then s
  else
    let s := if s.ldg.pageForced then startProgram s else s
    pumpSteps (s.ldg.evq.length + s.ldg.evHeld.length + s.ldg.signQ.length + 2) s

/-- EVENT_ENQUEUE: an event report reaches the event queue (R278). -/
def execEventEnqueue (code src tenant : BitVec 16) (data : Bytes) (s : State) : Out :=
  .next (pump (event code.toNat src.toNat tenant.toNat data s))

/-- JOURNAL_PAGE_TIMER: 100 ms after its first record a staging page is programmed (R279). -/
def execJournalPageTimer (s : State) : Out :=
  if s.ldg.page = [] then .next (pump s)
  else .next (pump (startProgram { s with ldg := { s.ldg with pageForced := true } }))

/-- What a programmed root record changes: the last epoch rooted of a tenant, or LDG_SIGNED and EPOCH_SIGNED for a device root. -/
def rootProgrammed (r : JRecord) (s : State) : State :=
  let done (k n : Nat) (s : State) : State :=
    { s with ldg := { s.ldg with prevDone := tput (dflt []) s.ldg.prevDone k (sha256 (slice r.bytes 64 n)) } }
  if r.typ = 0x02 then
    let s := if (s.tenant r.owner).present then done r.owner 128 s
      else { s with ldg := { s.ldg with prevDone := tput (dflt []) s.ldg.prevDone r.owner [] } }
    { s with ldg := { s.ldg with rooted := tput (dflt 0) s.ldg.rooted r.owner (r.epoch + 1) } }
  else if r.typ = 0x01 then irq Reg.LDG_IRQ_STATUS 10 0 ((done 512 176 s).wr64 Reg.LDG_SIGNED_LO r.epoch)
  else s

/-- JOURNAL_PAGE_PROGRAM_DONE: a page is in the journal; or its program fails, the block is retired, its pages moved to a free block, and the records are
written again in the next page (R279, R463). With no free block the page is tried again where it is. -/
def execJournalPageProgramDone (ok : Bool) (s : State) : Out :=
  match s.ldg.programming with
  | [] => .next s
  | l =>
    if ok then
      let d := match l.getLast? with | some r => sha256 r.bytes | none => s.ldg.chainDone
      let s := noteWritten 1 s
      let s := { s with ldg := { s.ldg with journal := s.ldg.journal ++ [l], programming := [], chainDone := d } }
      .next (serveMoves (pump (l.foldl (fun s r => rootProgrammed r s) s)))
    else
      let s := irq Reg.LFS_IRQ_STATUS 8 0 (s.bump Reg.LFS_PROG_FAIL)
      match s.lfs.jblocks.getLast?, s.findBlock 0 with
      | some b, some m =>
        let s := setLblock m { s.lblock m with area := 1 } (retireBlock b s)
        .next { s with lfs := { s.lfs with jblocks := s.lfs.jblocks.dropLast ++ [m] } }
      | _, _ => .next s

/-- RECEIPT_PAGE_PROGRAM_DONE: the oldest receipt page that waits is programmed, once no write of a higher rank waits (R462), and, with REPLICATE set, sent
to the partner; a failed program retires the block and the page is written again elsewhere under its sequence (R285, R463, R557). -/
def execReceiptPageProgramDone (ok : Bool) (s : State) : Out :=
  match s.ldg.rcptProg with
  | [] => .next s
  | p :: ps =>
    if s.writeWaits 3 then .next s else
    match needGroup p.tenant (pageGroup p.seq) s with
    | (false, s) => .next s
    | (true, s) =>
      if ok then
        let s := noteWritten 1 { s with ldg := { s.ldg with rcptProg := ps, pages := s.ldg.pages ++ [p] } }
        let s := s.wrB Reg.LDG_STATUS 4 s.stageFull
        let s := if (s.charter p.tenant).replicate ∧ s.pair.paired then sendPair ⟨.page, p.tenant, p.bytes⟩ s else s
        .next (serveMoves (pump s))
      else
        let s := irq Reg.LFS_IRQ_STATUS 8 0 (s.bump Reg.LFS_PROG_FAIL)
        match s.lfs.rblocks.find? (fun r => r.1 == p.tenant && r.2.1 == pageGroup p.seq), s.findBlock 0 with
        | some r, some m =>
          let s := setLblock m { s.lblock m with area := 2, tenant := some p.tenant } (retireBlock r.2.2 s)
          .next { s with lfs := { s.lfs with rblocks := s.lfs.rblocks.map (fun x => if x = r then (r.1, r.2.1, m) else x) } }
        | _, _ => .next s

/-! ### The start scan (R280) -/

/-- The receipt pages of a tenant that hold entries of an epoch not rooted. -/
def State.unrooted (s : State) (t : Nat) : List Nat :=
  (s.ldg.pages.filter (fun p => p.tenant == t && p.entries.any (fun x => decide (tget (dflt 0) s.ldg.rooted t ≤ field x 32 8)))).map (·.seq)

/-- The UNROOTED events of every tenant that needs one. -/
def State.unrootedEvents (s : State) : List Event :=
  (List.range 512).flatMap (fun t =>
    match s.unrooted t with
    | [] => []
    | p :: ps => [⟨0x0032, eventBody s 0x0032 (srcMaster 0) t (be 2 t ++ be 8 (ps.foldl min p) ++ be 8 (ps.foldl max p)), false⟩])

/-- JOURNAL_SCAN_DONE: the block states are scanned (LFS_STATUS), the last valid record is found and the chain continues from it; a torn record (its sequence and page) is counted and
written as a TORN event after START, with an UNROOTED event for pages whose epoch has no root (R280). -/
def execJournalScanDone (torn : Option (BitVec 64 × BitVec 32)) (s : State) : Out :=
  let s := ((s.wrB Reg.LDG_STATUS 3 true).wrB Reg.LFS_STATUS 0 true).wrB Reg.LFS_STATUS 1 true
  let evs := (match torn with
    | some (q, p) => [(⟨0x0031, eventBody s 0x0031 (srcMaster 0) 0xFFFF (be 8 q.toNat ++ be 4 p.toNat), true⟩ : Event)]
    | none => []) ++ s.unrootedEvents
  let s := if torn.isSome then s.bump Reg.LDG_TORN else s
  if s.ldg.started then .next (pump (evs.foldl (fun s e => enqueueEvent e s) s))
  else .next { s with ldg := { s.ldg with afterStart := s.ldg.afterStart ++ evs } }

/-! ### Epochs (R265 to R269) -/

/-- Nanoseconds of the 64-bit epoch count and sub-second value. -/
def State.epochNs (s : State) : Nat := s.epoch * 1000000000 + s.tim.now % 1000000000

/-- EPOCH_CUT: after `dt` nanoseconds the seconds count advances; LDG_EPOCH shows the epoch in progress (R265, R266). -/
def execEpochCut (dt : Nat) (s : State) : Out :=
  let s := s.advance dt
  .next (s.wr64 Reg.LDG_EPOCH_LO s.epoch)

/-- The open chunks of an epoch, with their clusters. -/
def State.openOf (s : State) (e : Nat) : List (Nat × Chunk) :=
  s.ldg.chunks.flatMap (fun c => (c.2.filter (fun ch => ch.stream.epoch == e)).map (fun ch => (c.1, ch)))

/-- Whether an epoch is idle (R290): no leaves, no late leaves, and no event written or waiting since the last close. -/
def State.epochIdle (s : State) (e : Nat) : Bool :=
  s.ldg.counts.all (fun c => c.epoch != e) && s.ldg.evq == [] && s.ldg.evHeld == [] && s.ldg.chain == s.ldg.chainAtClose
    && tget (dflt 0) s.ldg.droppedIn e == 0

/-- The epochs whose roots wait for signature and are not the last to have closed (LDG_SIGN_LAG, R273). -/
def State.signLag (s : State) : Nat :=
  (((s.ldg.signQ.filter (fun r => !r.signed && !r.unsigned && decide (r.epoch + 1 < s.ldg.nextClose))).map (·.epoch)).eraseDups).length

/-- Show LDG_SIGN_LAG and LAGGING. -/
def refreshLag (s : State) : State :=
  let n := s.signLag
  let was := s.bitOf Reg.LDG_STATUS 2
  let s := (s.wr Reg.LDG_SIGN_LAG (BitVec.ofNat 32 (sat 65535 n))).wrB Reg.LDG_STATUS 2 (n != 0)
  if n ≠ 0 ∧ !was then irq Reg.LDG_IRQ_STATUS 10 7 s else s

/-- Close the epoch that is next to close: every open chunk of it closes with the reason given (R261, R266). -/
def closeEpoch (reason : Nat) (final : Bool) (s : State) : State :=
  let e := s.ldg.nextClose
  let idle := s.epochIdle e && (s.bitOf Reg.LDG_STATUS 0 || decide (64 < s.signLag))
  let info : CloseInfo := ⟨e, s.sys.mode, s.sys.maint, s.bitOf Reg.LDG_STATUS 0, s.ldg.chainDone, idle, [], final⟩
  let s := (s.openOf e).foldl (fun s c => closeChunk c.1 reason c.2 s) s
  refreshLag { s with ldg := { s.ldg with nextClose := e + 1, closing := s.ldg.closing ++ [info], chainAtClose := s.ldg.chain } }

/-- Whether the Ledger may still form roots: it has been started and no final root is made (R32, R281). -/
def State.ledgerOn (s : State) : Bool := s.ldg.running && !s.ldg.finalDone && s.sys.mode != .factory

/-- Whether the Ledger closes epochs at their cuts: in NOTARY, CEREMONY, SERVICE and MAINTENANCE (R32). -/
def State.ledgerRuns (s : State) : Bool := s.ledgerOn && s.sys.mode != .zeroized

/-- EPOCH_CLOSE: after `dt` nanoseconds, an epoch 50 ms past the cut that ends it closes (R266). Skipped epochs close one by one (R269). -/
def execEpochClose (dt : Nat) (s : State) : Out :=
  let s := s.advance dt
  if s.ledgerRuns ∧ (s.ldg.nextClose + 1) * 1000000000 + 50000000 ≤ s.epochNs then .next (closeEpoch 2 false s) else .next s

/-- Form the tile roots of a tile for a closed epoch. -/
def formTile (tile e : Nat) (s : State) : State :=
  let mine (t : TileTree) : Bool := t.tile == tile && t.stream.epoch == e
  let s := (s.ldg.roots.filter (fun r => r.cluster / 16 == tile && r.stream.epoch == e)).foldl (fun s r => deliverRoot r s) s
  { s with ldg := { s.ldg with
      tileRoots := s.ldg.tileRoots ++ (s.ldg.trees.filter mine).map (fun t => ⟨tile, t.stream, mth mthFuel t.roots⟩)
      trees := s.ldg.trees.filter (fun t => !mine t)
      closing := s.ldg.closing.map (fun c => if c.epoch = e then { c with formed := c.formed ++ [tile] } else c) } }

/-- TILE_ROOT_FORM: a tile's tree unit forms the tile roots of the first closed epoch it has not formed (R263, R266). -/
def execTileRootForm (tile : Fin 4) (s : State) : Out :=
  if !s.linkOk tile then .next s else
  match s.ldg.closing.find? (fun c => !c.formed.contains tile.val) with
  | none => .next s
  | some c => .next (formTile tile c.epoch s)

/-! ### Roots (R264, R270, R271, R290) -/

/-- The stream root of an owner's stream in an epoch. -/
def State.streamRootOf (s : State) (o e : Nat) (ret : Bool) : Bytes :=
  let a (tile : Nat) : Bytes :=
    ((s.ldg.tileRoots.find? (fun r => r.tile == tile && r.stream == ⟨o, ret, e⟩)).map (·.root)).getD (zeros 32)
  streamRoot (a 0) (a 1) (a 2) (a 3)

/-- The previous root of a chain: a tenant's, or the device's at 512. -/
def State.prevRoot (s : State) (o : Nat) : Bytes := tget (dflt []) s.ldg.prev o

/-- Whether a tenant root is formed: the tenant exists and this device holds its charter or is handing it over, or the tenant has been
destroyed and its last root is to come (R270, R491, R552). -/
def State.rootDue (s : State) (e t : Nat) : Bool :=
  let c := s.charter t
  ((s.tenant t).present && (c.role == 1 || (c.role == 3 && (match c.cut with | some x => decide (e < x) | none => true))))
    || tget (dflt false) s.ldg.leaving t

/-- Whether a new holder still waits for the LAST root of the former one, so that the root of this epoch is folded (R558). -/
def State.rootFolds (s : State) (t : Nat) : Bool := match (s.charter t).await with | some n => decide (n < 64) | none => false

/-- Whether an epoch is the last of a tenant's chain on this device. -/
def State.rootLast (s : State) (t e : Nat) : Bool :=
  tget (dflt false) s.ldg.leaving t || ((s.charter t).role == 3 && (s.charter t).cut == some (e + 1))

/-- The tenant root body (R270). -/
def tenantBody (s : State) (i : CloseInfo) (halted : Bool) (t : Nat) : Bytes :=
  let c := s.counts t i.epoch
  let fl := b2n (s.prevRoot t == []) + 2 * b2n (s.ldg.firstEpoch == some i.epoch) + 4 * b2n (i.maint.has t) + 8 * b2n halted
    + 16 * b2n (s.rootLast t i.epoch)
  [0x03, 0x01] ++ be 2 t ++ be 8 i.epoch ++ fit 32 (s.prevRoot t) ++ s.streamRootOf t i.epoch true ++ s.streamRootOf t i.epoch false
    ++ be 8 c.leaves ++ be 4 c.lost ++ be 4 c.late ++ be 1 fl ++ zeros 3

/-- The tenants that a root is formed for at a close: none in NOTARY. -/
def State.rootTenants (s : State) (i : CloseInfo) : List Nat :=
  if i.mode = .notary then [] else (List.range 512).filter (fun t => s.rootDue i.epoch t && !s.rootFolds t)

/-- The device root body (R271), over the tenant bodies formed. -/
def deviceBody (s : State) (i : CloseInfo) (halted : Bool) (bodies : List (Nat × Bytes)) : Bytes :=
  let entry (t : Nat) : Bytes := ((bodies.find? (fun b => b.1 == t)).map (fun b => sha256 b.2)).getD (zeros 32)
  let late := ((s.ldg.counts.filter (fun c => c.epoch == i.epoch)).map (·.late)).sum
  [0x04, 0x01] ++ be 1 i.mode.code ++ be 1 (b2n (s.ldg.firstEpoch == some i.epoch) + 2 * b2n halted + 4 * b2n i.final)
    ++ be 8 i.epoch ++ fit 32 (s.prevRoot 512) ++ s.streamRootOf devOwner i.epoch false ++ mth mthFuel ((List.range 512).map entry)
    ++ fit 32 i.chain ++ be 8 (s.counts devOwner i.epoch).leaves ++ be 4 (tget (dflt 0) s.ldg.droppedIn i.epoch) ++ be 4 late ++ be 2 bodies.length
    ++ be 1 (s.fld Reg.SYS_HOLD 7 0) ++ zeros 1 ++ be 8 Config.serial.toNat ++ be 4 s.keys.l0gen ++ zeros 4

/-- Whether the LAST root of a tenant, that of epoch `e` - 1, has been sent to the partner: it is signed or its record is written (R552, R557). -/
def State.lastRootSent (s : State) (t e : Nat) : Bool :=
  decide (e ≤ tget (dflt 0) s.ldg.rooted t) || s.ldg.signQ.any (fun r => r.owner == t && r.epoch + 1 == e && (r.signed || r.unsigned))

/-- A RELEASING device becomes STANDBY once FINAL and then the LAST root have gone to the partner (R552, R555). -/
def releaseCharter (t : Nat) (s : State) : State :=
  let c := s.charter t
  match c.cut with
  | some e =>
    if c.role = 3 ∧ c.final ∧ s.pair.linkUp ∧ s.lastRootSent t e then
      charterEvent 3 t 3 e (s.setCharter t { c with role := 2, cut := none, granted := 0, leaseHeld := 0, final := false })
    else s
  | none => s

/-- A destroyed tenant has had its last root. -/
def afterRoot (t : Nat) (s : State) : State :=
  if tget (dflt false) s.ldg.leaving t then
    { s with ldg := { s.ldg with leaving := tput (dflt false) s.ldg.leaving t false, prev := tput (dflt []) s.ldg.prev t [] } }
  else s

/-- What a new holder that waits for the former one's LAST root does at the close of an epoch: it folds its root, and after 64 epochs it goes on from
the last root it holds, with a CHARTER event of action GAP (R558). -/
def foldAwaiting (e t : Nat) (s : State) : State :=
  let c := s.charter t
  match c.await with
  | some n =>
    if !s.rootDue e t then s
    else if n < 64 then
      ({ s with ldg := { s.ldg with idleFolded := tupd (dflt 0) s.ldg.idleFolded t (· + 1) } } : State).setCharter t { c with await := some (n + 1) }
    else charterEvent 8 t c.role e (s.setCharter t { c with await := none })
  | none => s

/-- Add a formed root to the queue for signature, or fold it when its epoch is idle: the chain goes on either way (R290). -/
def pushRoot (i : CloseInfo) (o : Nat) (body : Bytes) (s : State) : State :=
  let k := if o = devOwner then 512 else o
  let r : FormedRoot := ⟨o, i.epoch, body, tget (dflt 0) s.ldg.idleFolded k, 0, false, [], [], false⟩
  let s := { s with ldg := { s.ldg with prev := tput (dflt []) s.ldg.prev k (sha256 body) } }
  if i.idle then { s with ldg := { s.ldg with idleFolded := tupd (dflt 0) s.ldg.idleFolded k (· + 1) } }
  else { s with ldg := { s.ldg with signQ := s.ldg.signQ ++ [r], idleFolded := tput (dflt 0) s.ldg.idleFolded k 0 } }

/-- Form the roots of a closed epoch whose tile roots are all in; the device root extends measurement register 24 (R270, R271, R291). -/
def formRoots (i : CloseInfo) (s : State) : State :=
  let halted := i.halted || i.idle
  let s := if i.mode = .notary then s else (s.pair.charters.map (·.1)).foldl (fun s t => foldAwaiting i.epoch t s) s
  let ts := s.rootTenants i
  let bodies := ts.map (fun t => (t, tenantBody s i halted t))
  let dev := deviceBody s i halted bodies
  let s := bodies.foldl (fun s b => pushRoot i b.1 b.2 s) s
  let s := extendMr 24 (sha256 dev) (stageMr (sha256 dev) (pushRoot i devOwner dev s))
  let s := ts.foldl (fun s t => afterRoot t s) s
  let s := s.wrB Reg.LDG_STATUS 5 i.idle
  refreshLag { s with ldg := { s.ldg with
    closing := s.ldg.closing.filter (fun c => c.epoch != i.epoch)
    tileRoots := s.ldg.tileRoots.filter (fun r => r.stream.epoch != i.epoch)
    chunkSeqs := (s.ldg.chunkSeqs.map (fun c => (c.1, c.2.filter (fun e => e.1.epoch != i.epoch)))).filter (fun c => c.2 != [])
    droppedIn := tput (dflt 0) s.ldg.droppedIn i.epoch 0 } }

/-- The next root to sign: the device root of the first epoch with unsigned roots, then its tenants in order. -/
def State.nextToSign (s : State) : Option FormedRoot :=
  match s.ldg.signQ.find? (fun r => !r.signed && !r.unsigned) with
  | none => none
  | some r =>
    match s.ldg.signQ.find? (fun d => d.owner == devOwner && d.epoch == r.epoch && !d.signed) with
    | some d => some d
    | none => some r

/-- The sequencer takes free custody units ahead of queued operations while a root waits for its signatures: two for a device root, whose parts
run at once, else one (R273, R434). -/
def seatSigner (s : State) : State :=
  seatUnits (match s.nextToSign with | none => 0 | some r => if r.owner = devOwner then 2 else 1) s

/-- ROOTS_FORMED: with all tile roots of the first closed epoch in, the sequencer forms its roots (R268, R270). -/
def execRootsFormed (s : State) : Out :=
  match s.ldg.closing with
  | [] => .next s
  | i :: _ => if [0, 1, 2, 3].all i.formed.contains then .next (seatSigner (formRoots i s)) else .next s

/-! ### Signatures (R272, R273) -/

/-- The context strings "FL5125-TR" and "FL5125-DR". -/
def ctxTR : Bytes := [0x46, 0x4C, 0x35, 0x31, 0x32, 0x35, 0x2D, 0x54, 0x52]
def ctxDR : Bytes := [0x46, 0x4C, 0x35, 0x31, 0x32, 0x35, 0x2D, 0x44, 0x52]

/-- Sign a formed root: the device root with the identity keys, a tenant root with the tenant's ledger keys; a tenant whose seed is no longer
LIVE yields an UNSIGNED root (R281). -/
def signRoot (r : FormedRoot) (s : State) : FormedRoot :=
  let nonce := s.freeBytes 48
  if r.owner = devOwner then
    { r with signed := true, sigE := Config.ecdsaSign idScalar (sha384 r.body) nonce
             sigM := Config.mldsaSign idMldsa ctxDR r.body (be 32 (Config.freeBits (s.free + 2)).toNat) }
  else match s.liveKey (signSlot r.owner) with
    | none => { r with unsigned := true }
    | some k =>
      let l := seedLabel s 0x11 (signSlot r.owner) r.owner
      { r with signed := true, keyGen := (s.slot (signSlot r.owner)).gen
               sigE := Config.ecdsaSign (signScalar k l) (sha384 r.body) nonce
               sigM := Config.mldsaSign (mldsaSeed k l) ctxTR r.body (be 32 (Config.freeBits (s.free + 2)).toNat) }

/-- ROOT_SIGN_DONE: a custody PKE unit completes the signatures of the next root; without a unit none is signed (R571), and no tenant root while
the Mint, which expands the seed, is stopped (R235, R238). A tenant root of a pair is sent to the partner, and its record
waits for the acknowledgement; the LAST root of a tenant sent makes a RELEASING device STANDBY (R273, R552, R557). -/
def execRootSignDone (s : State) : Out :=
  let s := seatSigner s
  match s.nextToSign with
  | none => .next (pump s)
  | some r =>
    if s.seqUnits = [] ∨ (r.owner ≠ devOwner ∧ !s.mintUp) then .next (pump s)
    else
    let r' := signRoot r s
    let s := { s with free := s.free + 3
                      ldg := { s.ldg with signQ := s.ldg.signQ.map (fun x => if x = r then r' else x) } }
    let s := if r.owner < 512 ∧ s.pair.paired then
        let m : PairMsg := ⟨.root, r.owner, tenantRecord r' (s.counts r.owner r.epoch).firstPage (s.counts r.owner r.epoch).lastPage⟩
        let s := sendPair m s
        releaseCharter r.owner { s with pair := { s.pair with ackWait := s.pair.ackWait ++ [(r.owner, r.epoch, s.ms)] } }
      else s
    .next (seatSigner (freeSeqUnits (pump (refreshLag s))))

/-! ### Zeroization (R281) -/

/-- The Ledger's part of a zeroization with main power present: open epochs close with reason 3, the last with FINAL, and tenant roots not yet
signed will be written UNSIGNED. -/
def zeroizeLedger (s : State) : State :=
  if !s.ledgerOn then s
  else
    let e := s.epoch
    let n := e + 1 - s.ldg.nextClose
    let s := (List.range n).foldl (fun s i => closeEpoch 3 (i + 1 == n) s) s
    { s with ldg := { s.ldg with
        finalDone := true
        signQ := s.ldg.signQ.map (fun r => if r.owner < 512 ∧ !r.signed then { r with unsigned := true } else r) } }

end Sys2Proof.Machine
end

