-- ==== Sys2Proof/Machine/PkeAlg.lean ====
section
/-! DEFINITION. What the public-key operations compute (R432, R435, R440): lengths, curves and edge operands, RSA with its paddings, modular
exponentiation. Curve and lattice results are uninterpreted functions of Config. -/

namespace Sys2Proof.Machine

/-! ### Lengths (R430, R432) -/

/-- The field (and scalar) length of an elliptic curve: P-256, else P-384. -/
def fieldLen (alg : Nat) : Nat := if alg = 1 then 32 else 48

/-- The length of a public key, private key, signature, seed and ciphertext of an algorithm; RSA keys are their integers at modulus length. -/
def pubLen (r : PkeReq) : Nat :=
  match r.alg with
  | 1 => 65 | 2 => 97 | 3 => 32 | 4 => 1952 | 5 => 2592 | 6 => 1184 | 7 => 1568 | _ => 2 * r.modLen
def privLen (r : PkeReq) : Nat :=
  match r.alg with
  | 1 => 32 | 2 => 48 | 3 => 32 | 4 => 4032 | 5 => 4896 | 6 => 2400 | 7 => 3168 | _ => 6 * r.modLen
def sigLen (r : PkeReq) : Nat :=
  match r.alg with
  | 1 => 64 | 2 => 96 | 3 => 64 | 4 => 3309 | 5 => 4627 | _ => r.modLen
def seedLen (alg : Nat) : Nat := if alg = 2 then 48 else if 6 ≤ alg then 64 else 32
def ctLen (alg : Nat) : Nat := if alg = 6 then 1088 else 1568

/-- The lengths of an operation's operands, in order; `keyed` = the private key comes from a Vault seed. -/
def operandLens (r : PkeReq) (keyed : Bool) : List Nat :=
  match r.op with
  | 1 => if r.seeded then [seedLen r.alg] else []
  | 2 => [if keyed then 0 else privLen r, r.msgLen, r.ctxLen]
  | 3 => [pubLen r, r.msgLen, sigLen r, r.ctxLen]
  | 4 => [fieldLen r.alg, pubLen r]
  | 5 => [pubLen r]
  | 6 => [privLen r, ctLen r.alg]
  | 7 => [r.modLen, r.modLen, r.modLen]
  | 8 => List.replicate 7 r.modLen
  | 9 => [r.modLen, r.modLen, r.modLen]
  | _ => []

/-- The length of an operation's result. -/
def resultLen (r : PkeReq) : Nat :=
  match r.op with
  | 1 => pubLen r + privLen r
  | 2 => sigLen r
  | 4 => fieldLen r.alg
  | 5 => ctLen r.alg + 32
  | 6 => 32
  | 7 => r.modLen
  | 8 => r.modLen
  | 9 => r.modLen
  | _ => 0

/-- Whether a unit has the operation for the algorithm, hash and padding (R432). -/
def pkeSupported (r : PkeReq) : Bool :=
  match r.op with
  | 1 => decide (1 ≤ r.alg) && decide (r.alg ≤ 7)
  | 4 => r.alg == 1 || r.alg == 2
  | 5 => r.alg == 6 || r.alg == 7
  | 6 => r.alg == 6 || r.alg == 7
  | 7 => r.alg == 8
  | 8 => r.alg == 8
  | 9 => r.alg == 15
  | k => (k == 2 || k == 3) &&
    (match r.alg with
     | 1 => decide (r.hash ≤ 3)
     | 2 => decide (r.hash ≤ 3)
     | 3 => r.hash == 0
     | 4 => r.hash == 0 || r.hash == 15
     | 5 => r.hash == 0 || r.hash == 15
     | 8 => (r.pad == 0 && r.hash == 0) || ((r.pad == 1 || r.pad == 2) && decide (r.hash ≤ 3))
     | _ => false)

/-- Whether the message and context lengths lie in range: 16,384 and 255 bytes, 64 for a mu, a digest of a known hash for RSA padding. -/
def pkeLengthsOk (r : PkeReq) : Bool :=
  !(r.op == 2 || r.op == 3) ||
    (decide (r.msgLen ≤ 16384) && decide (r.ctxLen ≤ 255) && (r.hash != 15 || r.msgLen == 64)
      && (r.alg != 8 || (if r.pad = 0 then r.msgLen == r.modLen else r.hash != 0 || [32, 48, 64].contains r.msgLen)))

/-- Whether an operation needs fresh randomness (R438). -/
def pkeNeedsRng (r : PkeReq) : Bool :=
  (r.op == 1 && !r.seeded) || (r.op == 2 && (r.alg == 1 || r.alg == 2 || r.alg == 4 || r.alg == 5)) || r.op == 5

/-! ### Curves and edge operands (R440) -/

/-- The prime, the order and the coefficient b of P-256 and P-384 (a = -3). -/
def curveP (alg : Nat) : Nat :=
  if alg = 1 then 0xFFFFFFFF00000001000000000000000000000000FFFFFFFFFFFFFFFFFFFFFFFF
  else 0xFFFFFFFFFFFFFFFFFFFFFFFFFFFFFFFFFFFFFFFFFFFFFFFFFFFFFFFFFFFFFFFEFFFFFFFF0000000000000000FFFFFFFF
def curveN (alg : Nat) : Nat :=
  if alg = 1 then 0xFFFFFFFF00000000FFFFFFFFFFFFFFFFBCE6FAADA7179E84F3B9CAC2FC632551 else p384n
def curveB (alg : Nat) : Nat :=
  if alg = 1 then 0x5AC635D8AA3A93E7B3EBBD55769886BC651D06B0CC53B0F63BCE3C3E27D2604B
  else 0xB3312FA7E23EE7E4988E056BE3F82D19181D9C6EFE8141120314088F5013875AC656398D8A2ED19D2A85C8EDD3EC2AEF

/-- Whether an uncompressed public key is valid: its coordinates lie below p and on the curve. -/
def curvePointOk (alg : Nat) (pub : Bytes) : Bool :=
  let n := fieldLen alg
  let p := curveP alg
  let x := ofBe (slice pub 1 n)
  let y := ofBe (slice pub (1 + n) n)
  field pub 0 1 == 4 && decide (x < p) && decide (y < p) && y * y % p == (x * x * x + (p - 3) * x + curveB alg) % p

/-- Whether a scalar is in 1 to n - 1. -/
def scalarOk (alg : Nat) (b : Bytes) : Bool := ofBe b != 0 && decide (ofBe b < curveN alg)

/-- Whether an RSA modulus and public exponent are accepted: odd, of 1,024 to 4,096 bits; e odd, from 3 to 2^64 - 1. -/
def rsaOk (modLen n e : Nat) : Bool :=
  n % 2 == 1 && decide (2 ^ 1023 ≤ n) && decide (128 ≤ modLen) && decide (modLen ≤ 512) && e % 2 == 1 && decide (3 ≤ e) && decide (e < 2 ^ 64)

/-- The error code (3 OPERAND, 4 PUBKEY) of an operation refused for its operands (R440); `keyed` = no private key among them. -/
def pkeEdge (r : PkeReq) (keyed : Bool) (o : List Bytes) : Option Nat :=
  let a (i : Nat) : Bytes := o.getD i []
  let v (i : Nat) : Nat := ofBe (a i)
  match r.op with
  | 2 =>
    if (r.alg = 1 ∨ r.alg = 2) ∧ !keyed ∧ !scalarOk r.alg (a 0) then some 3
    else if r.alg = 8 then
      let k := r.modLen
      let n := ofBe (slice (a 0) 0 k) * ofBe (slice (a 0) k k)
      if !rsaOk k n (ofBe (slice (a 0) (5 * k) k)) ∨ (r.pad = 0 ∧ n ≤ v 1) then some 3 else none
    else none
  | 3 =>
    if (r.alg = 1 ∨ r.alg = 2) ∧ !curvePointOk r.alg (a 0) then some 4
    else if r.alg = 8 ∧ !rsaOk r.modLen (ofBe (slice (a 0) 0 r.modLen)) (ofBe (slice (a 0) r.modLen r.modLen)) then some 3
    else none
  | 4 => if !scalarOk r.alg (a 0) then some 3 else if !curvePointOk r.alg (a 1) then some 4 else none
  | 5 => if !Config.pkKeyOk r.alg (a 0) then some 4 else none
  | 6 => if !Config.pkKeyOk r.alg (a 0) then some 4 else none
  | 7 => if !rsaOk r.modLen (v 0) (v 1) ∨ v 0 ≤ v 2 then some 3 else none
  | 8 => if !rsaOk r.modLen (v 0 * v 1) (v 5) ∨ v 0 * v 1 ≤ v 6 then some 3 else none
  | 9 => if v 0 % 2 = 0 ∨ v 0 ≤ 1 ∨ 1024 < r.modLen ∨ v 0 ≤ v 2 then some 3 else none
  | _ => none

/-! ### RSA (R432) -/

/-- The hash of PKE_U_JOB.HASH (1 SHA-256, 2 SHA-384, 3 SHA-512), its length, and its DigestInfo prefix (RFC 8017). -/
def hashOf (h : Nat) (b : Bytes) : Bytes := if h = 1 then sha256 b else if h = 2 then sha384 b else sha512 b
def hashLen (h : Nat) : Nat := if h = 1 then 32 else if h = 2 then 48 else 64
def digestInfo (h : Nat) : Bytes :=
  let n := BitVec.ofNat 8 (hashLen h)
  [0x30, n + 17, 0x30, 0x0D, 0x06, 0x09, 0x60, 0x86, 0x48, 0x01, 0x65, 0x03, 0x04, 0x02, BitVec.ofNat 8 h, 0x05, 0x00, 0x04, n]

/-- The digest of an RSA or ECDSA message: supplied (HASH 0), or computed. -/
def pkeDigest (hash : Nat) (m : Bytes) : Bytes := if hash = 0 then m else hashOf hash m

/-- The hash that a padding uses: the one named, or the one whose length a supplied digest has. -/
def padHash (hash len : Nat) : Nat := if hash ≠ 0 then hash else if len = 32 then 1 else if len = 48 then 2 else 3

/-- m^e mod n. -/
def modExp (n m e : Nat) : Nat := powMod n (Nat.log2 e + 1) (m % n) e 1

/-- The private operation by CRT (R432). -/
def crtPrivate (p q dP dQ qInv m : Nat) : Nat :=
  let m1 := modExp p m dP
  let m2 := modExp q m dQ
  m2 + q * (qInv * ((m1 + p - m2 % p) % p) % p)

/-- EMSA-PKCS1-v1_5 of a digest in `k` bytes. -/
def emsaPkcs1 (h : Nat) (d : Bytes) (k : Nat) : Bytes :=
  let t := digestInfo h ++ d
  [0x00, 0x01] ++ List.replicate (k - 3 - t.length) 0xFF ++ [0x00] ++ t

/-- MGF1 with a hash: `n` bytes. -/
def mgf1 (h : Nat) (seed : Bytes) (n : Nat) : Bytes :=
  ((List.range (n / hashLen h + 1)).flatMap (fun i => hashOf h (seed ++ be 4 i))).take n

/-- Clear the bits above bit `8 * n - 1 - emBits` of the first byte of `n` bytes. -/
def clearTop (emBits : Nat) (b : Bytes) : Bytes :=
  match b with
  | [] => []
  | x :: r => BitVec.ofNat 8 (x.toNat % 2 ^ (8 - (8 * ((emBits + 7) / 8) - emBits))) :: r

/-- EMSA-PSS of a digest with a salt as long as the hash. -/
def emsaPss (h : Nat) (d salt : Bytes) (emBits : Nat) : Bytes :=
  let n := (emBits + 7) / 8
  let hl := hashLen h
  let hh := hashOf h (zeros 8 ++ d ++ salt)
  let db := zeros (n - 2 * hl - 2) ++ [0x01] ++ salt
  clearTop emBits (xorB db (mgf1 h hh (n - hl - 1))) ++ hh ++ [0xBC]

/-- Whether an encoded message is the EMSA-PSS of a digest. -/
def pssVerify (h : Nat) (d em : Bytes) (emBits : Nat) : Bool :=
  let n := (emBits + 7) / 8
  let hl := hashLen h
  let mdb := em.take (n - hl - 1)
  let hh := slice em (n - hl - 1) hl
  let db := clearTop emBits (xorB mdb (mgf1 h hh (n - hl - 1)))
  let salt := db.drop (n - 2 * hl - 1)
  em.length == n && em.getLast? == some 0xBC && clearTop emBits mdb == mdb
    && db.take (n - 2 * hl - 1) == zeros (n - 2 * hl - 2) ++ [0x01] && hh == hashOf h (zeros 8 ++ d ++ salt)

/-- The encoded message an RSA signature exponentiates. -/
def rsaEncode (r : PkeReq) (n : Nat) (m salt : Bytes) : Nat :=
  let d := pkeDigest r.hash m
  let h := padHash r.hash d.length
  if r.pad = 0 then ofBe m
  else if r.pad = 1 then ofBe (emsaPkcs1 h d r.modLen)
  else ofBe (emsaPss h d (salt.take (hashLen h)) (Nat.log2 n))

/-- Whether an RSA signature is valid. -/
def rsaVerify (r : PkeReq) (n e : Nat) (m sig : Bytes) : Bool :=
  let d := pkeDigest r.hash m
  let h := padHash r.hash d.length
  let v := modExp n (ofBe sig) e
  ofBe sig != 0 && decide (ofBe sig < n) &&
    (if r.pad = 0 then v == ofBe m
     else if r.pad = 1 then v == ofBe (emsaPkcs1 h d r.modLen)
     else pssVerify h d (be ((Nat.log2 n + 7) / 8) v) (Nat.log2 n) && decide (v < 256 ^ ((Nat.log2 n + 7) / 8)))

/-! ### Results -/

/-- Whether a VERIFY passes: r and s (or S) in range, then the signature equation (R440). -/
def pkeVerify (r : PkeReq) (o : List Bytes) : Bool :=
  let a (i : Nat) : Bytes := o.getD i []
  match r.alg with
  | 1 => scalarOk 1 ((a 2).take 32) && scalarOk 1 ((a 2).drop 32) && Config.pkVerify 1 0 (a 0) (pkeDigest r.hash (a 1)) (a 2) []
  | 2 => scalarOk 2 ((a 2).take 48) && scalarOk 2 ((a 2).drop 48) && Config.ecdsaVerify (a 0) (pkeDigest r.hash (a 1)) (a 2)
  | 8 => rsaVerify r (ofBe (slice (a 0) 0 r.modLen)) (ofBe (slice (a 0) r.modLen r.modLen)) (a 1) (a 2)
  | alg => if alg = 4 ∧ r.hash = 0 then Config.mldsaVerify (a 0) (a 3) (a 1) (a 2) else Config.pkVerify alg r.hash (a 0) (a 1) (a 2) (a 3)

/-- The result of an operation with 64 bytes of randomness; `seed` is a Vault seed with its label, or the identity's (empty label). `none` when a
check of R439 that the model computes fails: an RSA result raised to e differs from its input. -/
def pkeResult (r : PkeReq) (o : List Bytes) (seed : Option (Bytes × Bytes)) (rnd : Bytes) : Option Bytes :=
  let a (i : Nat) : Bytes := o.getD i []
  let v (i : Nat) : Nat := ofBe (a i)
  match r.op with
  | 1 => some (Config.pkKeypair r.alg (if r.seeded then a 0 else rnd.take (seedLen r.alg)))
  | 2 =>
    let d := pkeDigest r.hash (a 1)
    let z := if r.determ then zeros 32 else rnd.take 32
    match seed with
    | some (k, l) =>
      if r.alg = 2 then some (Config.ecdsaSign (if l = [] then idScalar else signScalar k l) d (rnd.take 48))
      else
        let m := if l = [] then idMldsa else mldsaSeed k l
        some (if r.hash = 0 then Config.mldsaSign m (a 2) (a 1) z else Config.pkSign 4 r.hash m (a 1) (a 2) z)
    | none =>
      match r.alg with
      | 1 => some (Config.pkSign 1 0 (a 0) d [] (rnd.take 32))
      | 2 => some (Config.ecdsaSign (a 0) d (rnd.take 48))
      | 8 =>
        let k := r.modLen
        let c (i : Nat) : Nat := ofBe (slice (a 0) (i * k) k)
        let n := c 0 * c 1
        let m := rsaEncode r n (a 1) rnd
        let y := crtPrivate (c 0) (c 1) (c 2) (c 3) (c 4) m
        if modExp n y (c 5) = m then some (be k y) else none
      | alg => some (Config.pkSign alg r.hash (a 0) (a 1) (a 2) z)
  | 4 => some (if r.alg = 2 then Config.ecdhP384 (a 0) (a 1) else Config.pkShared r.alg (a 0) (a 1))
  | 5 => some (if r.alg = 6 then (Config.mlkemEncaps (a 0) (rnd.take 32)).1 ++ (Config.mlkemEncaps (a 0) (rnd.take 32)).2
      else Config.pkEncaps r.alg (a 0) (rnd.take 32))
  | 6 => some (Config.pkDecaps r.alg (a 0) (a 1))
  | 7 => some (be r.modLen (modExp (v 0) (v 2) (v 1)))
  | 8 =>
    let y := crtPrivate (v 0) (v 1) (v 2) (v 3) (v 4) (v 6)
    if modExp (v 0 * v 1) y (v 5) = v 6 then some (be r.modLen y) else none
  | 9 => some (be r.modLen (modExp (v 0) (v 2) (v 1)))
  | _ => some []

end Sys2Proof.Machine
end

