-- ==== Sys2Proof/Machine/Pke.lean ====
section
/-! DEFINITION. Public-key engines (chapter 15): custody units with their slot memory, jobs, aborts and layouts; verification batches of tile
units; units out of service; the public-key commands. -/

namespace Sys2Proof.Machine

/-- Change the public-key state. -/
def updPke (f : PkeState → PkeState) (s : State) : State := { s with pke := f s.pke }

/-! ### Slot memory (R428 to R430) -/

/-- The byte address of a slot in its unit's memory and the address at which its band ends. -/
def slotAt : List (Nat × Nat) → Nat → Nat → Option (Nat × Nat)
  | [], _, _ => none
  | (len, n) :: bs, base, k =>
    if k < n then some (base + 8 * len * k, base + 8 * len * n) else slotAt bs (base + 8 * len * n) (k - n)

/-- The slot length, in bytes, of the band that holds a slot. -/
def slotBytes : List (Nat × Nat) → Nat → Nat
  | [], _ => 0
  | (len, n) :: bs, k => if k < n then 8 * len else slotBytes bs (k - n)

/-- Whether an operand of a length fits from a slot to the end of its band. -/
def PkeUnit.fits (u : PkeUnit) (slot len : Nat) : Bool :=
  match slotAt u.bands 0 slot with
  | none => false
  | some (a, e) => decide (a + len ≤ e)

/-- Bytes of a unit's memory from a slot on. -/
def State.slotData (s : State) (n slot len : Nat) : Bytes :=
  match slotAt (s.pkeUnit n).bands 0 slot with
  | none => zeros len
  | some (a, _) => tbytes (dflt 0) s.pke.mem (65536 * n + a) len

/-- Write an output from a slot on: the rest of its last slot is zero (R430). -/
def putSlots (n slot : Nat) (b : Bytes) (s : State) : State :=
  match slotAt (s.pkeUnit n).bands 0 slot with
  | none => s
  | some (a, _) =>
    let k := slotBytes (s.pkeUnit n).bands slot
    updPke (fun p => { p with mem := tputBytes (dflt 0) p.mem (65536 * n + a) (fit ((b.length + k - 1) / k * k) b) }) s

/-- Clear a unit's whole memory. -/
def wipeSlots (n : Nat) (s : State) : State := updPke (fun p => { p with mem := tclear p.mem (fun a => a / 65536 == n) }) s

/-- The layout that PKE_U_LAYOUT0 to 7 hold, and whether it is valid (R428). -/
def State.stagedBands (s : State) (n : Nat) : List (Nat × Nat) :=
  ((List.range 8).map (fun k => (s.fld (Reg.PKE_U_LAYOUT n k) 7 0, s.fld (Reg.PKE_U_LAYOUT n k) 18 8))).filter (fun b => b.2 != 0)
def bandsOk (l : List (Nat × Nat)) : Bool :=
  l.all (fun b => decide (8 ≤ b.1) && decide (b.1 ≤ 128)) && decide ((l.map (fun b => 8 * b.1 * b.2)).sum ≤ 65536) && decide ((l.map (·.2)).sum ≤ 1024)

/-! ### Errors and completion (R436) -/

/-- PKE_U_STATUS.ERROR. -/
def pkeErr (n code : Nat) (s : State) : State := s.wrF (Reg.PKE_U_STATUS n) 15 8 code

/-- A job ends, or is refused, with an error code and the ERROR interrupt. -/
def pkeError (n code : Nat) (s : State) : State := irq (Reg.PKE_U_IRQ_STATUS n) (24 + n) 1 (pkeErr n code s)

/-- Raise a security alarm of a custody unit's interrupt source. -/
def pkeAlarm (n : Nat) (s : State) : State := alarm 0x08 (24 + n) (srcMaster (384 + n)) true s

/-- A unit becomes IDLE; the sequencer, then queued operations, may take it. -/
def unitIdle (n : Nat) (s : State) : State := seatSigner (setPkeUnit n { s.pkeUnit n with stat := 0, work := none } s)

/-- A unit begins CLEARING, its memory zeroed, and shows `after` when it ends. -/
def beginClear (n after : Nat) (s : State) : State :=
  wipeSlots n (setPkeUnit n { s.pkeUnit n with stat := 2, work := none, after := after } s)

/-- What becomes of a unit's work when it is abandoned: a host command completes with 0x4601 (R438); a root is signed on another unit. -/
def dropWork (w : Option PkeWork) (s : State) : State :=
  match w with
  | some (.host c _ _) => finalReply c 0x4601 [] 0 s
  | _ => s

/-- Take a custody unit out of service (R571): its job is aborted and its memory cleared; with no unit left a security alarm is raised. -/
def custodyUnitOut (n cause : Nat) (s : State) : State :=
  let u := s.pkeUnit n
  if u.stat = 3 then s
  else
    let s := recordGrown 3 cause n 0xFFFF 0xFFFF (wipeSlots n (setPkeUnit n { u with stat := 3, work := none, faults := [] } s))
    let s := seatSigner (dropWork u.work s)
    if (List.range 8).all (fun k => (s.pkeUnit k).stat == 3) then alarm 0x08 24 (srcMaster 1027) true s else s

/-- A failed invariant check of a custody unit (R439): PKE_U_FAULTS, FAULT, a security alarm; the third within 1 s takes the unit out. -/
def pkeFault (n : Nat) (s : State) : State :=
  let u := s.pkeUnit n
  let f := (u.faults ++ [s.now]).filter (fun t => decide (s.now < t + 1000000000))
  let s := setPkeUnit n { u with faults := f } s
  let s := pkeAlarm n (irq (Reg.PKE_U_IRQ_STATUS n) (24 + n) 2 (s.bump (Reg.PKE_U_FAULTS n)))
  if 3 ≤ f.length then custodyUnitOut n 4 s else s

/-! ### Register jobs (R432, R433, R440, R445) -/

/-- The request staged in a unit's registers. -/
def State.stagedReq (s : State) (n : Nat) : PkeReq :=
  let j := s.rd (Reg.PKE_U_JOB n)
  ⟨bits j 3 0, bits j 11 4, bits j 15 12, bits j 19 16, 8 * (bits j 28 22 + 1), bit j 20, bit j 21, s.fld (Reg.PKE_U_LEN n) 15 0, s.fld (Reg.PKE_U_LEN n) 23 16⟩

/-- The eight operand slots staged; the last names the result. -/
def State.stagedSlots (s : State) (n : Nat) : List Nat :=
  (List.range 4).flatMap (fun k => [s.fld (Reg.PKE_U_OPD n k) 9 0, s.fld (Reg.PKE_U_OPD n k) 25 16])

/-- The seed that PKE_U_KEY names (R433): none for 0, the identity, or a LIVE SEED_SIGN slot with its label; `error` for any other. -/
def State.keySeed (s : State) (n : Nat) (r : PkeReq) : Except Unit (Option (Bytes × Bytes)) :=
  let h := s.rd (Reg.PKE_U_KEY n)
  if h = 0 then .ok none
  else if r.op ≠ 2 ∨ (r.alg ≠ 2 ∧ r.alg ≠ 4) then .error ()
  else if h = 0xFFFFFFFF then .ok (some ([], []))
  else match s.slotOf h with
    | none => .error ()
    | some k =>
      let v := s.slot k
      if v.state ≠ 1 ∨ v.cls ≠ 0x05 then .error () else .ok (some (v.key, seedLabel s 0x11 k v.owner))

/-- The length of a LOAD or STORE. -/
def State.dmaLen (s : State) (n : Nat) : Nat := s.fld (Reg.PKE_U_DMA_LEN n) 16 0

/-- Whether every operand and the result of a request lie within their bands. -/
def State.layoutOk (s : State) (n : Nat) (r : PkeReq) (keyed : Bool) : Bool :=
  let u := s.pkeUnit n
  let sl := s.stagedSlots n
  match r.op with
  | 0 => u.fits (sl.getD 0 0) 1 && u.fits (sl.getD 7 0) 1
  | 10 => u.fits (sl.getD 0 0) (s.dmaLen n)
  | 11 => u.fits (sl.getD 0 0) (s.dmaLen n)
  | _ =>
    let ls := operandLens r keyed
    (List.range ls.length).all (fun i => ls.getD i 0 == 0 || u.fits (sl.getD i 0) (ls.getD i 0))
      && (resultLen r == 0 || u.fits (sl.getD 7 0) (resultLen r))

/-- The operands in slot memory. -/
def State.slotOperands (s : State) (n : Nat) (r : PkeReq) (keyed : Bool) (sl : List Nat) : List Bytes :=
  let ls := operandLens r keyed
  (List.range ls.length).map (fun i => s.slotData n (sl.getD i 0) (ls.getD i 0))

/-- The error with which a staged job is refused before it starts, if any. -/
def State.startError (s : State) (n : Nat) (r : PkeReq) (keyed : Bool) : Option Nat :=
  let move := r.op == 0 || r.op == 10 || r.op == 11
  if !move && !pkeSupported r then some 10
  else if !move && !pkeLengthsOk r then some 3
  else if (r.op = 10 ∨ r.op = 11) ∧ (s.dmaLen n < 1 ∨ 65536 < s.dmaLen n) then some 3
  else if !s.layoutOk n r keyed then some 2
  else if s.bitOf Reg.RNG_STATUS 1 && pkeNeedsRng r then some 6
  else pkeEdge r keyed (s.slotOperands n r keyed (s.stagedSlots n))

/-- PKE_START: START runs the staged job, which the unit copies; a busy unit sets ERROR to BUSY, a disabled one to UNSUPPORTED. A VERIFY
that starts has no result yet (R398). -/
def execPkeStart (unit : Fin 8) (s : State) : Out :=
  let n := unit.val
  let u := s.pkeUnit n
  if u.stat ≠ 0 then .next (if u.stat = 3 then s else pkeErr n 1 s)
  else if !s.bitOf Reg.PKE_CTL n then .next (pkeErr n 10 s)
  else
    let r := s.stagedReq n
    match s.keySeed n r with
    | .error _ => .next (pkeError n 5 s)
    | .ok seed =>
      match s.startError n r seed.isSome with
      | some e => .next (pkeError n e s)
      | none =>
        let w : PkeWork := .reg r (s.stagedSlots n) (s.fld (Reg.PKE_U_COLOUR n) 9 0) (s.rd64 (Reg.PKE_U_DMA_LO n)) (s.dmaLen n) seed
        let s := if r.op = 3 then cmpClear (Reg.PKE_U_VRES n) (Reg.PKE_U_VRES_INV n) s else s
        .next (setPkeUnit n { u with stat := 1, work := some w } (pkeErr n 0 s))

/-- PKE_ABORT: the unit stops, clears its memory and becomes IDLE with ERROR = ABORTED; while CLEARING the write has no effect (R437). -/
def execPkeAbort (unit : Fin 8) (s : State) : Out :=
  let n := unit.val
  let u := s.pkeUnit n
  if u.stat = 2 ∨ u.stat = 3 then .next s
  else .next (dropWork u.work (beginClear n 11 (s.bump (Reg.PKE_U_ABORTS n))))

/-- PKE_CLEAR_DONE: clearing ends and the unit is IDLE. -/
def execPkeClearDone (unit : Fin 8) (s : State) : Out :=
  let n := unit.val
  let u := s.pkeUnit n
  if u.stat ≠ 2 then .next s
  else .next (unitIdle n (if u.after = 0 then pkeErr n 0 s else pkeError n u.after s))

/-- PKE_LAYOUT_WRITE: ring 0's write of PKE_U_LAYOUT7 applies the whole layout to an IDLE unit, clearing its memory; an invalid one sets ERROR to
LAYOUT (R428, R429, R445). -/
def execPkeLayoutWrite (unit : Fin 8) (ring : Fin 4) (value : Word) (s : State) : Out :=
  let n := unit.val
  if ring ≠ 0 then .next (refuseFixed ring (Reg.PKE_U_LAYOUT n 7) true s)
  else if (s.pkeUnit n).stat ≠ 0 then .next s
  else
    let s := s.wr (Reg.PKE_U_LAYOUT n 7) (value &&& 0x7FFFF)
    let l := s.stagedBands n
    if !bandsOk l then .next (pkeError n 2 s)
    else
      let s := s.wr (Reg.PKE_U_NSLOTS n) (BitVec.ofNat 32 (l.map (·.2)).sum)
      .next (beginClear n 0 (setPkeUnit n { s.pkeUnit n with bands := l } s))

/-! ### The end of an operation (R432, R436, R439, R441) -/

/-- Write bytes for a master through the gates: false with the refusal logged. Bytes of the host window leave the device. -/
def dmaWrite (master colour addr : Nat) (b : Bytes) (s : State) : Bool × State :=
  match s.dmaCheck master colour true addr b.length with
  | some (a, c, r, t) => (false, violate c r t a s)
  | none =>
    if addr < 0x200000 then (true, { s with gte := { s.gte with sram := tputBytes (dflt 0) s.gte.sram addr b } })
    else if 0x40000000 ≤ addr ∧ addr < 0x80000000 then
      (true, (List.range b.length).foldl (fun s i =>
        match s.dramAddr (addr + i) with
        | some d => { s with gte := { s.gte with dram := tput (dflt 0) s.gte.dram d (b.getD i 0) } }
        | none => s) s)
    else (true, s)

/-- A register job completes well. -/
def pkeGood (n : Nat) (s : State) : State := irq (Reg.PKE_U_IRQ_STATUS n) (24 + n) 0 (pkeErr n 0 s)

/-- A register job ends in a failed check: zeros in place of its result. -/
def pkeZeroResult (n slot len : Nat) (s : State) : State := pkeFault n (pkeError n 7 (if len = 0 then s else putSlots n slot (zeros len) s))

/-- A register job ends. -/
def endPkeReg (n : Nat) (r : PkeReq) (sl : List Nat) (colour addr len : Nat) (seed : Option (Bytes × Bytes)) (host : Bytes) (res : PkeResult)
    (s : State) : State :=
  let out := sl.getD 7 0
  match r.op with
  | 0 =>
    let k := slotBytes (s.pkeUnit n).bands
    pkeGood n ((List.range (out + 1 - sl.getD 0 0)).foldl (fun s i => putSlots n (sl.getD 0 0 + i) (zeros (k (sl.getD 0 0 + i))) s) s)
  | 10 =>
    match dmaRead (384 + n) colour addr len host s with
    | (none, s) => pkeError n 9 s
    | (some d, s) => if res = .readFail then pkeError n 9 s else pkeGood n (putSlots n (sl.getD 0 0) d s)
  | 11 =>
    match dmaWrite (384 + n) colour addr (s.slotData n (sl.getD 0 0) len) s with
    | (false, s) => pkeError n 9 s
    | (true, s) => if res = .readFail then pkeError n 9 s else pkeGood n s
  | 3 =>
    let o := s.slotOperands n r false sl
    match res with
    | .fault => pkeZeroResult n out 0 s
    | .disagree => pkeGood n (pkeAlarm n (irq (Reg.PKE_U_IRQ_STATUS n) (24 + n) 3 (cmpClear (Reg.PKE_U_VRES n) (Reg.PKE_U_VRES_INV n) s)))
    | _ => pkeGood n (cmpPair (Reg.PKE_U_VRES n) (Reg.PKE_U_VRES_INV n) (pkeVerify r o) s)
  | _ =>
    let o := s.slotOperands n r seed.isSome sl
    let rnd := s.freeBytes 64
    match res with
    | .fault => pkeZeroResult n out (resultLen r) s
    | .disagree => pkeZeroResult n out (resultLen r) s
    | .iter => pkeError n 8 s
    | _ => match pkeResult r o seed rnd with
      | none => pkeZeroResult n out (resultLen r) s
      | some b => pkeGood n (putSlots n out (fit (resultLen r) b) (if pkeNeedsRng r then s.drawnBytes 64 else s))

/-- The operation of a host command ends. -/
def endPkeHost (n : Nat) (c : CmdRef) (r : PkeReq) (o : List Bytes) (res : PkeResult) (s : State) : State :=
  let rnd := s.freeBytes 64
  let failed (s : State) : State := pkeFault n (finalReply c 0x4601 [] 0 s)
  match res with
  | .fault => failed s
  | .iter => finalReply c 0x4602 [] 0 s
  | .readFail => finalReply c 0x1605 [] 0 s
  | .disagree => if r.op = 3 then finalReply c 0xE601 [] 0 (pkeAlarm n (irq (Reg.PKE_U_IRQ_STATUS n) (24 + n) 3 s)) else failed s
  | .good =>
    if r.op = 3 then finalReply c (if pkeVerify r o then 0 else 0x1606) [] 0 s
    else match pkeResult r o none rnd with
      | none => failed s
      | some b => finalReply c 0 (fit (resultLen r) b) 0 (s.drawnBytes 64)

/-- PKE_OPERATION_DONE: the operation of a busy unit ends; `host` is what the host's memory answers a LOAD. -/
def execPkeOperationDone (unit : Fin 8) (host : Bytes) (r : PkeResult) (s : State) : Out :=
  let n := unit.val
  let u := s.pkeUnit n
  match u.work with
  | some (.reg q sl colour addr len seed) =>
    if q.op == 10 && s.readWaits addr then .next (askSuspend s) else
    let s := setPkeUnit n { u with stat := 0, work := none } (s.bump (Reg.PKE_U_OPS n))
    .next (seatSigner (endPkeReg n q sl colour addr len seed host r s))
  | some (.host c q o) =>
    let s := setPkeUnit n { u with stat := 0, work := none } (s.bump (Reg.PKE_U_OPS n))
    .next (seatSigner (wipeSlots n (endPkeHost n c q o r s)))
  | _ => .next s

/-! ### Events that meet a unit (R438) -/

/-- A custody reset aborts the firmware jobs of custody units; the sequencer's go on. -/
def resetPke (s : State) : State :=
  let s := updPke (fun p => { p with queue := [] }) s
  (List.range 8).foldl (fun (s : State) n =>
    let u := s.pkeUnit n
    if u.stat = 1 ∧ !u.isSeq then beginClear n 11 (s.bump (Reg.PKE_U_ABORTS n)) else s) s

/-- Zeroization clears every unit's memory and state. -/
def zeroizePke (s : State) : State :=
  let s := (List.range 8).foldl (fun (s : State) n =>
    let u := s.pkeUnit n
    wipeSlots n (if u.stat = 3 then s else setPkeUnit n { u with stat := 0, work := none } (dropWork u.work s))) s
  (List.range 68).foldl (fun s u => if (s.tileUnit u).cached = [] then s else setTileUnit u { s.tileUnit u with cached := [] } s)
    (updPke (fun p => { p with queue := [], batches := [] }) s)

/-! ### Verification batches (R442) -/

/-- VERIFY_BATCH_START: a tile takes the batch entry at the head of its channel, while its exchange queue is shorter than PKE_T_VQ_MIN. -/
def execVerifyBatchStart (tile : Fin 4) (s : State) : Out :=
  let t := tile.val
  match s.fifo (584 + t) with
  | [] => .next s
  | e :: r =>
    if s.fld (Reg.PKE_T_VQ_MIN t 0) 19 0 ≤ (s.exchQ t).length then .next s
    else
      let b := (e.toNat % 2 ^ 32, e.toNat / 2 ^ 32 % 2 ^ 16, e.toNat / 2 ^ 48 % 2 ^ 10)
      .next (updPke (fun p => { p with batches := tput (dflt []) p.batches t (tget (dflt []) p.batches t ++ [b]) }) (s.setFifo (584 + t) r))

/-- The result of one job of a batch: valid, invalid or refused. -/
def batchResult (b : Bytes) : Byte :=
  let sig := slice b 97 64
  if !curvePointOk 1 (slice b 0 65) then 0xFF
  else if scalarOk 1 (sig.take 32) && scalarOk 1 (sig.drop 32) && Config.pkVerify 1 0 (slice b 0 65) (slice b 65 32) sig [] then 0x5A
  else 0xA5

/-- Do the jobs of a batch from byte address `a` of DRAM: results written, valid ones counted. -/
def doBatch : Nat → Nat → Nat → State → Nat × State
  | 0, _, v, s => (v, s)
  | n + 1, a, v, s =>
    let r := batchResult (tbytes (dflt 0) s.gte.dram a 168)
    doBatch n (a + 168) (if r = 0x5A then v + 1 else v) { s with gte := { s.gte with dram := tput (dflt 0) s.gte.dram (a + 161) r } }

/-- Place an entry in a mailbox channel; a full or unbound one keeps none and marks MBX_OVR (R79). -/
def mailEntry (k v : Nat) (s : State) : State :=
  if s.bound k ∧ (s.fifo k).length < 8 then s.setFifo k (s.fifo k ++ [BitVec.ofNat 64 v]) else markOverrun k s

/-- VERIFY_BATCH_DONE: a unit that serves has done the last job of its tile's first batch, and the completion entry is written. -/
def execVerifyBatchDone (unit : TileUnitId) (s : State) : Out :=
  let t := unit.tile.val
  match tget (dflt []) s.pke.batches t with
  | [] => .next s
  | (g, n, k) :: r =>
    if !s.unitServes (tileUnitNo t unit.unit) then .next s
    else
      let x := doBatch n (64 * g) 0 (updPke (fun p => { p with batches := tput (dflt []) p.batches t r }) s)
      .next (mailEntry k (g + 2 ^ 32 * x.1) (x.2.bumpBy (Reg.PKE_T_OPS t unit.unit) n))

/-! ### Known-answer windows and spares (R570) -/

/-- PKE_KAT_WINDOW: the known-answer operation of a unit's 1 s window: tile units 0 to 67, custody units from 68 on. A failure takes it out. -/
def execPkeKatWindow (unit : Fin 76) (pass : Bool) (s : State) : Out :=
  if pass then .next s
  else if unit.val < 68 then .next (tileUnitOut unit 1 s)
  else .next (custodyUnitOut (unit - 68) 1 s)

/-- PKE_SPARE_TAKEOVER: the tile's spare takes the place of a unit out of service. -/
def execPkeSpareTakeover (unit : Fin 64) (s : State) : Out :=
  let t := unit.val / 16
  if !(s.tileUnit unit).out ∨ (s.tileUnit (64 + t)).out ∨ tget (dflt 0) s.pke.spareFor t ≠ 0 then .next s
  else
    let s := updPke (fun p => { p with spareFor := tput (dflt 0) p.spareFor t (unit.val + 1) }) s
    .next (updRpr (fun r => { r with grown := r.grown.map (fun g => if g.kind = 2 ∧ g.res = unit.val then { g with repl := 64 + t } else g) }) s)

/-! ### Commands (R444) -/

/-- GET_PKE_STATUS: units in service, units busy, queue depth. -/
def execGetPkeStatus (c : HostCmd) (s : State) : Out :=
  .next (hostRun 0x0601 c [] (fun s =>
    .done 0 (be 1 ((List.range 8).map (fun n => if (s.pkeUnit n).stat = 3 then 0 else 2 ^ n)).sum ++ be 1 (s.fld Reg.PKE_STATUS 7 0)
      ++ be 2 s.pke.queue.length) 0 s) s)

/-- The request of a command (R444): from its descriptor in expert form; else from its profile and the total length of the operands, RSA with
PSS and SHA-256. `none` when the lengths fit nothing. -/
def pkeRequest (op : Nat) (c : HostCmd) : Option (PkeReq × Bytes) :=
  if c.expert then
    let d := c.params.take 8
    if c.params.length < 8 ∨ field d 2 2 % 64 ≠ 0 then none
    else
      let f := field d 5 1
      some (⟨op, field d 0 1, field d 1 1 % 16, field d 1 1 / 16, field d 2 2 / 8, nbit f 0, nbit f 1, field d 6 2, field d 4 1⟩, c.params.drop 8)
  else
    let n := c.params.length
    let alg := c.profile.toNat
    let rsa := alg == 8 || alg == 15
    let k := if !rsa then 0 else match op with
      | 2 => n / 5
      | 3 => n / 2
      | 7 => n / 2
      | 8 => n / 6
      | _ => n / 3
    let k := if rsa ∧ (op = 2 ∨ op = 3) then k / 8 * 8 else k
    let r : PkeReq := ⟨op, alg, if alg = 8 ∧ (op = 2 ∨ op = 3) then 1 else 0, if alg = 8 ∧ (op = 2 ∨ op = 3) then 2 else 0, k, false, false, 0, 0⟩
    if rsa then
      let e := be k 65537
      match op with
      | 2 => some ({ r with msgLen := n - 5 * k }, c.params.take (5 * k) ++ e ++ c.params.drop (5 * k))
      | 3 => some ({ r with msgLen := n - 2 * k }, c.params.take k ++ e ++ c.params.drop k)
      | 7 => some (r, c.params.take k ++ e ++ c.params.drop k)
      | 8 => some (r, c.params.take (5 * k) ++ e ++ c.params.drop (5 * k))
      | _ => some (r, c.params)
    else some ({ r with msgLen := n - (operandLens r false).sum }, c.params)

/-- Cut a byte string into operands of the given lengths. -/
def cutOperands : List Nat → Bytes → List Bytes
  | [], _ => []
  | n :: ns, b => b.take n :: cutOperands ns (b.drop n)

/-- A public-key command: checked, then run on a free unit, or WAITING until a unit takes it (R84, R434, R444). -/
def pkeCommand (opcode op : Nat) (c : HostCmd) (s : State) : State :=
  hostRun opcode c [] (fun s =>
    match pkeRequest op c with
    | none => .fail 0x1602
    | some (r, b) =>
      let ls := operandLens r false
      if !pkeSupported r then .fail 0x1601
      else if !pkeLengthsOk r ∨ b.length ≠ ls.sum then .fail 0x1602
      else if c.outLen < resultLen r then .fail 0x3601
      else match pkeEdge r false (cutOperands ls b) with
        | some e => .fail (if e = 4 then 0x1604 else 0x1603)
        | none =>
          if s.bitOf Reg.RNG_STATUS 1 && pkeNeedsRng r then .fail 0x2601
          else if (List.range 8).all (fun n => (s.pkeUnit n).stat == 3) then .fail 0x4601
          else
            let t := updPke (fun p => { p with queue := p.queue ++ [.host c.ref r (cutOperands ls b)] }) s
            let u := seatSigner t
            if u.parked c.ref then .park u else .wait 0x0106 u) s

/-- KEYPAIR: generates a key pair. -/
def execKeypair (c : HostCmd) (s : State) : Out := .next (pkeCommand 0x0610 1 c s)
/-- SIGN: signs a message or digest. -/
def execSign (c : HostCmd) (s : State) : Out := .next (pkeCommand 0x0611 2 c s)
/-- VERIFY: verifies a signature. -/
def execVerify (c : HostCmd) (s : State) : Out := .next (pkeCommand 0x0612 3 c s)
/-- SHARED: an ECDH shared secret. -/
def execShared (c : HostCmd) (s : State) : Out := .next (pkeCommand 0x0613 4 c s)
/-- ENCAPS: an ML-KEM encapsulation. -/
def execEncaps (c : HostCmd) (s : State) : Out := .next (pkeCommand 0x0614 5 c s)
/-- DECAPS: an ML-KEM decapsulation. -/
def execDecaps (c : HostCmd) (s : State) : Out := .next (pkeCommand 0x0615 6 c s)
/-- RSA_PUBLIC: m^e mod n. -/
def execRsaPublic (c : HostCmd) (s : State) : Out := .next (pkeCommand 0x0616 7 c s)
/-- RSA_PRIVATE: m^d mod n by CRT. -/
def execRsaPrivate (c : HostCmd) (s : State) : Out := .next (pkeCommand 0x0617 8 c s)
/-- MODEXP: base^exponent mod modulus. -/
def execModexp (c : HostCmd) (s : State) : Out := .next (pkeCommand 0x0618 9 c s)

end Sys2Proof.Machine
end

