-- ==== Sys2Proof/Machine/Repair.lean ====
section
/-! DEFINITION. Self-repair and Tally counters (chapter 22): lending, retests and disabled resources, and the Tally counters with their
commands. -/

namespace Sys2Proof.Machine

/-! ### Lending (R567, R568) -/

/-- LEND_REQUEST: ring 0's write of RPR_LEND_REQ with GO starts a lend; while one is served it only sets LEND_OVR. -/
def execLendRequest (ring : Fin 4) (value : Word) (s : State) : Out :=
  if ring ≠ 0 then .next (refuseFixed ring Reg.RPR_LEND_REQ true s)
  else if !bit value 31 then .next s
  else if s.rpr.lend.isSome then .next (irq Reg.RPR_IRQ_STATUS 19 1 s)
  else
    .next ((updRpr (fun r => { r with lend := some (bits value 8 0, bit value 9, bits value 21 16) }) s).wrB Reg.RPR_LEND_STAT 0 true)

/-- The result of a lend request (RPR_LEND_STAT): the spare is not free, the route is down, the port has an engine of the kind, or the engine
fails while it loads. -/
def State.lendResult (s : State) (p : Nat) (k : Bool) (lender : Nat) (fail : Bool) : Nat :=
  if !s.spareFree lender k then 1
  else if !s.routeUp (p / 128) (lender / 16) then 2
  else if s.engineOf p k ≠ 0x7FF then 3
  else if fail then 4
  else 0

/-- The lender's spare serves the port: PRT_ENGINES, PRT_STATUS and DPL_SPARE show it (R167). -/
def lendSpare (p : Nat) (k : Bool) (lender : Nat) (s : State) : State :=
  let n := b2n k
  let s := (setEngine p k (spareOf lender k) s).wrB (Reg.PRT_STATUS p) (7 + n) true
  let s := (s.wrB (Reg.DPL_SPARE lender) (4 + n) true).wrF (Reg.DPL_SPARE lender) (21 + 8 * n) (16 + 8 * n) (clusterOf p)
  runMoved (s.leadOf p) (noteReplacement 1 p (spareOf lender k) (s.bump Reg.RPR_BORROWS))

/-- LEND_DONE: the lend request completes; a port left without any lender is disabled. -/
def execLendDone (fail : Bool) (s : State) : Out :=
  match s.rpr.lend with
  | none => .next s
  | some (p, k, l) =>
    let e := s.lendResult p k l fail
    let s := (updRpr (fun r => { r with lend := none }) s).wr Reg.RPR_LEND_STAT (BitVec.ofNat 32 (2 * e))
    let s := if e = 0 then lendSpare p k l s else if e = 4 then disableStranded p (markSpareFailed (spareOf l k) s) else disableStranded p s
    .next (showRepair (irq Reg.RPR_IRQ_STATUS 19 0 s))

/-! ### Repair commands (R578) -/

/-- GET_REPAIR: RPR_STATUS, the disabled ports, the tile units out, the number of grown entries; expert adds the grown map. -/
def execGetRepair (c : HostCmd) (s : State) : Out :=
  .next (hostRun 0x0C01 c [] (fun s =>
    let o := be 4 (s.rd Reg.RPR_STATUS).toNat ++ (List.range 16).flatMap (fun n => be 4 (s.rd (Reg.RPR_PORT_DIS n)).toNat)
      ++ (List.range 3).flatMap (fun n => be 4 (s.rd (Reg.RPR_PKE_OUT n)).toNat) ++ be 4 s.rpr.grown.length
      ++ (if c.expert then s.rpr.grown.flatMap Grown.bytes else [])
    if c.outLen < o.length then .fail 0x3C01 else .done 0 o 0 s) s)

/-- Whether a kind and resource number exist (R566, R12). -/
def resourceExists (kind res : Nat) : Bool :=
  (kind == 1 && decide (res < 1152)) || (kind == 2 && decide (res < 68)) || (kind == 3 && decide (res < 8))

/-- Whether a resource has failed and is out of use. -/
def State.resourceOut (s : State) (kind res : Nat) : Bool :=
  match kind with
  | 1 => s.bitOf (Reg.DPL_KAT_STATUS (engineCluster res)) (engineBit res) && (s.portOf res).isNone
  | 2 => (s.tileUnit res).out
  | _ => (s.pkeUnit res).stat == 3

/-- A resource that passes its retest is healthy again: an active engine waits for its port's reset, a spare is free, a unit serves. -/
def regain (kind res : Nat) (s : State) : State :=
  let s := showMap (updRpr (fun r => { r with grown := r.grown.filter (fun g => !(g.kind == kind && g.res == res)) }) s)
  match kind with
  | 1 =>
    let c := engineCluster res
    let s := s.wrB (Reg.DPL_KAT_STATUS c) (engineBit res) false
    if res < 1024 then updRpr (fun r => { r with regained := r.regained.filter (· != res) ++ [res] }) s
    else showRepair (s.wrB (Reg.DPL_SPARE c) (2 + b2n (isSealEngine res)) false)
  | 2 =>
    let s := (setTileUnit res TileUnit.reset s).wrB (Reg.RPR_PKE_OUT (res / 32)) (res % 32) false
    if tget (dflt 0) s.pke.spareFor (unitTile res) = res + 1 then updPke (fun p => { p with spareFor := tput (dflt 0) p.spareFor (unitTile res) 0 }) s
    else s
  | _ => unitIdle res s

/-- RETEST: 1,000 known-answer vectors or operations on a failed resource, with their outcome. -/
def execRetest (c : HostCmd) (kind : BitVec 8) (res : BitVec 16) (pass : Bool) (s : State) : Out :=
  .next (hostRun 0x0C10 c [] (fun s =>
    let k := kind.toNat
    let r := res.toNat
    if !resourceExists k r then .fail 0x1C01
    else if Config.factoryFailed k r || !s.resourceOut k r then .fail 0x2C01
    else if pass then .both 0x010F 0 [] (regain k r s)
    else .both 0x010F 0x4C01 [] s) s)

/-- DISABLE_RESOURCE: fails a resource with cause 5. -/
def execDisableResource (c : HostCmd) (kind : BitVec 8) (res : BitVec 16) (s : State) : Out :=
  .next (hostRun 0x0C11 c [] (fun s =>
    let r := res.toNat
    if !resourceExists kind.toNat r then .fail 0x1C01
    else match kind.toNat with
      | 1 => .done 0 [] 0 (engineFails r 5 s)
      | 2 => .done 0 [] 0 (tileUnitOut r 5 s)
      | _ => .done 0 [] 0 (custodyUnitOut r 5 s)) s)

/-- Clear DISABLED of the lanes of a port that have both engines; an enabled port without a disabled lane trains again (R169). -/
def enableAgain (lane : Nat) (s : State) : State :=
  let p := s.leadOf lane
  let l := (s.lanes p).filter (fun q => s.bitOf (Reg.PRT_STATUS q) 4 && s.engineOf q false != 0x7FF && s.engineOf q true != 0x7FF)
  if l = [] then s
  else
    let s := l.foldl (fun (s : State) q => (s.wrB (Reg.PRT_STATUS q) 4 false).wrB (Reg.RPR_PORT_DIS (q / 32)) (q % 32) false) s
    if s.bitOf (Reg.PRT_CTL p) 0 then setEnable p true s else s

/-- RESET_PORT: the port reset of R170, and DISABLED cleared when the port has both engines again. -/
def execResetPort (c : HostCmd) (port : BitVec 16) (s : State) : Out :=
  .next (hostRun 0x0C12 c [] (fun s =>
    if 512 ≤ port.toNat then .fail 0x1C01 else .done 0 [] 0 (showRepair (enableAgain port.toNat (portReset port.toNat s)))) s)

/-! ### Tally counters (R573 to R577) -/

/-- Whether an event is defined for a block (64 = the Strongroom), and the number of values its selector takes (1 = none). -/
def tallyEvent (block event : Nat) : Option Nat :=
  if block < 64 then
    if event = 0x0010 ∨ event = 0x0011 ∨ event = 0x0012 ∨ event = 0x0013 ∨ event = 0x0014 ∨ event = 0x0015 then some 18
    else if [0x0001, 0x0020, 0x0021, 0x0022, 0x0023, 0x0030, 0x0031, 0x0040, 0x0041, 0x0050, 0x0051, 0x0060, 0x0061, 0x0062].contains event then some 1
    else none
  else if event = 0x0130 then some 8
  else if [0x0100, 0x0110, 0x0111, 0x0112, 0x0113, 0x0114, 0x0115, 0x0116, 0x0117, 0x0120, 0x0121, 0x0140, 0x0141, 0x0150].contains event then some 1
  else none

/-- The counters of a block, and the registers of one: selection, count, overflow, status. -/
def tallyCount (block : Nat) : Nat := if block < 64 then 16 else 8
def tallySel (block n : Nat) : Nat := if block < 64 then Reg.TLY_CL_SEL block n else Reg.TLY_SEL n
def tallyCnt (block n : Nat) : Nat := if block < 64 then Reg.TLY_CL_CNT block n else Reg.TLY_CNT n
def tallyOvf (block : Nat) : Nat := if block < 64 then Reg.TLY_CL_OVF block else Reg.TLY_OVF
def tallyStatus (block : Nat) : Nat := if block < 64 then Reg.TLY_CL_STATUS block else Reg.TLY_STATUS

/-- Whether an odd counter counts the overflows of its even partner. -/
def State.tallyChained (s : State) (block n : Nat) : Bool := n % 2 == 1 && s.bitOf (tallySel block n) 24

/-- Whether a selection names nothing the block counts. -/
def State.tallyBad (s : State) (block n : Nat) : Bool :=
  !s.tallyChained block n && (match tallyEvent block (s.fld (tallySel block n) 15 0) with
    | none => s.rd (tallySel block n) != 0
    | some k => k != 1 && decide (k ≤ s.fld (tallySel block n) 23 16))

/-- BAD_SEL of a block follows its selections. -/
def showBadSel (block : Nat) (s : State) : State :=
  s.wrB (tallyStatus block) 1 ((List.range (tallyCount block)).any (fun n => s.tallyBad block n))

/-- Overflow of a counter that no chained counter follows (R576). -/
def tallyOverflow (block n : Nat) (s : State) : State :=
  irq Reg.TLY_IRQ_STATUS 20 (if block < 64 then 1 else 0) (s.wrB (tallyOvf block) n true)

/-- Add to a counter, which wraps; a wrap goes to the chained partner, or to OVF. -/
def tallyAdd (block n k : Nat) (s : State) : State :=
  let v := (s.rd (tallyCnt block n)).toNat + k
  let s := s.wr (tallyCnt block n) (BitVec.ofNat 32 v)
  if v < 2 ^ 32 then s
  else if n % 2 = 0 ∧ s.tallyChained block (n + 1) then
    let w := (s.rd (tallyCnt block (n + 1))).toNat + 1
    let s := s.wr (tallyCnt block (n + 1)) (BitVec.ofNat 32 w)
    if w < 2 ^ 32 then s else tallyOverflow block (n + 1) s
  else tallyOverflow block n s

/-- Whether a counter counts its own event now. -/
def State.tallyCounts (s : State) (block n : Nat) : Bool :=
  s.bitOf (tallyStatus block) 0 && !s.tallyChained block n && !s.tallyBad block n && s.rd (tallySel block n) != 0

/-- Clear the counters of a mask. -/
def tallyClear (block mask : Nat) (s : State) : State :=
  (List.range (tallyCount block)).foldl (fun s n => if nbit mask n then s.wr (tallyCnt block n) 0 else s) s

/-- TALLY_COUNTER_READ: `counted` events have occurred since the counter was last read; a read of an even counter snapshots its partner for the
reading master (R383, R576). -/
def execTallyCounterRead (block : Fin 65) (counter : Fin 16) (master : BitVec 11) (counted : Word) (s : State) : Out :=
  let b := block.val
  let n := counter.val
  if tallyCount b ≤ n then .next s
  else
    let s := if s.tallyCounts b n then tallyAdd b n counted.toNat s else s
    if n % 2 = 1 then .next s
    else .next { s with gte := { s.gte with snaps := tput (dflt none) s.gte.snaps (2048 * tallyCnt b (n + 1) + master.toNat) (some (s.rd (tallyCnt b (n + 1)))) } }

/-- The first microsecond boundary of the timebase at least 2 microseconds ahead (R577). -/
def State.tallyInstant (s : State) : Nat := (s.tim.now + 2000 + 999) / 1000 * 1000

/-- A write of TLY_GCTL, which only rings 0 and 1 may write (R580): RUN or STOP takes effect at the instant of R577. -/
def tallyRequest (ring : Nat) (run : Bool) (s : State) : State :=
  if 2 ≤ ring then refuseFixed ring Reg.TLY_GCTL true s else updRpr (fun r => { r with gctl := some (run, s.tallyInstant) }) s

/-- TALLY_RUN: a write of TLY_GCTL with RUN. -/
def execTallyRun (ring : Fin 4) (s : State) : Out := .next (tallyRequest ring true s)

/-- TALLY_STOP: a write of TLY_GCTL with STOP. -/
def execTallyStop (ring : Fin 4) (s : State) : Out := .next (tallyRequest ring false s)

/-- TALLY_GCTL_APPLY: at its instant, every block starts or stops at once. -/
def execTallyGctlApply (dt : BitVec 32) (s : State) : Out :=
  let s := s.advance dt.toNat
  match s.rpr.gctl with
  | none => .next s
  | some (run, t) =>
    if s.tim.now < t then .next s
    else .next ((List.range 65).foldl (fun s b => s.wrB (tallyStatus b) 0 run) (updRpr (fun r => { r with gctl := none }) s))

/-- TALLY_CLEAR: a write of TLY_CLR or TLY_CL_CLR by ring 0 or 1 (R580). -/
def execTallyClear (ring : Fin 4) (block : Fin 65) (mask : BitVec 16) (s : State) : Out :=
  if 2 ≤ ring.val then .next (refuseFixed ring (if block.val < 64 then Reg.TLY_CL_CLR block else Reg.TLY_CLR) true s)
  else .next (tallyClear block mask.toNat s)

/-- The Tally snapshot of a block: its counters. -/
def State.tallySnapshot (s : State) (block : Nat) : Bytes :=
  (List.range (tallyCount block)).flatMap (fun n => be 4 (s.rd (tallyCnt block n)).toNat)

/-- GET_TALLY: the counters of a block. -/
def execGetTally (c : HostCmd) (block : BitVec 8) (s : State) : Out :=
  .next (hostRun 0x0C02 c [] (fun s => if 64 < block.toNat then .fail 0x1C01 else .done 0 (s.tallySnapshot block.toNat) 0 s) s)

/-- SET_TALLY: a counter's event; expert adds selector and CHAIN. -/
def execSetTally (c : HostCmd) (block counter : BitVec 8) (event : BitVec 16) (selector : BitVec 8) (chain : Bool) (s : State) : Out :=
  .next (hostRun 0x0C13 c [] (fun s =>
    let b := block.toNat
    let n := counter.toNat
    let sel := if c.expert then selector.toNat else 0
    let ch := c.expert && chain
    if 64 < b ∨ tallyCount b ≤ n then .fail 0x1C01
    else match tallyEvent b event.toNat with
      | none => .fail 0x1C02
      | some k =>
        if k ≤ sel ∨ (ch && n % 2 == 0) then .fail 0x1C02
        else .done 0 [] 0 (showBadSel b (s.wr (tallySel b n) (BitVec.ofNat 32 (event.toNat + 2 ^ 16 * sel + 2 ^ 24 * b2n ch))))) s)

/-- CLEAR_TALLY: counters of a block. -/
def execClearTally (c : HostCmd) (block : BitVec 8) (mask : BitVec 16) (s : State) : Out :=
  .next (hostRun 0x0C14 c [] (fun s => if 64 < block.toNat then .fail 0x1C01 else .done 0 [] 0 (tallyClear block.toNat mask.toNat s)) s)

end Sys2Proof.Machine
end

