-- ==== Sys2Proof/Machine/Rng.lean ====
section
/-! DEFINITION. Random numbers (chapter 14): the Assay, restarts and fatal sources, the conditioner, reseeds of the central DRBG, the
software port, cluster DRBGs and calibration. Random bytes themselves are free values (log entry 1). -/

namespace Sys2Proof.Machine

/-- Change the subsystem's own state. -/
def updRng (f : RngState → RngState) (s : State) : State := { s with rng := f s.rng }

/-- A noise source. -/
def State.noise (s : State) (n : Nat) : RngSource := tget (dflt RngSource.reset) s.rng.sources n

/-- Whether the subsystem is FAILED (R417), and whether the central DRBG is instantiated (R416). -/
def State.rngFailed (s : State) : Bool := s.bitOf Reg.RNG_STATUS 1
def State.rngReady (s : State) : Bool := s.bitOf Reg.RNG_STATUS 0

/-- Show a source's state and the outputs waiting. -/
def setSource (n : Nat) (x : RngSource) (s : State) : State :=
  let s := updRng (fun r => { r with sources := tput (dflt RngSource.reset) r.sources n x }) s
  (s.wrF Reg.RNG_SRC_STAT (2 * n + 1) (2 * n) x.stat).wrF Reg.RNG_SRC_STAT (11 + 4 * n) (8 + 4 * n) x.outs.length

/-- Show READY, EMPTY_READ and the words buffered. -/
def showPort (s : State) : State :=
  s.wr Reg.RNG_DATA_STAT (BitVec.ofNat 32 (b2n (s.rng.port != [] && !s.rngFailed) + 2 * b2n s.rng.emptyRead + 4 * s.rng.port.length))

/-- Empty the software port's buffer: a custody reset does (R420). -/
def emptyPort (s : State) : State := showPort (updRng (fun r => { r with port := [] }) s)

/-! ### The Assay (R410 to R413) -/

/-- The bits of a block in the order they came. -/
def blockBits (b : BitVec 1024) : List Bool := (List.range 1024).map b.getLsbD

/-- The longest run a block brings, the run before it included, and the run it ends with. -/
def runsOf : Option Bool → Nat → Nat → List Bool → Nat × Nat
  | _, run, longest, [] => (max longest run, run)
  | last, run, longest, b :: bs => if last = some b then runsOf last (run + 1) longest bs else runsOf (some b) 1 (max longest run) bs

/-- Whether a block fails a health test (R410): a run reaches the repetition cutoff, or the first bit's value occurs as often as the adaptive
proportion cutoff allows. -/
def State.blockFails (s : State) (n : Nat) (x : RngSource) (b : List Bool) : Bool :=
  decide (s.fld (Reg.RNG_RCT_CUT n) 9 0 ≤ (runsOf x.lastBit (if b.head? = x.lastBit then x.run else 0) 0 b).1)
    || decide (s.fld (Reg.RNG_APT_CUT n) 10 0 ≤ b.count (b.headD false))

/-- The lag-1 correlation coefficient of a block in units of 2^-32: 0 for a constant block (log entry 41). -/
def lagCorr (b : List Bool) : Int :=
  let ones : Int := b.count true
  let x : List Int := b.map (fun v => 1024 * (if v then 1 else 0) - ones)
  let num : Int := (List.zipWith (· * ·) x (x.drop 1)).sum
  let den : Int := (x.map (fun v => v * v)).sum
  if den = 0 then 0 else num * 2 ^ 32 / den

/-- A signed 15-bit field with its saturation flag (RNG_EST): the value in units of 2^-k of an estimate in units of 2^-32. -/
def estField (e : Int) (k : Nat) : Nat :=
  let v := e / 2 ^ (32 - k)
  let c := max (-0x3FFF) (min 0x3FFF v)
  (c % 0x8000).toNat + (if v = c then 0 else 0x8000)

/-- Average a passing block into the estimates with weight 1/64 (R413). -/
def RngSource.estimate (x : RngSource) (b : List Bool) : RngSource :=
  let bias : Int := ((b.count true : Int) - 512) * 2 ^ 22
  { x with bias := x.bias + (bias - x.bias) / 64, corr := x.corr + (lagCorr b - x.corr) / 64 }

/-- A calibration pass in which a source fails a block, restarts or becomes fatal is void (R423). -/
def voidPass (s : State) : State :=
  updRng (fun r => { r with cals := match r.cals with | [] => [] | c :: cs => { c with isVoid := true } :: cs }) s

/-- A source becomes fatal (R412). -/
def makeFatal (n : Nat) (x : RngSource) (s : State) : State :=
  irq Reg.RNG_IRQ_STATUS 6 2 (voidPass (setSource n { x with stat := 3, acc := [], credit := 0 } s))

/-- A source restarts: stopped, its accumulator emptied (R411, steps 1 and 2). -/
def restartSource (n : Nat) (x : RngSource) (s : State) : State :=
  irq Reg.RNG_IRQ_STATUS 6 1 ((voidPass (setSource n { x with stat := 2, acc := [], credit := 0, lastBit := none, run := 0 } s)).bump Reg.RNG_RESTARTS)

/-- The conditioner absorbs a passing block (R409, R414): at 320 bits of credit an output is emitted; one that finds eight waiting is lost
(log entry 42). -/
def RngSource.absorb (x : RngSource) (block : BitVec 1024) (h : Nat) : RngSource :=
  let acc := x.acc ++ be 128 block.toNat
  let credit := x.credit + 1024 * h / 65536
  if credit < 320 then { x with acc := acc, credit := credit }
  else { x with acc := [], credit := 0, outs := if x.outs.length < 8 then x.outs ++ [Config.condition acc] else x.outs }

/-- The end of a start-up test (R411 to R413): the source runs, or restarts, or is fatal: at its first test since reset, or at the third
failure in a row. -/
def endStartUp (n : Nat) (x : RngSource) (s : State) : State :=
  if !x.startBad then setSource n { x with stat := 0, first := false, startFails := 0 } s
  else if x.first ∨ 3 ≤ x.startFails + 1 then makeFatal n { x with startFails := x.startFails + 1 } s
  else restartSource n { x with startFails := x.startFails + 1 } s

/-- NOISE_BLOCK: a block of 1,024 bits, the first in bit 0, is tested; a passing block of a source in service is absorbed. -/
def execNoiseBlock (source : Fin 3) (block : BitVec 1024) (dt : BitVec 32) (s : State) : Out :=
  let n := source.val
  let s := s.advance dt.toNat
  let x := s.noise n
  if x.stat = 2 ∨ x.stat = 3 then .next s
  else
    let b := blockBits block
    let bad := s.blockFails n x b
    let x := { x with lastBit := b.getLast?, run := (runsOf x.lastBit x.run 0 b).2 }
    let recent := (if bad then x.fails ++ [s.now] else x.fails).filter (fun t => decide (s.now < t + 1000000000))
    let x := { x with fails := recent }
    let x := if bad then x else x.estimate b
    let s := if bad then irq Reg.RNG_IRQ_STATUS 6 0 ((voidPass s).bump Reg.RNG_BLK_FAIL)
      else s.wr (Reg.RNG_EST n) (BitVec.ofNat 32 (estField x.bias 15 + 2 ^ 16 * estField x.corr 14))
    if bad ∧ 8 ≤ recent.length then .next (makeFatal n x s)
    else if 0 < x.startLeft then
      let x := { x with stat := 1, startLeft := x.startLeft - 1, startBad := x.startBad || bad }
      if x.startLeft = 0 then .next (endStartUp n x s) else .next (setSource n x s)
    else if bad ∧ 2 ≤ (recent.filter (fun t => decide (s.now < t + 10000000))).length then .next (restartSource n x s)
    else if bad then .next (setSource n x s)
    else .next (setSource n (x.absorb block (s.fld (Reg.RNG_HCAL n) 15 0)) s)

/-- SOURCE_RESTART: 10 microseconds after it stopped, a source restarts and its start-up test begins (R411). -/
def execSourceRestart (source : Fin 3) (dt : BitVec 32) (s : State) : Out :=
  let s := s.advance dt.toNat
  let x := s.noise source
  if x.stat = 2 then .next (setSource source { x with stat := 1, startLeft := 4, startBad := false } s) else .next s

/-! ### The central DRBG (R415 to R418, R421) -/

/-- Whether a source is live: neither fatal nor restarting. -/
def RngSource.live (x : RngSource) : Bool := x.stat == 0

/-- The live source with the most outputs waiting, the lowest of several. -/
def State.fullest (s : State) : Nat :=
  let l (n : Nat) : Nat := if (s.noise n).live then (s.noise n).outs.length else 0
  if l 1 ≤ l 0 ∧ l 2 ≤ l 0 then 0 else if l 2 ≤ l 1 then 1 else 2

/-- Take one waiting output of a live source. -/
def takeOutput (n : Nat) (s : State) : Option State :=
  match (s.noise n).live, (s.noise n).outs with
  | true, _ :: os => some (setSource n { s.noise n with outs := os } s)
  | _, _ => none

/-- The entropy input (R415): the next output of every live source, then for each source that is not live one of the live source with the
most waiting. `none` while an output is lacking. -/
def takeEntropy (s : State) : Option State :=
  let live := (List.range 3).filter (fun n => (s.noise n).live)
  let own := live.foldl (fun a n => a.bind (takeOutput n)) (some s)
  (List.range (3 - live.length)).foldl (fun a _ => a.bind (fun s => takeOutput s.fullest s)) own

/-- Ask for a reseed (R416): a reseed that waits takes in the additional input, up to 256 bytes in all. -/
def requestReseed (extra : Bytes) (s : State) : State :=
  let waiting := s.bitOf Reg.RNG_STATUS 2
  (updRng (fun r => { r with extra := (if waiting then r.extra ++ extra else extra).take 256
                             waitSince := if waiting then r.waitSince else s.now }) s).wrB Reg.RNG_STATUS 2 true

/-- Complete the requests that waited: with random bytes. -/
def serveRequests (l : List RandomReq) (s : State) : State :=
  l.foldl (fun s q => finalReply q.cmd 0 (s.freeBytes q.len) 0 (s.drawnBytes q.len)) s

/-- Serve the GET_RANDOM commands that wait for no reseed, while the software port is enabled and the generator runs. -/
def servePort (s : State) : State :=
  if !s.bitOf Reg.RNG_CTL 0 ∨ !s.rngReady ∨ s.rngFailed then s
  else
    let now := s.rng.requests.filter (fun q => !q.reseed)
    serveRequests now (updRng (fun r => { r with requests := r.requests.filter (·.reseed) }) s)

/-- DRBG_RESEED: the reseed that waits takes its entropy input, once it is available, and the commands behind it go on. -/
def execDrbgReseed (s : State) : Out :=
  if !s.bitOf Reg.RNG_STATUS 2 ∨ !s.rngReady ∨ s.rngFailed then .next s
  else match takeEntropy s with
    | none => .next s
    | some s =>
      let r := s.rng
      let s := ((updRng (fun r => { r with extra := [], reseedCmds := [], served := 0, reseededAt := s.now,
                                            requests := r.requests.map (fun q => { q with reseed := false }) }) s).wrB
        Reg.RNG_STATUS 2 false).bump Reg.RNG_RESEEDS
      .next (servePort (r.reseedCmds.foldl (fun s c => finalReply c 0 [] 0 s) s))

/-- DRBG_SCHEDULED_RESEED: 100 ms since the last reseed, or 2^20 generate requests, call for a reseed (R416). -/
def execDrbgScheduledReseed (dt : BitVec 32) (s : State) : Out :=
  let s := s.advance dt.toNat
  if s.rng.reseededAt + 100000000 ≤ s.now ∨ 2 ^ 20 ≤ s.rng.served then .next (requestReseed [] s) else .next s

/-- Complete the commands that wait for randomness with 0x4720. -/
def failRandom (s : State) : State :=
  let r := s.rng
  let s := updRng (fun r => { r with reseedCmds := [], requests := [] }) s
  (r.reseedCmds ++ r.requests.map (·.cmd)).foldl (fun s c => finalReply c 0x4720 [] 0 s) s

/-- DRBG_RESEED_TIMEOUT: a reseed has waited 1 s while every source is fatal; the subsystem is FAILED until a warm or power-on reset (R417). -/
def execDrbgReseedTimeout (dt : BitVec 32) (s : State) : Out :=
  let s := s.advance dt.toNat
  if s.bitOf Reg.RNG_STATUS 2 ∧ s.rng.waitSince + 1000000000 ≤ s.now ∧ (List.range 3).all (fun n => (s.noise n).stat == 3)
      ∧ !s.rngFailed then
    .next (showPort (failRandom (alarm 0x08 6 (srcMaster 261) true (irq Reg.RNG_IRQ_STATUS 6 3 (s.wrB Reg.RNG_STATUS 1 true)))))
  else .next s

/-- Instantiate the central DRBG (R416): entropy input and one further output as nonce. `none` while they lack. -/
def instantiateDrbg (s : State) : Option State :=
  ((takeEntropy s).bind (fun s => takeOutput s.fullest s)).map (fun s =>
    (updRng (fun r => { r with served := 0, reseededAt := s.now }) s).wrB Reg.RNG_STATUS 0 true)

/-- DRBG_REINSTANTIATE: after zeroization the central DRBG is instantiated from fresh entropy, and requests that waited are served (R421). -/
def execDrbgReinstantiate (s : State) : Out :=
  if s.rngReady then .next s
  else match instantiateDrbg s with
    | none => .next s
    | some s => .next (servePort s)

/-- Zeroization clears every DRBG, the accumulators with the outputs that wait, and the port buffer (R421). -/
def zeroizeRng (s : State) : State :=
  let s := (List.range 3).foldl (fun s n => setSource n { s.noise n with acc := [], credit := 0, outs := [] } s) s
  let s := (List.range 64).foldl (fun s c => s.wrB (Reg.RNG_CL_STATUS c) 0 false) s
  (emptyPort (updRng (fun r => { r with extra := [] }) s)).wrB Reg.RNG_STATUS 0 false

/-- A warm or power-on reset: every source runs its start-up test again and nothing is instantiated; the stored set remains. -/
def resetRng (s : State) : State :=
  updRng (fun r => { r with sources := [], extra := [], reseedCmds := [], requests := [], port := [], emptyRead := false, cals := [],
                            served := 0, reseededAt := s.now }) s

/-! ### Consumers (R419, R420) -/

/-- CLUSTER_DRBG_RESEED: a cluster that has served so many requests since its last reseed asks for one; it stops at 2^20 requests, and restarts
when the central DRBG serves it, which a FAILED one does not (R417, R419). -/
def execClusterDrbgReseed (cluster : Fin 64) (requests : BitVec 21) (s : State) : Out :=
  let c := cluster.val
  let n := sat 0x1FFFFF ((s.rd (Reg.RNG_CL_SINCE c)).toNat + requests.toNat)
  let s := s.wr (Reg.RNG_CL_SINCE c) (BitVec.ofNat 32 n)
  if s.rngReady ∧ !s.rngFailed then
    let s := s.drawnBytes 48
    .next ((((s.wr (Reg.RNG_CL_SINCE c) 0).wrB (Reg.RNG_CL_STATUS c) 0 true).wrB (Reg.RNG_CL_STATUS c) 1 false).bump (Reg.RNG_CL_RESEEDS c))
  else if 2 ^ 20 ≤ n ∧ !s.bitOf (Reg.RNG_CL_STATUS c) 1 then .next (irq Reg.RNG_IRQ_STATUS 6 5 (s.wrB (Reg.RNG_CL_STATUS c) 1 true))
  else .next s

/-- Words the port receives before a read: as many as it had room and the central DRBG served (R420). -/
def refillPort (n : Nat) (s : State) : State :=
  if !s.rngReady ∨ s.rngFailed ∨ !s.bitOf Reg.RNG_CTL 0 then s
  else
    let k := min n (64 - s.rng.port.length)
    let b := s.freeBytes (4 * k)
    updRng (fun r => { r with port := r.port ++ (List.range k).map (fun i => BitVec.ofNat 32 (ofLe (slice b (4 * i) 4))) }) (s.drawnBytes (4 * k))

/-- Pop a word of the software port into RNG_DATA: 0, with EMPTY_READ, while READY is 0. -/
def popPort (s : State) : State :=
  match (if s.rngFailed then [] else s.rng.port) with
  | [] => showPort (updRng (fun r => { r with emptyRead := true }) (s.wr Reg.RNG_DATA 0))
  | w :: ws => showPort (updRng (fun r => { r with port := ws }) (s.wr Reg.RNG_DATA w))

/-- RNG_DATA_READ: the port refills and a read from ring 0 or 1 pops a word (R420, R426); the gate refuses another ring. -/
def execRngDataRead (ring : Fin 4) (refill : Fin 65) (s : State) : Out :=
  if 2 ≤ ring.val then .next (refuseFixed ring Reg.RNG_DATA false s) else .next (popPort (refillPort refill s))

/-- The additional input staged in RNG_ADD0 to RNG_ADD7. -/
def State.rngAdd (s : State) : Bytes := (List.range 8).flatMap (fun i => le 4 (s.rd (Reg.RNG_ADD i)).toNat)

/-- RNG_RESEED_WRITE: GO asks for a reseed, with the staged additional input when ADD is 1; the gate refuses rings 2 and 3 (R416, R426). -/
def execRngReseedWrite (ring : Fin 4) (value : Word) (s : State) : Out :=
  if 2 ≤ ring.val then .next (refuseFixed ring Reg.RNG_RESEED true s)
  else if !bit value 0 then .next s
  else .next (requestReseed (if bit value 1 then s.rngAdd else []) s)

/-- PORT_STARVED: a request at rank 7, of a GET_RANDOM or of a port buffer that is not full, has waited 1 ms; a GET_RANDOM that has waited 100 ms ends with 0x3720 (R420, R424). -/
def execPortStarved (dt : BitVec 32) (s : State) : Out :=
  let s := s.advance dt.toNat
  let late := s.rng.requests.filter (fun q => decide (q.since + 100000000 ≤ s.now))
  let s := updRng (fun r => { r with requests := r.requests.filter (fun q => !late.contains q) }) s
  let starved := (late ++ s.rng.requests).any (fun q => decide (q.since + 1000000 ≤ s.now)) || (s.bitOf Reg.RNG_CTL 0 && decide (s.rng.port.length < 64))
  .next (late.foldl (fun s q => finalReply q.cmd 0x3720 [] 0 s) (if starved then irq Reg.RNG_IRQ_STATUS 6 4 s else s))

/-! ### Calibration (R422, R423, R425, R539) -/

/-- The repetition cutoff of a min-entropy in units of 2^-16 (R410), limited to the 10 bits of its register. -/
def rctCutoff (h : Nat) : Nat := if h = 0 then 1023 else min 1023 (1 + (40 * 65536 + h - 1) / h)

/-- Load a complete set: the lower of the two estimates of each source, and its cutoffs. -/
def loadCalibration (s : State) : State :=
  match s.rng.calIdle, s.rng.calBallast with
  | some i, some b =>
    let s := (List.range 3).foldl (fun (s : State) n =>
      let h := min (i.h.getD n 0) (b.h.getD n 0)
      ((s.wr (Reg.RNG_HCAL n) (BitVec.ofNat 32 h)).wr (Reg.RNG_RCT_CUT n) (BitVec.ofNat 32 (rctCutoff h))).wr
        (Reg.RNG_APT_CUT n) ((Config.aptCutoff h).setWidth 32)) s
    s.wrB Reg.RNG_STATUS 3 true
  | _, _ => s

/-- CAL_PARTIAL of SYS_HOLD follows the stored set (R34, R422). -/
def holdCalibration (s : State) : State := s.wrB Reg.SYS_HOLD 1 (s.rng.calIdle.isNone || s.rng.calBallast.isNone)

/-- The output of an idle pass: three estimates of two bytes (R425). -/
def CalPass.out (p : CalPass) : Bytes := p.h.flatMap (be 2)

/-- CALIBRATION_PASS_DONE: the running pass ends with its estimates and thermal readings; void, it ends the command with 0x4721. -/
def execCalibrationPassDone (h0 h1 h2 : BitVec 16) (thermal : Bytes) (dt : BitVec 64) (s : State) : Out :=
  let s := s.advance dt.toNat
  match s.rng.cals with
  | [] => .next s
  | c :: cs =>
    let p : CalPass := ⟨[h0.toNat, h1.toNat, h2.toNat], thermal⟩
    let drop (s : State) : State := updRng (fun r => { r with cals := cs }) s
    let inlet := (s.rd Reg.THM_INLET).toInt
    if c.isVoid ∨ inlet < 0x0F00 ∨ 0x2800 < inlet then .next (finalReply c.cmd 0x4721 [] 0 (drop s))
    else if c.expert then
      let s := if s.rng.calIdle.isSome ∧ s.rng.calBallast.isSome then s
        else holdCalibration (updRng (fun r => { r with calIdle := some p, calBallast := none }) s)
      .next (finalReply c.cmd 0 p.out 0 (drop s))
    else match c.idle with
      | none => .next (updRng (fun r => { r with cals := { c with idle := some p } :: cs }) s)
      | some i => .next (finalReply c.cmd 0 [] 0 (drop (holdCalibration (loadCalibration
          (updRng (fun r => { r with calIdle := some i, calBallast := some p }) s)))))

/-! ### Commands (R424) -/

/-- GET_RANDOM: random bytes of the central DRBG, after a reseed when prediction resistance is asked for. -/
def execGetRandom (c : HostCmd) (len : BitVec 32) (extra : Bytes) (predict : Bool) (s : State) : Out :=
  .next (hostRun 0x0720 c [] (fun s =>
    let n := len.toNat
    let p := c.expert && predict
    if n < 1 ∨ 65536 < n ∨ (c.expert ∧ 32 < extra.length) then .fail 0x1720
    else if s.rngFailed then .fail 0x4720
    else if p ∨ !s.rngReady ∨ !s.bitOf Reg.RNG_CTL 0 then
      let s := updRng (fun r => { r with requests := r.requests ++ [⟨c.ref, n, s.now, p⟩] }) s
      .hold (if p then requestReseed [] s else s)
    else .done 0 (s.freeBytes n) 0 (s.drawnBytes n)) s)

/-- RESEED: a reseed on demand; the command completes with it. -/
def execReseed (c : HostCmd) (extra : Bytes) (s : State) : Out :=
  .next (hostRun 0x0721 c [] (fun s =>
    if c.expert ∧ 32 < extra.length then .fail 0x1720
    else if s.rngFailed then .fail 0x4720
    else .hold (updRng (fun r => { r with reseedCmds := r.reseedCmds ++ [c.ref] }) (requestReseed (if c.expert then extra else []) s))) s)

/-- CALIBRATE: with the whole device in the maintenance set, the idle pass begins; OWNER is needed besides CRYPTO (R424). -/
def execCalibrate (c : HostCmd) (s : State) : Out :=
  .next (hostRun 0x0730 c [] (fun s =>
    if !bit (s.perms c.fn) 6 then .fail 0x2F02
    else if s.sys.mode ≠ .maintenance ∨ !s.sys.maint.whole then .fail 0x2720
    else .wait 0x0108 (updRng (fun r => { r with cals := r.cals ++ [⟨c.ref, c.expert, false, none⟩] }) s)) s)

end Sys2Proof.Machine
end

