-- ==== Sys2Proof/Machine/FlashCmds.lean ====
section
/-! DEFINITION. Custody flash, continued (chapter 16): the end of operations and bad granules, reads of the window, suspend points, what a
reset leaves, and the flash commands. -/

namespace Sys2Proof.Machine

/-! ### Bad granules (R458) -/

/-- Spare granules left. -/
def State.sparesLeft (s : State) : Nat := 128 - Config.flashFactoryBad.length - s.fsh.grown.length

/-- Replace a granule by a spare and enter it in the grown table; `none` while no spare remains: its sector becomes BAD. -/
def replaceGranule (g : Nat) (s : State) : Option State :=
  if s.sparesLeft = 0 then none
  else
    let s := irq Reg.FSH_IRQ_STATUS 7 3 (updFsh (fun f => { f with grown := f.grown ++ [g] }) s)
    some (if s.sparesLeft ≤ 16 then irq Reg.FSH_IRQ_STATUS 7 4 s else s)

/-- A sector becomes BAD. -/
def makeBad (k : Nat) (s : State) : State := updFsh (fun f => { f with bad := if f.bad.contains k then f.bad else f.bad ++ [k] }) s

/-! ### Reads of the window (R453, R456) -/

/-- Serve every read that waits, once the window serves reads. -/
def serveReads (s : State) : State :=
  if !s.flashIdle then s
  else
    let l := s.fsh.reads
    l.foldl (fun s r => serveRead r.addr r.len (readEcc r s)) (updFsh (fun f => { f with reads := [] }) s)

/-- FLASH_WINDOW_READ: a read of the flash window is served, or waits for the operation; during an erase with AUTO_SUSPEND it asks for a
suspend. `ecc` is what the check bits show (R448). -/
def execFlashWindowRead (span : FlashSpan) (ecc : FlashEcc) (dt : BitVec 32) (s : State) : Out :=
  let s := s.advance dt.toNat
  let r : WindowRead := ⟨span.addr.toNat, span.len.toNat, ecc.corrected.toNat, ecc.uncorrected.map (·.toNat)⟩
  if s.flashIdle then .next (serveRead r.addr r.len (readEcc r s))
  else .next (askSuspend (updFsh (fun f => { f with reads := f.reads ++ [r] }) s))

/-- ERASE_SUSPEND_POINT: an erase with a pending suspend that has run 2.0 ms is suspended, and the reads that waited are served. -/
def execEraseSuspendPoint (dt : BitVec 32) (s : State) : Out :=
  let s := s.advance dt.toNat
  match s.fsh.erase with
  | none => .next s
  | some e =>
    if e.suspended ∨ !e.pendSuspend ∨ s.now < e.since + 2000000 then .next s
    else .next (serveReads ((showOp (updFsh (fun f => { f with erase := some { e with suspended := true, pendSuspend := false } }) s)).bump Reg.FSH_SUSPENDS))

/-- FLASH_AUTO_RESUME: an erase that a read suspended resumes when the window has been idle for 5 microseconds. -/
def execFlashAutoResume (dt : BitVec 32) (s : State) : Out :=
  let s := s.advance dt.toNat
  match s.fsh.erase with
  | none => .next s
  | some e => if e.suspended ∧ e.byRead ∧ s.fsh.prog.isNone ∧ s.fsh.lastRead + 5000 ≤ s.now then .next (resumeErase s) else .next s

/-! ### The end of an operation (R448, R456, R458) -/

/-- After an erase, a sector that the scan reported and that no marked granule or torn page leaves incomplete is no longer reported (R456). -/
def clearIncomplete (s : State) : State :=
  let old := (List.range 5).map (fun n => s.rd (Reg.FSH_INCOMP n))
  let t := showIncomplete s
  let t := (List.range 5).foldl (fun t n => t.wr (Reg.FSH_INCOMP n) (t.rd (Reg.FSH_INCOMP n) &&& old.getD n 0)) t
  t.wrB Reg.FSH_STATUS 3 ((List.range 5).any (fun n => t.rd (Reg.FSH_INCOMP n) != 0))

/-- Remove what flash holds in a range: every byte reads 0xFF, no page of it is torn or unknown, no granule marked. -/
def wipeFlash (first size : Nat) (s : State) : State :=
  let has (u x : Nat) : Bool := decide (first ≤ x * u) && decide (x * u < first + size)
  clearIncomplete (updFsh (fun f => { f with
    cells := tclear f.cells (has 1)
    garble := tclear f.garble (has 256)
    torn := f.torn.filter (fun p => !has 256 p)
    marked := f.marked.filter (fun g => !has 4096 g) }) s)

/-- The status with which a failing erase ends a command: 0x4802 for UPDATE_BEGIN, whose session closes, else 0x4801. -/
def State.eraseFailStatus (s : State) (c : Option CmdRef) : Nat :=
  match c with
  | none => 0x4801
  | some r =>
    match ((s.queue (qkey r.fn r.queue)).find r.ident) with
    | some o => if o.opcode = 0x0820 then 0x4802 else 0x4801
    | none => 0x4801

/-- The protect bit of the sector that an ERASE_SECTOR erases is clear during the erase and set after it (R464). -/
def protectFor (c : Option CmdRef) (a : Nat) (v : Bool) (s : State) : State :=
  if c.isSome && s.eraseFailStatus c == 0x4801 then s.wrB (Reg.FSH_WP (sectorOf a / 32)) (sectorOf a % 32) v else s

/-- Begin the next erase that a command waits for, while the controller is idle. -/
def nextErase (s : State) : State :=
  match s.fsh.erase, s.fsh.prog, s.fsh.eraseQ with
  | none, none, (c, first, size) :: r => startErase first size (some c) (protectFor (some c) first false (updFsh (fun f => { f with eraseQ := r }) s))
  | _, _, _ => s

/-- A command's erases go on; the last one ends the command. -/
def eraseCmdDone (c : Option CmdRef) (bad : Bool) (failStatus : Nat) (s : State) : State :=
  match c with
  | none => s
  | some r =>
    if bad then finalReply r failStatus [] 0 (updFsh (fun f => { f with eraseQ := f.eraseQ.filter (fun q => q.1 != r) }) s)
    else if s.fsh.eraseQ.any (fun q => q.1 == r) then s
    else finalReply r 0 [] 0 s

/-- Each failed verify of a list takes a spare; false where one finds no spare left. -/
def replaceGranules : List Nat → State → Bool × State
  | [], s => (true, s)
  | g :: gs, s => match replaceGranule g s with
    | some s => replaceGranules gs s
    | none => (false, s)

/-- A program ends: its bytes read back, or its granule fails verify `fails` times and is replaced each time; with no spare its sector is BAD. -/
def endProgram (a : Nat) (d : Bytes) (fails : Nat) (s : State) : State :=
  let s := showOp (updFsh (fun f => { f with prog := none }) s)
  match replaceGranules (List.replicate fails (a / 4096)) s with
  | (true, s) => irq Reg.FSH_IRQ_STATUS 7 0 (flashResult 0 (sectorOf a) (updFsh (fun f => { f with cells := tputBytes (dflt 0xFF) f.cells a d }) s))
  | (false, s) => irq Reg.FSH_IRQ_STATUS 7 1 (flashResult 6 (sectorOf a) (makeBad (sectorOf a)
      (updFsh (fun f => { f with garble := tput (dflt 0) f.garble (a / 256) (s.free + 1) }) s.drawn)))

/-- The pages of a range hold unknown bits. -/
def garbleRange (first size : Nat) (s : State) : State :=
  let n := s.free + 1
  updFsh (fun f => { f with garble := (List.range ((size + 255) / 256)).foldl (fun t i => tput (dflt 0) t (first / 256 + i) n) f.garble }) s.drawn

/-- An erase ends: every granule verified, those that failed replaced; with no spare left its sector is BAD, its bits unknown and its granules marked. -/
def endErase (e : FlashErase) (fails : List Nat) (s : State) : State :=
  let st := s.eraseFailStatus e.cmd
  let s := protectFor e.cmd e.first true (showOp (updFsh (fun f => { f with erase := none }) s))
  match replaceGranules (fails.filter (fun g => decide (e.first ≤ g * 4096) && decide (g * 4096 < e.first + e.size))) s with
  | (true, s) => eraseCmdDone e.cmd false st (irq Reg.FSH_IRQ_STATUS 7 0 (flashResult 0 (sectorOf e.first) (wipeFlash e.first e.size s)))
  | (false, s) =>
    let s := garbleRange e.first e.size s
    let s := if st = 0x4802 then { s with upd := { s.upd with sess := none } } else s
    eraseCmdDone e.cmd true st (irq Reg.FSH_IRQ_STATUS 7 1 (flashResult 6 (sectorOf e.first) (makeBad (sectorOf e.first) s)))

/-- An erasing session of UPDATE_BEGIN takes data once its last erase has ended. -/
def sessionErased (s : State) : State :=
  match s.upd.sess with
  | some x => if x.erasing ∧ s.fsh.erase.isNone ∧ s.fsh.eraseQ = [] then { s with upd := { s.upd with sess := some { x with erasing := false } } } else s
  | none => s

/-- FLASH_OP_DONE: the program, or else the running erase, completes; `fails` names the granules that failed a verify on the way. -/
def execFlashOpDone (fails : List (BitVec 13)) (s : State) : Out :=
  let after (s : State) : State := nextErase (sessionErased (serveReads s))
  match s.fsh.prog with
  | some (a, d) => .next (after (endProgram a d fails.length s))
  | none =>
    match s.fsh.erase with
    | none => .next s
    | some e => if e.suspended then .next s else .next (after (endErase e (fails.map (·.toNat)) s))

/-! ### Resets (R447, R451, R455) -/

/-- A reset of the cores, or a loss of main power, ends the operation in progress (R455): an erase leaves its granules marked, a program its
page torn; the recovery view is in force and every sector is protected (R447, R451). -/
def flashAbort (s : State) : State :=
  let s := match s.fsh.erase with
    | some e => garbleRange e.first e.size s
    | none => s
  let s := match s.fsh.prog with
    | some (a, _) => updFsh (fun f => { f with torn := if f.torn.contains (a / 256) then f.torn else f.torn ++ [a / 256] }) (garbleRange (a / 256 * 256) 256 s)
    | none => s
  let s := showOp (updFsh (fun f => { f with erase := none, prog := none, reads := [], eraseQ := [] }) s)
  let s := (List.range 5).foldl (fun s n => s.wr (Reg.FSH_WP n) (if n = 4 then 0x0000FFFF else 0xFFFFFFFF)) s
  (s.wrB Reg.FSH_CTL 0 false).wrB Reg.FSH_LOCK 0 false

/-- The header scan of stage 0 (R456); SPARES_LOW shows when 16 spares or fewer remain (R458). -/
def scanFlash (s : State) : State :=
  let s := (showIncomplete s).wrB Reg.FSH_STATUS 2 true
  if s.sparesLeft ≤ 16 then irq Reg.FSH_IRQ_STATUS 7 4 s else s

/-! ### Commands (R464) -/

/-- GET_FLASH_STATUS: FSH_STATUS, FSH_INCOMP0 to 4, spare granules left, and the highest, mean and lowest wear of ledger flash. -/
def execGetFlashStatus (c : HostCmd) (s : State) : Out :=
  .next (hostRun 0x0801 c [] (fun s =>
    .done 0 (be 4 (s.rd Reg.FSH_STATUS).toNat ++ (List.range 5).flatMap (fun n => be 4 (s.rd (Reg.FSH_INCOMP n)).toNat)
      ++ be 4 s.sparesLeft ++ be 4 s.wearMax ++ be 4 s.wearMean ++ be 4 s.wearMin) 0 s) s)

/-- The bank of the running custody firmware (UPD_BANK.RUNNING). -/
def State.runningBank (s : State) : Nat := s.fld Reg.UPD_BANK 5 5

/-- Whether a sector lies in the image area and is not in use (R468). -/
def State.imageSectorFree (s : State) (k : Nat) : Bool :=
  decide (9 ≤ k) && decide (k ≤ 72) &&
    (decide (15 ≤ (k - 9) % 32) || ((k - 9) / 32 != s.runningBank && s.upd.sess.isNone))

/-- Whether ERASE_SECTOR accepts a sector (R464); sector 8 is read-only once it is fused (R450). -/
def State.erasable (s : State) (k : Nat) : Bool := (s.sectorIncomplete k && !(k == 8 && s.sys.shipFuse)) || s.imageSectorFree k

/-- ERASE_SECTOR: a normal-view sector, or in expert form `count` recovery-view sectors from the first. -/
def execEraseSector (c : HostCmd) (first : BitVec 16) (count : BitVec 8) (s : State) : Out :=
  .next (hostRun 0x0810 c [] (fun s =>
    let l : List (Nat × Nat) := if c.expert
      then (List.range count.toNat).map (fun i => ((first.toNat + i) * 4096, 4096))
      else [sectorRange first.toNat]
    if (if c.expert then count.toNat < 1 ∨ 64 < count.toNat ∨ 8192 < first.toNat + count.toNat else 143 < first.toNat) then .fail 0x1801
    else if l.any (fun r => !s.erasable (sectorOf r.1)) then .fail 0x2801
    else if l.any (fun r => s.fsh.bad.contains (sectorOf r.1)) then .fail 0x4801
    else .wait 0x0109 (nextErase (updFsh (fun f => { f with eraseQ := f.eraseQ ++ l.map (fun r => (c.ref, r.1, r.2)) }) s))) s)

end Sys2Proof.Machine
end

