-- ==== Sys2Proof/Machine/Update.lean ====
section
/-! DEFINITION. Firmware update (chapter 17): banks and images, the header checks, staging, the anti-rollback counters, the bank record, the
update engine and the update commands. -/

namespace Sys2Proof.Machine

/-- Change the update state. -/
def updUpd (f : UpdateState → UpdateState) (s : State) : State := { s with upd := f s.upd }

/-! ### Banks and images (R467 to R469) -/

/-- The first sector of a kind within its bank (R468). -/
def kindSector (k : Nat) : Nat := if k = 1 then 0 else if k = 2 then 1 else if k = 3 then 7 else if k = 4 then 11 else 13

/-- The flash offset of the image of a kind (1 to 5) in a bank (0 = A). -/
def imageBase (bank k : Nat) : Nat := (sectorRange (9 + 32 * bank + kindSector k)).1

/-- The greatest stored size of a kind (R467). -/
def kindMax (k : Nat) : Nat := if k = 1 then 0x40000 else if k = 2 then 0x180000 else if k = 3 then 0x100000 else 0x80000

/-- Encrypted and version-locked kinds (R467). -/
def kindEncrypted (k : Nat) : Bool := k == 2 || k == 3 || k == 4
def kindLocked (k : Nat) : Bool := k == 3 || k == 4

/-- The anti-rollback counter of a kind, if it has one. -/
def kindCounter (k : Nat) : Option Nat := if k = 1 then some 0 else if k = 2 then some 1 else if k = 5 then some 2 else none

/-- The preferred bank, TRIAL and TRIES of the bank record (R475). -/
def State.prefBank (s : State) : Nat := s.fld Reg.UPD_BANK 0 0
def State.trial (s : State) : Bool := s.bitOf Reg.UPD_BANK 1
def State.tries (s : State) : Nat := s.fld Reg.UPD_BANK 4 2

/-- The value of an anti-rollback counter. -/
def State.arb (s : State) (n : Nat) : Nat := s.fld (Reg.UPD_ARB n) 6 0

/-- The header stored for a kind, and fields of a header: body length, LOCK, SVN, release version. -/
def State.imageHeader (s : State) (bank k : Nat) : Bytes := s.flashBytes (imageBase bank k) 4096
def hdrBody (h : Bytes) : Nat := field h 16 4
def hdrLock (h : Bytes) : Nat := field h 14 2
def hdrSvn (h : Bytes) : Nat := field h 12 2
def hdrRelease (h : Bytes) : Nat := field h 8 4

/-- Check 1 of R472 on a header for a kind: magic, format, kind, fields that are 0, and the body length. -/
def headerFormOk (k : Nat) (h : Bytes) : Bool :=
  slice h 0 4 == [0x46, 0x57, 0x49, 0x31] && field h 4 1 == 1 && field h 5 1 == k && decide (field h 7 1 < 4)
    && (!kindLocked k || hdrSvn h == 0) && (k == 2 || field h 20 4 == 0) && (decide (k ≤ 2) || field h 24 4 == 0)
    && (k == 2 || field h 28 4 == 0) && (kindEncrypted k || slice h 32 12 == zeros 12) && decide (field h 92 1 ≤ 3)
    && slice h 93 35 == zeros 35 && slice h 3533 563 == zeros 563 && decide (4096 + hdrBody h ≤ kindMax k)

/-- Check 3 of R472: both signatures of the signed part under the release key pair named (R470). -/
def headerSigned (h : Bytes) : Bool :=
  let pk := Config.releaseKey (field h 92 1)
  Config.sector8Ok && Config.ecdsaVerify pk.1 (sha384 (h.take 128)) (slice h 128 96)
    && Config.mldsaVerify pk.2 [0x46, 0x4C, 0x35, 0x31, 0x32, 0x35, 0x2D, 0x46, 0x57] (h.take 128) (slice h 224 3309)

/-- The checks of R472 in order: the status of the first that fails. -/
def State.headerCheck (s : State) (k : Nat) (h : Bytes) : Option Nat :=
  if !headerFormOk k h then some 0x1802
  else if field h 6 1 ≠ 0xB0 ∨ !nbit (field h 7 1) (if Config.isL4 then 1 else 0) then some 0x1803
  else if !headerSigned h then some 0x1805
  else match kindCounter k with
    | some n => if hdrSvn h < s.arb n then some 0x2802 else none
    | none => none

/-- The stored body of an image: in clear, or enciphered granule by granule with the flash offset as tweak (R471). -/
def storeGranules (base : Nat) : Nat → Bytes → Bytes
  | 0, _ => []
  | n + 1, b => fit (min 4096 b.length) (Config.xtsEncrypt base (b.take 4096)) ++ storeGranules (base + 4096) n (b.drop 4096)

/-- The plaintext of a stored body. -/
def loadGranules (base : Nat) : Nat → Bytes → Bytes
  | 0, _ => []
  | n + 1, b => fit (min 4096 b.length) (Config.xtsDecrypt base (b.take 4096)) ++ loadGranules (base + 4096) n (b.drop 4096)

/-- The plaintext body of a stored image. -/
def State.imageBody (s : State) (bank k : Nat) : Bytes :=
  let a := imageBase bank k + 4096
  let n := min (hdrBody (s.imageHeader bank k)) (kindMax k - 4096)
  let b := s.flashBytes a n
  if kindEncrypted k then loadGranules a ((n + 4095) / 4096) b else b

/-- Whether an image sector of a kind is INCOMPLETE_ERASE, which fails its bank (R475). -/
def State.imageIncomplete (s : State) (bank k : Nat) : Bool :=
  (List.range (kindMax k / 0x40000 + (if kindMax k % 0x40000 = 0 then 0 else 1))).any (fun i => s.sectorIncomplete (9 + 32 * bank + kindSector k + i))

/-- Whether the stored image of a kind passes R472 and its digest. -/
def State.imageGood (s : State) (bank k : Nat) : Bool :=
  !s.imageIncomplete bank k && (s.headerCheck k (s.imageHeader bank k)).isNone
    && sha384 (s.imageBody bank k) == slice (s.imageHeader bank k) 44 48

/-- Whether the version locks of a bank hold (R467). -/
def State.locksHold (s : State) (bank : Nat) : Bool :=
  [3, 4].all (fun k => hdrLock (s.imageHeader bank k) == hdrLock (s.imageHeader bank 2))

/-! ### The UPDATE event (R479) -/

/-- An UPDATE event: action, bank and mask of kinds. -/
def updateEvent (action bank mask : Nat) (s : State) : State :=
  let h := s.imageHeader bank 2
  event 0x0060 0 0xFFFF (be 1 action ++ be 1 bank ++ be 1 mask ++ [0] ++ be 4 (hdrRelease h)
    ++ be 2 (s.arb 0) ++ be 2 (s.arb 1) ++ be 2 (s.arb 2) ++ be 2 s.upd.fmt ++ (sha384 (h.take 128)).take 24) s

/-! ### Settings formats (R476) -/

/-- Stage 5 selects the settings: the newest copy when it has the image's format, else the other copy when it does (as on fallback); else a copy in the
image's range is converted into the other copy, or the defaults are written there, and both write an UPDATE event. -/
def loadSettings (s : State) : State :=
  let b := s.runningBank
  let h := s.imageHeader b 2
  let want := field h 28 2
  let old := field h 30 2
  let newest := if s.upd.newestB then s.upd.fmtB else s.upd.fmtA
  let other := if s.upd.newestB then s.upd.fmtA else s.upd.fmtB
  if newest = want then updUpd (fun u => { u with fmt := want }) s
  else if other = want then updUpd (fun u => { u with fmt := want, newestB := !u.newestB }) s
  else
    let conv := decide (old ≤ newest ∧ newest < want)
    let kept := if conv then (if s.upd.newestB then s.conf.copyB else s.conf.copyA) else ⟨[], [], []⟩
    let s := { s with conf := if s.upd.newestB then { s.conf with copyA := kept } else { s.conf with copyB := kept } }
    let s := updUpd (fun u => if u.newestB then { u with fmtA := want, newestB := false, fmt := want }
      else { u with fmtB := want, newestB := true, fmt := want }) s
    updateEvent (if conv then 5 else 6) b 0x02 s

/-! ### The bank record and the counters (R474, R475, R481) -/

/-- Replace PREF, TRIAL and TRIES. -/
def setBank (pref : Nat) (trial : Bool) (tries : Nat) (s : State) : State :=
  ((s.wrF Reg.UPD_BANK 0 0 pref).wrB Reg.UPD_BANK 1 trial).wrF Reg.UPD_BANK 4 2 tries

/-- What the boot stages do with the bank record at each start: a trial without tries left falls back, with its event. -/
def bankAtStart (s : State) : State :=
  if !s.trial then s
  else if s.tries = 0 then
    let s := setBank (1 - s.prefBank) false 0 s
    updateEvent 4 s.prefBank 0x1F s
  else setBank s.prefBank true (s.tries - 1) s

/-- UPD_BANK_SET_WRITE: a keyed write by ring 0 replaces the bank record. -/
def execUpdBankSetWrite (ring : Fin 4) (value : Word) (s : State) : Out :=
  if ring ≠ 0 then .next (refuseFixed ring Reg.UPD_BANK_SET true s)
  else if bits value 31 16 ≠ 0x6B1E then .next s
  else .next (setBank (bits value 0 0) (bit value 1) (bits value 4 2) s)

/-- Raise a counter to a value: it never decreases, and has 64 fuses. -/
def raiseArb (n v : Nat) (s : State) : State := s.wr (Reg.UPD_ARB n) (BitVec.ofNat 32 (max (s.arb n) (min 64 v)))

/-- UPD_ARB_BLOW_WRITE: a keyed write by ring 0 blows fuses of a counter while the running bank is the one on trial. -/
def execUpdArbBlowWrite (ring : Fin 4) (value : Word) (s : State) : Out :=
  if ring ≠ 0 then .next (refuseFixed ring Reg.UPD_ARB_BLOW true s)
  else if bits value 31 16 ≠ 0x9D42 ∨ !s.trial ∨ s.runningBank ≠ s.prefBank ∨ 2 < bits value 1 0 then .next s
  else .next (raiseArb (bits value 1 0) (bits value 8 2) s)

/-! ### The update engine (R471, R481) -/

/-- Show the state of the engine: BUSY while a job runs. -/
def showUpd (idle : Nat) (s : State) : State := s.wr Reg.UPD_JOB_STAT (if s.upd.jobs = [] then BitVec.ofNat 32 idle else 1)

/-- UPD_GO_START: START runs the staged job; while one runs, or with ENABLE clear, it has no effect. -/
def execUpdGoStart (s : State) : Out :=
  if s.upd.jobs ≠ [] ∨ !s.bitOf Reg.UPD_CTL 0 then .next s
  else
    let j : UpdJob := .reg (s.rd Reg.UPD_JOB).toNat (s.fld Reg.UPD_COLOUR 9 0) (s.rd64 Reg.UPD_SRC_LO) (s.fld Reg.UPD_DST 24 0) (s.fld Reg.UPD_LEN 20 0)
    .next (showUpd 0 (updUpd (fun u => { u with jobs := [j] }) s))

/-- Whether a job is one of the registers. -/
def UpdJob.isReg : UpdJob → Bool
  | .reg .. => true
  | _ => false

/-- Drop the register job, if one runs. -/
def abortUpd (s : State) : State :=
  if s.upd.jobs.any (·.isReg) then showUpd 0 (updUpd (fun u => { u with jobs := u.jobs.filter (fun j => !j.isReg) }) s) else s

/-- UPD_GO_ABORT: ABORT stops the register job. -/
def execUpdGoAbort (s : State) : Out := .next (abortUpd s)

/-- A register job ends with an error code. -/
def updError (code : Nat) (s : State) : State := irq Reg.UPD_IRQ_STATUS 21 1 (s.wr Reg.UPD_JOB_STAT (BitVec.ofNat 32 (3 + 2 ^ 8 * code)))

/-- Whether custody flash takes a program of a range now: it lies in the flash, every byte reads 0xFF, and no sector of it is protected (when `guard` is
set), incomplete or BAD (R448, R451, R456, R458). -/
def State.flashTakes (s : State) (guard : Bool) (dst len : Nat) : Bool :=
  decide (dst + len ≤ 0x2000000) && (s.flashBytes dst len).all (· == 0xFF) && !s.readsIncomplete dst len
    && (List.range 144).all (fun k => !(decide ((sectorRange k).1 < dst + len) && decide (dst < (sectorRange k).1 + (sectorRange k).2))
      || !(s.fsh.bad.contains k || (guard && s.sectorProtected k)))

/-- A program of a range by the update engine. When it fails its verify in a granule, a spare takes the granule's place; with none left the sector is BAD, its
bits are unknown, and nothing is answered (R458). -/
def programRange (dst : Nat) (d : Bytes) (fail : Bool) (s : State) : Option State × State :=
  match replaceGranules (if fail then [dst / 4096] else []) s with
  | (true, t) => (some (updFsh (fun f => { f with cells := tputBytes (dflt 0xFF) f.cells dst d }) t), s)
  | (false, t) => (none, garbleRange dst d.length (makeBad (sectorOf dst) t))

/-- The transformed bytes of a register job are written: LOAD to custody SRAM, else to custody flash. -/
def updStore (load : Bool) (dst : Nat) (d : Bytes) (fail : Bool) (s : State) : State :=
  let ok (s : State) : State := irq Reg.UPD_IRQ_STATUS 21 0 (s.wr Reg.UPD_JOB_STAT 2)
  if load then ok { s with gte := { s.gte with sram := tputBytes (dflt 0) s.gte.sram dst (d.take (0x200000 - dst)) } }
  else if !s.flashTakes true dst d.length then updError 3 s
  else match programRange dst d fail s with
    | (some s, _) => ok s
    | (none, s) => updError 3 s

/-- A register job ends: source read through the gates, transformed when ENC is set, and written. -/
def endRegJob (job colour src dst len : Nat) (host : Bytes) (r : UpdResult) (s : State) : State :=
  match dmaRead 262 colour src len host s with
  | (none, s) => updError 1 s
  | (some d, s) =>
    match r with
    | .readFail => updError 1 s
    | .tagFail => updError 2 s
    | .flashFail | .good =>
      let op := job % 4
      updStore (op == 1) dst (if nbit job 2 then fit d.length (Config.updTransform op src dst d) else d) (r == .flashFail) s

/-! ### Staging (R472, R473, R477) -/

/-- The bank that is staged: the one that is not running. -/
def State.stageBank (s : State) : Nat := 1 - s.runningBank

/-- The bytes an image travels as: header, body, and the transport tag of an encrypted kind. -/
def transportLen (k : Nat) (h : Bytes) : Nat := 4096 + hdrBody h + (if kindEncrypted k then 16 else 0)

/-- The plaintext of the body bytes of a transport stream (R471). -/
def streamPlain (k : Nat) (b : Bytes) : Bytes :=
  let ct := (b.drop 4096).take (hdrBody b)
  if kindEncrypted k then gcmCrypt (be 32 Config.transportKey.toNat) (slice b 32 12) ct else ct

/-- Whether a stream is whole, with its transport tag correct and its digest matching the header (R473). -/
def streamGood (k : Nat) (b : Bytes) : Bool :=
  b.length == transportLen k b
    && (!kindEncrypted k || gcmTag (be 32 Config.transportKey.toNat) (slice b 32 12) (b.take 4096) ((b.drop 4096).take (hdrBody b)) == b.drop (4096 + hdrBody b))
    && sha384 (streamPlain k b) == slice b 44 48

/-- What a stream now gives to program: the header and every whole granule of the stored body, all of it once the stream is whole. -/
def State.streamImage (s : State) (k : Nat) (b : Bytes) : Bytes :=
  let base := imageBase s.stageBank k
  let p := streamPlain k b
  let n := if transportLen k b ≤ b.length then p.length else p.length / 4096 * 4096
  b.take 4096 ++ (if kindEncrypted k then storeGranules (base + 4096) ((n + 4095) / 4096) (p.take n) else p)

/-- An image of the open session. -/
def UpdSession.kind (x : UpdSession) (k : Nat) : Staged := tget (dflt ⟨[], false⟩) x.kinds k

/-- Replace an image of the open session. -/
def setStaged (k : Nat) (v : Staged) (s : State) : State :=
  updUpd (fun u => { u with sess := u.sess.map (fun x => { x with kinds := tput (dflt ⟨[], false⟩) x.kinds k v }) }) s

/-- Close the session; the bank stays staged, not valid. -/
def closeSession (s : State) : State := updUpd (fun u => { u with sess := none }) s

/-- What a reset or a loss of power does to an update (R477, R481). -/
def resetUpdate (s : State) : State := showUpd 0 (updUpd (fun u => { u with sess := none, jobs := [] }) s)

/-- GET_IMAGES: header bytes 0 to 127 of each kind in both banks, UPD_BANK and the three counters. -/
def execGetImages (c : HostCmd) (s : State) : Out :=
  .next (hostRun 0x0803 c [] (fun s =>
    .done 0 ([0, 1].flatMap (fun b => [1, 2, 3, 4, 5].flatMap (fun k => (s.imageHeader b k).take 128))
      ++ be 4 (s.rd Reg.UPD_BANK).toNat ++ be 2 (s.arb 0) ++ be 2 (s.arb 1) ++ be 2 (s.arb 2)) 0 s) s)

/-- UPDATE_BEGIN: opens the session and erases the inactive bank's sectors in use. -/
def execUpdateBegin (c : HostCmd) (s : State) : Out :=
  .next (hostRun 0x0820 c [] (fun s =>
    if s.upd.sess.isSome then .fail 0x2804
    else
      let q := (List.range 15).map (fun i => let r := sectorRange (9 + 32 * s.stageBank + i); (c.ref, r.1, r.2))
      if (List.range 15).any (fun i => s.fsh.bad.contains (9 + 32 * s.stageBank + i)) then .fail 0x4802
      else .wait 0x010A (nextErase (updFsh (fun f => { f with eraseQ := f.eraseQ ++ q })
        (updUpd (fun u => { u with sess := some ⟨[], true⟩, valid := false }) s)))) s)

/-- UPDATE_WRITE: bytes of an image, contiguous; the first write is checked header first (R472, R473). `fail` = a granule failed its verify. The write waits
while custody flash runs another operation (R452). -/
def execUpdateWrite (c : HostCmd) (kind : Fin 5) (offset : BitVec 32) (data : Bytes) (fail : Bool) (s : State) : Out :=
  let k := kind.val + 1
  .next (hostRun 0x0821 c [] (fun s =>
    match s.upd.sess with
    | none => .fail 0x2804
    | some x =>
      let st := (x.kind k).stream
      let b := st ++ data
      if x.erasing then .fail 0x2804
      else if (x.kind k).copied ∨ offset.toNat ≠ st.length ∨ 65520 < data.length then .fail 0x1804
      else if st = [] ∧ data.length < 4096 then .fail 0x1802
      else if st = [] ∧ field data 5 1 ≠ k ∧ 1 ≤ field data 5 1 ∧ field data 5 1 ≤ 5 then .fail 0x1804
      else match (if st = [] then s.headerCheck k (data.take 4096) else none) with
        | some e => .fail e
        | none =>
          if transportLen k b < b.length then .fail 0x1804
          else if !s.flashIdle then .later
          else match programRange (imageBase s.stageBank k) (s.streamImage k b) fail s with
            | (some s, _) => .done 0 [] 0 (setStaged k ⟨b, false⟩ s)
            | (none, s) => .done 0x4802 [] 0 (closeSession s)) s)

/-- UPDATE_COPY: the engine copies one kind from the running bank. -/
def execUpdateCopy (c : HostCmd) (kind : Fin 5) (s : State) : Out :=
  .next (hostRun 0x0822 c [] (fun s =>
    match s.upd.sess with
    | none => .fail 0x2804
    | some x =>
      if x.erasing then .fail 0x2804
      else .wait 0x010A (showUpd 0 (updUpd (fun u => { u with jobs := u.jobs ++ [.copy (kind.val + 1) c.ref] }) s))) s)

/-- UPDATE_END: the engine verifies the staged bank. -/
def execUpdateEnd (c : HostCmd) (s : State) : Out :=
  .next (hostRun 0x0823 c [] (fun s =>
    match s.upd.sess with
    | none => .fail 0x2804
    | some x =>
      if x.erasing then .fail 0x2804
      else .wait 0x010A (showUpd 0 (updUpd (fun u => { u with jobs := u.jobs ++ [.check c.ref] }) s))) s)

/-- UPDATE_ABORT: closes the session. -/
def execUpdateAbort (c : HostCmd) (s : State) : Out :=
  .next (hostRun 0x0824 c [] (fun s => if s.upd.sess.isNone then .fail 0x2804 else .done 0 [] 0 (closeSession s)) s)

/-- A copy ends: the image as it is stored, re-enciphered under its new offsets. -/
def endCopy (k : Nat) (cmd : CmdRef) (r : UpdResult) (s : State) : State :=
  if s.upd.sess.isNone then finalReply cmd 0x2804 [] 0 s
  else
    let base := imageBase s.stageBank k
    let h := s.imageHeader s.runningBank k
    let p := s.imageBody s.runningBank k
    let body := if kindEncrypted k then storeGranules (base + 4096) ((p.length + 4095) / 4096) p else p
    if !s.flashTakes false base (h ++ body).length then finalReply cmd 0x4802 [] 0 (closeSession s)
    else match programRange base (h ++ body) (r == .flashFail) s with
      | (some s, _) => finalReply cmd 0 [] 0 (setStaged k ⟨[], true⟩ s)
      | (none, s) => finalReply cmd 0x4802 [] 0 (closeSession s)

/-- The verdict of UPDATE_END on the staged bank (R473): 0 when it is valid. -/
def State.stageVerdict (s : State) (x : UpdSession) : Nat :=
  let ks := [1, 2, 3, 4, 5]
  if ks.any (fun k => (x.kind k).stream != [] && !streamGood k (x.kind k).stream) then 0x1806
  else if ks.any (fun k => !(x.kind k).copied && (x.kind k).stream == []) then 0x2805
  else if !s.locksHold s.stageBank then 0x2803
  else if ks.any (fun k => (s.headerCheck k (s.imageHeader s.stageBank k)).isSome) then 0x2805
  else 0

/-- UPDATE_END's verification ends: a valid bank closes the session, with the staged event. -/
def endCheck (cmd : CmdRef) (s : State) : State :=
  match s.upd.sess with
  | none => finalReply cmd 0x2804 [] 0 s
  | some x =>
    match s.stageVerdict x with
    | 0 => finish cmd 0 [] 0 s (updateEvent 1 s.stageBank 0x1F (updUpd (fun u => { u with sess := none, valid := true }) s))
    | e => finalReply cmd e [] 0 s

/-- Whether a job waits for custody flash: for a read of the window, or for its turn to program (R452, R453). -/
def UpdJob.waits (j : UpdJob) (s : State) : Bool :=
  match j with
  | .reg job _ src _ _ => s.readWaits src || (job % 4 != 1 && !s.flashIdle)
  | _ => !s.flashIdle

/-- UPD_JOB_DONE: the engine's job completes or reports an error. -/
def execUpdJobDone (host : Bytes) (r : UpdResult) (s : State) : Out :=
  match s.upd.jobs with
  | [] => .next s
  | j :: js =>
    if j.waits s then .next (askSuspend s) else
    let s := showUpd 0 (updUpd (fun u => { u with jobs := js }) s)
    match j with
    | .reg job colour src dst len => .next (endRegJob job colour src dst len host r s)
    | .copy k cmd => .next (endCopy k cmd r s)
    | .check cmd => .next (endCheck cmd s)

/-- CONFIRM: raises the counters to the SVNs of the running images and clears TRIAL (R474, R475). -/
def execConfirm (c : HostCmd) (s : State) : Out :=
  .next (hostRun 0x0826 c [] (fun s =>
    let b := s.runningBank
    let svn (k : Nat) : Nat := hdrSvn (s.imageHeader b k)
    if !s.trial ∨ b ≠ s.prefBank then .fail 0x2807
    else if 64 < svn 1 ∨ 64 < svn 2 ∨ 64 < svn 5 then .fail 0x3802
    else
      let s := setBank s.prefBank false s.tries (raiseArb 0 (svn 1) (raiseArb 1 (svn 2) (raiseArb 2 (svn 5) s)))
      .done 0 [] 0 (updateEvent 3 b 0x1F s)) s)

/-- Whether the staged bank still is what UPDATE_END found: all five images good, their locks equal (R468, R473). -/
def State.stageStands (s : State) : Bool := [1, 2, 3, 4, 5].all (s.imageGood s.stageBank) && s.locksHold s.stageBank

/-- What ACTIVATE checks, and the bank record it sets, before its warm reset (R475, R477, R478). -/
def activate (c : HostCmd) (tries : Nat) (s : State) : Except Nat State :=
  if !s.upd.valid ∨ !s.stageStands then .error 0x2805
  else if !s.sys.maint.whole then .error 0x2806
  else
    let n := if c.expert then tries else 2
    if n < 1 ∨ 7 < n then .error 0x1F02
    else .ok (updateEvent 2 s.stageBank 0x1F (setBank s.stageBank true n (updUpd (fun u => { u with valid := false }) s)))

end Sys2Proof.Machine
end

