-- ==== Sys2Proof/Machine/Modes.lean ====
section
/-! DEFINITION. The modes and their transitions (R30 to R38, R58, R59, R62, R615): requests, commits, and the commands that enter and leave
MAINTENANCE. -/

namespace Sys2Proof.Machine

/-- Change the mode and start-up state. -/
def updSys (f : SysState → SysState) (s : State) : State := { s with sys := f s.sys }

/-- Whether a hold reason is present (R34). -/
def State.held (s : State) : Bool := s.fld Reg.SYS_HOLD 2 0 != 0

/-- Whether a transition is accepted and not yet committed: SYS_MODE.BUSY (R36). The close and the abort of a ceremony are transitions whose
commit follows the end of CLOSING or RESTORING (R490). -/
def State.busy (s : State) : Bool := s.sys.pend.isSome || s.cer.phase == .closing || s.cer.phase == .restoring

/-- The tenants that exist, as a map. -/
def State.tenantMap (s : State) : BitVec 512 := s.tenants.foldl (fun m t => m ||| 1#512 <<< t) 0#512

/-- SYS_MODE.SET_LIST: in MAINTENANCE the maintenance set is a tenant list. -/
def State.setList (s : State) : Bool := s.sys.mode == .maintenance && !s.sys.maint.whole

/-- The value of SYS_MODE. -/
def State.modeWord (s : State) : Word :=
  BitVec.ofNat 32 (s.sys.mode.code + 2 ^ 4 * s.sys.prevMode.code + 2 ^ 7 * b2n s.setList + 2 ^ 8 * b2n s.busy)

/-- The value of SYS_TNT_MAINT[n]. -/
def State.maintWord (s : State) (n : Nat) : Word := if s.sys.maint.whole then 0xFFFFFFFF else (s.sys.maint.map >>> (32 * n)).setWidth 32

/-- The MODE event of a committed transition (R615). -/
def modeEvent (old : Mode) (s : State) : State :=
  event 0x0003 (srcMaster 0) 0xFFFF
    (be 1 old.code ++ be 1 s.sys.mode.code ++ be 1 (b2n s.setList) ++ [0] ++ sha256 s.sys.maint.image ++ zeros 4) s

/-- Restart the ports in the data plane in force: groups follow it (R53, R177), RELEASE is set, and the link of every port that is enabled, in NOTARY of
every lane, trains again (R33, R169). -/
def restartPorts (s : State) : State :=
  (List.range 512).foldl (fun (s : State) p =>
    let s := s.wrB (Reg.PRT_CTL p) 1 true
    if s.member p then s
    else if s.portState p = 0 then (if s.plane = .notary ∨ s.bitOf (Reg.PRT_CTL p) 0 then setEnable p true s else s)
    else portReset p s) (regroup 0 512 s)

/-- A committed transition: the keeper record is written, the set takes effect, the Ledger forms roots again once re-chartering
has opened, the event is written, ports restart where the data plane changes, and the command completes (R33, R36). -/
def commitMode (m : PendingMode) (s : State) : State :=
  let old := s.sys.mode
  let plane := s.plane
  let s := updSys (fun y => { y with
    mode := m.target, prevMode := old, maint := m.set, maintStored := m.set, keeperRecord := true
    keeperZeroized := m.target == .zeroized, pend := none }) s
  let s := if old = .zeroized ∧ m.target = .ceremony then { s with ldg := { s.ldg with finalDone := false, nextClose := s.epoch } } else s
  let s := modeEvent old s
  let s := if m.target = .ceremony ∨ m.target = .zeroized ∨ m.target = plane ∨ (plane = .maintenance ∧ m.target = .service)
      ∨ (plane = .service ∧ m.target = .maintenance) then s else restartPorts s
  finalReply? m.cmd 0 s

/-- MODE_COMMIT: the accepted transition is written to the keeper-domain mode record (R36). -/
def execModeCommit (s : State) : Out :=
  match s.sys.pend with
  | none => .next s
  | some m => .next (commitMode m s)

/-- Accept a transition: BUSY until it is committed. -/
def requestMode (target : Mode) (set : MaintSet) (cmd : Option CmdRef) (s : State) : State :=
  updSys (fun y => { y with pend := some ⟨target, set, cmd⟩ }) s

/-- The mode and the maintenance set that the close of the open ceremony leads to (R33). -/
def State.closeMode (s : State) : Mode × MaintSet :=
  if !s.anyCharter then (.notary, MaintSet.empty)
  else if s.held then (.maintenance, MaintSet.all)
  else if s.cer.openedFrom = .maintenance ∧ !s.cer.openedSet.isEmpty then (.maintenance, s.cer.openedSet)
  else (.service, MaintSet.empty)

/-! ### ENTER_MAINTENANCE and EXIT_MAINTENANCE (R58, R59) -/

/-- What a caller names: the whole device, or a map of tenants. -/
def maintNamed (c : HostCmd) (map : BitVec 512) : Option (BitVec 512) :=
  if c.expert then some map else if c.fn.val = 0 then none else some (1#512 <<< c.own)

/-- The checks both commands share: 0x2103 from a VF that names another tenant, 0x1101 for a tenant that does not exist, 0x2105 while BUSY. -/
def maintCheck (c : HostCmd) (map : BitVec 512) (s : State) : Option Nat :=
  match maintNamed c map with
  | none => if s.busy then some 0x2105 else none
  | some m =>
    if c.fn.val ≠ 0 ∧ m &&& ~~~(1#512 <<< c.own) ≠ 0 then some 0x2103
    else if m &&& ~~~s.tenantMap ≠ 0 then some 0x1101
    else if s.busy then some 0x2105
    else none

/-- The tenants of a map. -/
def mapTenants (m : BitVec 512) : List Nat := (List.range 512).filter m.getLsbD

/-- Add tenants to a set, each placed by the function; what PF0 places is PF0's, what another function had placed stays its own (R59). -/
def MaintSet.add (fn : Nat) (named : Option (BitVec 512)) (m : MaintSet) : MaintSet :=
  match named with
  | none => MaintSet.all
  | some map =>
    if m.whole then m
    else
      let place (t : Tab Nat) (x : Nat) : Tab Nat :=
        if fn = 0 then tput (dflt 0) t x 0 else if m.map.getLsbD x then t else tput (dflt 0) t x fn
      ⟨false, m.map ||| map, (mapTenants map).foldl place m.placedBy⟩

/-- ENTER_MAINTENANCE: the whole device or tenants join the maintenance set (R33). -/
def execEnterMaintenance (c : HostCmd) (map : BitVec 512) (s : State) : Out :=
  .next (hostRun 0x0110 c [] (fun s =>
    match maintCheck c map s with
    | some st => .fail st
    | none => .wait 0x0101 (requestMode .maintenance (s.sys.maint.add c.fn (maintNamed c map)) (some c.ref) s)) s)

/-- Whether a tenant was placed in the set by PF0: every tenant of a device-wide set was. -/
def MaintSet.byPf (m : MaintSet) (t : Nat) : Bool := m.whole || (m.map.getLsbD t && tget (dflt 0) m.placedBy t == 0)

/-- Remove tenants from a set. A device-wide set less some tenants is the list of the other tenants that exist, placed by PF0. -/
def MaintSet.remove (named : Option (BitVec 512)) (exist : BitVec 512) (m : MaintSet) : MaintSet :=
  match named with
  | none => MaintSet.empty
  | some map =>
    let left := (if m.whole then exist else m.map) &&& ~~~map
    ⟨false, left, tclear m.placedBy (fun t => !left.getLsbD t)⟩

/-- EXIT_MAINTENANCE: the whole device or tenants leave the maintenance set; emptying it leads to SERVICE unless a hold reason is present (R33,
R59). -/
def execExitMaintenance (c : HostCmd) (map : BitVec 512) (s : State) : Out :=
  .next (hostRun 0x0111 c [] (fun s =>
    match maintCheck c map s with
    | some st => .fail st
    | none =>
      if c.fn.val ≠ 0 ∧ (maintNamed c map).any (fun m => m.getLsbD c.own) ∧ s.sys.maint.byPf c.own then .fail 0x2103
      else
        let set := s.sys.maint.remove (maintNamed c map) s.tenantMap
        if !set.isEmpty then .wait 0x0101 (requestMode .maintenance set (some c.ref) s)
        else if s.held then .fail 0x2102
        else .wait 0x0101 (requestMode .service MaintSet.empty (some c.ref) s)) s)

end Sys2Proof.Machine
end

