-- ==== Sys2Proof/Machine/Cards.lean ====
section
/-! DEFINITION. The card slots (R500 to R504, R507, R599): activation, the answer to reset, PPS, waiting times and deactivation. -/

namespace Sys2Proof.Machine

/-! ### The answer to reset -/

/-- One group of interface bytes of an ATR: its index from 1, the protocol it is for, and TA, TB, TC. -/
structure AtrGroup where
  idx : Nat
  proto : Nat
  ta : Option Nat
  tb : Option Nat
  tc : Option Nat
  deriving DecidableEq, Repr

/-- Take the next byte when the mask bit says that it is there. -/
def atrByte (present : Bool) (b : Bytes) : Option Nat × Bytes :=
  if present then (match b with | x :: r => (some x.toNat, r) | [] => (none, [])) else (none, b)

/-- The groups of interface bytes, from the presence bits `y` and the protocol of this group, with the protocols offered. -/
def atrGroups : Nat → Nat → Nat → Nat → Bytes → List AtrGroup × List Nat
  | 0, _, _, _, _ => ([], [])
  | fuel + 1, i, y, t, b =>
    let (ta, b) := atrByte (nbit y 0) b
    let (tb, b) := atrByte (nbit y 1) b
    let (tc, b) := atrByte (nbit y 2) b
    let (td, b) := atrByte (nbit y 3) b
    let g : AtrGroup := ⟨i, t, ta, tb, tc⟩
    match td with
    | none => ([g], [])
    | some d =>
      let (gs, ps) := atrGroups fuel (i + 1) (d / 16) (d % 16) b
      (g :: gs, d % 16 :: ps)

/-- An ATR's groups and offered protocols; the first bytes are TS and T0. -/
def readAtr (b : Bytes) : List AtrGroup × List Nat := atrGroups 8 1 (field b 1 1 / 16) 0 (b.drop 2)

/-- Fi with the divider of 400 MHz for its fmax, by the index of TA1 (ISO/IEC 7816-3). -/
def fiOf (n : Nat) : Option (Nat × Nat) :=
  ([(0, 372, 100), (1, 372, 80), (2, 558, 67), (3, 744, 50), (4, 1116, 34), (5, 1488, 25), (6, 1860, 20), (9, 512, 80), (10, 768, 54),
    (11, 1024, 40), (12, 1536, 27), (13, 2048, 20)].find? (fun e => e.1 == n)).map (·.2)

/-- Di by the index of TA1 (ISO/IEC 7816-3). -/
def diOf (n : Nat) : Option Nat :=
  ([(1, 1), (2, 2), (3, 4), (4, 8), (5, 16), (6, 32), (7, 64), (8, 12), (9, 20)].find? (fun e => e.1 == n)).map (·.2)

/-- The Fi, DIV and Di of a TA1 that R500 permits: every pair with Fi / Di of at least 16. -/
def ratesOf (ta1 : Nat) : Option (Nat × Nat × Nat) :=
  match fiOf (ta1 / 16), diOf (ta1 % 16) with
  | some (fi, dv), some di => if 16 * di ≤ fi then some (fi, dv, di) else none
  | _, _ => none

/-- The classes an ATR admits, C, B, A in bits 2, 1, 0: its class indicator, or every class when it has none. -/
def atrClasses (gs : List AtrGroup) : Nat :=
  match gs.find? (fun g => g.proto == 15 && g.ta.isSome) with
  | some g => g.ta.getD 7 % 64
  | none => 7

/-- The protocol chosen: T=1 when offered, else T=0; with nothing said, T=0 (R500). -/
def atrProto (ps : List Nat) : Option Nat :=
  let l := ps.filter (fun p => p != 15)
  if l = [] then some 0 else if l.contains 1 then some 1 else if l.contains 0 then some 0 else none

/-- The plan of an ATR under a protocol with the rates given: waiting times of R503 in etu, and the PPS request of R502. -/
def cardPlan (gs : List AtrGroup) (proto ta1 fi div di : Nat) : CardPlan :=
  let t1 := gs.filter (fun g => g.proto == 1 && decide (3 ≤ g.idx))
  let tb := ((t1.filterMap (·.tb)).head?).getD 0x4D
  let wi := ((gs.find? (fun g => g.idx == 2)).bind (·.tc)).getD 10
  let pps : Bytes := [0xFF] ++ be 1 (0x10 + proto) ++ be 1 ta1
  { proto := proto
    crc := nbit (((t1.filterMap (·.tc)).head?).getD 0) 0
    fi := fi, di := di, div := div
    wt := if proto = 1 then 11 + (2 ^ (tb / 16) * 960 * 372 * di + fi - 1) / fi else wi * 960 * di
    cwt := if proto = 1 then 11 + 2 ^ (tb % 16) else 0
    guard := ((gs.find? (fun g => g.idx == 1)).bind (·.tc)).getD 0
    pps := pps ++ [pps.foldl (fun x y => x ^^^ y) 0] }

/-! ### Slots -/

/-- A card slot's working state. -/
def State.cardSlot (s : State) (n : Nat) : CardSlot := tget (dflt CardSlot.reset) s.cer.slots n

/-- Change a card slot's working state. -/
def setCardSlot (n : Nat) (v : CardSlot) (s : State) : State :=
  updCer (fun c => { c with slots := tput (dflt CardSlot.reset) c.slots n v }) s

/-- STATE of a slot: 0 OFF, 1 ACTIVATING, 2 ACTIVE. -/
def State.slotState (s : State) (n : Nat) : Nat := s.fld (Reg.CRD_S_STATUS n) 2 1

/-- Whether a card can be spoken to in a slot: an ACTIVE card, or the token as slot 4 (R509). -/
def State.cardActive (s : State) (n : Nat) : Bool := if n = 4 then s.bitOf Reg.NFR_STATUS 2 else s.slotState n == 2

/-! ### The commands to a custodian card (R505) -/

/-- The body of a command or response under secure messaging: AES-256-GCM with the counter at 1 as IV, the tag last (R505). -/
def smSeal (eph pub b : Bytes) : Bytes :=
  let key := Config.smKey (Config.ecdhP384 eph pub)
  gcmCrypt key (be 12 1) b ++ gcmTag key (be 12 1) [] (gcmCrypt key (be 12 1) b)

/-- An APDU: CLA, INS, parameters of zero, and the data with its length. -/
def apduOf (cla ins : Nat) (data : Bytes) : Bytes := be 1 cla ++ be 1 ins ++ zeros 2 ++ (if data = [] then [] else be 1 data.length ++ data)

/-- The command of a step's exchange at its stage (R505): SELECT by AID, GET_ID, SIGN or OPEN_SM, READ_COMPONENT or WRITE_COMPONENT. -/
def CardStep.command (x : CardStep) : Bytes :=
  match x.stage with
  | 0 => [0x00, 0xA4, 0x04, 0x00, 0x07, 0xF0, 0x54, 0x51, 0x43, 0x55, 0x53, 0x01]
  | 1 => apduOf 0x80 0x10 []
  | 2 =>
    match x.want with
    | .enrol _ _ _ _ ch => apduOf 0x80 0x20 ch
    | _ => apduOf 0x80 0x30 (Config.ecdsaPublic x.eph)
  | _ =>
    match x.want with
    | .writeDomain _ _ _ left cards => apduOf 0x84 0x34 (smSeal x.eph x.pub (be 1 cards.length ++ left.headD []))
    | .readDomain _ _ _ _ got _ => apduOf 0x84 0x32 (smSeal x.eph x.pub (be 1 got.length))
    | .importKey _ _ _ _ _ got _ => apduOf 0x84 0x32 (smSeal x.eph x.pub (be 1 got.length))
    | .enrol _ _ _ _ _ => []

/-- Send the command of the stage. -/
def CardStep.send (x : CardStep) : CardStep := { x with apdu := x.command }

/-- A step that waits for a card says so once, with its interim reply (R493, R72). -/
def tellWait (s : State) : State :=
  match s.cer.card with
  | none => s
  | some x =>
    match x.exchange, x.interim with
    | none, some st => interimReply x.cmd st (updCer (fun c => { c with card := some { x with interim := none } }) s)
    | _, _ => s

/-- A step that waits for a card takes the first slot it may use whose card it has not used (R493): its exchange begins with SELECT. -/
def seekCard (s : State) : State :=
  match s.cer.card with
  | none => s
  | some x =>
    if x.exchange.isSome then s
    else
      let slots := match x.want with
        | .enrol _ k _ _ _ => [k]
        | .readDomain _ _ l _ _ _ => l
        | .writeDomain _ l _ _ _ => l
        | .importKey _ _ _ _ _ _ _ => [0, 1, 2, 3, 4]
      match slots.find? (fun k => s.cardActive k && !x.used.contains k) with
      | none => s
      | some k => updCer (fun c => { c with card := some { x with exchange := some k, stage := 0 }.send }) s

/-- A card leaves a slot or falls silent without being lost mid-step: an exchange with it ends and the step waits for a card again. -/
def dropCard (n : Nat) (s : State) : State :=
  match s.cer.card with
  | none => s
  | some x => tellWait (updCer (fun c => { c with card := some { x with
      used := x.used.filter (fun k => k != n)
      exchange := if x.exchange = some n then none else x.exchange } }) s)

/-- A card is lost mid-step (R497): in a ceremony the whole ceremony is restored; outside one the transaction is undone. The command ends with
0x2909. -/
def loseCard (n : Nat) (s : State) : State :=
  match s.cer.card with
  | none => s
  | some x =>
    if x.exchange = some n then
      let s := updCer (fun c => { c with card := none }) s
      let s := if x.inCeremony then setPhase .restoring s else cerRecord 4 x.opcode s
      finalReply x.cmd 0x2909 [] 0 s
    else dropCard n s

/-- Raise bit `b` of the slot's group of CRD_IRQ_STATUS: 0 INSERT, 1 REMOVE, 2 DONE, 3 ERROR. -/
def cardIrq (b n : Nat) (s : State) : State := irq Reg.CRD_IRQ_STATUS 13 (4 * b + n) s

/-- Deactivate a slot (R599) with the cause shown in CRD_S_STATUS.ERROR. -/
def deactivate (n err : Nat) (s : State) : State :=
  if s.slotState n = 0 then s
  else
    let s := ((s.wrF (Reg.CRD_S_STATUS n) 2 1 0).wrF (Reg.CRD_S_STATUS n) 7 4 err).wrB Reg.CRD_STATUS (4 + n) false
    let s := setCardSlot n { s.cardSlot n with tx := [], rx := [], rptCount := 0, plan := none } s
    if err = 0 then s else cardIrq 3 n s

/-- Begin activation of a slot at a class (R501): counted; the clock is 4 MHz with Fi 372 and Di 1. -/
def activateAt (n cls : Nat) (s : State) : State :=
  let s := (s.wrF (Reg.CRD_S_CTL n) 3 2 cls).bump (Reg.CRD_S_ACTIVATIONS n)
  let s := (s.wrF (Reg.CRD_S_STATUS n) 7 1 1).wr (Reg.CRD_S_PARAM n) 0x0012E864
  (s.wr (Reg.CRD_S_WT n) 0x2580).wr (Reg.CRD_S_CWT n) 0

/-- A slot takes its card into use with a plan. -/
def takeCard (n : Nat) (p : CardPlan) (s : State) : State :=
  let s := (s.wrF (Reg.CRD_S_STATUS n) 2 1 2).wrB Reg.CRD_STATUS (4 + n) true
  let s := s.wr (Reg.CRD_S_PARAM n) (BitVec.ofNat 32 (p.div + 2 ^ 9 * p.fi + 2 ^ 20 * p.di))
  let s := (s.wrB (Reg.CRD_S_CTL n) 4 (p.proto == 1)).wrB (Reg.CRD_S_CTL n) 5 p.crc
  let s := (s.wr (Reg.CRD_S_WT n) (BitVec.ofNat 32 (sat 0xFFFFFF p.wt))).wr (Reg.CRD_S_CWT n) (BitVec.ofNat 32 (p.cwt % 2 ^ 16 + 2 ^ 16 * p.guard))
  seekCard (cardIrq 2 n (setCardSlot n { s.cardSlot n with plan := none, rptCount := 0 } s))

/-- CARD_INSERT: a debounced insertion (R501). -/
def execCardInsert (slot : Fin 4) (s : State) : Out :=
  let s := (s.wrB Reg.CRD_STATUS slot true).wrB (Reg.CRD_S_STATUS slot) 0 true
  .next (cardIrq 0 slot (setCardSlot slot CardSlot.reset s))

/-- CARD_REMOVE: the presence contact opens; deactivation begins at once (R501), and a card whose exchange is in progress is lost (R497). -/
def execCardRemove (slot : Fin 4) (s : State) : Out :=
  let s := (s.wrB Reg.CRD_STATUS slot false).wrB (Reg.CRD_S_STATUS slot) 0 false
  .next (loseCard slot (cardIrq 1 slot (deactivate slot 6 s)))

/-- A write of CRD_S_CTL: the fields, then ACTIVATE or DEACTIVATE. An activation needs a present card in an enabled slot that is OFF, and CLASS other
than 0. -/
def writeSlotCtl (n : Nat) (v : Word) (s : State) : State :=
  let s := s.wrF (Reg.CRD_S_CTL n) 5 2 (bits v 5 2)
  if bit v 1 then dropCard n (deactivate n 0 s)
  else if bit v 0 ∧ bits v 3 2 ≠ 0 ∧ s.bitOf Reg.CRD_CTL n ∧ s.bitOf Reg.CRD_STATUS n ∧ s.slotState n = 0 then
    activateAt n (bits v 3 2) (s.wrB (Reg.CRD_S_STATUS n) 3 false)
  else s

/-- CARD_ACTIVATE: a write of CRD_S_CTL with ACTIVATE (R501). -/
def execCardActivate (slot : Fin 4) (value : Word) (s : State) : Out := .next (writeSlotCtl slot (setBit value 0 true) s)

/-- CARD_DEACTIVATE: a write of CRD_S_CTL with DEACTIVATE (R599). -/
def execCardDeactivate (slot : Fin 4) (value : Word) (s : State) : Out := .next (writeSlotCtl slot (setBit value 1 true) s)

/-- The slot is deactivated and activated at the next class, C to B to A; after class A it stays off with NO_ATR (R501). -/
def nextClass (n : Nat) (s : State) : State :=
  let c := s.fld (Reg.CRD_S_CTL n) 3 2
  if c ≤ 1 then dropCard n (deactivate n 1 s) else activateAt n (c - 1) (deactivate n 0 s)

/-- ATR_TIMEOUT: no ATR begins within 40,000 clock cycles (R501). -/
def execAtrTimeout (slot : Fin 4) (s : State) : Out :=
  if s.slotState slot ≠ 1 ∨ (s.cardSlot slot).plan.isSome then .next s else .next (nextClass slot s)

/-- The ATR admits the present class when its indicator holds it: class C is bit 2, B bit 1, A bit 0. -/
def admitsClass (gs : List AtrGroup) (cls : Nat) : Bool := nbit (atrClasses gs) (cls - 1)

/-- CARD_ATR_RECEIVED: class, protocol and PPS proposal are chosen from the ATR (R500 to R502). A specific mode, or a card whose PPS has failed, is
taken into use at once; an ATR that offers neither T=0 nor T=1 cannot be used. -/
def execCardAtrReceived (slot : Fin 4) (atr : Bytes) (s : State) : Out :=
  if s.slotState slot ≠ 1 ∨ (s.cardSlot slot).plan.isSome then .next s
  else
    let (gs, ps) := readAtr atr
    if !admitsClass gs (s.fld (Reg.CRD_S_CTL slot) 3 2) then .next (nextClass slot s)
    else match atrProto ps with
      | none => .next (deactivate slot 1 s)
      | some proto =>
        let ta1 := ((gs.find? (fun g => g.idx == 1)).bind (·.ta)).getD 0x11
        let ta2 := (gs.find? (fun g => g.idx == 2)).bind (·.ta)
        let plain := cardPlan gs proto 0x11 372 100 1
        let rated := match ratesOf ta1 with
          | some (fi, dv, di) => cardPlan gs proto ta1 fi dv di
          | none => plain
        match ta2 with
        | some m =>
          let p := m % 16
          .next (takeCard slot (match nbit m 4, ratesOf ta1 with
            | false, some (fi, dv, di) => cardPlan gs p ta1 fi dv di
            | _, _ => cardPlan gs p 0x11 372 100 1) s)
        | none =>
          if (s.cardSlot slot).retried then .next (takeCard slot plain s)
          else .next (setCardSlot slot { s.cardSlot slot with plan := some rated } s)

/-- CARD_PPS_RESPONSE: a response that echoes the proposal confirms it; any other leads to deactivation, and the card is activated once more and used
at the default values without PPS (R502). -/
def execCardPpsResponse (slot : Fin 4) (response : Bytes) (s : State) : Out :=
  match (s.cardSlot slot).plan with
  | none => .next s
  | some p =>
    if response = p.pps then .next (takeCard slot p s)
    else
      let s := deactivate slot 8 s
      .next (activateAt slot 3 (setCardSlot slot { s.cardSlot slot with retried := true } s))

/-- CARD_WAIT_TIMEOUT: a waiting time expires; the slot is deactivated (R503): WT under T=0, CWT or BWT under T=1. -/
def execCardWaitTimeout (slot : Fin 4) (character : Bool) (s : State) : Out :=
  if s.slotState slot ≠ 2 then .next s
  else
    let err := if s.bitOf (Reg.CRD_S_CTL slot) 4 then (if character then 4 else 5) else 3
    .next (loseCard slot (deactivate slot err (s.bump (Reg.CRD_S_TIMEOUTS slot))))

/-- CARD_OVERCURRENT: CARD_FAULT_N low for 1 microsecond deactivates the slot with OVERCURRENT set (R599). -/
def execCardOvercurrent (slot : Fin 4) (s : State) : Out :=
  if s.slotState slot = 0 then .next s
  else .next (loseCard slot (deactivate slot 7 (s.wrB (Reg.CRD_S_STATUS slot) 3 true)))

/-- CARD_PARITY_ERROR: under T=0 the fifth error on one character deactivates the card, each earlier one is a repetition; under T=1 two
retransmissions, then S(RESYNCH), then deactivation (R504). `same` says whether the last error was on the same character or block. -/
def execCardParityError (slot : Fin 4) (same : Bool) (s : State) : Out :=
  if s.slotState slot ≠ 2 then .next s
  else
    let k := (if same then (s.cardSlot slot).rptCount else 0) + 1
    let t1 := s.bitOf (Reg.CRD_S_CTL slot) 4
    if (if t1 then 4 else 5) ≤ k then .next (dropCard slot (deactivate slot 2 s))
    else
      let s := setCardSlot slot { s.cardSlot slot with rptCount := k } s
      .next (if t1 && k == 3 then s else s.bump (Reg.CRD_S_REPEATS slot))

/-- CARD_TX_WRITE: a write of CRD_S_TXDATA queues a character; 32 entries are held. -/
def execCardTxWrite (slot : Fin 4) (value : Word) (s : State) : Out :=
  let x := s.cardSlot slot
  if 32 ≤ x.tx.length then .next s else .next (setCardSlot slot { x with tx := x.tx ++ [value.setWidth 8] } s)

/-- CARD_RX_POP: a read of CRD_S_RXDATA pops a received character. -/
def execCardRxPop (slot : Fin 4) (s : State) : Out :=
  let x := s.cardSlot slot
  .next (setCardSlot slot { x with rx := x.rx.drop 1 } s)

/-- A custody reset deactivates every slot and returns the block to its reset values, except the counters (R507). Presence is a level of the pins. -/
def resetCards (s : State) : State :=
  let keep (a : Nat) : Bool := (List.range 4).any (fun n =>
    a == Reg.CRD_S_REPEATS n || a == Reg.CRD_S_TIMEOUTS n || a == Reg.CRD_S_ACTIVATIONS n)
  let here := (List.range 4).filter (fun n => s.bitOf Reg.CRD_STATUS n)
  let serial := s.rd64 Reg.CRD_CER_SERIAL_LO
  let s := s.clearRegs (fun a => decide (0x100D0000 ≤ a) && decide (a < 0x100E0000) && !keep a)
  let s := here.foldl (fun (s : State) n => (s.wrB Reg.CRD_STATUS n true).wrB (Reg.CRD_S_STATUS n) 0 true) s
  showCer ((updCer (fun c => { c with slots := [] }) s).wr64 Reg.CRD_CER_SERIAL_LO serial)

end Sys2Proof.Machine
end

