-- ==== Sys2Proof/Machine/Ceremony.lean ====
section
/-! DEFINITION. Ceremonies (chapter 18): group 0x09, IMPORT_COMPONENTS, the steps that run with cards, and restoring. -/

namespace Sys2Proof.Machine

/-! ### Queries and nonces -/

/-- GET_CEREMONY: the ceremony state and serial. -/
def execGetCeremony (c : HostCmd) (s : State) : Out :=
  .next (hostRun 0x0901 c [] (fun s =>
    .done 0 (be 4 (s.rd Reg.CRD_STATUS).toNat ++ be 8 (s.rd64 Reg.CRD_CER_SERIAL_LO)) 0 s) s)

/-- GET_NONCE: a 16-byte nonce bound to the function; a ninth discards the function's oldest (R484). -/
def execGetNonce (c : HostCmd) (s : State) : Out :=
  .next (hostRun 0x0902 c [] (fun s =>
    if s.rngFailed then .fail 0x4720
    else
      let v := s.freeBytes 16
      let live := liveNonces s
      let own := live.filter (fun n => n.fn == c.fn.val)
      let live := if 8 ≤ own.length then (match own.head? with | some o => live.erase o | none => live) else live
      let s := updCer (fun x => { x with nonces := live ++ [⟨c.fn, v, s.ms⟩] }) (s.drawnBytes 16)
      .done 0 v 0 s) s)

/-- NONCE_EXPIRY: the oldest nonce of a function has been held for 600 s (R484). -/
def execNonceExpiry (fn : Fin 513) (s : State) : Out :=
  match s.cer.nonces.find? (fun n => n.fn == fn.val) with
  | none => .next s
  | some n => .next (updCer (fun c => { c with nonces := c.nonces.erase n }) s)

/-- A scope operand: 0xFFFF is the device, 0 to 511 a tenant. -/
def scopeOf (w : BitVec 16) : Option Nat := if w = 0xFFFF then some devScope else if w.toNat < 512 then some w.toNat else none

/-- The 128-byte roster entry (R482). -/
def Custodian.bytes (x : Custodian) (n : Nat) : Bytes :=
  let b := be 2 n ++ be 2 (if x.scope = devScope then 0xFFFF else x.scope) ++ be 1 x.state ++ be 1 (b2n x.regulator) ++ zeros 2
    ++ fit 8 x.cardId ++ fit 97 x.pubkey ++ zeros 11
  b ++ be 4 (crc32c b).toNat

/-- GET_ROSTER: the committed entries of a scope from an entry number on; a VF asks for its own scope (R506). -/
def execGetRoster (c : HostCmd) (scope : BitVec 16) (first : BitVec 16) (s : State) : Out :=
  .next (hostRun 0x0903 c (if scope.toNat < 512 then [scope.toNat] else []) (fun s =>
    match scopeOf scope with
    | none => .fail 0x1902
    | some sc =>
      if 1536 ≤ first.toNat ∨ (c.fn.val ≠ 0 ∧ sc ≠ c.own) then .fail 0x1902
      else
        let l := s.cer.roster.filter (fun e => decide (first.toNat ≤ e.1) && e.2.state != 0 && e.2.scope == sc)
        if c.outLen < 128 * l.length then .fail 0x3401 else .done 0 (l.flatMap (fun e => e.2.bytes e.1)) 0 s) s)

/-- GET_CARDS: the states of the four card slots and of the token. -/
def execGetCards (c : HostCmd) (s : State) : Out :=
  .next (hostRun 0x0904 c [] (fun s =>
    .done 0 ((List.range 4).flatMap (fun n => be 4 (s.rd (Reg.CRD_S_STATUS n)).toNat) ++ be 4 (s.rd Reg.NFR_STATUS).toNat) 0 s) s)

/-! ### Opening -/

/-- L0 is drawn into keeper slot 0, its generation rises, and the device keys are derived from it (R251, R216). -/
def drawL0 (s : State) : State :=
  let v : Slot := { derivedSlot 0 0x01 0 0xFFFF 0xFF 0 with origin := 4 }
  let s := keyEvent 1 0 (fillSlot 0 (s.freeBytes 32) v (s.drawnBytes 32))
  let s := { s with keys := { s.keys with l0gen := s.keys.l0gen + 1 } }
  let s := makeDeviceKeys s
  [storeKeySlot, imageKeySlot, fpSlot, fpSlot + 1].foldl (fun s n => storeSlot n s) s

/-- The device keys and L0 are erased (R498). -/
def eraseL0 (s : State) : State :=
  let s := [0, storeKeySlot, imageKeySlot, fpSlot, fpSlot + 1].foldl (fun s n => emptySlot n s) s
  { s with keys := { s.keys with fpKeys := [] } }

/-- Whether the roster holds no ENROLLED device custodian (R489). -/
def State.noDevice (s : State) : Bool := !s.cer.roster.any (fun e => e.2.state == 1 && e.2.scope == devScope)

/-- Open a ceremony: its OPEN record is written and the CEREMONY mode accepted; re-chartering draws L0 and empties the tenant scopes, and nothing of
the erased tenants remains (R489, R490, R496). -/
def openCeremony (fn : Nat) (cmd : Option CmdRef) (s : State) : State :=
  let from_ := s.sys.mode
  let re := from_ == .zeroized
  let serial := s.cer.serial + 1
  let s := updCer (fun x => { x with
    work := if re then tclear' x.roster else x.roster
    workPolicies := if re then tclear x.policies (fun k => k != devScope) else x.policies
    fn := fn, openedFrom := from_, openedSet := s.sys.maint, serial := serial, inaugural := from_ == .notary && s.noDevice
    steps := [], journal := [], card := none, lastStep := s.ms, endCmd := none }) (s.wr64 Reg.CRD_CER_SERIAL_LO serial)
  let s := setPhase .opened (cerRecord 1 0x0910 s)
  let s := if re then
      let s := { s with cer := { s.cer with tenants := [], perms := [] }, pair := { s.pair with charters := [], paired := false, pairSlot := none, linkKey := [] }
                        keys := { s.keys with regions := [], zones := [] } }
      drawL0 s
    else s
  requestMode .ceremony s.sys.maint cmd s
where
  /-- The roster with every tenant-scope entry EMPTY. -/
  tclear' (t : Tab Custodian) : Tab Custodian := t.filter (fun e => e.2.scope == devScope)

/-- OPEN_CEREMONY (R489): a device-scope ticket is needed except for the inaugural ceremony. -/
def execOpenCeremony (c : HostCmd) (journalOk : Bool) (s : State) : Out :=
  .next (hostRun 0x0910 c [] (fun s =>
    withTicket 0x0910 c devScope (!(s.sys.mode == .notary && s.noDevice)) 0x290A (fun _ s =>
      if s.cer.phase ≠ .idle then .fail 0x2907
      else if s.busy then .fail 0x2105
      else if s.sys.mode = .zeroized ∧ s.rngFailed then .fail 0x4720
      else if s.sys.mode = .zeroized ∧ !s.mintUp then .fail 0x4201
      else if !journalOk then .fail 0x4901
      else .hold (openCeremony c.fn (some c.ref) s)) s) s)

/-! ### Closing and restoring -/

/-- Write the permission words of the charter into MBX_FN_PERM (R87). -/
def loadPerms (s : State) : State :=
  let words := (List.range 513).foldl (fun t fn => tput (dflt (if fn = 0 then 1 else 0)) t fn (tget permDflt s.cer.perms fn)) s.host.perm
  { s with host := { s.host with perm := words } }

/-- What a close makes effective: the roster copy, the policies and the permission words (R490, R491); the register image is erased when
re-chartering closes (R250). -/
def completeClose (s : State) : State :=
  let re := s.cer.openedFrom == .zeroized
  let s := updCer (fun c => { c with roster := c.work, policies := c.workPolicies, steps := [], card := none }) s
  let s := loadPerms s
  setPhase .idle (if re then eraseImage { s with flow := { s.flow with image := [], lostImage := [] } } else s)

/-- The close of the ceremony is accepted: the COMMIT record is written, and CLOSING begins (R490, R496). -/
def beginClose (cmd : Option CmdRef) (s : State) : State :=
  setPhase .closing (cerRecord 5 0x0911 (updCer (fun x => { x with endCmd := cmd }) s))

/-- The ceremony is aborted: RESTORING begins (R490). -/
def beginRestore (cmd : Option CmdRef) (s : State) : State := setPhase .restoring (updCer (fun x => { x with endCmd := cmd }) s)

/-- CLOSE_CEREMONY: passes when every policy can be met (R494); the COMMIT record is written. -/
def execCloseCeremony (c : HostCmd) (journalOk : Bool) (s : State) : Out :=
  .next (hostRun 0x0911 c [] (fun s =>
    if (s.cer.phase != .opened && s.cer.phase != .step) || s.cer.fn != c.fn.val then .fail 0x2907
    else if s.cer.phase = .step then .later
    else if s.enrolled devScope < (s.workPolicy devScope).m
        ∨ s.cer.workPolicies.any (fun e => e.1 != devScope && e.2.given && decide (s.enrolled e.1 < e.2.m)) then .fail 0x2908
    else if !journalOk then .fail 0x4901
    else .hold (beginClose (some c.ref) s)) s)

/-- CEREMONY_CLOSED: the roster copy is written, the permission words are set and the mode is committed; a close without a charter restarts NOTARY bridging
(R490, R33). -/
def execCeremonyClosed (s : State) : Out :=
  if s.cer.phase ≠ .closing then .next s
  else
    let (m, set) := s.closeMode
    let cmd := s.cer.endCmd
    let t := commitMode ⟨m, set, cmd⟩ (completeClose s)
    .next (if m = .notary ∧ s.plane = .notary then restartPorts t else t)

/-- ABORT_CEREMONY: 0x010B, and the prior state is restored (R490). -/
def execAbortCeremony (c : HostCmd) (s : State) : Out :=
  .next (hostRun 0x0912 c [] (fun s =>
    if (s.cer.phase != .opened && s.cer.phase != .step) || s.cer.fn != c.fn.val then .fail 0x2907
    else if s.cer.phase = .step then .later
    else .wait 0x010B (beginRestore (some c.ref) s)) s)

/-- Every step undone, and ABORTED written; a re-chartering that is restored erases its new L0 (R498). -/
def restoreCeremony (s : State) : State :=
  let re := s.cer.openedFrom == .zeroized
  let s := setPhase .idle (undoAll s)
  if re then eraseL0 s else s

/-- CEREMONY_RESTORED: the mode from which the ceremony was opened is committed, with the set then in force (R490). -/
def execCeremonyRestored (s : State) : Out :=
  if s.cer.phase ≠ .restoring then .next s
  else
    let m : PendingMode := ⟨s.cer.openedFrom, s.sys.maint, s.cer.endCmd⟩
    let s := restoreCeremony s
    if s.sys.mode = .ceremony then .next (commitMode m s) else .next (finalReply? m.cmd 0 { s with sys := { s.sys with pend := none } })

/-- CEREMONY_IDLE_TIMEOUT: no step command for CRD_CER_IDLE; the ceremony is aborted (R495). -/
def execCeremonyIdleTimeout (s : State) : Out :=
  if s.cer.phase ≠ .opened then .next s
  else .next (beginRestore none s)

/-! ### Steps without cards -/

/-- Whether the caller has the ceremony open; a step command while another step runs waits. -/
def stepGate (c : HostCmd) (work : State → Ans) (s : State) : Ans :=
  if (s.cer.phase != .opened && s.cer.phase != .step) || s.cer.fn != c.fn.val then .fail 0x2907
  else if s.cer.phase = .step then .later
  else work (updCer (fun x => { x with lastStep := s.ms }) s)

/-- A step that completes at once. -/
def quickStep (op : Nat) (u : List Undo) (work : State → State) (s : State) : Ans :=
  if s.stepLimit u then .fail 0x3901 else .done 0 [] 0 (doneStep op (work (beginStep op u s)))

/-- REVOKE_CUSTODIAN: an ENROLLED entry becomes REVOKED (R491). -/
def execRevokeCustodian (c : HostCmd) (number : BitVec 16) (s : State) : Out :=
  .next (hostRun 0x0914 c [] (stepGate c (fun s =>
    let n := number.toNat
    let x := tget (dflt Custodian.empty) s.cer.work n
    if 1536 ≤ n ∨ x.state ≠ 1 then .fail 0x1902
    else quickStep 0x0914 [.roster n x]
      (updCer (fun y => { y with work := tput (dflt Custodian.empty) y.work n { x with state := 2 } })) s)) s)

/-- Whether M and REG_MIN are in range (R483). -/
def policyValues (m reg : Nat) : Bool := decide (2 ≤ m) && decide (m ≤ 16) && decide (reg ≤ m)

/-- SET_POLICY: M and REG_MIN of the device or of a tenant that exists (R491). -/
def execSetPolicy (c : HostCmd) (scope : BitVec 16) (m regMin : BitVec 8) (s : State) : Out :=
  .next (hostRun 0x0915 c [] (stepGate c (fun s =>
    match scopeOf scope with
    | none => .fail 0x1902
    | some sc =>
      if (sc ≠ devScope ∧ !(s.tenant sc).present) ∨ !policyValues m.toNat regMin.toNat then .fail 0x1902
      else quickStep 0x0915 [.policy sc (s.workPolicy sc)]
        (updCer (fun y => { y with workPolicies := tput (dflt Policy.dflt) y.workPolicies sc ⟨true, m.toNat, regMin.toNat⟩ })) s)) s)

/-- SET_OWNER_PERM: the permission word of PF0 (R491). -/
def execSetOwnerPerm (c : HostCmd) (word : Word) (s : State) : Out :=
  .next (hostRun 0x0919 c [] (stepGate c (fun s =>
    if word &&& 0xFFFFFF80 ≠ 0 then .fail 0x1902
    else quickStep 0x0919 [.perm 0 (tget permDflt s.cer.perms 0)] (updCer (fun y => { y with perms := tput permDflt y.perms 0 word })) s)) s)

/-- CREATE_TENANT: the tenant with its L2 key at generation 0, region 4,095, its charter on this device, its policy and the permission word of its VF
(R491). Each slot filled writes a KEY event (R616); in a pair the partner becomes STANDBY (R559). -/
def createTenant (role t domain : Nat) (word : Word) (m reg : Nat) (s : State) : State :=
  let s := updCer (fun y => { y with
    tenants := tput (dflt Tenant.none) y.tenants t ⟨true, domain⟩
    workPolicies := tput (dflt Policy.dflt) y.workPolicies t ⟨true, m, reg⟩
    perms := tput permDflt y.perms (t + 1) word }) s
  let s := s.setCharter t { Charter.none with role := role }
  let s := { s with flow := { s.flow with profiles := tclear s.flow.profiles (fun k => k / 16 == t) } }
  let s := charterEvent 1 t 0 0 s
  let ns := [l2Slot t, signSlot t, x25519Slot t, mlkemSlot t, monitorSlot t]
  let s := ns.foldl (fun (s : State) n => s.setSlot n { s.slot n with gen := 0 }) s
  let s := derives 7 (fillSeeds t (makePurposes t (makeL2 t s)))
  ns.foldl (fun s n => keyEvent 1 n (storeSlot n s)) s

/-- The undo data of CREATE_TENANT. -/
def createUndo (t : Nat) (s : State) : List Undo :=
  let ns := [l2Slot t, signSlot t, x25519Slot t, mlkemSlot t, monitorSlot t]
  [Undo.tenant t (s.tenant t), .charter t (s.charter t), .policy t (s.workPolicy t), .perm (t + 1) (tget permDflt s.cer.perms (t + 1))]
    ++ ns.map (fun n => Undo.record n (tget (dflt noRecord) s.keys.store n)) ++ ns.map (fun n => Undo.slot n (s.slot n))

/-- CREATE_TENANT. -/
def execCreateTenant (c : HostCmd) (tenant : BitVec 16) (domain : BitVec 8) (word : Word) (m regMin : BitVec 8) (s : State) : Out :=
  .next (hostRun 0x0917 c [] (stepGate c (fun s =>
    let t := tenant.toNat
    let d := domain.toNat
    let mm := if c.expert then m.toNat else 2
    let rr := if c.expert then regMin.toNat else 0
    if 512 ≤ t ∨ 16 ≤ d ∨ (s.tenant t).present ∨ (s.slot (1 + d)).state ≠ 1 ∨ word &&& 0xFFFFFFC0 ≠ 0 ∨ !policyValues mm rr then .fail 0x1902
    else if !s.mintUp then .fail 0x4201
    else
      quickStep 0x0917 (createUndo t s)
        (fun s => sendConfig t ([1] ++ be 1 d ++ be 4 word.toNat ++ be 1 mm ++ be 1 rr) (createTenant 1 t d word mm rr s)) s)) s)

/-- DESTROY_TENANT: once every tile has acknowledged the purge, its flows, slots, regions, charter and custodians are gone (R491, R239). -/
def execDestroyTenant (c : HostCmd) (tenant : BitVec 16) (s : State) : Out :=
  .next (hostRun 0x0918 c [] (stepGate c (fun s =>
    let t := tenant.toNat
    if 512 ≤ t ∨ !(s.tenant t).present then .fail 0x1902
    else
      let u := [Undo.tenant t (s.tenant t), .charter t (s.charter t), .policy t (s.workPolicy t), .perm (t + 1) (tget permDflt s.cer.perms (t + 1))]
        ++ (s.tenantCustodians t).map (fun n => Undo.roster n (tget (dflt Custodian.empty) s.cer.work n))
        ++ (s.tenantRegions t).map (fun k => Undo.region k (tget (dflt ⟨false, false, 0⟩) s.keys.regions k))
        ++ (s.tenantSlots t).map (fun n => Undo.record n (tget (dflt noRecord) s.keys.store n))
        ++ (s.tenantSlots t).map (fun n => Undo.slot n (s.slot n))
      if s.stepLimit u then .fail 0x3901
      else if !s.mintUp then .fail 0x4201
      else .wait 0x010B (openPurge (.destroyTenant t) (some c.ref) (beginStep 0x0918 u s)))) s)

/-! ### Steps with cards (R491 to R493, R505) -/

/-- Begin a step with cards: it takes a card that is there, or waits for one with its interim reply. -/
def cardStep (op interim : Nat) (c : HostCmd) (w : CardWant) (inCeremony : Bool) (s : State) : Ans :=
  .hold (tellWait (seekCard (updCer (fun x => { x with card := some ⟨c.ref, op, w, none, 0, [], [], [], inCeremony, [], some interim, []⟩ }) s)))

/-- The lowest EMPTY roster number. -/
def State.freeCustodian (s : State) : Option Nat :=
  (List.range 1536).find? (fun n => (tget (dflt Custodian.empty) s.cer.work n).state == 0)

/-- ENROL_CUSTODIAN: the card in a slot is read and signs a challenge (R491). -/
def execEnrolCustodian (c : HostCmd) (slot : BitVec 8) (scope : BitVec 16) (flags : BitVec 8) (s : State) : Out :=
  .next (hostRun 0x0913 c [] (stepGate c (fun s =>
    match scopeOf scope with
    | none => .fail 0x1902
    | some sc =>
      if 5 ≤ slot.toNat ∨ (sc ≠ devScope ∧ !(s.tenant sc).present) ∨ 1 < flags.toNat then .fail 0x1902
      else match s.freeCustodian with
        | none => .fail 0x3902
        | some n =>
          if 16 ≤ s.enrolled sc then .fail 0x3902
          else
            let u := [Undo.roster n Custodian.empty]
            if s.stepLimit u then .fail 0x3901
            else
              let ch := s.freeBytes 48
              cardStep 0x0913 0x010B c (.enrol n slot.toNat sc (nbit flags.toNat 0) ch) true (beginStep 0x0913 u (s.drawnBytes 48)))) s)

/-- Metadata of an L1 slot. -/
def domainSlot (d origin : Nat) : Slot :=
  { Slot.empty with level := 1, origin := origin, cls := 0x02, len := 3, attr := 0x40, owner := 0xFFFF, domain := d }

/-- Fill an L1 slot, with its record and KEY event (R492, R616). -/
def fillDomain (d origin action : Nat) (key : Bytes) (s : State) : State :=
  keyEvent action (1 + d) (storeSlot (1 + d) (fillSlot (1 + d) key (domainSlot d origin) s))

/-- CREATE_DOMAIN: profile 0 draws the key, profile 1 reads components from cards, profile 2 draws it and writes components to cards (R492). The basic
form of profile 2 makes two components; the basic form of profile 1 carries no expected KCV and cannot be met. -/
def execCreateDomain (c : HostCmd) (domain : BitVec 8) (profile : Fin 3) (count : BitVec 8) (slots : List (Fin 5)) (kcv : Bytes) (s : State) : Out :=
  .next (hostRun 0x0916 c [] (stepGate c (fun s =>
    let d := domain.toNat
    let p := if c.expert then profile.val else c.profile.toNat
    let n := if c.expert then count.toNat else 2
    let l := if c.expert then slots.map (·.val) else [0, 1, 2, 3, 4]
    let u := [Undo.record (1 + d) (tget (dflt noRecord) s.keys.store (1 + d)), .slot (1 + d) (s.slot (1 + d))]
    if 16 ≤ d ∨ (s.slot (1 + d)).state ≠ 0 then .fail 0x1902
    else if p ≠ 0 ∧ (n < 2 ∨ 8 < n ∨ l = []) then .fail 0x1902
    else if p = 1 ∧ (!c.expert ∨ kcv.length ≠ 5) then .fail 0x1902
    else if p ≠ 1 ∧ s.rngFailed then .fail 0x4720
    else if p = 0 then
      let key := s.freeBytes 32
      quickStep 0x0916 u (fun s => fillDomain d 1 1 key (s.drawnBytes 32)) s
    else if s.stepLimit u then .fail 0x3901
    else if p = 1 then cardStep 0x0916 0x010B c (.readDomain d n l kcv [] []) true (beginStep 0x0916 u s)
    else
      let key := s.freeBytes 32
      let s := s.drawnBytes 32
      let parts := (List.range (n - 1)).map (fun i => slice (s.freeBytes (32 * (n - 1))) (32 * i) 32)
      let s := s.drawnBytes (32 * (n - 1))
      cardStep 0x0916 0x010B c (.writeDomain d l key (parts ++ [parts.foldl xorB key]) []) true (beginStep 0x0916 u s))) s)

/-- IMPORT_COMPONENTS: a pool key from components read off cards (R243). In CEREMONY it is a step of the ceremony; in MAINTENANCE a transaction of one
step (R492). PF0 issues it in CEREMONY only. The expert form carries length, attributes and LIMIT_EXP (R253). -/
def execImportComponents (c : HostCmd) (key : CompKey) (count : BitVec 8) (kcv : Bytes) (s : State) : Out :=
  .next (hostRun 0x0211 c [] (fun s =>
    let k := key.cls.toNat
    let n := count.toNat
    let inCer := s.sys.mode == .ceremony
    let owner := if c.fn.val = 0 then 0xFFFF else c.own
    let l := if c.expert then key.len.toNat else 3
    let a := if c.expert then key.attr else defaultAttrs k
    let e := if c.expert then key.limit.toNat else 31
    let work (s : State) : Ans :=
      if !storedClass k ∨ n < 2 ∨ 8 < n ∨ kcv.length ≠ 5 ∨ l < 1 ∨ 3 < l ∨ a &&& ~~~(classAttrs k) ≠ 0 then .fail 0x1202
      else if !limitOk e then .fail 0x1206
      else if s.cer.card.isSome then .later
      else match poolSlot owner s with
        | .error st => .fail st
        | .ok slot =>
          let w : CardWant := .importKey slot (poolMeta k l a 2 owner e) n c.scope kcv [] []
          let u := [Undo.record slot (tget (dflt noRecord) s.keys.store slot), .slot slot (s.slot slot)]
          if !inCer then cardStep 0x0211 0x0101 c w false (cerRecord 2 0x0211 s)
          else if s.stepLimit u then .fail 0x3901
          else cardStep 0x0211 0x0101 c w true (beginStep 0x0211 u s)
    if c.fn.val = 0 ∧ !inCer then .fail 0x2F02
    else withTicket 0x0211 c c.scope true 0x2202 (fun _ s => if inCer then stepGate c work s else work s) s) s)

/-- End a step with cards well. -/
def endCards (x : CardStep) (out : Bytes) (s : State) : State :=
  let s := updCer (fun c => { c with card := none }) s
  let s := if x.inCeremony then doneStep x.opcode s else cerRecord 3 x.opcode s
  finalReply x.cmd 0 out 0 s

/-- A step with cards fails with every card present: it alone is undone (R490). -/
def failCards (x : CardStep) (status : Nat) (s : State) : State :=
  let s := updCer (fun c => { c with card := none }) s
  let s := if x.inCeremony then failStep s else cerRecord 4 x.opcode s
  finalReply x.cmd status [] 0 s

/-- The next command of the exchange is sent. -/
def nextApdu (x : CardStep) (s : State) : State := updCer (fun c => { c with card := some { x with stage := x.stage + 1 }.send }) s

/-- A card's exchange has ended and the step wants another card. -/
def nextCard (x : CardStep) (w : CardWant) (slot : Nat) (s : State) : State :=
  tellWait (seekCard (updCer (fun c => { c with card := some { x with want := w, exchange := none, stage := 0, eph := [], used := x.used ++ [slot] } }) s))

/-- Whether a CARD_ID or key is in the roster already (R491). -/
def State.cardKnown (s : State) (id pub : Bytes) : Bool :=
  s.cer.work.any (fun e => e.2.state != 0 && (e.2.cardId == id || e.2.pubkey == pub))

/-- Whether a card is ENROLLED in a scope. -/
def State.cardEnrolled (s : State) (scope : Nat) (id pub : Bytes) : Bool :=
  s.cardRoster.any (fun e => e.2.state == 1 && e.2.scope == scope && e.2.cardId == id && e.2.pubkey == pub)

/-- The scope and the cards used of a step that moves components. -/
def CardWant.scope : CardWant → Nat
  | .importKey _ _ _ sc _ _ _ => sc
  | _ => devScope
def CardWant.cards : CardWant → List Bytes
  | .enrol _ _ _ _ _ => []
  | .readDomain _ _ _ _ _ l => l
  | .writeDomain _ _ _ _ l => l
  | .importKey _ _ _ _ _ _ l => l
def CardWant.isEnrol : CardWant → Bool
  | .enrol _ _ _ _ _ => true
  | _ => false

/-- GET_ID has answered: an enrolment refuses a known card; a component step needs an enrolled card not yet used, and opens secure messaging with a
fresh key pair (R505). -/
def cardIdentity (x : CardStep) (data : Bytes) (s : State) : State :=
  let id := data.take 8
  let pub := data.drop 8
  if data.length ≠ 105 then failCards x 0x1904 s
  else if x.want.isEnrol then
    if s.cardKnown id pub then failCards x 0x1905 s else nextApdu { x with ident := id, pub := pub } s
  else if !s.cardEnrolled x.want.scope id pub ∨ x.want.cards.contains id then failCards x 0x1905 s
  else nextApdu { x with ident := id, pub := pub, eph := s.freeBytes 48 } (s.drawnBytes 48)

/-- The bytes of a component: those of the key it is for (R243). -/
def CardWant.size : CardWant → Nat
  | .importKey _ v _ _ _ _ _ => 8 * (v.len + 1)
  | _ => 32

/-- The component in a READ_COMPONENT response under secure messaging (R505). -/
def openComponent (x : CardStep) (data : Bytes) : Option Bytes :=
  let b := gcmCrypt (Config.smKey (Config.ecdhP384 x.eph x.pub)) (be 12 1) (data.take (data.length - 16))
  if data.length ≠ x.want.size + 16 ∨ smSeal x.eph x.pub b ≠ data then none else some b

/-- The exclusive OR of components. -/
def combine (l : List Bytes) : Bytes := l.tail.foldl xorB (l.headD [])

/-- A component has been read. -/
def cardComponent (x : CardStep) (slot : Nat) (comp : Bytes) (s : State) : State :=
  match x.want with
  | .readDomain d n l kcv got cards =>
    let got := got ++ [comp]
    if got.length < n then nextCard x (.readDomain d n l kcv got (cards ++ [x.ident])) slot s
    else if kcvOf (combine got) ≠ kcv then failCards x 0x1204 s
    else endCards x (got.flatMap kcvOf ++ kcv) (fillDomain d 2 2 (combine got) s)
  | .importKey n v k sc kcv got cards =>
    let got := got ++ [comp]
    if got.length < k then nextCard x (.importKey n v k sc kcv got (cards ++ [x.ident])) slot s
    else if kcvOf (combine got) ≠ kcv then failCards x 0x1204 s
    else endCards x (got.flatMap kcvOf ++ kcv) (newPoolKey n (combine got) v 2 s)
  | _ => s

/-- A component has been written. -/
def cardWritten (x : CardStep) (slot : Nat) (s : State) : State :=
  match x.want with
  | .writeDomain d l key left cards =>
    if 1 < left.length then nextCard x (.writeDomain d l key (left.drop 1) (cards ++ [x.ident])) slot s
    else endCards x (kcvOf key) (fillDomain d 1 1 key s)
  | _ => s

/-- The response to a command of an exchange (R505). -/
def cardAnswer (x : CardStep) (slot : Nat) (data : Bytes) (s : State) : State :=
  match x.stage with
  | 0 => nextApdu x s
  | 1 => cardIdentity x data s
  | 2 =>
    match x.want with
    | .enrol n _ sc reg ch =>
      if !Config.ecdsaVerify x.pub ch data then failCards x 0x1904 s
      else endCards x [] (updCer (fun c => { c with work := tput (dflt Custodian.empty) c.work n ⟨sc, 1, reg, x.ident, x.pub⟩ }) s)
    | _ =>
      if Config.ecdsaVerify x.pub (sha384 (Config.ecdsaPublic x.eph ++ x.ident)) data then nextApdu x s else failCards x 0x1904 s
  | _ =>
    match x.want with
    | .writeDomain _ _ _ _ _ => cardWritten x slot s
    | _ => match openComponent x data with
      | some comp => cardComponent x slot comp s
      | none => failCards x 0x1904 s

/-- CARD_RESPONSE: a card's response to an APDU arrives whole. A status word other than 0x9000 fails the step with 0x1904 (R497). With no exchange of a
step in progress the characters wait in the slot's receive FIFO. -/
def execCardResponse (slot : Fin 5) (sw : BitVec 16) (data : Bytes) (s : State) : Out :=
  if !s.cardActive slot then .next s
  else
    let plain : State :=
      if slot.val = 4 then s
      else
        let v := s.cardSlot slot
        setCardSlot slot { v with tx := [], rptCount := 0, rx := (v.rx ++ data ++ be 2 sw.toNat).take 63 } s
    match s.cer.card with
    | none => .next plain
    | some x =>
      if x.exchange ≠ some slot.val then .next plain
      else if sw ≠ 0x9000 then .next (failCards x 0x1904 s)
      else .next (cardAnswer x slot data s)

/-- CARD_STEP_WAIT_TIMEOUT: a step has waited for a card past CRD_STEP_WAIT; it fails with 0x1903 and is undone (R493). -/
def execCardStepWaitTimeout (s : State) : Out :=
  match s.cer.card with
  | none => .next s
  | some x => if x.exchange.isSome then .next s else .next (failCards x 0x1903 s)

end Sys2Proof.Machine
end

