-- ==== Sys2Proof/Machine/Seals.lean ====
section
/-! DEFINITION. The near-field reader (chapter 19): custodian tokens as slot 4, sensing and polling, seal tags and the seal check. -/

namespace Sys2Proof.Machine

/-- Change the reader's state. -/
def updNfr (f : NfrState → NfrState) (s : State) : State := { s with nfr := f s.nfr }

/-- A seal record. -/
def State.sealRec (s : State) (n : Nat) : Seal := tget (dflt Seal.none) s.nfr.seals n

/-- Change a seal record. -/
def setSeal (n : Nat) (v : Seal) (s : State) : State := updNfr (fun x => { x with seals := tput (dflt Seal.none) x.seals n v }) s

/-- NFR_STATUS.STATE: 0 SENSING, 1 POLLING, 2 TOKEN, 3 SEALS. -/
def setReader (st : Nat) (field : Bool) (s : State) : State := (s.wrF Reg.NFR_STATUS 1 0 st).wrB Reg.NFR_STATUS 4 field

/-- Whether the reader is in use and its antenna whole. -/
def State.readerOk (s : State) : Bool := s.bitOf Reg.NFR_CTL 0 && !s.bitOf Reg.NFR_STATUS 5

/-! ### Tokens (R509, R510) -/

/-- TOKEN_ACTIVATE: a token completes anticollision and becomes slot 4; no second token is activated, and none during a seal check (R509, R516). -/
def execTokenActivate (typeB : Bool) (s : State) : Out :=
  if !s.bitOf Reg.NFR_CTL 0 ∨ !s.bitOf Reg.NFR_CTL 1 ∨ s.bitOf Reg.NFR_STATUS 2 ∨ s.nfr.check.isSome ∨ s.nfr.enrol.isSome then .next s
  else
    let s := ((setReader 2 true s).wrB Reg.NFR_STATUS 2 true).wrB Reg.NFR_STATUS 3 typeB
    .next (seekCard (irq Reg.NFR_IRQ_STATUS 14 0 s))

/-- A token is removed (R510): counted, and lost mid-step when an exchange is in progress. -/
def removeToken (s : State) : State :=
  if !s.bitOf Reg.NFR_STATUS 2 then s
  else
    let s := ((setReader 0 false s).wrB Reg.NFR_STATUS 2 false).wrB Reg.NFR_STATUS 3 false
    loseCard 4 (irq Reg.NFR_IRQ_STATUS 14 1 (s.bump Reg.NFR_TOK_LOST))

/-- Whether an exchange with the token is in progress. -/
def State.tokenBusy (s : State) : Bool := match s.cer.card with | some x => x.exchange == some 4 | none => false

/-- TOKEN_PRESENCE_CHECK: between exchanges the token answers an R(NAK) or, after 2 retransmissions, does not (R510). -/
def execTokenPresenceCheck (answered : Bool) (s : State) : Out :=
  if s.tokenBusy ∨ answered then .next s else .next (removeToken s)

/-- TOKEN_FRAME_WAIT_TIMEOUT: an I-block gets no valid answer after 2 retransmissions (R510). -/
def execTokenFrameWaitTimeout (s : State) : Out := .next (removeToken s)

/-! ### Sensing and polling (R511) -/

/-- The antenna is found open or shorted, or whole: ANT_FAULT, with its interrupt and alarm as it appears. -/
def noteAntenna (fault : Bool) (s : State) : State :=
  let was := s.bitOf Reg.NFR_STATUS 5
  let s := s.wrB Reg.NFR_STATUS 5 fault
  if fault && !was then irq Reg.NFR_IRQ_STATUS 14 4 s else s

/-- CAPACITIVE_SENSE: the antenna capacitance and drive are sensed; a change above NFR_CAP_THR wakes the reader. -/
def execCapacitiveSense (value : BitVec 8) (antennaFault : Bool) (s : State) : Out :=
  if s.bitOf Reg.NFR_STATUS 2 ∨ !s.bitOf Reg.NFR_CTL 2 ∨ !s.bitOf Reg.NFR_CTL 0 ∨ s.fld Reg.NFR_STATUS 1 0 ≠ 0 then .next s
  else
    let old := s.fld Reg.NFR_CAP_VAL 7 0
    let d := if old ≤ value.toNat then value.toNat - old else old - value.toNat
    let s := noteAntenna antennaFault (s.wrF Reg.NFR_CAP_VAL 7 0 value.toNat)
    if s.fld Reg.NFR_CAP_THR 7 0 < d then .next (setReader 1 true (irq Reg.NFR_IRQ_STATUS 14 5 s)) else .next s

/-- Whether the drive current of a poll lies outside 10 mA to 400 mA (R600). What the antenna draws is a free value (log entry 376). -/
def State.driveFault (s : State) : Bool :=
  let milliamps := (Config.freeBits s.free).toNat % 65536
  decide (milliamps < 10) || decide (400 < milliamps)

/-- NFC_POLL: the reader polls with REQA and REQB after a wake, or with CAP_EN at 0, and its drive shows whether the antenna is whole (R511). -/
def execNfcPoll (s : State) : Out :=
  if s.bitOf Reg.NFR_STATUS 2 ∨ !s.bitOf Reg.NFR_CTL 0 ∨ s.fld Reg.NFR_STATUS 1 0 = 3 then .next s
  else if s.bitOf Reg.NFR_CTL 2 ∧ s.fld Reg.NFR_STATUS 1 0 ≠ 1 then .next s
  else .next (setReader 1 true (noteAntenna s.driveFault s.drawn))

/-- NFC_POLL_TIMEOUT: 2 s without an answer (R511). -/
def execNfcPollTimeout (s : State) : Out :=
  if s.fld Reg.NFR_STATUS 1 0 = 1 then .next (setReader 0 false s) else .next s

/-! ### Seal tags (R512 to R517) -/

/-- A state block's two counters, primary and backup copies, LOOP_OPEN, TMIN and TMAX in half degrees (R512). -/
def blockReads (b : Bytes) : Nat × Nat := (field b 2 3, field b 5 3)
def blockOpens (b : Bytes) : Nat × Nat := (field b 8 2, field b 10 2)
def blockOpen (b : Bytes) : Bool := nbit (field b 0 1) 0
def blockTmin (b : Bytes) : Int := (BitVec.ofNat 8 (field b 12 1)).toInt
def blockTmax (b : Bytes) : Int := (BitVec.ofNat 8 (field b 13 1)).toInt

/-- Whether a counter's copies are consistent (R513): equal, or the primary one ahead. Its value is then the primary copy. -/
def copiesOk (p : Nat × Nat) : Bool := p.1 == p.2 || p.1 == p.2 + 1

/-- Draw the challenge of the next AUTH_READ. -/
def drawChallenge (s : State) : State :=
  let v := s.freeBytes 16
  updNfr (fun x => { x with challenge := v }) (s.drawnBytes 16)

/-- The tag key of a seal, while its slot is LIVE under the handle recorded. -/
def State.sealKey (s : State) (n : Nat) : Option Bytes :=
  match s.slotOf (BitVec.ofNat 32 (s.sealRec n).handle) with
  | some k => if (s.slot k).state = 1 then some (s.slot k).keyBytes else none
  | none => none

/-- Whether a response's CMAC over challenge, handle and state block verifies under a seal's key (R512). -/
def State.tagPasses (s : State) (n : Nat) (handle block mac : Bytes) : Bool :=
  match s.sealKey n with
  | some k => cmac k (s.nfr.challenge ++ fit 6 handle ++ fit 16 block) == mac
  | none => false

/-- Computing a CMAC under a seal's key charges its slot (R232). -/
def chargeSeal (n : Nat) (s : State) : State :=
  match s.slotOf (BitVec.ofNat 32 (s.sealRec n).handle) with
  | some k => if (s.slot k).state = 1 then chargeStored k s else s
  | none => s

/-- Begin the seal check (R515, R516). -/
def startCheck (cmd : Option CmdRef) (s : State) : State :=
  setReader 3 true (updNfr (fun x => { x with
    check := some ⟨cmd, s.bitOf Reg.NFR_STATUS 5, s.rd Reg.NFR_SEAL_CFG, s.rd Reg.NFR_TEMP_LIM, 0, [], []⟩ }) s)

/-- The state and the field of the reader once it is free again. -/
def freeReader (s : State) : State :=
  let token := s.bitOf Reg.NFR_STATUS 2
  setReader (if token then 2 else 0) token s

/-- Unmatched enrolled seals of a check. -/
def State.unmatched (s : State) (k : SealRun) : List Nat :=
  (List.range 16).filter (fun n => (s.sealRec n).enrolled && !k.matched.any (fun m => m.1 == n))

/-- End an enrolment with a status. -/
def endEnrol (e : EnrolRun) (status : Nat) (s : State) : State :=
  finalReply e.cmd status [] 0 (freeReader (updNfr (fun x => { x with enrol := none }) s))

/-- An enrolment's key is destroyed when the tag's AUTH_READ does not verify. -/
def dropEnrol (e : EnrolRun) (status : Nat) (s : State) : State :=
  match e.handle.bind (fun h => s.slotOf (BitVec.ofNat 32 h)) with
  | some n => endEnrol e status (destroySlot n s)
  | none => endEnrol e status s

/-- What an enrolment does with an answer (R514). -/
def enrolAnswer (e : EnrolRun) (a : TagAnswer) (s : State) : State :=
  match a, e.handle with
  | .inventory hs, none =>
    if e.tag.isSome then s
    else
      let s := s.bump Reg.NFR_ROUNDS_RUN
      if hs.length ≠ 1 then endEnrol e 0x1A31 s
      else updNfr (fun x => { x with enrol := some { e with tag := hs.head?.map (fit 6) } }) s
  | .releaseKey none, none => if e.tag.isNone then s else endEnrol e 0x1A31 s
  | .releaseKey (some k), none =>
    if e.tag.isNone then s
    else match poolSlot 0xFFFF s with
    | .error _ => endEnrol e 0x3A31 s
    | .ok n =>
      let s := newPoolKey n (fit 16 k) (poolMeta 0x0B 1 0x08 1 0xFFFF 31) 1 s
      drawChallenge (updNfr (fun x => { x with enrol := some { e with handle := some (s.handle n) } }) s)
  | .authRead h b mac, some key =>
    if e.tag ≠ some (fit 6 h) then s
    else
    let v : Seal := ⟨true, key, (blockReads b).1, (blockOpens b).1, blockTmin b, blockTmax b,
      (blockReads b).1, (blockOpens b).1, blockTmin b, blockTmax b, true⟩
    let s' := setSeal e.num v s
    if s'.tagPasses e.num h b mac then endEnrol e 0 (chargeSeal e.num s') else dropEnrol e 0x4A30 s
  | _, _ => s

/-- What a check does with an answer (R515): a round counts and gives the handles to be read, and the response of one of them is matched against every
unmatched seal key or counted as unknown. -/
def checkAnswer (k : SealRun) (a : TagAnswer) (s : State) : State :=
  let set (k : SealRun) (s : State) : State := updNfr (fun x => { x with check := some k }) s
  match a with
  | .inventory hs =>
    if bits k.cfg 10 8 ≤ k.rounds then s
    else drawChallenge (set { k with rounds := k.rounds + 1, handles := (hs.map (fit 6)).take 16 } (s.bump Reg.NFR_ROUNDS_RUN))
  | .authRead h b mac =>
    if !k.handles.contains (fit 6 h) then s
    else
      let k := { k with handles := k.handles.erase (fit 6 h) }
      let found := (s.unmatched k).find? (fun n => s.tagPasses n h b mac)
      let s := (s.unmatched k).foldl (fun s n => chargeSeal n s) s
      match found with
      | none => drawChallenge (set k (s.bump Reg.NFR_TAG_UNKNOWN))
      | some n => drawChallenge (set { k with matched := k.matched ++ [(n, fit 16 b, k.rounds)] } s)
  | .releaseKey _ => s

/-- TAG_RESPONSE: a seal tag answers (R512). -/
def execTagResponse (answer : TagAnswer) (s : State) : Out :=
  match s.nfr.enrol, s.nfr.check with
  | some e, _ => .next (enrolAnswer e answer s)
  | none, some k => .next (checkAnswer k answer s)
  | none, none => .next s

/-- The cause of a seal's verdict, in table order (R515). -/
def State.sealCause (s : State) (k : SealRun) (n : Nat) : Nat :=
  let v := s.sealRec n
  match k.matched.find? (fun m => m.1 == n) with
  | none => 1
  | some (_, b, _) =>
    let lo : Int := (k.lim.setWidth 8).toInt
    let hi : Int := ((k.lim >>> 8).setWidth 8).toInt
    if !copiesOk (blockReads b) ∨ !copiesOk (blockOpens b) then 2
    else if blockOpen b ∨ (blockOpens b).1 ≠ v.opens then 3
    else if (blockReads b).1 < v.reads + 1 ∨ v.reads + bits k.cfg 15 12 < (blockReads b).1 then 4
    else if blockTmin b < lo ∨ hi < blockTmax b then 5
    else if k.ant then 6
    else if (s.sealKey n).isNone then 7
    else 0

/-- Judge one seal: NFR_SEAL_STAT, NFR_SEAL_RES, the values last read, and the stored count of a passing seal. -/
def judgeSeal (k : SealRun) (n : Nat) (s : State) : State :=
  let v := s.sealRec n
  if !v.enrolled then s
  else
    let cause := s.sealCause k n
    let s := s.wrB Reg.NFR_SEAL_RES (if cause = 0 then n else 16 + n) true
    match k.matched.find? (fun m => m.1 == n) with
    | none => setSeal n { v with authed := false } (s.wr (Reg.NFR_SEAL_STAT n) (BitVec.ofNat 32 (cause + 2 ^ 4 * k.rounds)))
    | some (_, b, r) =>
      let count := (blockReads b).1
      let v := { v with authed := true, lastReads := count, lastOpens := (blockOpens b).1, lastTmin := blockTmin b, lastTmax := blockTmax b
                        reads := if cause = 0 then count else v.reads }
      setSeal n v (s.wr (Reg.NFR_SEAL_STAT n) (BitVec.ofNat 32 (cause + 2 ^ 4 * r + 2 ^ 8 * count)))

/-- SEAL_CHECK_DONE: every enrolled seal is judged; a failing seal, or fewer enrolled than REQUIRE, sets SEAL_FAIL (R515). -/
def execSealCheckDone (s : State) : Out :=
  match s.nfr.check with
  | none => .next s
  | some k =>
    let s := (List.range 16).foldl (fun s n => judgeSeal k n s) (s.wr Reg.NFR_SEAL_RES 0)
    let count := ((List.range 16).filter (fun n => (s.sealRec n).enrolled)).length
    let fail := s.fld Reg.NFR_SEAL_RES 31 16 != 0 || decide (count < bits k.cfg 4 0)
    let s := irq Reg.NFR_IRQ_STATUS 14 2 (freeReader (updNfr (fun x => { x with check := none }) s))
    let s := if fail then irq Reg.NFR_IRQ_STATUS 14 3 (s.wrB Reg.SYS_HOLD 2 true) else s
    .next (finalReply? k.cmd (if !fail then 0 else if k.ant then 0x4A30 else 0x2A31) s)

/-- GET_SEALS: NFR_SEAL_RES, and for each seal whether it is enrolled and its NFR_SEAL_STAT. -/
def execGetSeals (c : HostCmd) (s : State) : Out :=
  .next (hostRun 0x0A0C c [] (fun s =>
    .done 0 (be 4 (s.rd Reg.NFR_SEAL_RES).toNat ++ (List.range 16).flatMap (fun n =>
      be 1 (b2n (s.sealRec n).enrolled) ++ be 4 (s.rd (Reg.NFR_SEAL_STAT n)).toNat)) 0 s) s)

/-- ENROL_SEAL: a fresh tag gives its key and its baseline (R514). -/
def execEnrolSeal (c : HostCmd) (num : BitVec 8) (s : State) : Out :=
  .next (hostRun 0x0A30 c [] (fun s => withTicket 0x0A30 c devScope true 0x2A30 (fun _ s =>
    let n := num.toNat
    if 16 ≤ ((List.range 16).filter (fun i => (s.sealRec i).enrolled)).length then .fail 0x3A30
    else if 16 ≤ n ∨ (s.sealRec n).enrolled then .fail 0x1A30
    else if !s.readerOk then .fail 0x4A30
    else if s.nfr.check.isSome ∨ s.nfr.enrol.isSome ∨ s.tokenBusy then .later
    else match poolSlot 0xFFFF s with
      | .error _ => .fail 0x3A31
      | .ok _ => .wait 0x010C (setReader 3 true (updNfr (fun x => { x with enrol := some ⟨c.ref, n, none, none⟩ }) s))) s) s)

/-- RETIRE_SEAL: the seal's slot is destroyed and its record emptied (R514). -/
def execRetireSeal (c : HostCmd) (num : BitVec 8) (s : State) : Out :=
  .next (hostRun 0x0A31 c [] (fun s => withTicket 0x0A31 c devScope true 0x2A30 (fun _ s =>
    let n := num.toNat
    if 16 ≤ n ∨ !(s.sealRec n).enrolled then .fail 0x1A30
    else
      let s := match s.slotOf (BitVec.ofNat 32 (s.sealRec n).handle) with
        | some k => destroySlot k s
        | none => s
      .done 0 [] 0 (setSeal n Seal.none s)) s) s)

/-- RELEASE_SEAL_FAIL: SEAL_FAIL is cleared; with REBASE the values last read become the baseline of each seal authenticated (R517). -/
def execReleaseSealFail (c : HostCmd) (rebase : Bool) (s : State) : Out :=
  .next (hostRun 0x0A32 c [] (fun s => withTicket 0x0A32 c devScope true 0x2A30 (fun _ s =>
    let s := s.wrB Reg.SYS_HOLD 2 false
    let adopt (s : State) (n : Nat) : State :=
      let v := s.sealRec n
      if v.enrolled && v.authed then
        setSeal n { v with reads := v.lastReads, opens := v.lastOpens, tmin := v.lastTmin, tmax := v.lastTmax } s
      else s
    .done 0 [] 0 (if c.expert && rebase then (List.range 16).foldl adopt s else s)) s) s)

/-- CHECK_SEALS: the seal check runs; it begins only when no token exchange is in progress (R515, R516). -/
def execCheckSeals (c : HostCmd) (s : State) : Out :=
  .next (hostRun 0x0A33 c [] (fun s =>
    if !s.bitOf Reg.NFR_CTL 0 then .fail 0x4A30
    else if s.nfr.check.isSome ∨ s.nfr.enrol.isSome ∨ s.tokenBusy then .later
    else .wait 0x010C (startCheck (some c.ref) s)) s)

/-- A custody reset removes any token, abandons a seal check without changing a record, and returns the block to its reset values except the counters
(R519). -/
def resetNfr (s : State) : State :=
  let s := removeToken s
  let s := updNfr (fun x => { x with check := none, enrol := none, challenge := [] }) s
  s.clearRegs (fun a => decide (0x100E0000 ≤ a) && decide (a < 0x100F0000) && !(a == Reg.NFR_TAG_UNKNOWN || a == Reg.NFR_ROUNDS_RUN || a == Reg.NFR_TOK_LOST))

end Sys2Proof.Machine
end

