-- ==== Sys2Proof/Machine/Resets.lean ====
section
/-! DEFINITION. The resets of R41 and what each of them clears: warm and power-on restarts, the custody reset, the tile reset, and function
resets. -/

namespace Sys2Proof.Machine

/-- Whether address `a` lies in the 64 KiB block whose first register is at `base`. -/
def inBlock (base a : Nat) : Bool := decide (base ≤ a) && decide (a < base + 0x10000)

/-! ### The custody cores, SRAM and mailboxes -/

/-- The registers of the CUS block that a custody reset keeps (R340). -/
def cusKept (a : Nat) : Bool :=
  [Reg.CUS_LS_LAST_PC, Reg.CUS_LS_LAST_GRP, Reg.CUS_LS_LAST_CYC_LO, Reg.CUS_LS_LAST_CYC_HI, Reg.CUS_LS_TOTAL, Reg.CUS_FP_TRAP, Reg.CUS_UNDEF].contains a

/-- Reset the cores and return the CUS block as R340 says; LS_PRIOR shows a mismatch of an earlier run of the cores. -/
def resetCores (s : State) : State :=
  let s := updCore (fun _ => CoreState.reset) s
  let s := s.clearRegs (fun a => inBlock Reg.CUS_ID a && !cusKept a)
  s.wrB Reg.CUS_STATUS 4 (s.rd Reg.CUS_LS_TOTAL != 0)

/-- Zero custody SRAM and set every SRAM tag to 1023 (R370); an SRAM retag is abandoned, a DRAM retag runs on (R371). -/
def zeroSram (s : State) : State :=
  let s := { s with gte := { s.gte with sram := [], sramTags := [] } }
  match s.gte.retag with
  | some r =>
    if r.dram then s
    else (({ s with gte := { s.gte with retag := none } } : State).wrB Reg.GTE_TAG_CTL 16 false).wrB Reg.GTE_STATUS 1 false
  | none => s

/-- Close every digest session and abort the snoop; context 7 serves the Ledger sequencer on (R405). -/
def resetDigest (s : State) : State :=
  let s := updDig (fun d => { d with ctxs := tclear d.ctxs (· != 7), sessions := [], evicted := [], resident := [], blobs := [], feeds := [], snoopNext := 0
                                     extend := match d.extend with | some (n, v) => if n < 8 then none else some (n, v) | none => none }) s
  s.wrB Reg.DIG_SNOOP_CTL 0 false

/-- Return the CPH block to its reset values, counters apart (R407): jobs end and the register key is cleared. -/
def resetCipher (s : State) : State :=
  updCph (fun _ => ⟨[], [], []⟩) (s.clearRegs (fun a => inBlock Reg.CPH_ID a && !(a == Reg.CPH_JOBS || a == Reg.CPH_SUSPENDS)))

/-- Measurement registers 0 to 7 and the lock of their range return to zero (R396). -/
def resetBootMeasures (s : State) : State := ({ s with mrs := tclear s.mrs (· < 8) } : State).wrB Reg.DIG_MR_LOCK 0 false

/-- What firmware was doing for host commands ends with it: each of those commands receives 0x4101 once firmware has restarted (R42). Work of
hardware goes on without a command to complete. -/
def dropWorkOfFirmware (s : State) : State :=
  { s with
    sys := { s.sys with pend := none }
    flow := { s.flow with flushCmds := [] }
    keys := { s.keys with purges := s.keys.purges.map (fun p => { p with cmd := none }) }
    ldg := { s.ldg with reads := [], heldReplies := [] }
    tim := { s.tim with
      pendSet := s.tim.pendSet.map (fun x => (x.1, none))
      realigns := s.tim.realigns.map (fun x => (x.1, none))
      changes := s.tim.changes.map (fun x => { x with cmd := none }) }
    rng := { s.rng with requests := [], reseedCmds := [], cals := [] }
    pair := { s.pair with takes := [], joinCmd := none }
    rpr := { s.rpr with lend := none }
    tpr := { s.tpr with arming := none } }

/-- A ceremony meets a custody reset (R490): OPEN and STEP lead to RESTORING, CLOSING goes on; a transaction outside a ceremony is undone. -/
def breakCeremony (s : State) : State :=
  let s := match s.cer.card with
    | some x => if x.inCeremony then s else cerRecord 4 x.opcode s
    | none => s
  let s := updCer (fun c => { c with card := none, nonces := [], endCmd := none }) s
  if s.cer.phase = .opened ∨ s.cer.phase = .step then setPhase .restoring s else s

/-- What a custody reset does, whatever its cause (R41). Tiles, ports, Ledger, timebase, tamper controller, Vault and Mint keep running (R42); a
stopped Mint is tested again (R238). -/
def resetCustody (s : State) : State :=
  let s := zeroSram (resetCores s)
  let s := s.clearRegs (fun a => (List.range 4).any (fun r => r != 0 && a == Reg.GTE_RING_COL r) || a == Reg.GTE_IRQ_EN)
  let s := { s with host := { s.host with fifos := [] } }
  let s := resetCipher (resetDigest (resetBootMeasures s))
  let s := resetNfr (resetCards (breakCeremony s))
  let s := resetPke (resetUpdate (flashAbort (emptyPort s)))
  let s := (dropWorkOfFirmware s).wrF Reg.RPR_LEND_STAT 0 0 0
  let s : State := { s with keys := { s.keys with mintRetest := s.bitOf Reg.MNT_STATUS 5 } }
  updSys (fun y => { y with cusInReset := true }) s

/-- A custody reset, with the bit of SYS_RESET_CAUSE that shows its cause (R60). -/
def custodyReset (cause : Nat) (s : State) : State := resetCustody (s.wrB Reg.SYS_RESET_CAUSE cause true)

/-! ### Frames in flight -/

/-- End a frame as ENGINE with its leaf and without a verdict record (R44, R527); one that an underrun has failed ends as STALL (R151). -/
def endQuiet (f : InFrame) (s : State) : State :=
  let code := if f.under then 0x30 else 0x31
  let s := clearHold f.port f.hold (count f.port (verdictCounter code) s)
  let s := match f.egress with
    | some p => failQueued p f.num (poisoned (emittedSoFar f) code f.port f.stamp) s
    | none => s
  match f.kind with
  | .seal => leaveFlow f (pushRefusal f code (releaseSeq f s))
  | _ => pushNotary (clusterOf f.port) f 0x06 (f.egress.getD 0xFFFF) false s

/-- End a queued frame whose ingress part is complete in the same way. -/
def endQuietQueued (g : EgFrame) (s : State) : State :=
  let s := dropQueued g.dst g.num s
  match g.orig with
  | none => count g.src 0x184 s
  | some f =>
    let s := count g.src (verdictCounter 0x31) s
    match f.kind with
    | .seal => pushRefusal f 0x31 s
    | _ => pushNotary (clusterOf g.src) f 0x06 g.dst true s

/-- End every frame in flight that touches a port of a set. -/
def endFrames (p : Nat → Bool) (s : State) : State :=
  let arriving := s.dp.ports.filterMap (fun e => match e.2.cur with
    | some f => if p f.port || (match f.egress with | some q => p q | none => false) then some f else none
    | none => none)
  let s := arriving.foldl (fun s f =>
    let s := setCur f.port none s
    if f.isDiscarded then s else let (f, s) := takeCount f s; endQuiet f s) s
  let s := (List.range 64).foldl (fun s c =>
    let w := (s.waitingIn c).filter (fun f => p f.port)
    if w = [] then s else w.foldl (fun s f => endQuiet f s) (setWaiting c ((s.waitingIn c).filter (fun f => !p f.port)) s)) s
  let s := (s.dp.ports.filter (fun e => p e.1 && e.2.moved != [])).foldl (fun s e =>
    e.2.moved.foldl (fun s f => endQuiet f s) (s.setPort e.1 { s.port e.1 with moved := [] })) s
  (s.inQueues (fun g => p g.src || p g.dst)).foldl (fun s g => endQuietQueued g s) s

/-! ### The tile reset (R44) -/

/-- The tile whose windows hold an address. -/
def tileWindow (a : Nat) : Option Nat := if 0x20000000 ≤ a then some ((a - 0x20000000) / 0x4000000) else none

/-- Whether a register of a tile is cleared by its reset: every counter (R176), and the status of its units apart from the ledger units and the
port states; settings are loaded again with the tile. -/
def tileCleared (a : Nat) : Bool :=
  match findReg a with
  | some (b, row, _) =>
    row.ctr || (!(b.name == "LDGC" || b.name == "LDGT" || row.name == "PRT_STATUS" || row.name == "PRT_ENGINES" || row.name == "DPL_FAB_STATUS")
      && row.rw ||| row.rwl == 0)
  | none => false

/-- Return the grants of some clusters uncharged (R234). -/
def returnGrants (p : Nat → Bool) (s : State) : State :=
  let give (s : State) (g : Grant) : State :=
    let v := s.slot g.slot
    if v.state ≠ 0 ∧ v.incarn = g.incarn ∧ v.gen = g.gen then settleSlot g.slot (s.setSlot g.slot { v with count := v.count - g.left }) else s
  let l := (s.keys.grants.filter (fun e => p e.1)).flatMap (·.2)
  let s := { s with keys := { s.keys with grants := tclear s.keys.grants p } }
  l.foldl give s

/-- End every lending arrangement in which a tile lends or borrows (R569). -/
def endLending (t : Nat) (s : State) : State :=
  (List.range 512).foldl (fun s p => [false, true].foldl (fun (s : State) k =>
    let e := s.engineOf p k
    if 1024 ≤ e ∧ e < 1152 ∧ engineCluster e ≠ clusterOf p ∧ (engineCluster e / 16 = t ∨ tileOf p = t) then
      let s := setEngine p k 0x7FF (releaseEngine p k e s)
      if tileOf p = t then s else irq (Reg.DPL_IRQ_STATUS (clusterOf p)) (32 + tileOf p) 2 s
    else s) s) s

/-- Clear what a tile holds apart from its ledger units: caches, set-ups, exchanges, Leaf Mints, seed table and PKE units. The monitor sequence
never restarts (R217). -/
def clearTile (t : Nat) (s : State) : State :=
  let c (k : Nat) : Bool := k / 16 == t
  let s := returnGrants c s
  let s := (List.range 17).foldl (fun s i =>
    let u := tileUnitNo t i
    if (s.tileUnit u).cached = [] then s else setTileUnit u { s.tileUnit u with cached := [] } s) s
  { s with
    regs := tclear s.regs (fun a => tileWindow a == some t && tileCleared a)
    dp := { s.dp with
      ports := tclear s.dp.ports (fun p => p / 128 == t), salt := tclear s.dp.salt c
      timeouts := tclear s.dp.timeouts (fun p => p / 128 == t), dropBase := tclear s.dp.dropBase (fun i => i / 1024 / 128 == t)
      records := s.dp.records.filter (fun r => tileOf r.src != t && tileOf r.dst != t) }
    flow := { s.flow with
      flows := tclear s.flow.flows (fun k => k / 16384 / 16 == t)
      setups := tclear s.flow.setups c
      exchanges := tclear s.flow.exchanges (· == t) }
    keys := { s.keys with
      l3 := tclear s.keys.l3 c
      mintQ := s.keys.mintQ.filter (fun r => r.cluster / 16 != t)
      deliver := s.keys.deliver.filter (fun r => r.1 / 16 != t)
      leafStopped := tclear s.keys.leafStopped c
      seeds := tclear s.keys.seeds (fun k => k / 512 == t) }
    pke := { s.pke with batches := tclear s.pke.batches (· == t) } }

/-- A tile's condition. -/
def State.tileCond (s : State) (t : Nat) : TileCond := tget (dflt TileCond.up) s.sys.tiles t

/-- Set a tile's condition. -/
def setTile (t : Nat) (c : TileCond) (s : State) : State := updSys (fun y => { y with tiles := tput (dflt TileCond.up) y.tiles t c }) s

/-- A tile reset: routes towards the tile go down, its ports are held, its frames end as ENGINE, and it is cleared (R44, R162); a tile that had failed is
held with the others until its release. A tile held already goes on in its reset. -/
def tileReset (t : Nat) (s : State) : State :=
  if s.tileCond t = .held then s
  else
    let s := s.wrB Reg.SYS_RESET_CAUSE 6 true
    let s := [0, 1, 2, 3].foldl (fun (s : State) a => if a = t then s else s.wrB (Reg.DPL_FAB_ROUTE a) t true) s
    let s := settlePorts (128 * t) 128 (setTile t .held s)
    let s := endFrames (fun p => tileOf p == t) s
    settleChanges (clearTile t (endLending t s))

/-! ### Warm and power-on resets -/

/-- The data bytes of a ZEROIZE event (R530). -/
def ZeroCause.eventData (z : ZeroCause) (passes : Nat) : Bytes :=
  be 1 z.cause ++ be 1 z.kind ++ be 1 z.index ++ be 1 z.mode ++ be 4 z.secs ++ be 4 z.l0gen ++ be 1 passes ++ zeros 3 ++ fit 24 z.digest

/-- The settings that custody flash keeps (R449, R476): the writable registers of ports, clusters and tiles, and retention. -/
def isSetting (a : Nat) : Bool :=
  (decide (0x20000000 ≤ a) && match findReg a with | some (_, row, _) => row.rw ||| row.rwl != 0 | none => false)
    || (decide (Reg.LDG_RET_LO 0 ≤ a) && decide (a < Reg.LDG_RET_LO 512))

/-- The settings in force. -/
def State.settings (s : State) : Settings := ⟨s.regs.filter (fun e => isSetting e.1), s.flow.profiles, s.tim.games⟩

/-- Registers whose contents the keeper domain, the fuses or custody flash hold through a restart: the reset cause, the bank record and anti-rollback
counters, the tamper configuration and CONFIRMED (R531, R546), the keeper thresholds (R547) and the ceremony serial. -/
def keptRegister (a : Nat) : Bool :=
  [Reg.SYS_RESET_CAUSE, Reg.UPD_BANK, Reg.TPR_CFG, Reg.TPR_CONFIRMED, Reg.THM_KEEP_ZTHR, Reg.THM_KEEP_ZERO, Reg.THM_KEEP_VFULL,
   Reg.CRD_CER_SERIAL_LO, Reg.CRD_CER_SERIAL_HI].contains a || [0, 1, 2].any (fun n => a == Reg.UPD_ARB n)

/-- Levels and conditions of the keeper battery, the tiles and the coolant loop, which do not depend on a reset. -/
def State.levels (s : State) : Word × Word × Word := (s.rd Reg.THM_STATUS &&& 0x1FF, s.rd Reg.THM_KEEP_V, s.rd Reg.TPR_RAW &&& 0xFF)

/-- What a warm or power-on reset leaves: the Vault, the keeper domain and flash are kept, and all else is at its reset value (R41). Journal and
receipt pages that were not programmed are gone, and the chain goes back to the last programmed record (R280). Settings are saved once they have been
loaded at stage 5; a zeroization in progress is finished first and its event waits for the start (R45). -/
def restart (s : State) : State :=
  let settings := s.settings
  let conf := if s.fld Reg.SYS_BOOT_STAGE 3 0 < 6 then s.conf
    else if s.upd.newestB then { s.conf with copyB := settings } else { s.conf with copyA := settings }
  let lv := s.levels
  let held := s.fld Reg.SYS_HOLD 0 0
  let here := (List.range 4).filter (fun n => s.bitOf Reg.CRD_STATUS n)
  let s := returnGrants (fun _ => true) (flashAbort s)
  let lost := s.ldg.page.length + s.ldg.programming.length
  let s : State := { s with
    regs := s.regs.filter (fun e => keptRegister e.1)
    sys := { s.sys with pend := none, maint := s.sys.maintStored, tiles := [(0, .held), (1, .held), (2, .held), (3, .held)], cusInReset := false
                        recovery := false, portsAtStage4 := 0, offNs := 0 }
    host := { s.host with queues := [], perm := [], fifos := [], recvHi := 0, ideStreams := [], ideLink := none, spdmAuth := false, rrs := true, lastWatchdog := s.ms
                          doeReply := [], lastRead := .none, lastXfer := none, msix := [] }
    dp := { s.dp with ports := [], waiting := [], salt := [], timeouts := [], dropBase := [], records := [] }
    flow := { s.flow with terms := [], dramKeys := ⟨s.freeBytes 32, fit 32 ((s.freeBytes 64).drop 32), fit 32 ((s.freeBytes 96).drop 64)⟩
                          versions := [], lineVersions := [], dieVersions := [], nextPage := 0, loaded := [], allLoaded := false, fencedStart := false, flows := [], setups := [], profiles := []
                          exchanges := [], xchgFails := [], flushCmds := [], flushing := false, demand := [] }
    keys := { s.keys with seeds := [], l3 := [], grants := [], mintQ := [], deliver := [], badL2 := [], purges := [], fpKeys := []
                          roundVisited := false, mintRetest := false, leafStopped := [] }
    ldg := { s.ldg with fifos := [], chunks := [], chunkSeqs := [], roots := [], trees := [], tileRoots := [], running := false, firstEpoch := none
                        closing := [], chainAtClose := s.ldg.chainDone, prev := s.ldg.prevDone, counts := [], signQ := [], idleFolded := []
                        evq := [], evHeld := [], heldReplies := [], dropped := 0, droppedIn := [], started := false, afterStart := []
                        page := [], pageForced := false, programming := [], nextSeq := s.ldg.nextSeq - lost, chain := s.ldg.chainDone
                        openPage := [], openEpoch := [], rcptProg := [], reads := [] }
    tim := { s.tim with pendSet := none, realigns := [], games := [], changes := [], residual := 0, lastPulse := 0, raw := 0, slewFrom := 0, distU := 0 }
    cer := { s.cer with nonces := [], card := none, endCmd := none, slots := [] }
    alm := ⟨[], [], [], [], []⟩
    free := s.free + 3
    pair := { s.pair with linkUp := false, lanes := 0, takes := [], joinCmd := none, ackWait := [], lastMsg := 0, backlog := [], linkKey := [] }
    mrs := []
    core := CoreState.reset
    gte := ⟨[], [], [], [], [], [], [], [], none⟩
    fsh := { s.fsh with lastRead := 0 }
    dig := ⟨[], [], [], [], [], [], [], 0, 0, none, []⟩
    cph := ⟨[], [], []⟩
    upd := { s.upd with sess := none, jobs := [] }
    pke := ⟨[], [], [], [], [], []⟩
    rpr := { s.rpr with lend := none, regained := [], gctl := none }
    nfr := { s.nfr with check := none, enrol := none, challenge := [] }
    tpr := { s.tpr with words := [], bursts := [], keyFails := [], arming := none, zero := none
                        zeroEvents := s.tpr.zeroEvents ++ (s.tpr.zero.map (fun z => z.eventData 1)).toList }
    conf := conf }
  let s := resetRng s
  let s := showIncomplete (showMap (s.wr64 Reg.CRD_CER_SERIAL_LO s.cer.serial))
  let s := ((s.wr Reg.THM_STATUS lv.1).wr Reg.THM_KEEP_V lv.2.1).wr Reg.TPR_RAW lv.2.2
  let s := here.foldl (fun (s : State) n => (s.wrB Reg.CRD_STATUS n true).wrB (Reg.CRD_S_STATUS n) 0 true) s
  let s := ((s.wrB Reg.TPR_STATUS 2 s.tpr.window.isSome).wrB Reg.TPR_STATUS 3 s.sys.shipFuse).wrB Reg.TPR_STATUS 4
    (match s.tpr.log.getLast? with | some e => e.keeperPower | none => false)
  showCer (s.wrF Reg.SYS_HOLD 0 0 held)

/-- A warm reset with the bit of its cause; bits [6:0] are cleared before it (R60). A reset by command flushes the register first (R185). -/
def warmReset (cause : Nat) (flush : Bool) (s : State) : State :=
  let s := if flush then endFlush (beginFlush s) else s
  let s := restart s
  (s.wrF Reg.SYS_RESET_CAUSE 6 0 0).wrB Reg.SYS_RESET_CAUSE cause true

/-! ### The rows -/

/-- WARM_RESET_PIN: SYS_RESET_N is low for at least 10 microseconds, or rises again (R41, R596). While it is low the device stays in reset; when
it rises, an EXTEST, CLAMP or HIGHZ in force is replaced by BYPASS (R610). -/
def execWarmResetPin (low : Bool) (s : State) : Out :=
  if !s.sys.mainPower then .next s
  else if low then
    let s := warmReset 1 false s
    .next { s with pin := { s.pin with resetLow := true } }
  else
    let held := [0x00, 0x03, 0x04].contains s.pin.tapIr
    .next { s with pin := { s.pin with
      resetLow := false, tapIr := if held then 0xFF else s.pin.tapIr, tapReplaced := s.pin.tapReplaced || held, boundary := 0 } }

/-- Whether a write of SYS_RESET_CTL is a request of a kind: ring 0, the key, and the kind (R61). -/
def resetAsked (ring : Nat) (value : Word) (kind : Nat) : Bool := ring == 0 && bits value 31 16 == 0x5A17 && bits value 1 0 == kind

/-- Refuse a write of the SYS block from another ring than 0 (R61). -/
def sysRefuse (ring : Nat) (a : Nat) (s : State) : State := refuseFixed ring a true s

/-- SYS_RESET_CTL_WARM: a warm reset, after a flush of the terminal register (R61, R185). -/
def execSysResetCtlWarm (ring : Fin 4) (value : Word) (s : State) : Out :=
  if ring ≠ 0 then .next (sysRefuse ring Reg.SYS_RESET_CTL s)
  else if resetAsked ring value 1 then .next (warmReset 2 true s) else .next s

/-- SYS_RESET_CTL_CUSTODY: a custody reset (R61). -/
def execSysResetCtlCustody (ring : Fin 4) (value : Word) (s : State) : Out :=
  if ring ≠ 0 then .next (sysRefuse ring Reg.SYS_RESET_CTL s)
  else if resetAsked ring value 2 then .next (custodyReset 4 s) else .next s

/-- SYS_RESET_CTL_TILE: the reset of the tile that TILE names (R61). -/
def execSysResetCtlTile (ring : Fin 4) (value : Word) (s : State) : Out :=
  if ring ≠ 0 then .next (sysRefuse ring Reg.SYS_RESET_CTL s)
  else if resetAsked ring value 3 then .next (tileReset (bits value 5 4) s) else .next s

/-- RESET: profile 0 warm, profile 1 custody, expert kind 1 to 3 with a tile (R58). The interim reply precedes the reset; after a warm reset no final reply
follows (R72), after a custody reset 0x4101 does (R42), and a tile reset is answered at once. -/
def execReset (c : HostCmd) (kind tile : BitVec 8) (s : State) : Out :=
  let k := if c.expert then kind.toNat else c.profile.toNat + 1
  .next (hostRun 0x0120 c [] (fun s =>
    if k = 0 ∨ 3 < k ∨ (k = 3 ∧ 3 < tile.toNat) then .fail 0x1102
    else if k ≠ 3 ∧ (s.busy ∨ s.cer.phase ≠ .idle) then .fail 0x2104
    else if k = 1 then .hold (warmReset 2 true (interimReply c.ref 0x0101 s))
    else if k = 2 then .wait 0x0101 (custodyReset 4 s)
    else .both 0x0101 0 [] (tileReset tile.toNat s)) s)

/-- UNCORRECTABLE_TILE_FAULT: a tile reset, or a warm reset when the fault lies in a ledger pipe or tree unit (R44). -/
def execUncorrectableTileFault (tile : Fin 4) (ledger : Bool) (s : State) : Out :=
  if s.tileCond tile ≠ .up then .next s
  else if ledger then .next (warmReset 2 true s)
  else .next (tileReset tile s)

/-- PCIE_FLR: a function-level reset (R41, R94): its sessions of the digest engine close (R405). -/
def execPcieFlr (fn : Fin 513) (s : State) : Out :=
  if !s.hostUp then .next s
  else
    .next (closeSessions (fun n => n == fn.val) (flr fn s))

/-- PERST_N_ASSERT: the endpoint is reset, every function as under an FLR; nothing else is affected (R590). -/
def execPerstNAssert (s : State) : Out :=
  let s := closeSessions (fun _ => true) (flrAll s)
  .next { s with host := { s.host with perst := true, linkUp := false, ideStreams := [], ideLink := none, spdmAuth := false } }

/-- PERST_N_DEASSERT: link training begins at its rise (R48, R590). -/
def execPerstNDeassert (s : State) : Out :=
  .next { s with host := { s.host with perst := false, linkUp := s.sys.mainPower } }

/-- The value of a configuration field of a function (R63, R65): the SR-IOV capability is PF0's. -/
def configField (fn : Nat) : CfgItem → Nat
  | .totalVfs => if fn = 0 then 512 else 0
  | .firstVfOffset => if fn = 0 then 1 else 0
  | .vfStride => if fn = 0 then 1 else 0
  | .ari => 1
  | .msixVectors => vectorsOf fn
  | .flr => 1

/-- PCIE_CONFIG_REQUEST: answered with Request Retry Status until stage 2 completes (R48, R65), then with the field asked for (R63). -/
def execPcieConfigRequest (request : CfgRequest) (s : State) : Out :=
  let ok := s.hostUp && !s.host.rrs && (request.fn.val == 0 || !s.sys.recovery)
  .next { s with host := { s.host with configOk := ok, configValue := if ok then configField request.fn request.item else 0 } }

/-- SPDM_DOE_REQUEST: the responder of PF0 authenticates the device, with measurements from registers 0 to 15, before IDE_KM sets keys (R65). An
`ide` request gives a stream a key, as a link or a selective stream, or clears it; at most one of the eight is a link stream. -/
def execSpdmDoeRequest (measure : Option (Fin 16)) (auth : Bool) (ide : Option (Fin 8 × Bool × Bool))
    (s : State) : Out :=
  if !s.hostUp || s.host.rrs then .next s
  else
    let h := s.host
    let h := { h with doeReply := match measure with | some n => s.mr n | none => [], spdmAuth := h.spdmAuth || auth }
    let h := match ide with
      | none => h
      | some (k, on, link) =>
        let others := h.ideStreams.filter (· != k.val)
        let other := h.ideLink.filter (· != k.val)
        if !h.spdmAuth then h
        else if !on then { h with ideStreams := others, ideLink := other }
        else if link ∧ other.isSome then h
        else { h with ideStreams := others ++ [k.val], ideLink := if link then some k.val else other }
    .next { s with host := h }

end Sys2Proof.Machine
end

