-- ==== Sys2Proof/Machine/Zeroize.lean ====
section
/-! DEFINITION. Confirmed detections (R520, R522) with the tamper log (R532), and zeroization (R527 to R530): what the zero level erases (R250,
R405, R421) and how it ends. -/

namespace Sys2Proof.Machine

/-- Change the tamper state. -/
def updTpr (f : TamperState → TamperState) (s : State) : State := { s with tpr := f s.tpr }

/-! ### The sequences of the loops and the mesh (R521) -/

/-- One step of the 31-bit LFSR with polynomial x^31 + x^28 + 1. -/
def lfsrStep (v : Nat) : Nat := (2 * v + b2n (nbit v 30 != nbit v 27)) % 2 ^ 31

/-- The next `n` bits of a sequence, the first in the highest place, with the register after them. -/
def lfsrBits : Nat → Nat → Nat × Nat
  | 0, v => (0, v)
  | n + 1, v => let r := lfsrBits n v; (2 * r.1 + b2n (nbit r.2 30), lfsrStep r.2)

/-- The bits that the return of a net must show next: loops 0 to 3, then mesh nets 0 to 15. -/
def State.netBits (s : State) (net n : Nat) : Nat := (lfsrBits n (tget (dflt 0) s.tpr.lfsr net)).1

/-- A net has sent `n` bits of its sequence. -/
def netSent (net n : Nat) (s : State) : State :=
  updTpr (fun t => { t with lfsr := tput (dflt 0) t.lfsr net (lfsrBits n (tget (dflt 0) t.lfsr net)).2 }) s

/-- The sequences of nets that are armed are seeded from the central DRBG. -/
def seedNets (nets : List Nat) (s : State) : State :=
  let b := s.freeBytes (4 * nets.length)
  updTpr (fun t => { t with lfsr := (List.range nets.length).foldl (fun f i => tput (dflt 0) f (nets.getD i 0) (field b (4 * i) 4 % 2 ^ 31)) t.lfsr })
    (s.drawnBytes (4 * nets.length))

/-! ### The tamper log (R532) -/

/-- Add an entry: it replaces the oldest transferred one when 64 are held, and when none of them is transferred the newest counts it. -/
def addLog (e : TamperEntry) (l : List TamperEntry) : List TamperEntry :=
  if l.length < 64 then l ++ [e]
  else match l.findIdx? (·.transferred) with
    | some i => l.eraseIdx i ++ [e]
    | none => match l.getLast? with
      | some x => l.dropLast ++ [{ x with count := sat 65535 (x.count + 1) }]
      | none => [e]

/-- The 16 bytes of an entry. -/
def TamperEntry.bytes (e : TamperEntry) : Bytes :=
  be 4 e.secs ++ be 1 e.kind ++ be 1 e.index ++ be 1 e.action ++ be 1 (b2n e.transferred + 2 * b2n e.keeperPower) ++ be 2 e.count
    ++ be 1 e.mode ++ zeros 5

/-- The data bytes of the TAMPER event of an entry (R530). -/
def TamperEntry.eventData (e : TamperEntry) : Bytes :=
  be 1 e.kind ++ be 1 e.index ++ be 1 e.action ++ be 1 e.mode ++ be 4 e.secs ++ fit 32 e.record

/-! ### What the zero level erases (R250, R405, R421) -/

/-- Pass slots to EMPTY. -/
def eraseSlots (p : Nat → Bool) (s : State) : State :=
  (s.keys.slots.filter (fun e => p e.1)).foldl (fun s e => emptySlot e.1 s) s

/-- Whether an item of undo data can still be used once the Vault is erased: roster and policy changes (R499). -/
def Undo.kept : Undo → Bool
  | .roster _ _ => true
  | .policy _ _ => true
  | _ => false

/-- Every outstanding command ends with a status; while the PCIe link is down it receives no reply (R82). -/
def endCommands (status : Nat) (s : State) : State :=
  s.host.queues.foldl (fun s e =>
    let s := s.setQueue e.1 { s.queue e.1 with orphans := [] }
    (e.2.outstanding.filter (fun o => !e.2.stalled.any (fun r => r.ident == o.ident && r.status / 256 != 1))).foldl (fun (s : State) o =>
      if s.hostUp then finalReply ⟨e.1 / 8, e.1 % 8, o.ident⟩ status [] 0 s
      else s.setQueue e.1 ((s.queue e.1).drop o.ident)) s) (unpark (fun _ => true) s)

/-- The register image as it is left when its key goes (R250): ciphertext that can no longer be read. -/
def State.lostLines (s : State) : Tab Bytes := s.flow.image.foldl (fun t e => tput (dflt []) t e.1 (s.imageLine e.1)) s.flow.lostImage

/-- Erase by hardware every item of R250, R405 and R421: the per-boot DRAM keys go, so DRAM holds nothing readable, and the register image is
ciphertext that can no longer be read. -/
def eraseItems (s : State) : State :=
  let lost := s.lostLines
  let s := (zeroizeRng (zeroizePke (eraseSlots (fun _ => true) s))).wrB Reg.MNT_STATUS 6 false
  { s with
    keys := { s.keys with seeds := [], l3 := [], grants := [], mintQ := [], deliver := [], badL2 := [], purges := [], fpKeys := [] }
    flow := { s.flow with terms := [], dramKeys := ⟨[], [], []⟩, versions := [], lineVersions := [], dieVersions := [], image := [], lostImage := lost, loaded := [], allLoaded := true, flows := [], setups := [], exchanges := [], demand := []
                          flushCmds := [], flushing := false }
    gte := { s.gte with dram := [] }
    dig := { s.dig with ctxs := [], sessions := [], evicted := [], resident := [], blobs := [], feeds := [], escrowKey := [], extend := none }
    cph := ⟨[], [], []⟩
    pair := { s.pair with linkKey := [] }
    tim := { s.tim with marks := [] }
    cer := { s.cer with card := none, endCmd := none, nonces := []
                        steps := s.cer.steps.map (fun x => { x with undo := x.undo.filter Undo.kept }) }
    ldg := { s.ldg with reads := [], heldReplies := [] }
    host := { s.host with fifos := [] } }

/-- Every port of the device goes down. -/
def holdPorts (s : State) : State :=
  (List.range 512).foldl (fun s p => if s.portState p = 0 || s.bitOf (Reg.PRT_STATUS p) 9 then s else setPortState p 0 false s) s

/-- Zeroization under main power (R527): frames end as ENGINE without verdict records and ports are held, a flush of the
Terminal Register begins, for which it does not wait (R185), keys are erased, custody SRAM is zeroed,
the mode record becomes ZEROIZED, which commits the transition and abandons any other (R36, R37), and every outstanding command ends with
0xEF01. Firmware runs no more until the custody reset that follows. -/
def zeroizeMain (z : ZeroCause) (s : State) : State :=
  let s := (s.wrB Reg.TPR_STATUS 0 true).wrB Reg.SYS_RESET_CAUSE 8 true
  let s := beginFlush (holdPorts (endFrames (fun _ => true) s))
  let s := endCommands 0xEF01 s
  let s := zeroSram (eraseItems s)
  let s := commitMode ⟨.zeroized, s.sys.maint, none⟩ s
  updTpr (fun t => { t with zero := some z, arming := none }) (updSys (fun y => { y with cusInReset := true }) s)

/-- Zeroization of the keeper bank from VKEEP (R529, R535): the mode record becomes ZEROIZED and the event waits for the next start. -/
def zeroizeKeeper (z : ZeroCause) (passes : Nat) (s : State) : State :=
  let s : State := { s with flow := { s.flow with image := [], lostImage := s.lostLines } }
  let s := eraseSlots (fun n => decide (n < 64)) (s.wrB Reg.SYS_RESET_CAUSE 8 true)
  let s := updSys (fun y => { y with prevMode := y.mode, mode := .zeroized, keeperZeroized := true, pend := none }) s
  updTpr (fun t => { t with zeroEvents := t.zeroEvents ++ [z.eventData passes], zero := none }) s

/-- Whether the device can be zeroized: in every mode except FACTORY and ZEROIZED (R33). -/
def State.zeroizable (s : State) : Bool := s.sys.mode != .factory && s.sys.mode != .zeroized

/-- Start zeroization (R527), unless the zero level is asserted already or the mode is FACTORY or ZEROIZED. -/
def zeroize (cause kind index : Nat) (digest : Bytes) (s : State) : State :=
  if !s.zeroizable ∨ s.tpr.zero.isSome then s
  else
    let z : ZeroCause := ⟨cause, kind, index, s.sys.mode.code, s.keeperSecs, s.keys.l0gen, digest⟩
    if s.sys.mainPower then zeroizeMain z s else zeroizeKeeper z 1 s

/-! ### Detections -/

/-- Whether a detector is watched: under keeper power alone only the kinds the table names, and of the supplies only VKEEP (R520). -/
def State.watches (s : State) (kind index : Nat) : Bool :=
  s.sys.mainPower || [1, 2, 3, 6, 8, 9, 0xC].contains kind || (kind == 4 && index == 2)

/-- Whether a detector is armed: switches and loops by TPR_CFG, the mesh by the ship fuse (R522). An isolated word comes from a loop (index 0 to 3)
or a mesh net (4 to 19). -/
def State.armed (s : State) (kind index : Nat) : Bool :=
  match kind with
  | 1 => decide (index < 8) && s.bitOf Reg.TPR_CFG index
  | 2 => decide (index < 4) && s.bitOf Reg.TPR_CFG (16 + index)
  | 3 => decide (index < 16) && s.sys.shipFuse
  | 0xC => if index < 4 then s.bitOf Reg.TPR_CFG (16 + index) else decide (index < 20) && s.sys.shipFuse
  | _ => true

/-- Whether a case switch is named by the open service window (R523). -/
def State.inWindowOf (s : State) (k : Nat) : Bool := match s.tpr.window with
  | some w => nbit w.mask k
  | none => false

/-- Whether the response of a confirmed detection is Z (R520, R522, R523). -/
def State.respondsZ (s : State) (kind index : Nat) : Bool :=
  s.zeroizable && kind != 0xC && !(kind == 1 && s.inWindowOf index)

/-- Confirm a detection (R520): entered in the tamper log, reported, and answered with zeroization when its response is Z. While the zero level is
asserted it adds a log entry and does nothing more (R529). -/
def detect (kind index : Nat) (s : State) : State :=
  if !s.watches kind index || !s.armed kind index then s
  else
    let main := s.sys.mainPower
    let z := s.respondsZ kind index && s.tpr.zero.isNone
    let s := (s.wrB Reg.TPR_CONFIRMED kind true).wrB Reg.TPR_STATUS 4 (!main)
    let s := if kind = 0xC then s.bump Reg.TPR_GLITCH else s
    let s := if kind = 1 then s.wrB Reg.TPR_RAW index (!s.bitOf Reg.TPR_CFG (8 + index)) else s
    let s := if main && s.tpr.zero.isNone
      then irq Reg.TPR_IRQ_STATUS 15 (if z then 0 else 1) (alarm 0x01 kind (srcSensor (16 * kind + index % 16)) true s)
      else s
    let rec_ := if main then ((s.alm.opened.find? (fun a => a.cls == 1 && a.detail == kind)).map Alarm.bytes).getD [] else []
    let e : TamperEntry := ⟨s.keeperSecs, kind, index, b2n z, false, !main, 1, s.sys.mode.code, rec_⟩
    let s := updTpr (fun t => { t with log := addLog e t.log }) s
    if z then zeroize (if kind = 0xB then 1 else 0) kind index [] s else s

/-- Set the levels of the case switches. -/
def setLevels (levels : BitVec 8) (s : State) : State := s.wrF Reg.TPR_RAW 7 0 levels.toNat

/-- End the service window: each named switch that is not at its armed level confirms a detection at that instant (R523). -/
def endWindow (levels : BitVec 8) (s : State) : State :=
  let s := setLevels levels s
  match s.tpr.window with
  | none => s
  | some w =>
    let s := irq Reg.TPR_IRQ_STATUS 15 2 ((updTpr (fun t => { t with window := none }) s).wrB Reg.TPR_STATUS 2 false)
    (List.range 8).foldl (fun s k =>
      if nbit w.mask k && s.bitOf Reg.TPR_RAW k != s.bitOf Reg.TPR_CFG (8 + k) then detect 1 k s else s) s

/-! ### The rows -/

/-- TAMPER_DETECTION: a detector's condition holds (R520). -/
def execTamperDetection (kind : Fin 13) (index : BitVec 8) (s : State) : Out :=
  if kind = 0 then .next s else .next (detect kind index.toNat s)

/-- Write the ZEROIZE event, or keep it for the next start while the Ledger has not started (R281). -/
def zeroEvent (data : Bytes) (s : State) : State :=
  if s.ldg.started then event 0x0002 (srcMaster 1024) 0xFFFF data s
  else updTpr (fun t => { t with zeroEvents := t.zeroEvents ++ [data] }) s

/-- ZEROIZATION_COMPLETE: the read-backs of every erased store end, `failing` of them in a row finding a bit set (R528). The zero level is released,
the Ledger acts (R281) and a custody reset follows; after the fourth failure ZERO_FAULT is set and the cores stay held. -/
def execZeroizationComplete (failing : Fin 5) (s : State) : Out :=
  match s.tpr.zero with
  | none => .next s
  | some z =>
    if !s.sys.mainPower ∨ s.bitOf Reg.TPR_STATUS 1 then .next s
    else if failing = 4 then
      .next (irq Reg.TPR_IRQ_STATUS 15 4 ((updCore (fun c => { c with stopped := true }) s).wrB Reg.TPR_STATUS 1 true))
    else
      let s := (updTpr (fun t => { t with zero := none }) s).wrB Reg.TPR_STATUS 0 false
      .next (resetCustody (zeroizeLedger (zeroEvent (z.eventData (failing.val + 1)) s)))

/-- TPR_ZERO_REQ: a keyed write asserts the zero level; only ring 0 may write the block, and a wrong key has no effect (R546). -/
def execTprZeroReq (ring : Fin 4) (value : Word) (s : State) : Out :=
  if ring ≠ 0 then .next (sysRefuse ring Reg.TPR_ZERO_REQ s)
  else if bits value 31 16 ≠ 0x7A3C then .next s
  else .next (zeroize 2 0 0 [] s)

/-! ### SYS_MODE_REQ (R62) -/

/-- The mode of a 3-bit code. -/
def Mode.ofCode (n : Nat) : Option Mode :=
  [Mode.factory, .notary, .ceremony, .service, .maintenance, .zeroized].find? (fun m => m.code == n)

/-- What a transition requested through SYS_MODE_REQ leads to, when R33 lists it, as though the matching command had been accepted: the register names a
mode alone, so that a request for MAINTENANCE is device-wide, a request for SERVICE empties the set, CEREMONY opens a ceremony of PF0, and in
CEREMONY the mode that a close leads to closes and the mode it was opened from aborts. While BUSY is 1 only ZEROIZED is taken (R36, R37); a request
made while a step runs changes nothing. -/
def State.requestedMode (s : State) (m : Mode) : Option State :=
  let take (f : State → State) : Option State := some (if s.busy then s else f s)
  if m = .zeroized then (if s.zeroizable then some (zeroize 2 0 0 [] s) else none)
  else match s.sys.mode, m with
  | .service, .maintenance => take (requestMode .maintenance MaintSet.all none)
  | .maintenance, .maintenance => take (requestMode .maintenance MaintSet.all none)
  | .maintenance, .service => if s.held then none else take (requestMode .service MaintSet.empty none)
  | .notary, .ceremony => take (openCeremony 0 none)
  | .maintenance, .ceremony => take (openCeremony 0 none)
  | .zeroized, .ceremony => take (openCeremony 0 none)
  | .ceremony, x =>
    if x = s.closeMode.1 then take (fun s => if s.cer.phase = .opened then beginClose none s else s)
    else if x = s.cer.openedFrom then take (fun s => if s.cer.phase = .opened then beginRestore none s else s)
    else none
  | _, _ => none

/-- SYS_MODE_REQ_WRITE: ring 0 requests a transition; one that R33 does not list sets SYS_BOOT_STAGE.ERROR to 0x21 (R62). -/
def execSysModeReqWrite (value : Word) (s : State) : Out :=
  let s := s.wr Reg.SYS_MODE_REQ (value &&& 7)
  match (Mode.ofCode (bits value 2 0)).bind s.requestedMode with
  | none => .next (s.wrF Reg.SYS_BOOT_STAGE 15 8 0x21)
  | some t => .next t

/-- ZEROIZE: zeroizes the device under a device-scope ticket; it completes with 0xEF01 (R545). -/
def execZeroize (c : HostCmd) (s : State) : Out :=
  .next (hostRun 0x0A10 c [] (withTicket 0x0A10 c devScope true 0x2A01 (fun _ s =>
    .hold (zeroize 2 0 0 ((sha384 ((c.ticket.getD []).take 80)).take 24) s))) s)

end Sys2Proof.Machine
end

