-- ==== Sys2Proof/Machine/Tamper.lean ====
section
/-! DEFINITION. The tamper controller's other rows, the bus integrity code, the keeper battery, coolant and thermal control, and the tamper and
thermal commands (R521, R523, R526, R533 to R539, R545 to R547). -/

namespace Sys2Proof.Machine

/-! ### Loops and mesh (R521) -/

/-- The kind and index of a net: loops 0 to 3, then mesh nets 0 to 15. -/
def netKind (net : Nat) : Nat × Nat := if net < 4 then (2, net) else (3, net - 4)

/-- What a comparison word makes of the last ones of its net: the new count, and the kind confirmed: three that differ in a row, or one that
differs and two that agree. -/
def wordStep (net w : Nat) (agree : Bool) : Nat × Option Nat :=
  if agree then (if w = 1 then (3, none) else if w = 3 then (0, some 0xC) else (0, none))
  else if w = 1 then (2, none) else if w = 2 then (0, some (netKind net).1) else (1, none)

/-- Confirm what a net shows. -/
def netDetect (net : Nat) (kind : Option Nat) (s : State) : State :=
  match kind with
  | some 0xC => detect 0xC net s
  | some k => detect k (netKind net).2 s
  | none => s

/-- LOOP_WORD_COMPARE: a comparison word of an armed loop or mesh net under main power: the 32 bits that returned, against those of the net's sequence. -/
def execLoopWordCompare (net : Fin 20) (word : Word) (s : State) : Out :=
  if !s.sys.mainPower || !s.armed 0xC net then .next s
  else
    let agree := word.toNat == s.netBits net 32
    let s := netSent net 32 s
    let (w, k) := wordStep net (tget (dflt 0) s.tpr.words net) agree
    let s := (updTpr (fun t => { t with words := tput (dflt 0) t.words net w }) s).wrB Reg.TPR_RAW (8 + net) agree
    .next (netDetect net k s)

/-- KEEPER_LOOP_BURST: a 64-bit burst under keeper power; two differing ones in a row confirm a detection. One that differs before one that agrees,
which holds two words, is an isolated word. -/
def execKeeperLoopBurst (net : Fin 20) (burst : BitVec 64) (s : State) : Out :=
  if s.sys.mainPower || !s.armed 0xC net then .next s
  else
    let agree := burst.toNat == s.netBits net 64
    let s := netSent net 64 s
    let w := tget (dflt 0) s.tpr.bursts net
    let put (v : Nat) (s : State) : State := updTpr (fun t => { t with bursts := tput (dflt 0) t.bursts net v }) s
    if agree then .next (netDetect net (if w = 1 then some 0xC else none) (put 0 s))
    else if w = 1 then .next (netDetect net (some (netKind net).1) (put 0 s))
    else .next (put 1 s)

/-- Whether every loop staged matched within 1 ms and lies within 2 microseconds (R521). -/
def loopsArm (stage : Word) (matched : BitVec 4) (delays : List Nat) : Bool :=
  (List.range 4).all (fun k => !bit stage (16 + k) || (matched.getLsbD k && decide (delays.getD k 0 ≤ 2000)))

/-- TPR_COMMIT_ARM: a keyed write arms the staged switches and loops, whose sequences are seeded; a loop that does not arm, or has no seed because the
random number service has failed, changes no configuration. The SET_TAMPER_CFG that asked for it completes (R521, R546). -/
def execTprCommitArm (ring : Fin 4) (value : Word) (matched : BitVec 4) (delays : Vector (BitVec 11) 4) (s : State) : Out :=
  if ring ≠ 0 then .next (sysRefuse ring Reg.TPR_COMMIT s)
  else if bits value 31 16 ≠ 0x2E71 || !bit value 0 then .next s
  else
    let stage := s.rd Reg.TPR_STAGE
    let cmd := s.tpr.arming.map (·.1)
    let s := updTpr (fun t => { t with arming := none }) s
    let nets := (List.range 4).filter (fun k => bit stage (16 + k))
    if loopsArm stage matched (delays.toList.map (·.toNat)) && (nets == [] || !s.rngFailed) then
      let s := if nets = [] then s else seedNets nets s
      let s := (List.range 4).foldl (fun (s : State) k =>
        if bit stage (16 + k) then (s.wr (Reg.TPR_LOOP_DLY k) (BitVec.ofNat 32 ((delays.toList.map (·.toNat)).getD k 0))).wrB Reg.TPR_RAW (8 + k) true
        else s) s
      let s := (updTpr (fun t => { t with words := tclear t.words (· < 4), bursts := tclear t.bursts (· < 4) }) s).wr Reg.TPR_CFG (stage &&& 0xFFFFF)
      .next (finalReply? cmd 0 s)
    else .next (finalReply? cmd 0x2A02 s)

/-- SET_TAMPER_CFG: switch enables and levels and loop enables, under a device-scope ticket; loops are being armed (R522, R545). -/
def execSetTamperCfg (c : HostCmd) (cfg : Word) (s : State) : Out :=
  .next (hostRun 0x0A11 c [] (withTicket 0x0A11 c devScope true 0x2A01 (fun _ s =>
    if bits cfg 31 20 ≠ 0 then .fail 0x1A01
    else if s.tpr.arming.isSome then .later
    else .wait 0x010D (updTpr (fun t => { t with arming := some (c.ref, cfg) }) (s.wr Reg.TPR_STAGE cfg)))) s)

/-! ### Service windows (R523) -/

/-- Open the service window for named switches. -/
def openWindow (mask minutes : Nat) (s : State) : State :=
  (updTpr (fun t => { t with window := some ⟨mask, s.now + minutes * 60000000000⟩ }) s).wrB Reg.TPR_STATUS 2 true

/-- TPR_COMMIT_WINDOW: a keyed write opens the window for the switches staged. -/
def execTprCommitWindow (ring : Fin 4) (value : Word) (s : State) : Out :=
  if ring ≠ 0 then .next (sysRefuse ring Reg.TPR_COMMIT s)
  else if bits value 31 16 ≠ 0x2E71 || !bit value 1 then .next s
  else
    let m := bits value 15 8
    if m = 0 ∨ 240 < m then .next s else .next (openWindow (s.fld Reg.TPR_STAGE 7 0) m s)

/-- SERVICE_WINDOW: opens the window for 1 to 240 minutes under a device-scope ticket. -/
def execServiceWindow (c : HostCmd) (mask : BitVec 8) (minutes : BitVec 16) (s : State) : Out :=
  .next (hostRun 0x0A12 c [] (withTicket 0x0A12 c devScope true 0x2A01 (fun _ s =>
    if minutes = 0 ∨ 240 < minutes.toNat then .fail 0x1A01 else .done 0 [] 0 (openWindow mask.toNat minutes.toNat s))) s)

/-- CLOSE_WINDOW: the window ends, with the switches at the given levels. -/
def execCloseWindow (c : HostCmd) (levels : BitVec 8) (s : State) : Out :=
  .next (hostRun 0x0A13 c [] (fun s => .done 0 [] 0 (endWindow levels s)) s)

/-- SERVICE_WINDOW_END: the window reaches its time limit, with the switches at the given levels. -/
def execServiceWindowEnd (dt : Nat) (levels : BitVec 8) (s : State) : Out :=
  let s := s.advance dt
  match s.tpr.window with
  | some w => if s.sys.mainPower ∧ w.ends ≤ s.now then .next (endWindow levels s) else .next s
  | none => .next s

/-! ### The log (R530, R532) -/

/-- TAMPER_LOG_TRANSFER: the first entry not transferred is written as a TAMPER event, once the Ledger has started. -/
def execTamperLogTransfer (s : State) : Out :=
  if !s.ldg.started then .next s
  else match s.tpr.log.findIdx? (fun e => !e.transferred) with
    | none => .next s
    | some i =>
      match s.tpr.log[i]? with
      | none => .next s
      | some e => .next (event 0x0010 (srcMaster 1024) 0xFFFF e.eventData
          (updTpr (fun t => { t with log := t.log.set i { e with transferred := true } }) s))

/-- TPR_LOG_XFER: a write marks the selected entry TRANSFERRED. -/
def execTprLogXfer (ring : Fin 4) (value : Word) (s : State) : Out :=
  if ring ≠ 0 then .next (sysRefuse ring Reg.TPR_LOG_XFER s)
  else if !bit value 0 then .next s
  else .next (updTpr (fun t => { t with log := t.log.modify (s.fld Reg.TPR_LOG_SEL 5 0) (fun e => { e with transferred := true }) }) s)

/-! ### The bus integrity code (R525, R526) -/

/-- The path number of a failure, in the row order of R526. -/
def bicNumber : BicPath → Nat
  | .keyPath _ => 1 | .custody _ => 2 | .custodyLink _ _ => 3 | .tileLink _ _ => 4 | .engine _ => 5 | .termLine _ _ _ => 6 | .dram _ => 7

/-- The first and the attributed source of a failure (R541). -/
def bicSources : BicPath → Nat × Nat
  | .keyPath m => (srcMaster m.toNat, srcMaster m.toNat)
  | .custody m => (srcMaster m.toNat, srcMaster m.toNat)
  | .custodyLink t fromTile => if fromTile then (srcMaster 0, srcTile t) else (srcTile t, srcMaster 0)
  | .tileLink a b => (srcTile b, srcTile a)
  | .engine e => (srcMaster (512 + engineCluster e), srcMaster (512 + engineCluster e))
  | .termLine c _ _ => (srcMaster (512 + c), srcMaster (512 + c))
  | .dram m => (srcMaster m.toNat, srcMaster m.toNat)

/-- What the failing beat's path does with it (R526): a link retrains (R161), an engine fails (R164), a terminal entry goes into QUARANTINE with its own report (R184);
elsewhere the beat is discarded, retried or answered with an error. -/
def bicEffect (p : BicPath) (s : State) : State :=
  match p with
  | .custodyLink t _ => updTpr (fun x => { x with linksDown := x.linksDown ||| 1#4 <<< t.val }) s
  | .tileLink a b => if a = b then s else linkFault a b s
  | .engine e => engineFails e 2 s
  | .termLine c t k => integrityQuarantine c t k.toNat s
  | _ => s

/-- BUS_INTEGRITY_FAILURE: a beat arrives with a code that is not the one of R525; it is counted, reported as class INTEGRITY and answered by its path's rule; the fourth failure on key paths within 1 s
confirms a detection of kind 0x0A. -/
def execBusIntegrityFailure (dt : Nat) (failed : BadBeat) (s : State) : Out :=
  let path := failed.path
  let beat := failed.beat
  if !s.sys.mainPower || failed.code == busIntegrityCode beat.data beat.addr beat.master beat.ring beat.colour then .next s
  else
    let s := s.advance dt
    let n := bicNumber path
    let s := irq Reg.TPR_IRQ_STATUS 15 3 (s.bump Reg.TPR_BIC_FAIL)
    let s := if n = 6 then s else report ⟨0x02, n, n == 1 || n == 2, (bicSources path).1, (bicSources path).2, 0xFFFF, 0⟩ s
    let s := bicEffect path s
    if n ≠ 1 then .next s
    else
      let l := s.tpr.keyFails.filter (fun t => decide (s.now < t + 1000000000)) ++ [s.now]
      if 4 ≤ l.length then .next (detect 0xA 0 (updTpr (fun t => { t with keyFails := [] }) s))
      else .next (updTpr (fun t => { t with keyFails := l }) s)

/-- CUSTODY_LINK_RETRAINED: a custody link carries traffic again. -/
def execCustodyLinkRetrained (tile : Fin 4) (s : State) : Out :=
  .next (updTpr (fun t => { t with linksDown := t.linksDown &&& ~~~(1#4 <<< tile.val) }) s)

/-! ### The keeper battery (R533 to R535) -/

/-- Record the minimum of an energy test and judge KEEPER_LOW (R534). -/
def energyTest (mv : Nat) (s : State) : State :=
  let s := s.wr Reg.THM_KEEP_MIN (BitVec.ofNat 32 mv)
  let z := s.fld Reg.THM_KEEP_ZTHR 15 0
  let good (n : Nat) (s : State) : State := updTpr (fun t => { t with goodTests := n }) s
  if mv < z then
    let was := s.bitOf Reg.SYS_HOLD 0
    let s := good 0 ((s.wrB Reg.SYS_HOLD 0 true).wrB Reg.THM_STATUS 8 true)
    if was || !s.sys.mainPower then s else irq Reg.THM_IRQ_STATUS 16 3 (alarm 0x06 1 (srcMaster 1026) false s)
  else if mv < z + 50 then good 0 s
  else if s.tpr.goodTests = 0 then good 1 s
  else good 2 ((s.wrB Reg.SYS_HOLD 0 false).wrB Reg.THM_STATUS 8 false)

/-- KEEPER_ENERGY_TEST: the test of every 60 s under main power. -/
def execKeeperEnergyTest (mv : BitVec 16) (s : State) : Out :=
  if !s.sys.mainPower then .next s else .next (energyTest mv.toNat s)

/-- KEEPER_UNPOWERED_TEST: the test of every 600 s under keeper power; below THM_KEEP_ZERO the keeper bank is zeroized at once, which the log shows as
a supply detection of VKEEP. -/
def execKeeperUnpoweredTest (mv : BitVec 16) (s : State) : Out :=
  if s.sys.mainPower ∨ !s.sys.keeperRecord then .next s
  else
    let s := energyTest mv.toNat s
    if mv.toNat < s.fld Reg.THM_KEEP_ZERO 15 0 ∧ s.zeroizable then
      let e : TamperEntry := ⟨s.keeperSecs, 4, 2, 2, false, true, 1, s.sys.mode.code, []⟩
      .next (zeroize 3 4 2 [] (updTpr (fun t => { t with log := addLog e t.log }) ((s.wrB Reg.TPR_CONFIRMED 4 true).wrB Reg.TPR_STATUS 4 true)))
    else .next s

/-- KEEP_CHG_EN at a voltage (R533). -/
def charge (mv : Nat) (s : State) : State :=
  let full := s.fld Reg.THM_KEEP_VFULL 15 0
  let s := s.wr Reg.THM_KEEP_V (BitVec.ofNat 32 mv)
  if !s.sys.mainPower ∨ full ≤ mv then s.wrB Reg.THM_STATUS 7 false
  else if mv + 100 ≤ full then s.wrB Reg.THM_STATUS 7 true
  else s

/-- KEEPER_VOLTAGE_CHANGE: VKEEP takes a new value. -/
def execKeeperVoltageChange (mv : BitVec 16) (s : State) : Out := .next (charge mv.toNat s)

/-- Whether keeper thresholds keep the order of R535. -/
def keeperOrder (zthr low : Nat) : Bool := decide (2330 ≤ low) && decide (low ≤ 2500) && decide (low + 50 ≤ zthr)

/-- SET_KEEPER: the keeper thresholds; lowering ZTHR or ZERO needs a device-scope ticket (R535, R545). -/
def execSetKeeper (c : HostCmd) (zthr low vfull : BitVec 16) (s : State) : Out :=
  let falls := decide (zthr.toNat < s.fld Reg.THM_KEEP_ZTHR 15 0) || decide (low.toNat < s.fld Reg.THM_KEEP_ZERO 15 0)
  .next (hostRun 0x0A16 c [] (withTicket 0x0A16 c devScope falls 0x2A01 (fun _ s =>
    if !keeperOrder zthr.toNat low.toNat then .fail 0x1A02
    else .done 0 [] 0 (charge (s.rd Reg.THM_KEEP_V).toNat (((s.wr Reg.THM_KEEP_ZTHR (zthr.setWidth 32)).wr Reg.THM_KEEP_ZERO (low.setWidth 32)).wr Reg.THM_KEEP_VFULL (vfull.setWidth 32))))) s)

/-! ### Coolant and thermal control (R536 to R539) -/

/-- A reading in signed Q8.8 as an integer of 1/256 degrees. -/
def q88 (w : Word) : Int := (w.setWidth 16 : BitVec 16).toInt

/-- Whether a thermal condition is in force. -/
def State.thermal (s : State) (i : Nat) : Bool := s.tpr.conds.getLsbD i

/-- Set a thermal condition; its onset raises an alarm and an interrupt bit. -/
def setThermal (i : Nat) (on : Bool) (cls detail src bit_ : Nat) (s : State) : State :=
  if s.thermal i = on then s
  else
    let s := updTpr (fun t => { t with conds := if on then t.conds ||| 1#6 <<< i else t.conds &&& ~~~(1#6 <<< i) }) s
    if on then irq Reg.THM_IRQ_STATUS 16 bit_ (alarm cls detail src false s) else s

/-- The duty in force: with the governor on, 20 % while any die reads below 10 °C, else 100 % while a tile is at its warning level or a flow alarm is
active, else what the PI loop asks for, from 20 to 100 % (R536). -/
def govern (cold : Bool) (asked : Nat) (s : State) : State :=
  if !s.bitOf Reg.THM_CTL 0 then s
  else
    let warm := (List.range 4).any s.thermal || s.bitOf Reg.THM_STATUS 4
    s.wrF Reg.THM_DUTY 6 0 (if cold then 20 else if warm then 100 else max 20 (min 100 asked))

/-- The flow of a tachometer reading, unsigned Q8.8 with its saturation flag (R536, R538). -/
def flowWord (tach k : Nat) : Word := if 65535 < tach * k / 256 then 0x1FFFF else BitVec.ofNat 32 (tach * k / 256)

/-- THERMAL_SAMPLE: corrected readings of the tiles, the Strongroom, the coldest die, inlet and outlet, the tachometer, and the duty the PI loop
asks for. -/
def execThermalSample (tj : Vector (BitVec 17) 4) (sr coldest inlet outlet : BitVec 17) (tach : BitVec 16) (duty : BitVec 7) (s : State) : Out :=
  if !s.sys.mainPower then .next s
  else
    let t (k : Nat) : Word := (tj.toList.getD k 0).setWidth 32
    let s := (List.range 4).foldl (fun (s : State) k => s.wr (Reg.THM_TJ k) (t k)) s
    let s := (((s.wr Reg.THM_TJ_SR (sr.setWidth 32)).wr Reg.THM_TJ_MIN (coldest.setWidth 32)).wr Reg.THM_INLET (inlet.setWidth 32)).wr
      Reg.THM_OUTLET (outlet.setWidth 32)
    let s := (s.wr Reg.THM_TACH (tach.setWidth 32)).wr Reg.THM_FLOW (flowWord tach.toNat (s.fld Reg.THM_FLOW_K 15 0))
    let s := (List.range 4).foldl (fun (s : State) k => setThermal k (decide (q88 (s.rd Reg.THM_TJ_WARN) ≤ q88 (t k))) 0x04 1 (srcTile k) 0 s) s
    let r := q88 (sr.setWidth 32)
    let s := setThermal 4 (decide (105 * 256 ≤ r) || (s.thermal 4 && decide (95 * 256 ≤ r))) 0x04 3 (srcMaster 1026) 0 s
    let i := q88 (inlet.setWidth 32)
    let s := setThermal 5 (decide (i < 15 * 256) || decide (40 * 256 < i)) 0x05 1 (srcMaster 1026) 2 s
    let s := if tach = 0 then s else s.wrB Reg.THM_STATUS 5 false
    let cold := q88 (coldest.setWidth 32) < 10 * 256 || r < 10 * 256 || (List.range 4).any (fun k => decide (q88 (t k) < 10 * 256))
    .next (govern cold duty.toNat s)

/-- HOT_HOLD_ENTER: a tile at 105 °C for 1 ms; its ports behave as though RELEASE were 0 (R537). -/
def execHotHoldEnter (tile : Fin 4) (s : State) : Out :=
  if !s.sys.mainPower || s.bitOf Reg.THM_STATUS tile then .next s
  else
    let s := (s.wrB Reg.THM_STATUS tile true).bump Reg.THM_HOT_HOLDS
    .next (settlePorts (128 * tile) 128 (irq Reg.THM_IRQ_STATUS 16 1 (alarm 0x04 2 (srcTile tile) false s)))

/-- HOT_HOLD_CLEAR: the tile has been below THM_TJ_WARN for 1 s. -/
def execHotHoldClear (tile : Fin 4) (s : State) : Out :=
  if !s.bitOf Reg.THM_STATUS tile then .next s
  else .next (settlePorts (128 * tile) 128 (s.wrB Reg.THM_STATUS tile false))

/-- A coolant condition of THM_STATUS begins, with its alarm. -/
def coolant (i detail : Nat) (s : State) : State :=
  if !s.sys.mainPower || s.bitOf Reg.THM_STATUS i then s
  else irq Reg.THM_IRQ_STATUS 16 2 (alarm 0x05 detail (srcMaster 1026) false (s.wrB Reg.THM_STATUS i true))

/-- FLOW_LOW: the flow has been below 1.5 L/min for 2 s, or at or above it again for 2 s; a flow alarm forces full duty. -/
def execFlowLow (low : Bool) (s : State) : Out :=
  if low then .next (govern (decide (q88 (s.rd Reg.THM_TJ_MIN) < 10 * 256)) (s.fld Reg.THM_DUTY 6 0) (coolant 4 2 s))
  else .next (s.wrB Reg.THM_STATUS 4 false)

/-- PUMP_FAIL: the tachometer has been at 0 Hz for 2 s with a duty of 30 % or more. -/
def execPumpFail (s : State) : Out := if s.fld Reg.THM_DUTY 6 0 < 30 then .next s else .next (coolant 5 3 s)

/-- LEAK: LEAK_SENSE has been asserted for 100 ms; the pump keeps running. -/
def execLeak (s : State) : Out := .next (coolant 6 4 s)

/-- LEAK_CLEAR: LEAK_SENSE is deasserted. -/
def execLeakClear (s : State) : Out := .next (s.wrB Reg.THM_STATUS 6 false)

/-- SET_THERMAL: setpoint 40 to 90 °C and warning level 80 to 100 °C; the expert form adds a fixed duty, in force while GOV_EN is 0, and FLOW_K. -/
def execSetThermal (c : HostCmd) (setpoint warn : BitVec 16) (duty : BitVec 8) (flowK : BitVec 16) (s : State) : Out :=
  .next (hostRun 0x0A14 c [] (fun s =>
    if setpoint < 0x2800 ∨ 0x5A00 < setpoint ∨ warn < 0x5000 ∨ 0x6400 < warn ∨ (c.expert ∧ (duty < 20 ∨ 100 < duty)) then .fail 0x1A01
    else
      let s := (s.wr Reg.THM_TJ_SET (setpoint.setWidth 32)).wr Reg.THM_TJ_WARN (warn.setWidth 32)
      let s := if c.expert then s.wr Reg.THM_FLOW_K (flowK.setWidth 32) else s
      .done 0 [] 0 (if c.expert ∧ !s.bitOf Reg.THM_CTL 0 then s.wrF Reg.THM_DUTY 6 0 duty.toNat else s)) s)

/-! ### Queries (R545) -/

/-- Registers as output bytes. -/
def regsOut (s : State) (l : List Nat) : Bytes := l.flatMap (fun a => be 4 (s.rd a).toNat)

/-- GET_TAMPER. -/
def execGetTamper (c : HostCmd) (s : State) : Out :=
  .next (hostRun 0x0A01 c [] (fun s =>
    .done 0 (regsOut s [Reg.TPR_CFG, Reg.TPR_STATUS, Reg.TPR_RAW, Reg.TPR_CONFIRMED, Reg.TPR_BIC_FAIL, Reg.TPR_GLITCH]
      ++ be 4 (s.tpr.log.filter (fun e => !e.transferred)).length) 0 s) s)

/-- READ_TAMPER_LOG: entries from the first named; 0x1A01 past the log's 64, 0x3A01 when they do not fit. -/
def execReadTamperLog (c : HostCmd) (first count : BitVec 8) (s : State) : Out :=
  .next (hostRun 0x0A02 c [] (fun s =>
    if 64 ≤ first.toNat ∨ count = 0 ∨ 64 < first.toNat + count.toNat then .fail 0x1A01
    else
      let out := ((s.tpr.log.drop first.toNat).take count.toNat).flatMap TamperEntry.bytes
      if c.outLen < out.length then .fail 0x3A01 else .done 0 out 0 s) s)

/-- GET_THERMAL. -/
def execGetThermal (c : HostCmd) (s : State) : Out :=
  .next (hostRun 0x0A04 c [] (fun s =>
    .done 0 (regsOut s ([Reg.THM_STATUS] ++ (List.range 4).map Reg.THM_TJ ++ [Reg.THM_TJ_SR, Reg.THM_TJ_MIN, Reg.THM_INLET, Reg.THM_OUTLET,
      Reg.THM_FLOW, Reg.THM_TACH, Reg.THM_DUTY, Reg.THM_TJ_SET, Reg.THM_TJ_WARN, Reg.THM_HOT_HOLDS])) 0 s) s)

/-- GET_KEEPER. -/
def execGetKeeper (c : HostCmd) (s : State) : Out :=
  .next (hostRun 0x0A05 c [] (fun s =>
    .done 0 (regsOut s [Reg.THM_KEEP_V, Reg.THM_KEEP_MIN, Reg.THM_KEEP_ZTHR, Reg.THM_KEEP_ZERO, Reg.THM_KEEP_VFULL, Reg.THM_STATUS]) 0 s) s)

end Sys2Proof.Machine
end

