-- ==== Sys2Proof/Machine/Alarms.lean ====
section
/-! DEFINITION. The alarm aggregator: reports, closing of records, summaries, the queue and its commands (R540 to R545, R548). -/

namespace Sys2Proof.Machine

/-- Change the aggregator. -/
def updAlm (f : AlarmState → AlarmState) (s : State) : State := { s with alm := f s.alm }

/-- A bit of ALM_IRQ_STATUS; the aggregator reports to nobody. -/
def almIrq (b : Nat) (s : State) : State := s.wrB Reg.ALM_IRQ_STATUS b true

/-- Put a record into the queue (R544). -/
def queueAlarm (a : Alarm) (s : State) : State :=
  let n := s.alm.queue.length
  let put (s : State) : State :=
    let s := updAlm (fun x => { x with queue := x.queue ++ [a] }) (almIrq 0 s)
    if n + 1 = 192 then almIrq 3 s else s
  if a.security then
    almIrq 1 (if n < 256 then put s else updAlm (fun x => { x with held := x.held ++ [a] }) s)
  else if n < 224 then put s
  else almIrq 2 (s.bump Reg.ALM_DROP)

/-- Pass a closed record to the Ledger (R544): a SECURITY record as a TAMPER event of kind 0xFF, any other as an ALARM event. The record of a detection
travels in that detection's own TAMPER event. -/
def ledgerAlarm (a : Alarm) (s : State) : State :=
  if a.cls = 1 then s
  else if a.security then
    event 0x0010 (srcMaster 1025) a.tenant (be 1 0xFF ++ [0, 0] ++ be 1 s.sys.mode.code ++ be 4 s.keeperSecs ++ a.bytes) s
  else event 0x0011 (srcMaster 1025) a.tenant a.bytes s

/-- Close a record: counted, queued and passed to the Ledger; ALM_FIRST keeps the record as it closed. -/
def closeAlarm (a : Alarm) (s : State) : State :=
  let s := if a.first ∧ (tget (dflt none) s.alm.firsts a.cls).any (fun f => f.firstStamp == a.firstStamp)
    then updAlm (fun x => { x with firsts := tput (dflt none) x.firsts a.cls (some a) }) s else s
  ledgerAlarm a (queueAlarm a (s.bump Reg.ALM_RECORDS))

/-- Whether the class of a report makes it SECURITY by itself (R540). -/
def securityClass (cls detail : Nat) : Bool := cls == 1 || cls == 3 || (cls == 2 && (detail == 1 || detail == 2 || detail == 6))

/-- ALARM_REPORT: a block's report; the aggregator attributes a LINK report, and an INTEGRITY report of a custody or tile-to-tile link, to the
transmitter (R540, R541). -/
def execAlarmReport (cls : Fin 12) (detail : BitVec 8) (security : Bool) (src transmitter tenant : BitVec 16) (data : Word) (s : State) : Out :=
  if cls = 0 || !s.sys.mainPower then .next s
  else
    let link := cls.val == 7 || (cls.val == 2 && (detail == 3 || detail == 4))
    .next (report ⟨cls, detail.toNat, security || securityClass cls detail.toNat, src.toNat, (if link then transmitter else src).toNat,
      tenant.toNat, data.toNat⟩ s)

/-- ALARM_RECORD_CLOSE: every open record without an identical report for 10 microseconds closes. -/
def execAlarmRecordClose (dt : Nat) (s : State) : Out :=
  let s := s.advance dt
  let old (a : Alarm) : Bool := decide (a.lastAt + 10000 < s.now)
  let l := s.alm.opened.filter old
  .next (l.foldl (fun s a => closeAlarm a s) (updAlm (fun x => { x with opened := x.opened.filter (fun a => !old a) }) s))

/-- A summary record of a port (R543). -/
def summary (cls detail p total : Nat) (s : State) : State :=
  let isFirst := tget (dflt false) s.alm.seen cls == false
  let a : Alarm := ⟨cls, detail, false, false, true, isFirst, [srcPort p], srcPort p, srcPort p, 0xFFFF, sat 65535 total, s.stamp, s.stamp, s.now, 0⟩
  let s := if isFirst then
      (updAlm (fun x => { x with seen := tput (dflt false) x.seen cls true, firsts := tput (dflt none) x.firsts cls (some a) }) s).wrB Reg.ALM_FIRST_VALID cls true
    else s
  closeAlarm a s

/-- What an ingress drop counter has counted since the last summary. -/
def State.dropsSince (s : State) (p o : Nat) : Nat := (((s.rd (Reg.portBase p + o)).toNat : Int) - tget (dflt 0) s.dp.dropBase (1024 * p + o / 4)).toNat

/-- The summary of one port: its drops and its flow time-outs of the second, only where not zero. -/
def summaryPort (p : Nat) (s : State) : State :=
  let d := dropOffsets.map (fun o => (o, s.dropsSince p o))
  let total := (d.map (·.2)).sum
  let top := d.foldl (fun m x => if m.2 < x.2 then x else m) (0, 0)
  let out := tget (dflt 0) s.dp.timeouts p
  let s := { s with dp := { s.dp with
    dropBase := dropOffsets.foldl (fun t o => tput (dflt 0) t (1024 * p + o / 4) (s.rd (Reg.portBase p + o)).toNat) s.dp.dropBase
    timeouts := tput (dflt 0) s.dp.timeouts p 0 } }
  let s := if total = 0 then s else summary 0x09 (top.1 / 4) p total s
  if out = 0 then s else summary 0x0A 0 p out s

/-- DROP_SUMMARY: each second, a cluster reports what its ports dropped. -/
def execDropSummary (cluster : Fin 64) (s : State) : Out :=
  .next ((List.range 8).foldl (fun s i => summaryPort (8 * cluster + i) s) s)

/-- ALM_HEAD_POP: a read of ALM_HEAD7 by ring 0 pops the head record; a record held at its source takes the place (R544, R548). -/
def execAlmHeadPop (ring : Fin 4) (s : State) : Out :=
  if ring ≠ 0 then .next s
  else
    let s := updAlm (fun x => { x with queue := x.queue.drop 1 }) s
    match s.alm.held with
    | [] => .next s
    | a :: r => if s.alm.queue.length < 256 then .next (updAlm (fun x => { x with queue := x.queue ++ [a], held := r }) s) else .next s

/-- Empty ALM_FIRST of the classes of a mask. -/
def ackAlarms (m : Word) (s : State) : State :=
  let s := updAlm (fun x => { x with firsts := tclear x.firsts (fun c => bit m c), seen := tclear x.seen (fun c => bit m c) }) s
  s.wr Reg.ALM_FIRST_VALID (s.rd Reg.ALM_FIRST_VALID &&& ~~~m)

/-- ALM_ACK: only ring 0 may write it (R548). -/
def execAlmAck (ring : Fin 4) (value : Word) (s : State) : Out :=
  if ring ≠ 0 then .next (sysRefuse ring Reg.ALM_ACK s) else .next (ackAlarms (value &&& 0xFFE) s)

/-- ACK_ALARMS. -/
def execAckAlarms (c : HostCmd) (mask : BitVec 16) (s : State) : Out :=
  .next (hostRun 0x0A15 c [] (fun s => .done 0 [] 0 (ackAlarms (mask.setWidth 32 &&& 0xFFE) s)) s)

/-- GET_ALARMS: the aggregator's state; the expert form adds up to 64 queued records. -/
def execGetAlarms (c : HostCmd) (s : State) : Out :=
  .next (hostRun 0x0A03 c [] (fun s =>
    let out := be 4 s.alm.queue.length ++ regsOut s [Reg.ALM_FIRST_VALID, Reg.ALM_RECORDS, Reg.ALM_DROP]
      ++ (if c.expert then (s.alm.queue.take 64).flatMap Alarm.bytes else [])
    if c.outLen < out.length then .fail 0x3A01 else .done 0 out 0 s) s)

end Sys2Proof.Machine
end

