-- ==== Sys2Proof/Machine/FlowCmds.lean ====
section
/-! DEFINITION. The commands of group 0x03: flows and terminals (chapter 06, R210, R211). The layouts of the query outputs are not given by
the spec (log entry 12). -/

namespace Sys2Proof.Machine

/-! ### Queries -/

/-- A cached flow as GET_FLOW returns it at millisecond `now` of uptime: the fields of R189 in order, SCTX left out (R181). -/
def Flow.bytes (now : Nat) (f : Flow) : Bytes :=
  be 1 (match f.stage with | .live => 0 | .setup => 1 | .migrating => 2 | .evicting => 3) ++ be 1 f.dir ++ be 2 f.tenant ++ be 3 f.terminal ++ be 3 f.slot
    ++ be 1 f.profile ++ be 1 f.sgen ++ be 1 f.egen ++ be 2 (match f.prev with | some g => 256 + g | none => 0) ++ be 2 (f.grace - now)
    ++ be 4 f.scount ++ be 4 f.slimit ++ be 4 f.ecount ++ be 4 f.elimit ++ be 6 f.win.high ++ be 8 f.win.map.toNat ++ be 8 f.win.pend.toNat
    ++ be 6 f.win1.high ++ be 8 f.win1.map.toNat ++ be 8 f.win1.pend.toNat ++ be 6 f.txnext ++ be 4 f.replycnt
    ++ be 2 (match f.egress with | some p => 2 ^ 15 + p | none => 0) ++ be 2 f.ctxS ++ be 2 f.ctxE ++ be 2 f.inflight ++ be 2 f.idle
    ++ be 1 (b2n f.rekeyDue + 2 * b2n f.fence) ++ be 1 f.qtag ++ be 1 f.qreplay

/-- The entry of a slot as the device knows it, loaded or still in the image. -/
def State.entryNow (s : State) (n : Nat) : TermEntry :=
  if s.pageLoaded n then s.term n
  else
    let e := tget noEntry s.flow.image n
    if s.flow.fencedStart then e.fenced else e

/-- GET_FLOW: at the home cluster, or at the cluster the expert form names (R211). -/
def execGetFlow (c : HostCmd) (tenant : Fin 512) (terminal : BitVec 24) (dir : Fin 2) (cluster : Fin 64) (s : State) : Out :=
  let t := c.target tenant
  .next (hostRun 0x0301 c [t] (fun s =>
    match s.termSlot 0 t terminal.toNat with
    | none => .fail 0x1301
    | some n =>
      match (if c.expert then some cluster.val else (s.entryNow n).home dir) with
      | none => .fail 0x1302
      | some h =>
        match (s.findFlow h t terminal.toNat dir).bind s.flowAt with
        | some f => .done 0 (f.bytes s.ms) 0 s
        | none => .fail 0x1302) s)

/-- GET_TERMINAL: bytes 0 to 3 of the entry, bytes 0 to 47 in expert form (R210, R181). -/
def execGetTerminal (c : HostCmd) (tenant : Fin 512) (terminal : BitVec 24) (s : State) : Out :=
  let t := c.target tenant
  .next (hostRun 0x0302 c [t] (fun s =>
    match s.termSlot 0 t terminal.toNat with
    | none => .fail 0x1301
    | some n => .done 0 ((s.entryNow n).bytes48.take (if c.expert then 48 else 4)) 0 s) s)

/-- The range of a tenant as a record: tenant, base, quota. -/
def rangeBytes (s : State) (t : Nat) : Bytes := be 2 t ++ be 2 (s.range 0 t).1 ++ be 2 (s.range 0 t).2

/-- GET_QUOTA: every tenant's range for PF0, the VF's own, or the tenant the expert form names (R211). -/
def execGetQuota (c : HostCmd) (tenant : Fin 512) (s : State) : Out :=
  let named := if c.expert then [c.target tenant] else if c.fn.val = 0 then [] else [c.own]
  .next (hostRun 0x0303 c named (fun s =>
    .done 0 (if named = [] then s.tenants.flatMap (rangeBytes s) else named.flatMap (rangeBytes s)) 0 s) s)

/-- The set-up statistics of a set of clusters. -/
def setupStats (s : State) (cs : List Nat) : Bytes :=
  let sum (f : Nat → Nat) : Bytes := be 4 (cs.map (fun c => (s.rd (f c)).toNat)).sum
  sum Reg.FLW_SETUPS ++ sum Reg.FLW_SETUP_FAIL ++ sum Reg.FLW_EVICT_LRU ++ sum Reg.FLW_EVICT_IDLE ++ sum Reg.FLW_MIGRATE_IN
    ++ sum Reg.FLW_MIGRATE_OUT ++ be 4 (cs.map s.setupsBusy).sum

/-- GET_SETUP_STATS: the whole device, or the tile the expert form selects. -/
def execGetSetupStats (c : HostCmd) (tile : Fin 4) (s : State) : Out :=
  .next (hostRun 0x0304 c [] (fun s =>
    .done 0 (setupStats s (if c.expert then (List.range 16).map (16 * tile.val + ·) else List.range 64)) 0 s) s)

/-! ### Allocation -/

/-- The slots of a range of terminals, when the whole range lies inside the quota. -/
def State.slotRange (s : State) (t first count : Nat) : Option (List Nat) :=
  let r := s.range 0 t
  if first + count ≤ 4096 * r.2 then some ((List.range count).map (fun i => 4096 * r.1 + first + i)) else none

/-- Load the pages of a list of slots. -/
def loadSlots (ns : List Nat) (s : State) : State := ns.foldl (fun s n => loadSlot n s) s

/-- The answer of a range command: an interim reply first when the range spans more than one image page (R211). -/
def rangeAnswer (ns : List Nat) (s : State) : Ans :=
  match ns.head?, ns.getLast? with
  | some a, some b => if a / 256 = b / 256 then .done 0 [] 0 s else .both 0x0103 0 [] s
  | _, _ => .done 0 [] 0 s

/-- ALLOC_TERMINALS: a range of FREE terminals becomes ACTIVE, written through (R210, R211); a restart fence that its entries took at loading stays
(R187). -/
def execAllocTerminals (c : HostCmd) (first : BitVec 24) (count : BitVec 24) (hybrid : Bool) (profile : Fin 16) (region : Fin 4096)
    (l4ver : BitVec 16) (s : State) : Out :=
  let t := c.own
  .next (hostRun 0x0310 c [t] (fun s =>
    match s.slotRange t first.toNat count.toNat with
    | none => .fail 0x1301
    | some ns =>
      let reg := if c.expert then region.val else 4095
      if ns.any (fun n => (s.entryNow n).state != 0) then .fail 0x1303
      else if !(s.region t reg).present then .fail 0x2302
      else
        let active (e : TermEntry) : TermEntry := { e with
          state := 1, mode := if c.expert then b2n hybrid else 0, profile := if c.expert then profile.val else 0, region := reg
          l4ver := if c.expert then l4ver.toNat else 0 }
        rangeAnswer ns (throughTerms ns active (loadSlots ns s))) s)

/-- The set-ups of a tenant's terminals in every cluster. -/
def State.setupsWhere (s : State) (t : Nat) (p : Nat → Bool) : List (Nat × Setup) :=
  s.flow.setups.flatMap (fun e => (e.2.filter (fun x => x.tenant == t && p x.terminal)).map (fun x => (e.1, x)))

/-- The set-ups of terminals that have left ACTIVE fail with a verdict (R180, R209). -/
def failSetups (t : Nat) (p : Nat → Bool) (code : Nat) (s : State) : State :=
  (s.setupsWhere t p).foldl (fun s x => failSetup x.1 x.2 code s) s

/-- FREE_TERMINALS: the flows leave, the entries are zeroed and written through (R211). Set-ups of the terminals fail, and their queued exchanges are
discarded (R205); a flow that still drains writes nothing back. -/
def execFreeTerminals (c : HostCmd) (first : BitVec 24) (count : BitVec 24) (s : State) : Out :=
  let t := c.own
  .next (hostRun 0x0311 c [t] (fun s =>
    match s.slotRange t first.toNat count.toNat with
    | none => .fail 0x1301
    | some ns =>
      let within (i : Nat) : Bool := decide (first.toNat ≤ i) && decide (i < first.toNat + count.toNat)
      let s := evictFlows (fun _ f => f.tenant == t && within f.terminal) (failSetups t within 0x14 (loadSlots ns s))
      let s := (s.flowKeys (fun _ f => f.tenant == t && within f.terminal)).foldl (fun s k => updFlow k (fun f => { f with detached := true }) s) s
      let s := (List.range count.toNat).foldl (fun s i => dropExchanges t (first.toNat + i) s) s
      rangeAnswer ns (throughTerms ns (fun _ => TermEntry.free) s)) s)

/-- SET_PROFILE: a terminal profile of the tenant (R195). -/
def execSetProfile (c : HostCmd) (number : Fin 16) (classes : BitVec 16) (actions : BitVec 8) (egress : BitVec 16)
    (zones : List (BitVec 8 × BitVec 8)) (notice : Bool) (s : State) : Out :=
  let t := c.own
  .next (hostRun 0x0312 c [t] (fun s =>
    if 128 ≤ actions.toNat ∨ 512 ≤ egress.toNat ∨ 8 < zones.length ∨ zones.any (fun z => z.1 == z.2) then .fail 0x1304
    else
      let p : Profile := ⟨classes, actions.setWidth 7, egress.toNat, zones.map (fun z => (z.1.toNat, z.2.toNat)), notice⟩
      .done 0 [] 0 (sendConfig t ([6] ++ be 1 number ++ be 2 classes.toNat ++ be 1 actions.toNat ++ be 2 egress.toNat
          ++ zones.flatMap (fun z => [z.1, z.2]) ++ be 1 (b2n notice))
        { s with flow := { s.flow with profiles := tput (dflt Profile.zero) s.flow.profiles (16 * t + number.val) p } })) s)

/-! ### Quarantine and release (R209) -/

/-- QUARANTINE: by command, with QREASON 0x1; the terminal must be ACTIVE. -/
def execQuarantine (c : HostCmd) (tenant : Fin 512) (terminal : BitVec 24) (s : State) : Out :=
  let t := c.target tenant
  .next (hostRun 0x0313 c [t] (fun s =>
    match s.termSlot 0 t terminal.toNat with
    | none => .fail 0x1301
    | some n =>
      if (s.entryNow n).state ≠ 1 then .fail 0x2303
      else .done 0 [] 0 (failSetups t (· == terminal.toNat) 0x15 (quarantine 0 t terminal.toNat 0x1 (loadSlot n s)))) s)

/-- RELEASE: a quarantined terminal becomes ACTIVE again; QREASON 0xF needs a ticket. -/
def execRelease (c : HostCmd) (tenant : Fin 512) (terminal : BitVec 24) (s : State) : Out :=
  let t := c.target tenant
  .next (hostRun 0x0314 c [t] (fun s =>
    match s.termSlot 0 t terminal.toNat with
    | none => withTicket 0x0314 c c.scope false 0 (fun _ _ => .fail 0x1301) s
    | some n =>
      let e := s.entryNow n
      withTicket 0x0314 c c.scope (e.state == 2 && e.qreason == 0xF) 0x2304 (fun _ s =>
        if e.state ≠ 2 then .fail 0x2303
        else
          let s := loadSlot n s
          let s := throughTerm n { s.term n with state := 1, qreason := 0 } s
          let s := (s.flowKeys (fun _ f => f.tenant == t && f.terminal == terminal.toNat)).foldl (fun s k =>
            updFlow k (fun f => { f with qtag := 0, qtagLeft := 0, qreplay := 0, qreplayLeft := 0 }) s) s
          .done 0 [] 0 { s with flow := { s.flow with xchgFails := tput (dflt 0) s.flow.xchgFails n 0 } }) s) s)

/-- EVICT_FLOW: a flow of a terminal leaves the cache (R194, R210). -/
def execEvictFlow (c : HostCmd) (terminal : BitVec 24) (dir : Fin 2) (s : State) : Out :=
  let t := c.own
  .next (hostRun 0x0315 c [t] (fun s =>
    match s.termSlot 0 t terminal.toNat with
    | none => .fail 0x1301
    | some _ => .done 0 [] 0 (evictFlows (fun _ f => f.tenant == t && f.terminal == terminal.toNat && f.dir == dir.val) s)) s)

/-! ### Settings -/

/-- Whether a monitor template has one of the forms of R97: through the EtherType, or through the UDP header. -/
def templateOk (b : Bytes) (etype uport : Nat) : Bool :=
  decide (b.length ≤ 70) && decide (14 ≤ b.length) &&
  match etherOffset b with
  | none => false
  | some e =>
    let t := field b e 2
    let l := e + 2
    if t = etype then b.length == l
    else if t = 0x0800 then b.length == l + 28 && field b l 1 == 0x45 && field b (l + 9) 1 == 17 && field b (l + 22) 2 == uport
    else if t = 0x86DD then b.length == l + 48 && field b l 1 / 16 == 6 && field b (l + 6) 1 == 17 && field b (l + 42) 2 == uport
    else false

/-- Write a template into TRM_MON_TPL of a tile: bytes 0 to 69 and the length in byte 70. -/
def putTemplate (tile t : Nat) (b : Bytes) (s : State) : State :=
  let w := fit 70 b ++ be 1 b.length ++ zeros 25
  (List.range 24).foldl (fun s i => s.wr (Reg.TRM_MON_TPL tile (24 * t + i)) (BitVec.ofNat 32 (ofLe (slice w (4 * i) 4)))) s

/-- SET_VERDICT: the verdict setting, and in expert form the monitor port, MONITOR_EN and template (R211), in all four tiles. -/
def execSetVerdict (c : HostCmd) (setting : BitVec 8) (port : BitVec 16) (enable : Bool) (template : Bytes) (s : State) : Out :=
  let t := c.own
  .next (hostRun 0x0316 c [t] (fun s =>
    let et := s.fld (Reg.DPL_SEAL_ENC 0) 15 0
    let up := s.fld (Reg.DPL_SEAL_ENC 0) 31 16
    if 4 ≤ setting.toNat ∨ (c.expert ∧ (512 ≤ port.toNat ∨ !templateOk template et up)) then .fail 0x1305
    else .done 0 [] 0 ([0, 1, 2, 3].foldl (fun s tile =>
      let s := s.wrF (Reg.TRM_TNT_HI tile t) 1 0 setting.toNat
      if c.expert then
        putTemplate tile t template ((s.wrF (Reg.TRM_TNT_HI tile t) 24 16 port.toNat).wrB (Reg.TRM_TNT_HI tile t) 31 enable)
      else s) s)) s)

/-- Whether a terminal of a tenant is allocated at or above an index. -/
def State.allocatedFrom (s : State) (t first : Nat) : Bool :=
  match s.range 0 t with
  | (b, q) => (List.map (·.1) s.flow.terms ++ List.map (·.1) s.flow.image).any (fun n =>
      decide (4096 * b + first ≤ n) && decide (n < 4096 * (b + q)) && (s.entryNow n).state != 0)

/-- Whether two unit ranges overlap; an empty one meets none. -/
def rangesMeet (b q b' q' : Nat) : Bool := decide (0 < q) && decide (0 < q') && decide (b < b' + q') && decide (b' < b + q)

/-- Give a tenant its register range, in every tile. -/
def setRange (t base quota : Nat) (s : State) : State :=
  [0, 1, 2, 3].foldl (fun s tile => (s.wrF (Reg.TRM_TNT_LO tile t) 10 0 base).wrF (Reg.TRM_TNT_LO tile t) 27 16 quota) s

/-- SET_QUOTA: a tenant's base and quota (R211), in all four tiles. -/
def execSetQuota (c : HostCmd) (tenant : Fin 512) (base quota : BitVec 16) (s : State) : Out :=
  let t := tenant.val
  .next (hostRun 0x0317 c [t] (fun s =>
    let (b, q) := s.range 0 t
    if !(s.tenant t).present then .fail 0x2101
    else if 2048 < base.toNat + quota.toNat
        ∨ s.tenants.any (fun u => u != t && rangesMeet base.toNat quota.toNat (s.range 0 u).1 (s.range 0 u).2) then .fail 0x1306
    else if (base.toNat ≠ b ∧ s.allocatedFrom t 0) ∨ (quota.toNat < q ∧ s.allocatedFrom t (4096 * quota.toNat)) then .fail 0x2305
    else .done 0 [] 0 (sendConfig t ([7] ++ be 2 base.toNat ++ be 2 quota.toNat) (setRange t base.toNat quota.toNat s))) s)

/-! ### Generations -/

/-- Set REKEY_DUE with reason 2 in every cached flow of a terminal. -/
def rekeyFlows (t term : Nat) (s : State) : State :=
  (s.flowKeys (fun _ f => f.tenant == t && f.terminal == term)).foldl
    (fun s k => updFlow k (fun f => { f with rekeyDue := true, rekeyReason := 2, rekeySent := 0 }) s) s

/-- REKEY: for the session key REKEY_DUE is set with reason 2; for the egress key (expert form) E advances (R211). -/
def execRekey (c : HostCmd) (terminal : BitVec 24) (egress : Bool) (s : State) : Out :=
  let t := c.own
  let term := terminal.toNat
  .next (hostRun 0x0318 c [t] (fun s =>
    match s.termSlot 0 t term with
    | none => .fail 0x1301
    | some n =>
      let s' := loadSlot n s
      let e := s'.term n
      if c.expert ∧ egress then
        match (s.flow0 t term).bind (fun k => (s.flowAt k).map (fun f => (k, f))) with
        | some (k, f) =>
          if 255 ≤ f.egen then .fail 0x2306
          else .done 0 [] 0 (needL3 (k / 16384) t e.region (updFlow k (fun f => { f with egWait := true }) s'))
        | none =>
          if 255 ≤ e.egen then .fail 0x2306 else .done 0 [] 0 (setTerm n { e with egen := e.egen + 1, euse := 0 } s')
      else
        let g := match (s.flow0 t term).bind s.flowAt with
          | some f => f.sgen
          | none => e.sgen
        if 255 ≤ g then .fail 0x2306
        else .done 0 [] 0 (rekeyFlows t term (setTerm n { e with rekeyDue := true, reason := 2 } s'))) s)

/-- REENROL: L4VER rises; the generations, counts and CTX are reset, the sequences continue (R201). The flows leave first, so that no key of
the old version stays in use; one that has frames in flight writes back the reset values when it drains. A set-up in progress derives its keys
again. -/
def execReenrol (c : HostCmd) (terminal : BitVec 24) (l4ver : BitVec 16) (s : State) : Out :=
  let t := c.own
  let term := terminal.toNat
  .next (hostRun 0x0319 c [t] (fun s =>
    match s.termSlot 0 t term with
    | none => .fail 0x1301
    | some n =>
      if l4ver.toNat ≤ (s.entryNow n).l4ver then .fail 0x1307
      else
        let s := evictTerminal t term (loadSlot n s)
        let s := (s.flowKeys (fun _ f => f.tenant == t && f.terminal == term)).foldl (fun s k =>
          updFlow k (fun f => { f with sgen := 0, egen := 0, scount := 0, ecount := 0 }) s) s
        let s := (s.setupsWhere t (· == term)).foldl (fun s x =>
          putSetup x.1 { x.2 with l4 := none, skey := none, ekey := none, hkey := none } s) s
        .done 0 [] 0 (setTerm n { s.term n with
          l4ver := l4ver.toNat, sgen := 0, egen := 0, suse0 := 0, suse1 := 0, euse := 0, ctx := false, sctx := [] } s)) s)

/-- FLUSH_REGISTER: the flush begins and FLUSH_DONE completes the command (R185). -/
def execFlushRegister (c : HostCmd) (s : State) : Out :=
  .next (hostRun 0x031A c [] (fun s =>
    let s := beginFlush s
    .wait 0x0103 { s with flow := { s.flow with flushCmds := s.flow.flushCmds ++ [c.ref] } }) s)

/-- SET_FLOW_TIMERS: FLW_TIMEOUT, FLW_GRACE and, in expert form, the quarantine thresholds and windows, in every cluster. -/
def execSetFlowTimers (c : HostCmd) (timeout grace : BitVec 16) (tagCount tagWindow replayCount replayWindow : BitVec 8) (s : State) : Out :=
  .next (hostRun 0x031B c [] (fun s =>
    if timeout.toNat < 1 ∨ 3600 < timeout.toNat ∨ 60000 < grace.toNat
        ∨ (c.expert ∧ (tagWindow = 0 ∨ replayWindow = 0)) then .fail 0x1308
    else .done 0 [] 0 ((List.range 64).foldl (fun s k =>
      let s := (s.wrF (Reg.FLW_TIMEOUT k) 11 0 timeout.toNat).wrF (Reg.FLW_GRACE k) 15 0 grace.toNat
      if c.expert then
        let s := (s.wrF (Reg.FLW_QUAR_TAG k) 7 0 tagCount.toNat).wrF (Reg.FLW_QUAR_TAG k) 23 16 tagWindow.toNat
        (s.wrF (Reg.FLW_QUAR_REPLAY k) 7 0 replayCount.toNat).wrF (Reg.FLW_QUAR_REPLAY k) 23 16 replayWindow.toNat
      else s) s)) s)

end Sys2Proof.Machine
end

