-- ==== Sys2Proof/Machine/Pair.lean ====
section
/-! DEFINITION. Device pairs and charters (chapter 21): the mirror link, leases, takes, replication, pair formation, and the commands of group
0x0B. -/

namespace Sys2Proof.Machine

/-- Change the pair state. -/
def updPair (f : PairState → PairState) (s : State) : State := { s with pair := f s.pair }

/-- An interrupt bit of the PAI block. -/
def paiIrq (b : Nat) (s : State) : State := irq Reg.PAI_IRQ_STATUS 18 b s

/-- A LEASE or CHARTER message has arrived over the mirror link (R549). -/
def heard (s : State) : State := updPair (fun p => { p with lastMsg := s.now }) s

/-- PAI_GUARD in nanoseconds. -/
def State.guardNs (s : State) : Nat := s.fld Reg.PAI_GUARD 13 0 * 1000

/-- The first epoch cut at or after a timebase value. -/
def State.cutAfter (s : State) (ns : Nat) : Nat := s.tim.wraps * 2 ^ 34 + (ns + 999999999) / 1000000000

/-! ### The link (R549, R554 to R556) -/

/-- How many lanes of a map are trained. -/
def laneCount (m : BitVec 8) : Nat := ((List.range 8).filter m.getLsbD).length

/-- The generation exchange this side sends: tenant, generation and hand-over cut of every record. -/
def State.generations (s : State) : Bytes := s.pair.charters.flatMap (fun e => be 2 e.1 ++ be 4 e.2.gen ++ be 8 (e.2.cut.getD 0))

/-- Whether a frame of a tenant is still in flight. -/
def State.framesLeft (s : State) (t : Nat) : Bool :=
  s.flow.flows.any (fun e => match e.2 with | some f => f.tenant == t && decide (0 < f.inflight) | none => false)

/-- A RELEASING tenant whose cut has passed and whose last frame has completed: the state of its cached flows goes into their entries, its dirty entries
and FINAL are sent, and it becomes STANDBY once its LAST root is sent too (R552, R555). -/
def sendFinal (t : Nat) (s : State) : State :=
  let c := s.charter t
  if c.role ≠ 3 ∨ c.final ∨ !s.pair.linkUp then releaseCharter t s
  else match c.cut with
    | none => s
    | some e =>
      if s.epoch < e ∨ s.framesLeft t then s
      else
        let s := s.flow.flows.foldl (fun s x => match x.2 with | some f => if f.tenant = t then writeBackFlow x.1 f s else s | none => s) s
        let s := (s.dirty.filter (fun n => s.slotTenant n == some t)).foldl (fun s n => sendLine n s) s
        releaseCharter t (sendPair ⟨.final, t, be 8 e⟩ (s.setCharter t { c with final := true }))

/-- MIRROR_LINK_UP: at least four lanes are trained and a message has arrived; the backlog is sent in order, the generations are exchanged, and a
RELEASING device sends what it owes. -/
def execMirrorLinkUp (lanes : BitVec 8) (s : State) : Out :=
  if !s.sys.mainPower || !s.bitOf Reg.PAI_CTL 0 || s.pair.linkUp || decide (laneCount lanes < 4) then .next s
  else
    let s := updPair (fun p => { p with linkUp := true, lanes := lanes.toNat, lastMsg := s.now, sent := p.sent ++ p.backlog, backlog := [] }) s
    let s := report ⟨0x07, 3, false, srcMaster 1031, srcMaster 1031, 0xFFFF, 0⟩ (paiIrq 1 s)
    if !s.pair.paired then .next s
    else
      let s := sendPair ⟨.charter, 0xFFFF, s.generations⟩ s
      .next ((s.pair.charters.map (·.1)).foldl (fun s t => sendFinal t s) s)

/-- Load every terminal entry of a tenant with the restart fence (R187, R553). -/
def fenceTenant (t : Nat) (s : State) : State :=
  let (b, q) := s.range 0 t
  ((List.range (4096 * q)).map (4096 * b + ·)).foldl (fun s n => let s := loadSlot n s; setTerm n (s.term n).fenced s) s

/-- A TAKING device that has not received FINAL when the link fails will seal at E + PAI_GUARD with the restart fence (R555). -/
def takeAlone (t : Nat) (s : State) : State :=
  let c := s.charter t
  match c.role, c.cut, c.start with
  | 4, some e, none => fenceTenant t (s.setCharter t { c with start := some (State.cutNs e + s.guardNs) })
  | _, _, _ => s

/-- Any set of fewer than four lanes, from any byte. -/
def fewLanes (v : BitVec 8) : BitVec 8 :=
  if laneCount v < 4 then v else if laneCount (~~~v) < 4 then ~~~v else v &&& (v - 1)

/-- Whether no message has arrived for 100 ms (R549). -/
def State.silent (s : State) : Bool := decide (s.pair.lastMsg + 100000000 ≤ s.now)

/-- Unless the link goes down by silence, fewer than four lanes are left trained: which ones is a free value (R549, log entry 269). -/
def loseLanes (s : State) : State :=
  if s.silent then s
  else updPair (fun p => { p with lanes := (fewLanes ((Config.freeBits s.free).setWidth 8)).toNat }) s.drawn

/-- MIRROR_LINK_DOWN: no message has arrived for 100 ms, or fewer than four lanes are trained (R549); each role acts as the table of R555 states. -/
def execMirrorLinkDown (s : State) : Out :=
  if !s.pair.linkUp then .next s
  else
    let s := loseLanes s
    let s := (updPair (fun p => { p with linkUp := false }) s).bump Reg.PAI_LINK_DOWNS
    let s := report ⟨0x07, 3, false, srcMaster 1031, srcMaster 1031, 0xFFFF, 0⟩ (paiIrq 0 s)
    .next ((s.pair.charters.map (·.1)).foldl (fun s t => takeAlone t s) s)

/-- A record loaded as DORMANT at this start takes its role again (R556). The link was down meanwhile, as R555 has it for a TAKING device. -/
def resumeRole (t : Nat) (s : State) : State :=
  let c := s.charter t
  if c.role = 5 ∧ c.prior ≠ 0 then takeAlone t (s.setCharter t { c with role := c.prior, prior := 0 }) else s

/-- A side with the lower generation is stale: DORMANT at once, with a CHARTER event that names the epoch from which the partner seals (R554). -/
def makeStale (t gen cut : Nat) (s : State) : State :=
  let c := s.charter t
  let before := if c.role = 5 then c.prior else c.role
  let s := s.setCharter t { c with role := 5, prior := 0, gen := gen, cut := none, granted := 0, leaseHeld := 0, start := none, final := false }
  paiIrq 3 (charterEvent 7 t before cut s)

/-- GENERATION_EXCHANGE: the partner's generation and cut of every tenant; a record loaded as DORMANT at this start takes its role again unless it is
stale (R554, R556). -/
def execGenerationExchange (gens : List (Fin 512 × BitVec 32 × BitVec 64)) (s : State) : Out :=
  if !s.pair.linkUp || !s.pair.paired then .next s
  else
    .next ((s.pair.charters.map (·.1)).foldl (fun s t =>
      let c := s.charter t
      let (g, e) := ((gens.find? (fun x => x.1.val == t)).map (fun x => (x.2.1.toNat, x.2.2.toNat))).getD (0, 0)
      let role := if c.role = 5 then c.prior else c.role
      if (role = 1 ∨ role = 3) ∧ c.gen < g then makeStale t g e s else resumeRole t s) (heard s))

/-! ### Leases (R551) -/

/-- The expiry a LEASE sent now grants for a tenant: 200 ms ahead, capped at any cut. -/
def State.leaseExpiry (s : State) (c : Charter) : Nat :=
  match c.cut with
  | some e => min (s.tim.now + 200000000) (State.cutNs e)
  | none => s.tim.now + 200000000

/-- Whether this side grants leases for a record: STANDBY, or TAKING before the cut. -/
def State.grantsLease (s : State) (c : Charter) : Bool :=
  c.role == 2 || (c.role == 4 && (match c.cut with | some e => decide (s.tim.now < cutNs e) | none => false))

/-- LEASE_TIMER: every 50 ms, LEASE is sent for the tenants this side grants leases for; each expiry takes a message of its own. -/
def execLeaseTimer (dt : Nat) (s : State) : Out :=
  let s := s.advance dt
  if !s.pair.linkUp || !s.pair.paired then .next s
  else
    let l := (s.pair.charters.filter (fun e => s.grantsLease e.2)).map (fun e => (e.1, s.leaseExpiry e.2))
    let times := (l.map (·.2)).eraseDups
    let s := l.foldl (fun (s : State) x => s.setCharter x.1 { s.charter x.1 with granted := x.2 }) s
    .next (times.foldl (fun (s : State) x =>
      let map := l.foldl (fun m y => if y.2 = x then m ||| 1#512 <<< y.1 else m) 0#512
      (sendPair ⟨.lease, 0xFFFF, (List.range 64).map (fun j => (map >>> (8 * j)).setWidth 8) ++ be 8 (State.packStamp x).toNat⟩ s).bump Reg.PAI_LEASES_SENT) s)

/-- LEASE_RECEIVED: the holder holds the lease for each tenant of the map. -/
def execLeaseReceived (dt : Nat) (map : BitVec 512) (expiry : BitVec 64) (s : State) : Out :=
  let s := s.advance dt
  if !s.pair.paired then .next s
  else
    .next (s.pair.charters.foldl (fun (s : State) e =>
      if map.getLsbD e.1 && (e.2.role == 1 || e.2.role == 3) then s.setCharter e.1 { e.2 with leaseHeld := State.stampNs expiry } else s) (heard s))

/-- LEASE_EXPIRY: a RELEASING holder reaches its lease expiry and seals no more. -/
def execLeaseExpiry (dt : Nat) (tenant : Fin 512) (s : State) : Out :=
  let s := s.advance dt
  let c := s.charter tenant
  if c.role = 3 ∧ c.leaseHeld ≤ s.tim.now then .next (s.setCharter tenant { c with leaseHeld := 0 }) else .next s

/-! ### Taking a charter (R552, R553) -/

/-- Commit a role of a take: the generation rises, and a CHARTER event is written. -/
def takeCommit (t role action e : Nat) (s : State) : State :=
  let c := s.charter t
  charterEvent action t c.role e (s.setCharter t { c with role := role, gen := (c.gen + 1) % 2 ^ 32, cut := some e, final := false, start := none, await := if role = 4 ∧ action ≠ 5 then some 0 else none })

/-- TAKE_REQUEST_RECEIVED: the holder becomes RELEASING, sets the cut and acknowledges with it. -/
def execTakeRequestReceived (dt : Nat) (tenant : Fin 512) (s : State) : Out :=
  let s := s.advance dt
  if !s.pair.linkUp || !s.pair.paired || (s.charter tenant).role != 1 then .next s
  else
    let e := s.cutAfter (s.tim.now + 100000000)
    .next (sendPair ⟨.takeAck, tenant, be 8 e⟩ (takeCommit tenant 3 2 e (heard s)))

/-- TAKE_ACK_RECEIVED: the taker becomes TAKING. -/
def execTakeAckReceived (dt : Nat) (tenant : Fin 512) (cut : BitVec 64) (s : State) : Out :=
  let s := s.advance dt
  let c := s.charter tenant
  if !s.pair.linkUp || !s.pair.takes.any (fun k => k.tenant == tenant.val && !k.force && decide (s.ms ≤ k.sent + 100)) || !(c.role == 2 || c.role == 5) then .next s
  else .next (takeCommit tenant 4 2 cut.toNat (heard s))

/-- TAKE_ACK_TIMEOUT: 100 ms without an acknowledgement; the command completes with 0x2B03 and the role stays. -/
def execTakeAckTimeout (dt : Nat) (tenant : Fin 512) (s : State) : Out :=
  let s := s.advance dt
  match s.pair.takes.find? (fun k => k.tenant == tenant.val && !k.force && decide (k.sent + 100 ≤ s.ms)) with
  | none => .next s
  | some k =>
    if (s.charter tenant).role = 4 then .next s
    else .next (finalReply k.cmd 0x2B03 [] 0 (updPair (fun p => { p with takes := p.takes.filter (fun x => x != k) }) s))

/-- HANDOVER_CUT: the cut E of a RELEASING tenant passes; its entries and FINAL are sent. -/
def execHandoverCut (dt : Nat) (tenant : Fin 512) (s : State) : Out := .next (sendFinal tenant (s.advance dt))

/-- FINAL_RECEIVED: the taker seals from the later of E + PAI_GUARD and this instant. After a link failure FINAL is discarded (R555). -/
def execFinalReceived (dt : Nat) (tenant : Fin 512) (s : State) : Out :=
  let s := s.advance dt
  let c := s.charter tenant
  match c.cut with
  | some e =>
    if !s.pair.linkUp || c.role != 4 || c.start.isSome then .next s
    else .next ((heard s).setCharter tenant { c with final := true, start := some (max (State.cutNs e + s.guardNs) s.tim.now) })
  | none => .next s

/-- TAKING_GUARD_END: the start stamp is reached; the taking device is HOLDER, and the command completes. A LAST root that has not come is awaited
(R558). -/
def execTakingGuardEnd (dt : Nat) (tenant : Fin 512) (s : State) : Out :=
  let s := s.advance dt
  let t := tenant.val
  let c := s.charter t
  match c.start with
  | some x =>
    if c.role ≠ 4 ∨ s.tim.now < x then .next s
    else
      let e := c.cut.getD 0
      let has := s.pair.roots.any (fun r => r.1 == t && r.2.1 + 1 == e)
      let s := s.setCharter t { c with role := 1, start := none, cut := none, granted := 0, final := false, await := if has then none else c.await }
      let s := paiIrq 2 (charterEvent 4 t 4 e s)
      let l := s.pair.takes.filter (fun k => k.tenant == t)
      let s := updPair (fun p => { p with takes := p.takes.filter (fun k => k.tenant != t) }) s
      .next (l.foldl (fun s k => finalReply k.cmd 0 [] 0 s) s)
  | none => .next s

/-- TAKE_CHARTER: takes a tenant's charter with a tenant-scope ticket; FORCE only while the link is down (R552, R553). A DORMANT device may take as a
STANDBY one does once the link has returned (R555). -/
def execTakeCharter (c : HostCmd) (tenant : BitVec 16) (force : Bool) (s : State) : Out :=
  .next (hostRun 0x0B12 c [] (fun s =>
    let t := tenant.toNat
    let f := c.expert && force
    if c.ticket.isNone then .fail 0x2B05
    else if !s.pair.paired then .fail 0x2B02
    else if 512 ≤ t ∨ (s.charter t).role = 0 then .fail 0x1B01
    else withTicket 0x0B12 c t true 0x2B05 (fun _ s =>
      let role := (s.charter t).role
      if f ∧ s.pair.linkUp then .fail 0x2B05
      else if !f ∧ !s.pair.linkUp then .fail 0x2B02
      else if !(role == 2 || (role == 5 && !f)) then .fail 0x2B03
      else if s.pair.takes.any (fun k => k.tenant == t) then .later
      else
        let s := updPair (fun p => { p with takes := p.takes ++ [⟨t, c.ref, f, s.ms⟩] }) s
        if f then
          let e := s.cutAfter (match (s.charter t).granted with | 0 => s.tim.now + 1 | x => x + 1)
          let s := fenceTenant t (takeCommit t 4 5 e s)
          .wait 0x010E (s.setCharter t { s.charter t with start := some (State.cutNs e + s.guardNs) })
        else .wait 0x010E (sendPair ⟨.takeRequest, t, []⟩ s)) s) s)

/-- RESUME_SOLO: the records of the previous start return, under a device-scope ticket (R556). -/
def execResumeSolo (c : HostCmd) (s : State) : Out :=
  .next (hostRun 0x0B13 c [] (fun s =>
    if c.ticket.isNone then .fail 0x2B05
    else if !s.pair.paired then .fail 0x2B02
    else withTicket 0x0B13 c devScope true 0x2B05 (fun _ s =>
      .done 0 [] 0 ((s.pair.charters.map (·.1)).foldl (fun (s : State) t =>
        resumeRole t s) s)) s) s)

/-! ### Replication (R557, R558) -/

/-- ROOT_MESSAGE: a tenant root record of the holder is kept and acknowledged; the tenant's chain on this device goes on from it. -/
def execRootMessage (tenant : Fin 512) (epoch : BitVec 64) (record : Bytes) (s : State) : Out :=
  if !s.pair.linkUp || !s.pair.paired then .next s
  else
    let t := tenant.val
    let s := updPair (fun p => { p with roots := p.roots ++ [(t, epoch.toNat, record)] }) s
    let c := s.charter t
    let s := if c.role ≠ 1 ∨ c.await.isSome then
        let d := sha256 (record.take 128)
        let s : State := { s with ldg := { s.ldg with prev := tput (dflt []) s.ldg.prev t d, prevDone := tput (dflt []) s.ldg.prevDone t d } }
        s.setCharter t { c with await := none }
      else s
    .next (sendPair ⟨.rootAck, t, be 8 epoch.toNat⟩ s)

/-- A root no longer waits for its acknowledgement. -/
def rootReleased (t e : Nat) (s : State) : State :=
  pump (updPair (fun p => { p with ackWait := p.ackWait.filter (fun w => !(w.1 == t && w.2.1 == e)) }) s)

/-- ROOT_ACK: the partner has the root; the holder programs it. -/
def execRootAck (tenant : Fin 512) (epoch : BitVec 64) (s : State) : Out := .next (rootReleased tenant epoch.toNat s)

/-- ROOT_ACK_TIMEOUT: after 1 s without an acknowledgement the holder programs the root anyway. -/
def execRootAckTimeout (dt : Nat) (tenant : Fin 512) (epoch : BitVec 64) (s : State) : Out :=
  let s := s.advance dt
  if s.pair.ackWait.any (fun w => w.1 == tenant.val && w.2.1 == epoch.toNat && decide (w.2.2 + 1000 ≤ s.ms)) then
    .next (rootReleased tenant epoch.toNat s)
  else .next s

/-- The entry that 64 bytes hold (R181). -/
def readEntry (b : Bytes) : TermEntry :=
  let f := field b 0 1
  let opt (v : Nat) (hi : Nat) (n : Nat) : Option Nat := if nbit v hi then some (v % n) else none
  { state := f % 4, mode := f / 4 % 2, ctx := nbit f 3, rekeyDue := nbit f 4, fence := nbit f 5
    sgen := field b 1 1, egen := field b 2 1, qreason := field b 3 1 % 16, profile := field b 3 1 / 16
    attach := opt (field b 4 2) 15 512, home0 := opt (field b 6 1) 7 64, home1 := opt (field b 7 1) 7 64
    region := field b 8 2 % 4096, rxhigh := field b 10 6, rxmap := BitVec.ofNat 64 (field b 16 8), txnext := field b 24 6
    replycnt := field b 30 4, suse0 := field b 34 4, suse1 := field b 38 4, euse := field b 42 4, l4ver := field b 46 2
    sctx := if nbit f 3 then slice b 48 16 else [], reason := 0 }

/-- LINE_MESSAGE: a replicated terminal register entry goes into this device's register; its homes are the holder's and name no cluster here. -/
def execLineMessage (slot : Fin 8388608) (entry : Bytes) (s : State) : Out :=
  if !s.pair.linkUp || !s.pair.paired then .next s
  else match s.slotTenant slot with
    | some t =>
      if (s.charter t).role = 1 then .next s
      else .next (setTerm slot { readEntry entry with home0 := none, home1 := none } (loadSlot slot s))
    | none => .next s

/-- PAGE_MESSAGE: a replicated receipt page is kept with the holder's page sequence. -/
def execPageMessage (tenant : Fin 512) (seq : BitVec 64) (page : Bytes) (s : State) : Out :=
  if !s.pair.linkUp || !s.pair.paired then .next s
  else .next (updPair (fun p => { p with pages := p.pages ++ [(tenant.val, seq.toNat, page)] }) s)

/-! ### Configuration and domains (R549, R559) -/

/-- Do the work of a message inside the ceremony open on this device, as a step whose undo data is given; outside an open ceremony nothing happens. -/
def pairStep (op : Nat) (u : List Undo) (work : State → State) (s : State) : State :=
  if s.cer.phase = .opened ∧ !s.stepLimit u then doneStep op (work (beginStep op u s)) else s

/-- A purge of every tile, for a change that the partner has committed (R239, R549). -/
def purgeAll (w : PurgeWhat) (s : State) : State := [0, 1, 2, 3].foldl (fun s tile => purgeTile tile w s) s

/-- Apply a replicated change (R549): a tenant is created as STANDBY with the same keys, since both devices hold the domain. -/
def applyConfig (x : PairConfig) (s : State) : State :=
  match x with
  | .create t d w m r =>
    if (s.tenant t).present ∨ (s.slot (1 + d.val)).state ≠ 1 then s
    else pairStep 0x0917 (createUndo t s) (createTenant 2 t d w m.toNat r.toNat) s
  | .destroy t => removeTenant t (removeTenantKeys t (purgeAll (.destroyTenant t) s))
  | .region t r p g =>
    let rolled := (s.region t r).gen ≠ g.toNat
    let s : State := { s with keys := { s.keys with
      regions := tput (dflt ⟨false, false, 0⟩) s.keys.regions (4096 * t.val + r.val) ⟨true, p, g.toNat⟩ } }
    if rolled then purgeAll (.regionGen t r) (if r.val = 4095 then remakeMonitor t s else s) else s
  | .roll t g =>
    let s := purgeAll (.tenantGen t) s
    let s := makePurposes t (makeL2 t (s.setSlot (l2Slot t) { s.slot (l2Slot t) with gen := g.toNat }))
    fillSeeds t ([l2Slot t.val, signSlot t.val, x25519Slot t.val, mlkemSlot t.val, monitorSlot t.val].foldl (fun s n => storeSlot n s) s)
  | .profile t n cl a e z b =>
    { s with flow := { s.flow with profiles := tput (dflt Profile.zero) s.flow.profiles (16 * t.val + n.val) (⟨cl, a, e, z.map (fun y => (y.1.toNat, y.2.toNat)), b⟩ : Profile) } }
  | .quota t b q => setRange t b.toNat q.toNat s
  | .retention t lo hi => (s.wr (Reg.LDG_RET_LO t) lo).wr (Reg.LDG_RET_HI t) hi
  | .game t g v cl m =>
    match (s.findGame t g.toNat).or (if v then s.freeGame t g.toNat else none) with
    | none => s
    | some i => { s with tim := { s.tim with games := tput (dflt Game.none) s.tim.games i (if v then ⟨true, g.toNat, t, m.toNat, cl⟩ else Game.none) } }

/-- CONFIG_MESSAGE. -/
def execConfigMessage (change : PairConfig) (s : State) : Out :=
  if !s.pair.linkUp || !s.pair.paired then .next s else .next (applyConfig change s)

/-- Each wrap and unwrap under the pair key is charged to its slot (R232). -/
def chargePair (s : State) : State := match s.pair.pairSlot with | some n => chargeStored n s | none => s

/-- DOMAIN_MESSAGE: the L1 key of a key block under the pair key goes into its keeper slot when the block is whole and its KCV matches; in a ceremony
only. -/
def execDomainMessage (domain : Fin 16) (block : Bytes) (s : State) : Out :=
  if !s.pair.linkUp || !s.pair.paired then .next s
  else
    let n := 1 + domain.val
    match s.pairKey with
    | none => .next s
    | some kek =>
      match kwUnwrap kek (block.drop 16) with
      | none => .next s
      | some p =>
        let key := slice p 16 32
        if p.take 16 ≠ block.take 16 ∨ kcvOf key ≠ slice block 8 5 ∨ field block 1 1 ≠ 0x02 ∨ field block 6 1 ≠ domain.val ∨ (s.slot n).state ≠ 0 then .next s
        else .next (pairStep 0x0B11 [.record n (tget (dflt noRecord) s.keys.store n), .slot n (s.slot n)] (fun s => chargePair (fillDomain domain 3 3 key s)) s)

/-! ### Formation and dissolution (R559, R560) -/

/-- The identity statement of R249. -/
def identityStatement (nonce : Bytes) (s : State) : Bytes :=
  [0x49, 0x44, 0x4E, 0x31] ++ be 8 Config.serial.toNat ++ be 1 (if Config.isL4 then 4 else 1) ++ [0xB0] ++ be 1 s.sys.mode.code
    ++ be 1 (s.fld Reg.SYS_HOLD 7 0) ++ be 8 s.epoch ++ fit 32 nonce ++ s.mrDigest ++ be 4 s.keys.l0gen ++ zeros 20

/-- The context string "FL5125-ID". -/
def ctxID : Bytes := [0x46, 0x4C, 0x35, 0x31, 0x32, 0x35, 0x2D, 0x49, 0x44]

/-- The two signatures over an identity statement, and the state with their randomness drawn. -/
def signStatement (st : Bytes) (s : State) : Bytes × State :=
  (idSignE st s ++ Config.mldsaSign idMldsa ctxID st (be 32 (Config.freeBits (s.free + 2)).toNat), { s with free := s.free + 3 })

/-- PAIR_JOIN: begins the handshake with the partner named (R559). -/
def execPairJoin (c : HostCmd) (serial : BitVec 64) (digest : Bytes) (s : State) : Out :=
  .next (hostRun 0x0B10 c [] (stepGate c (fun s =>
    if s.pair.paired then .fail 0x2B01
    else if !s.pair.linkUp then .fail 0x2B02
    else
      let eph := s.freeBytes 112
      let s := s.drawnBytes 112
      let p := s.pair
      let s := beginStep 0x0B10 [.pairing p.paired p.partner p.partnerDigest p.member p.pairSlot] s
      let s := updPair (fun p => { p with joinCmd := some ⟨c.ref, serial.toNat, fit 48 digest, eph, none⟩ }) s
      .wait 0x010E (sendPair ⟨.handshake, 0xFFFF,
        Config.ecdsaPublic (eph.take 48) ++ Config.mlkemPublic (slice eph 48 32) (slice eph 80 32)⟩ s))) s)

/-- A join ends without a pair. -/
def failJoin (j : PairJoin) (status : Nat) (s : State) : State :=
  finalReply j.cmd status [] 0 (failStep (updPair (fun p => { p with joinCmd := none }) s))

/-- The pair is formed: the pair key takes a device-owned pool slot of class KEK with WRAP and UNWRAP, with the usage limit of an ordinary stored
key (R232), and the link keys are derived from it. The member index is 1 on the device with the
higher serial number. -/
def formPair (j : PairJoin) (key : Bytes) (s : State) : State :=
  match poolSlot 0xFFFF s with
  | .error _ => failJoin j 0x4B01 s
  | .ok n =>
    let u := [Undo.record n (tget (dflt noRecord) s.keys.store n), .slot n (s.slot n)]
    let s := updCer (fun c => { c with steps := onLast (fun x => { x with undo := x.undo ++ u }) c.steps }) s
    let s := newPoolKey n key (poolMeta 0x09 3 0x06 1 0xFFFF 31) 1 s
    let s := updPair (fun p => { p with paired := true, partner := j.serial, partnerDigest := j.digest, pairSlot := some n, joinCmd := none
                                        member := b2n (decide (j.serial < Config.serial.toNat)) }) s
    finalReply j.cmd 0 [] 0 (doneStep 0x0B10 (charterEvent 1 0xFFFF 0 0 (deriveLink s)))

/-- PAIR_HANDSHAKE_RECEIVED: the partner's ephemeral keys give the pair key and the transcript, over which this side signs its statement; the partner's
statement must match the serial and digest named and verify. -/
def execPairHandshakeReceived (msg : PairShake) (s : State) : Out :=
  match s.pair.joinCmd with
  | none => .next s
  | some j =>
    if !s.pair.linkUp then .next s
    else
      match msg, j.keys with
      | .keys e k, none =>
        let own := Config.ecdsaPublic (j.eph.take 48) ++ Config.mlkemPublic (slice j.eph 48 32) (slice j.eph 80 32)
        let other := e ++ k
        let tr := sha256 (if Config.serial.toNat < j.serial then own ++ other else other ++ own)
        let key := Config.pairKey (Config.ecdhP384 (j.eph.take 48) e ++ Config.pairSecret (j.eph.drop 48) k)
        let st := identityStatement tr s
        let (sig, s) := signStatement st s
        let s := updPair (fun p => { p with joinCmd := some { j with keys := some (key, tr) } }) s
        .next (sendPair ⟨.handshake, 0xFFFF, idPublic ++ st ++ sig⟩ s)
      | .statement ids st sigE sigM, some (key, tr) =>
        if sha384 ids ≠ j.digest ∨ field st 4 8 ≠ j.serial then .next (failJoin j 0x1B02 s)
        else if slice st 24 32 = tr ∧ Config.ecdsaVerify (ids.take 96) (sha384 st) sigE ∧ Config.mldsaVerify (ids.drop 96) ctxID st sigM then
          .next (formPair j key s)
        else .next (failJoin j 0x4B01 s)
      | _, _ => .next (failJoin j 0x4B01 s)

/-- SHARE_DOMAIN: the L1 key of a domain goes to the partner in a key block under the pair key, when its slot carries PAIR_ONLY. -/
def execShareDomain (c : HostCmd) (domain : BitVec 8) (s : State) : Out :=
  .next (hostRun 0x0B11 c [] (stepGate c (fun s =>
    let n := 1 + domain.toNat
    if !s.pair.paired ∨ !s.pair.linkUp then .fail 0x2B02
    else if 16 ≤ domain.toNat ∨ (s.slot n).state ≠ 1 ∨ !(s.slot n).attr.getLsbD 6 then .fail 0x1B01
    else match s.pairKey with
      | none => .fail 0x4B01
      | some kek => quickStep 0x0B11 [] (fun s => chargePair (sendPair ⟨.domain, 0xFFFF, be 1 domain.toNat ++ keyBlock kek (s.slot n)⟩ s)) s)) s)

/-- PAIR_DISSOLVE: the pair key is destroyed and every record that is not HOLDER is removed (R560). -/
def execPairDissolve (c : HostCmd) (s : State) : Out :=
  .next (hostRun 0x0B15 c [] (stepGate c (fun s =>
    if s.pair.charters.any (fun e => e.2.role == 3 || e.2.role == 4) then .fail 0x2B04
    else
      let p := s.pair
      let gone := (p.charters.filter (fun e => e.2.role != 0 && e.2.role != 1)).map (·.1)
      let u := [Undo.pairing p.paired p.partner p.partnerDigest p.member p.pairSlot] ++ gone.map (fun t => Undo.charter t (s.charter t))
        ++ (match p.pairSlot with | some n => [Undo.record n (tget (dflt noRecord) s.keys.store n), .slot n (s.slot n)] | none => [])
      quickStep 0x0B15 u (fun s =>
        let s := match p.pairSlot with | some n => destroySlot n s | none => s
        let s := gone.foldl (fun (s : State) t => let b := (s.charter t).role; charterEvent 9 t b 0 (s.setCharter t Charter.none)) s
        updPair (fun p => { p with paired := false, partner := 0, partnerDigest := [], member := 0, pairSlot := none, backlog := [], linkKey := [] }) s) s)) s)

/-! ### Queries and settings (R561) -/

/-- The value of PAI_STATUS. -/
def State.paiStatus (s : State) : Word :=
  BitVec.ofNat 32 (b2n s.pair.paired + 2 * b2n s.pair.linkUp + 4 * s.pair.member + 2 ^ 8 * s.pair.lanes)

/-- The value of PAI_TNT[t]. -/
def State.paiTnt (s : State) (t : Nat) : Word :=
  let c := s.charter t
  BitVec.ofNat 32 (c.role + 8 * b2n c.replicate + 16 * b2n (decide (s.tim.now < c.granted) || decide (s.tim.now < c.leaseHeld)) + 2 ^ 8 * (c.gen % 2 ^ 24))

/-- The value of PAI_REPL_BACKLOG: MiB waiting. -/
def State.paiBacklog (s : State) : Word := BitVec.ofNat 32 ((s.backlogBytes + 1048575) / 1048576)

/-- GET_PAIR. -/
def execGetPair (c : HostCmd) (s : State) : Out :=
  .next (hostRun 0x0B01 c [] (fun s =>
    .done 0 (be 4 s.paiStatus.toNat ++ be 8 s.pair.partner ++ fit 48 s.pair.partnerDigest ++ be 4 s.paiBacklog.toNat
      ++ regsOut s [Reg.PAI_GUARD, Reg.PAI_LEASES_SENT, Reg.PAI_LINK_DOWNS, Reg.PAI_REPL_DROP]) 0 s) s)

/-- GET_CHARTERS: the records of `count` tenants from the first named. -/
def execGetCharters (c : HostCmd) (first count : BitVec 16) (s : State) : Out :=
  .next (hostRun 0x0B02 c [] (fun s =>
    if 512 < first.toNat + count.toNat ∨ 512 ≤ first.toNat then .fail 0x1B01
    else
      let out := (List.range count.toNat).flatMap (fun i =>
        let x := s.charter (first.toNat + i)
        be 4 (s.paiTnt (first.toNat + i)).toNat ++ be 4 x.gen ++ be 8 (x.cut.getD 0))
      if c.outLen < out.length then .fail 0x3401 else .done 0 out 0 s) s)

/-- SET_REPLICATION: the REPLICATE bit of a tenant of the pair. -/
def execSetReplication (c : HostCmd) (tenant : BitVec 16) (on : Bool) (s : State) : Out :=
  .next (hostRun 0x0B14 c [] (fun s =>
    let t := tenant.toNat
    if 512 ≤ t ∨ !s.pair.paired ∨ (s.charter t).role = 0 then .fail 0x1B01
    else .done 0 [] 0 (s.setCharter t { s.charter t with replicate := on })) s)

end Sys2Proof.Machine
end

