-- ==== Sys2Proof/Machine/Boot.lean ====
section
/-! DEFINITION. Power, fuses and the first three start-up stages (R41, R46 to R48, R529, R531, R587), the end of a custody reset (R42), and the
lockstep comparator (R43, R335 to R337). -/

namespace Sys2Proof.Machine

/-! ### Fuses and the keeper domain -/

/-- SHIP_FUSE_BLOW: Talique blows the ship fuse in FACTORY, which fuses off the test buses and arms the package mesh (R522); the next power-on starts in NOTARY, with L0 made at its
stage 0 (R33, R587, R608). -/
def execShipFuseBlow (s : State) : Out :=
  if s.sys.mode ≠ .factory ∨ s.sys.shipFuse then .next s
  else .next ((updSys (fun y => { y with shipFuse := true, l0Fused := true }) (seedNets ((List.range 16).map (· + 4)) s)).wrB Reg.TPR_STATUS 3 true)

/-- A keeper record that is missing although KEEPER_INIT is blown counts as zeroized, and the start writes a ZEROIZE event with cause 4 (R531,
R587). -/
def missingKeeper (s : State) : State :=
  if s.sys.keeperRecord ∨ !s.sys.keeperInit then s
  else
    let z : ZeroCause := ⟨4, 0, 0, s.sys.mode.code, s.keeperSecs, s.keys.l0gen, []⟩
    let s := updSys (fun y => { y with prevMode := y.mode, mode := .zeroized, keeperZeroized := true, keeperRecord := true }) s
    updTpr (fun t => { t with zeroEvents := t.zeroEvents ++ [z.eventData 0] }) (s.wrB Reg.SYS_RESET_CAUSE 8 true)

/-- POWER_ON: PWR_OK rises after `off` nanoseconds of keeper power, with the address straps sampled (R41, R48, R584). Everything but the Vault, the
keeper domain and flash is at reset, and stage 0 begins. -/
def execPowerOn (off : Nat) (smbAddr : Fin 4) (s : State) : Out :=
  if s.sys.mainPower then .next s
  else
    let s := { s with now := 0, tim := { s.tim with keeperNs := s.tim.keeperNs + off } }
    let s := restart s
    let s := (s.wrF Reg.SYS_RESET_CAUSE 6 0 0).wrB Reg.SYS_RESET_CAUSE 0 true
    let s := updSys (fun y => { y with mainPower := true, starts := y.starts + 1, offNs := off }) s
    let s := updTpr (fun t => { t with conds := 0 }) (s.wr Reg.THM_STATUS (s.rd Reg.THM_STATUS &&& 0x100))
    let v := (s.rd Reg.THM_KEEP_V).toNat
    let s := charge v ((missingKeeper s).wrB Reg.THM_STATUS 7 (decide (v < s.fld Reg.THM_KEEP_VFULL 15 0)))
    .next { s with host := { s.host with linkUp := !s.host.perst }, pin := { PinState.reset with resetLow := s.pin.resetLow, smbAddr := smbAddr } }

/-- The main bank loses its keys; the incarnation of every slot stays (R222, R529). -/
def clearMainBank (s : State) : State :=
  { s with keys := { s.keys with slots := s.keys.slots.filterMap (fun e =>
      if e.1 < 64 then some e else if e.2.incarn = 0 then none else some (e.1, { Slot.empty with incarn := e.2.incarn })) } }

/-- POWER_FAIL: PWR_OK falls with the case switches at `levels`. An open service window ends, a zeroization in progress is finished by the keeper, and
the main bank, custody SRAM and Leaf Mint caches are cleared from hold-up (R523, R529). -/
def execPowerFail (levels : BitVec 8) (s : State) : Out :=
  if !s.sys.mainPower then .next s
  else
    let s := clearMainBank (restart (endWindow levels s))
    .next ({ s with sys := { s.sys with mainPower := false }, host := { s.host with linkUp := false } }.wrB Reg.THM_STATUS 7 false)

/-- A slot whose shares are lost: EMPTY, with its incarnation one higher when it held a key (R223); nothing when that is an EMPTY slot's. -/
def dropKey (v : Slot) : Option Slot :=
  let w : Slot := { Slot.empty with incarn := if v.state = 0 then v.incarn else (v.incarn + 1) % 256 }
  if w = Slot.empty then none else some w

/-- KEEPER_POWER_LOSS: VKEEP is lost while main power is absent, and with it all that R531 lists: the keeper bank, the mode record, counts and records
(R224, R587). -/
def execKeeperPowerLoss (s : State) : Out :=
  if s.sys.mainPower then .next s
  else
    let s := s.clearRegs (fun a => [Reg.UPD_BANK, Reg.TPR_CFG, Reg.TPR_CONFIRMED, Reg.THM_KEEP_ZTHR, Reg.THM_KEEP_ZERO, Reg.THM_KEEP_VFULL].contains a)
    let s := s.wrB Reg.SYS_RESET_CAUSE 8 false
    .next { s with
      sys := { s.sys with keeperRecord := false, keeperZeroized := false, lockstep := [], starts := 0 }
      keys := { s.keys with slots := s.keys.slots.filterMap (fun e => if 64 ≤ e.1 then some e else dropKey e.2 |>.map (fun v => (e.1, v))), l0gen := 0 }
      ldg := { s.ldg with lastRoot := 0 }
      flow := { s.flow with clean := false, image := [], lostImage := s.lostLines }
      tim := { s.tim with keeperNs := 0, wraps := 0 }
      tpr := { s.tpr with log := [], zeroEvents := [] } }

/-! ### Stages -/

/-- Whether stage `k` is in progress: it has begun and has neither passed nor failed. -/
def State.atStage (s : State) (k : Nat) : Bool :=
  s.sys.mainPower && !s.pin.resetLow && !s.sys.cusInReset && s.fld Reg.SYS_BOOT_STAGE 3 0 == k && !s.bitOf Reg.SYS_BOOT_STAGE 4

/-- Begin a stage (R46). -/
def beginStage (k : Nat) (s : State) : State := s.wrF Reg.SYS_BOOT_STAGE 3 0 k

/-- A stage fails with an error code (R46, R480). -/
def failStage (k error : Nat) (s : State) : State :=
  ((s.wrF Reg.SYS_BOOT_STAGE 3 0 k).wrB Reg.SYS_BOOT_STAGE 4 true).wrF Reg.SYS_BOOT_STAGE 15 8 error

/-- The code with which a bank failed shows in SYS_BOOT_STAGE.ERROR, though the other bank runs and the stage has not failed (R480). -/
def showCode (code : Option Nat) (s : State) : State :=
  match code with
  | some e => s.wrF Reg.SYS_BOOT_STAGE 15 8 e
  | none => s

/-- Stage 0 fails: the cores halt, and only SMBus status remains. -/
def haltBoot (error : Nat) (s : State) : State := updCore (fun c => { c with stopped := true }) (failStage 0 error s)

/-- Recovery (R47): PF0 alone is exposed, ports stay held, and custody flash keeps its recovery view. -/
def enterRecovery (k error : Nat) (s : State) : State :=
  let s := (updSys (fun y => { y with recovery := true }) (failStage k error s)).wrB Reg.FSH_CTL 0 false
  { s with host := { s.host with rrs := false } }

/-- ROM_EN is cleared and the comparator acts (R313, R337). -/
def disableRom (s : State) : State := ((s.wrB Reg.CUS_BOOT 0 false).wrB Reg.CUS_STATUS 2 false).wrB Reg.CUS_STATUS 1 true

/-- Record injections found in the groups of a mask (R337). -/
def lockstepTested (groups : Nat) (s : State) : State :=
  let s := s.wrF Reg.CUS_LS_TSTAT 4 0 (s.fld Reg.CUS_LS_TSTAT 4 0 ||| groups)
  if s.fld Reg.CUS_LS_TSTAT 4 0 = 0x1F then s.wrB Reg.CUS_STATUS 0 true else s

/-- The stage 0 check of the stage 1 image of a bank: the error code of the first failure (R470, R472, R475, R480). -/
def State.stage0Code (s : State) (bank : Nat) : Option Nat :=
  if s.imageIncomplete bank 1 ∨ !Config.sector8Ok then some 0x01
  else match s.headerCheck 1 (s.imageHeader bank 1) with
    | some 0x1805 => some 0x02
    | some 0x2802 => some 0x03
    | some _ => some 0x01
    | none => if s.imageGood bank 1 then none else some 0x01

/-- The stage 1 check of the custody firmware of a bank. -/
def State.stage1Code (s : State) (bank : Nat) : Option Nat :=
  if s.imageIncomplete bank 2 then some 0x10
  else match s.headerCheck 2 (s.imageHeader bank 2) with
    | some 0x1805 => some 0x11
    | some 0x2802 => some 0x12
    | some _ => some 0x10
    | none => if s.imageGood bank 2 then none else some 0x13

/-- The bank whose stage 1 image runs: PREF, else the other; PREF's error code when neither passes (R475). -/
def State.bootBank (s : State) : Except Nat Nat :=
  match s.stage0Code s.prefBank with
  | none => .ok s.prefBank
  | some e => if (s.stage0Code (1 - s.prefBank)).isNone then .ok (1 - s.prefBank) else .error e

/-- The bank whose custody firmware runs: the one stage 0 found, else the other when both of its images pass. -/
def State.firmwareBank (s : State) : Option Nat :=
  let b := s.fld Reg.UPD_BANK 5 5
  if (s.stage1Code b).isNone then some b
  else if (s.stage0Code (1 - b)).isNone ∧ (s.stage1Code (1 - b)).isNone then some (1 - b)
  else none

/-! ### Stage 0 -/

/-- The seconds count at a start (R298): the larger of the epoch after the last root record and the keeper count less 100 ppm of the time that main power was
off. -/
def loadTime (s : State) : State :=
  let k := s.tim.wraps * 2 ^ 34 + (s.tim.keeperNs - s.sys.offNs / 10000) / 1000000000
  let v := max (s.ldg.lastRoot + 1) k
  refreshUnc { s with tim := { s.tim with now := v % 2 ^ 34 * 1000000000, wraps := v / 2 ^ 34 } }

/-- The boot ROM writes a fresh keeper record at the first power-on with the ship fuse blown, blows KEEPER_INIT, and L0 is generated (R33, R587). -/
def firstStart (s : State) : State :=
  if !s.sys.shipFuse ∨ s.sys.keeperInit then s
  else drawL0 (updSys (fun y => { y with keeperRecord := true, keeperInit := true, keeperZeroized := false, prevMode := y.mode, mode := .notary }) s)

/-- Both permutations of the Vault get fresh keys (R226). A keeper bank whose last move was cut off goes on from its keeper pointer first. -/
def scrambleKeys (s : State) : State :=
  { s with keys := { s.keys with permKey := s.freeBits, keeperOldKey := s.keys.keeperPermKey, keeperPermKey := Config.freeBits (s.free + 1), keeperMoved := 0 }
           free := s.free + 2 }

/-- The next slot of the keeper bank moves to its new cells, and the keeper pointer passes it (R226). -/
def moveKeeperSlot (s : State) : State := { s with keys := { s.keys with keeperMoved := min 64 (s.keys.keeperMoved + 1) } }

/-- The keys of this start: the scramble keys of R226, with the keeper bank moved slot by slot, and the escrow key of R393. -/
def startKeys (s : State) : State :=
  let s := (List.range 64).foldl (fun s _ => moveKeeperSlot s) (scrambleKeys s)
  let s := { s with dig := { s.dig with escrowKey := be 32 s.freeBits.toNat, serial := 0 }, free := s.free + 1 }
  s.wrB Reg.VLT_STATUS 1 true

/-- The noise sources that have passed their start-up test. -/
def State.sourcesPassed (s : State) : Nat := ((List.range 3).filter (fun n => (s.noise n).live && !(s.noise n).first)).length

/-- BOOT_STAGE_0: the boot ROM has injected a difference in each group, of which `detected` were found; the noise sources have run, the keeper battery
read `mv` under the energy test; the headers of custody flash are scanned and the stage 1 image checked (R46, R298, R337, R413, R456, R534). While
fewer than two noise sources have passed, and fewer than two have failed for good, the stage goes on. -/
def execBootStage0 (detected : BitVec 5) (mv : BitVec 16) (s : State) : Out :=
  if !s.atStage 0 then .next s
  else
    let s := scanFlash (energyTest mv.toNat (lockstepTested detected.toNat s))
    if !s.bitOf Reg.CUS_STATUS 0 then .next (haltBoot 0x04 s)
    else if 2 ≤ ((List.range 3).filter (fun n => (s.noise n).stat == 3)).length then .next (haltBoot 0x05 s)
    else if !s.rngReady ∧ s.sourcesPassed < 2 then .next s
    else match (if s.rngReady then some s else (instantiateDrbg s).map startKeys) with
      | none => .next s
      | some s =>
        let s := bankAtStart (loadTime s)
        match s.bootBank with
        | .error e => .next (haltBoot e s)
        | .ok b =>
          let s := showCode (s.stage0Code s.prefBank) ((firstStart s).wrF Reg.UPD_BANK 5 5 b)
          .next (beginStage 1 (s.wrB Reg.VLT_STATUS 0 ((s.slot 0).state == 1)))

/-! ### Stages 1 and 2 -/

/-- Measure what the boot stages load into registers 0 to 7: the digests of kinds 1 and 2 into 0 and 1 (R467); what the other six are extended with is not
stated. -/
def measureBoot (bank : Nat) (s : State) : State :=
  let d1 := sha384 (s.imageBody bank 1)
  let d2 := sha384 (s.imageBody bank 2)
  let s := extendMr 1 d2 (extendMr 0 d1 s)
  let s := [2, 3, 4, 5, 6, 7].foldl (fun s n => extendMr n (fit 48 (Config.bootMeasure n (d1 ++ d2))) s) s
  s.wrB Reg.DIG_MR_LOCK 0 true

/-- The anti-rollback boot stage erases every parameter sector that is INCOMPLETE_ERASE (R457). -/
def eraseIncomplete (s : State) : State :=
  showIncomplete ((List.range 144).foldl (fun (s : State) k =>
    let r := sectorRange k
    if s.sectorIncomplete k ∧ r.2 = 0x2000 then wipeFlash r.1 r.2 s else s) s)

/-- Stage 1 with its outcome: custody firmware loaded and measured, or recovery. -/
def loadFirmware (s : State) : State :=
  let s := eraseIncomplete (disableRom s)
  let s := showCode (s.stage1Code (s.fld Reg.UPD_BANK 5 5)) s
  match s.firmwareBank with
  | none => endCommands 0x4101 (enterRecovery 1 0x14 s)
  | some b =>
    let s := (s.wrF Reg.UPD_BANK 5 5 b).wrB Reg.SYS_STATUS 4 (b != s.prefBank)
    beginStage 2 (measureBoot b s)

/-- BOOT_STAGE_1: the anti-rollback counter check of custody firmware, falling back to the other bank or to recovery (R46, R475). -/
def execBootStage1 (s : State) : Out := if s.atStage 1 then .next (loadFirmware s) else .next s

/-- The binding of a channel (R75, R77, R96): sender and receiver, with colour and function for the channels of PCIe. -/
def bindEntry (k : Nat) : Word × Word :=
  let v : Word := 0x80000000
  if k < 8 then (128, v)
  else if k < 520 then (BitVec.ofNat 32 (128 + 2 ^ 22 * (k - 7)), BitVec.ofNat 32 (k - 7) ||| v)
  else if k < 584 then (BitVec.ofNat 32 (2 ^ 11 * (512 + (k - 520))), v)
  else (BitVec.ofNat 32 (2 ^ 11 * (640 + (k - 584))), v)

/-- The LOCK registers of the Strongroom blocks, which stage 2 sets (R46, R381). -/
def stageLocks : List Nat :=
  [Reg.SYS_LOCK, Reg.GTE_LOCK, Reg.MBX_LOCK, Reg.DIG_LOCK, Reg.CPH_LOCK, Reg.RNG_LOCK, Reg.PKE_LOCK, Reg.FSH_LOCK, Reg.LFS_LOCK, Reg.TIM_LOCK,
   Reg.LDG_LOCK, Reg.MNT_LOCK, Reg.VLT_LOCK, Reg.CRD_LOCK, Reg.NFR_LOCK, Reg.TPR_LOCK, Reg.TLY_LOCK, Reg.RPR_LOCK, Reg.PAI_LOCK, Reg.UPD_LOCK,
   Reg.THM_LOCK, Reg.ALM_LOCK, Reg.CUS_LOCK]

/-- Stage 2: the binding table is written, blocks are locked, the normal view is selected outside FACTORY, and PF0 answers configuration requests
(R46, R48, R77, R447). Firmware accepts commands: those outstanding at a custody reset complete with 0x4101 (R42, R93). -/
def openHost (s : State) : State :=
  let s := if s.bitOf Reg.MBX_LOCK 0 then s else
    (List.range 588).foldl (fun (s : State) k => (s.wr (Reg.MBX_BIND_LO k) (bindEntry k).1).wr (Reg.MBX_BIND_HI k) (bindEntry k).2) (s.wrB Reg.MBX_CTL 0 true)
  let s := stageLocks.foldl (fun (s : State) a => s.wrB a 0 true) s
  let s := if s.sys.mode = .factory then s else s.wrB Reg.FSH_CTL 0 true
  let s := if s.anyCharter then loadPerms s else s
  endCommands 0x4101 { s with host := { s.host with rrs := false } }

/-- BOOT_STAGE_2: custody firmware releases the endpoint and locks the blocks; on a failure the device is in recovery (R46, R47). -/
def execBootStage2 (pass : Bool) (s : State) : Out :=
  if !s.atStage 2 then .next s
  else if pass then .next (beginStage 3 (openHost s)) else .next (endCommands 0x4101 (enterRecovery 2 0 s))

/-! ### The end of a custody reset (R42) -/

/-- The first start in ZEROIZED: the journal of an uncommitted ceremony undoes its roster and policy changes, a committed close is completed (R499), and
the key store is erased but for the incarnation record (R250). -/
def firstZeroized (s : State) : State :=
  let s := updCer (fun c => { c with steps := c.steps.map (fun x => { x with undo := x.undo.filter Undo.kept }) }) s
  let s := if s.cer.phase = .idle then s else if s.cer.phase = .closing then completeClose s else restoreCeremony s
  let inc := s.keys.store.foldl (fun t e => tput (dflt 0) t e.1 ((field e.2.meta32 2 1 + 1) % 256)) s.keys.incarns
  { s with keys := { s.keys with store := [], incarns := inc } }

/-- CUSTODY_RESET_DONE: the boot stages 0 to 2 have run again (R42, R396). Outstanding commands complete with 0x4101 (R93), a ceremony goes on to RESTORING
or to its end (R490), and after zeroization the first start in ZEROIZED is made. During the start-up the stages begin again at stage 0. While the zero level
is asserted, or with ZERO_FAULT, the cores stay held. -/
def execCustodyResetDone (detected : BitVec 5) (s : State) : Out :=
  if !s.sys.mainPower ∨ !s.sys.cusInReset ∨ s.tpr.zero.isSome ∨ s.bitOf Reg.TPR_STATUS 1 ∨ s.pin.resetLow then .next s
  else
    let s := updSys (fun y => { y with cusInReset := false }) (s.wrB Reg.FSH_CTL 0 false)
    if s.fld Reg.SYS_BOOT_STAGE 3 0 < 3 ∨ s.bitOf Reg.SYS_BOOT_STAGE 4 then
      .next (((s.wrF Reg.SYS_BOOT_STAGE 3 0 0).wrB Reg.SYS_BOOT_STAGE 4 false).wrF Reg.SYS_BOOT_STAGE 15 8 0)
    else
      let stage := s.fld Reg.SYS_BOOT_STAGE 3 0
      let s := scanFlash (lockstepTested detected.toNat s)
      if !s.bitOf Reg.CUS_STATUS 0 then .next (haltBoot 0x04 s)
      else match s.bootBank with
        | .error e => .next (haltBoot e s)
        | .ok b =>
          let s := loadFirmware (s.wrF Reg.UPD_BANK 5 5 b)
          if s.sys.recovery then .next s
          else
            let s := beginStage stage (openHost s)
            let s := if s.sys.mode = .zeroized then firstZeroized s else s
            let s := if s.rngReady then s else (instantiateDrbg s).getD s
            .next (s.wrB Reg.VLT_STATUS 0 ((s.slot 0).state == 1))

/-! ### The lockstep comparator -/

/-- The mismatches of the last 60 s by the keeper's count (R43). -/
def State.mismatches (s : State) : List Nat := s.sys.lockstep.filter (fun t => decide (s.tim.keeperNs < t + 60000000000))

/-- LOCKSTEP_MISMATCH_AGEOUT: a mismatch passes out of the 60 s window (R43). -/
def execLockstepMismatchAgeout (dt : Nat) (s : State) : Out :=
  let s := s.advance dt
  .next (updSys (fun y => { y with lockstep := s.mismatches }) s)

/-- LOCKSTEP_TEST_INJECT: a write of CUS_LS_TEST. From the boot ROM while ROM_EN is 1 it makes core B differ in a group, which the comparator records
(R337); any other write is refused by the block's gate (R339), and after ROM_EN has been cleared it has no effect. -/
def execLockstepTestInject (rom : Bool) (ring : Fin 4) (value : Word) (s : State) : Out :=
  if !rom then .next (sysRefuse ring Reg.CUS_LS_TEST s)
  else if !s.bitOf Reg.CUS_BOOT 0 ∨ bits value 31 16 ≠ 0x1C5A ∨ 4 < bits value 2 0 then .next s
  else .next (lockstepTested (2 ^ bits value 2 0) s)

/-- ROM_DISABLE: CUS_BOOT.ROM_EN is cleared by a write of ring 0 (R313, R339). -/
def execRomDisable (ring : Fin 4) (s : State) : Out :=
  if ring ≠ 0 then .next (sysRefuse ring Reg.CUS_BOOT s) else .next (disableRom s)

/-- An escalation (R355): a custody reset, or while the boot ROM is mapped the cores stop with stage 0 failed. -/
def escalate (s : State) : State :=
  if s.bitOf Reg.CUS_BOOT 0 then haltBoot 0x06 s else custodyReset 5 s

end Sys2Proof.Machine
end

