-- ==== Sys2Proof/Machine/Start.lean ====
section
/-! DEFINITION. Start-up stages 3 to 7 (R46), the release of a tile after its reset (R44), and the status and activation commands (R58, R249,
R475). -/

namespace Sys2Proof.Machine

/-- The next state of an outcome, or the state given when there is none. -/
def nextOf (o : Out) (s : State) : State :=
  match o with
  | .next t => t
  | _ => s

/-! ### Loading tiles (stage 3) -/

/-- The first failure among the tile images of the running bank (R467, R472, R480): its error code. -/
def State.tileImages (s : State) : Option Nat :=
  let b := s.runningBank
  if [3, 4, 5].any (fun k => s.imageIncomplete b k || (s.headerCheck k (s.imageHeader b k)).isSome) then some 0x30
  else if [3, 4, 5].any (fun k => !s.imageGood b k) then some 0x31
  else if !s.locksHold b then some 0x32
  else none

/-- A tile that has its images: it runs, its key bus and its fabric links are up, and routes towards it are open. -/
def raiseTile (t : Nat) (s : State) : State :=
  let s := (setTile t .up s).wrB Reg.SYS_STATUS (8 + t) false
  let s := s.wrB Reg.MNT_STATUS t true
  [0, 1, 2, 3].foldl (fun (s : State) u =>
    if u = t then s
    else
      let s := s.wrB (Reg.DPL_FAB_ROUTE u) t false
      if s.tileCond u ≠ .up then s else (s.wrB (Reg.DPL_FAB_STATUS t) u true).wrB (Reg.DPL_FAB_STATUS u) t true) s

/-- A tile that failed: its ports stay down and no route leads to it. -/
def failTile (t : Nat) (s : State) : State :=
  let s := (setTile t .failed s).wrB Reg.SYS_STATUS (8 + t) true
  [0, 1, 2, 3].foldl (fun (s : State) u => if u = t then s else s.wrB (Reg.DPL_FAB_ROUTE u) t true) s

/-- BOOT_STAGE_3: the regulators in `acks` acknowledged their voltages (R588), and the tiles in `loaded` took microcode, PKE and SerDes firmware, which are
checked and measured before use (R46, R467, R472). -/
def execBootStage3 (acks loaded : BitVec 4) (s : State) : Out :=
  if !s.atStage 3 then .next s
  else
    let s := { s with pin := { s.pin with noAck := ~~~acks } }
    let bad := s.tileImages
    let s := match bad with
      | some e => s.wrF Reg.SYS_BOOT_STAGE 15 8 e
      | none => [3, 4, 5].foldl (fun s k => extendMr (k + 5) (sha384 (s.imageBody s.runningBank k)) s) s
    let s := (List.range 4).foldl (fun s t => if bad.isNone ∧ loaded.getLsbD t then raiseTile t s else failTile t s) s
    .next (beginStage 4 (s.wrB Reg.DIG_MR_LOCK 1 true))

/-! ### The repair state (stage 4, R565) -/

/-- Whether the grown map lists a resource. -/
def State.isGrown (s : State) (kind res : Nat) : Bool := s.rpr.grown.any (fun g => g.kind == kind && g.res == res)

/-- Whether an engine counts as failed. -/
def State.engineBad (s : State) (e : Nat) : Bool := s.bitOf (Reg.DPL_KAT_STATUS (engineCluster e)) (engineBit e)

/-- Return the engines of a tile's ports to the assignment of R12. -/
def unassign (t : Nat) (s : State) : State :=
  let s := (List.range 128).foldl (fun s i =>
    let p := 128 * t + i
    let s := setEngine p false (2 * p) (setEngine p true (2 * p + 1) s)
    (s.wrF (Reg.PRT_STATUS p) 8 4 0).wrB (Reg.RPR_PORT_DIS (p / 32)) (p % 32) false) s
  (List.range 16).foldl (fun (s : State) i => (s.wr (Reg.DPL_SPARE (16 * t + i)) 0xFF00).wr (Reg.DPL_KAT_STATUS (16 * t + i)) 0) s

/-- Steps 1 to 3 for a tile's engines: the fuse map, the grown map, then the known-answer tests, whose new failures enter the grown map. -/
def failEngines (t : Nat) (kat : List Nat) (s : State) : State :=
  (List.range 1152).foldl (fun (s : State) e =>
    if engineCluster e / 16 ≠ t then s
    else
      let old := Config.factoryFailed 1 e || s.isGrown 1 e
      if !old && !kat.contains e then s
      else
        let s := markSpareFailed e (s.wrB (Reg.DPL_KAT_STATUS (engineCluster e)) (engineBit e) true)
        if old then s else recordGrown 1 1 e 0xFFFF (if e < 1024 then e / 2 else 0xFFFF) s) s

/-- Steps 1 to 3 for a tile's PKE units; the tile's spare takes the place of the first that is out. -/
def failTileUnits (t : Nat) (kat : List Nat) (s : State) : State :=
  let us := (List.range 17).map (tileUnitNo t)
  let s := us.foldl (fun (s : State) u =>
    let old := Config.factoryFailed 2 u || s.isGrown 2 u
    if !old && !kat.contains u then s
    else
      let s := (setTileUnit u ⟨true, [], []⟩ s).wrB (Reg.RPR_PKE_OUT (u / 32)) (u % 32) true
      if old then s else recordGrown 2 1 u 0xFFFF 0xFFFF s) s
  match us.find? (fun u => decide (u < 64) && (s.tileUnit u).out) with
  | some u => if (s.tileUnit (64 + t)).out then s else updPke (fun p => { p with spareFor := tput (dflt 0) p.spareFor t (u + 1) }) s
  | none => s

/-- Step 4: a cluster's spares go to its ports that lack an engine, in increasing port order. -/
def assignSpares (t : Nat) (s : State) : State :=
  (List.range 128).foldl (fun s i =>
    let p := 128 * t + i
    [false, true].foldl (fun (s : State) k =>
      let n := b2n k
      let c := clusterOf p
      if !s.engineBad (2 * p + n) then s
      else if !s.spareFree c k then setEngine p k 0x7FF s
      else
        let s := ((setEngine p k (spareOf c k) s).wrB (Reg.PRT_STATUS p) (5 + n) true).wrB (Reg.DPL_SPARE c) n true
        noteReplacement 1 p (spareOf c k) (s.wrF (Reg.DPL_SPARE c) (11 + 4 * n) (8 + 4 * n) (sliceOf p))) s) s

/-- The clusters in which a lender is sought for a cluster, in the order of R567. -/
def lenderOrder (c : Nat) : List Nat :=
  let offs := (List.range 7).flatMap (fun n => [n + 1, 15 - n]) ++ [8]
  let own := offs.map (fun o => c / 16 * 16 + (c + o) % 16)
  own ++ [1, 2, 3].flatMap (fun d => (0 :: offs).map (fun o => (c / 16 + d) % 4 * 16 + (c + o) % 16))

/-- Step 5: borrowing, in increasing port order (R567). -/
def arrangeBorrowing (s : State) : State :=
  (List.range 512).foldl (fun s p =>
    [false, true].foldl (fun (s : State) k =>
      if s.engineOf p k ≠ 0x7FF ∨ s.tileCond (tileOf p) ≠ .up then s
      else
        let c := clusterOf p
        match (lenderOrder c).find? (fun l => (l / 16 == c / 16 || s.bitOf Reg.RPR_CTL 0) && s.tileCond (l / 16) == .up && s.lendResult p k l false == 0) with
        | some l => lendSpare p k l s
        | none => s) s) s

/-- Step 6: every port still left without an engine is disabled. -/
def disableLacking (s : State) : State :=
  (List.range 512).foldl (fun s p =>
    if s.tileCond (tileOf p) = .up ∧ (s.engineOf p false = 0x7FF ∨ s.engineOf p true = 0x7FF) then disablePort p s else s) s

/-- Build the repair state of some tiles (R565). -/
def applyRepair (tiles : List Nat) (engines units : List Nat) (s : State) : State :=
  let s := tiles.foldl (fun s t => assignSpares t (failTileUnits t units (failEngines t engines (unassign t s)))) s
  showRepair (disableLacking (arrangeBorrowing s))

/-- The tiles that are up. -/
def State.tilesUp (s : State) : List Nat := (List.range 4).filter (fun t => s.tileCond t == .up)

/-- Custody units that failed at the factory, are in the grown map, or fail their test. -/
def failCustodyUnits (kat : List Nat) (s : State) : State :=
  (List.range 8).foldl (fun (s : State) n =>
    let old := Config.factoryFailed 3 n || s.isGrown 3 n
    if !old && !kat.contains n then s
    else
      let s := setPkeUnit n { s.pkeUnit n with stat := 3, work := none } s
      if old then s else recordGrown 3 1 n 0xFFFF 0xFFFF s) s

/-- BOOT_STAGE_4: the repair map and the known-answer tests, with the failures they find among engines, tile units, custody units, the Mint and the Leaf
Mints (R46, R238, R565). -/
def execBootStage4 (badEngines : List (Fin 1152)) (badUnits : List (Fin 68)) (badCustody : List (Fin 8)) (mint : Bool) (badLeaf : List (Fin 64))
    (s : State) : Out :=
  if !s.atStage 4 then .next s
  else
    let s := failCustodyUnits (badCustody.map (·.val)) (applyRepair s.tilesUp (badEngines.map (·.val)) (badUnits.map (·.val)) s)
    let s := nextOf (execMintKat none mint s) s
    let s := (List.finRange 64).foldl (fun s c => nextOf (execMintKat (some c) (!badLeaf.contains c) s) s) s
    let n := ((List.range 512).filter (fun p => s.bitOf (Reg.PRT_STATUS p) 4)).length
    .next (beginStage 5 (updSys (fun y => { y with portsAtStage4 := n }) s))

/-! ### Configuration and start mode (stage 5) -/

/-- The slot that a key store record's metadata shows (R230), without its key. -/
def metaSlot (m : Bytes) : Slot :=
  { Slot.empty with
    incarn := field m 2 1, state := field m 3 1 % 4, level := field m 3 1 / 4 % 8, origin := field m 3 1 / 32, cls := field m 4 1, len := field m 5 1
    attr := BitVec.ofNat 8 (field m 6 1), gen := field m 7 1, owner := field m 8 2, domain := field m 10 1, limitExp := field m 11 1
    childExp := field m 12 1, count := field m 16 4, kcv := slice m 20 5 }

/-- Restore one slot of the main bank from its record (R229): a check record gives the metadata that a derived slot is made again with; a record that fails
its CRC or its unwrap is not restored. -/
def restoreSlot (n : Nat) (r : KeyRecord) (s : State) : State :=
  let failed (s : State) : State := irq Reg.VLT_IRQ_STATUS 12 1 (s.bump Reg.VLT_STORE_FAIL)
  if (crc32c (r.meta32.take 28)).toNat ≠ field r.meta32 28 4 then failed s
  else if n < 64 ∨ (s.slot n).state ≠ 0 then s
  else
    let v := metaSlot r.meta32
    if r.block = [] then s.setSlot n { v with state := 0 }
    else match kwUnwrap (s.slot storeKeySlot).key (r.block.drop 16) with
      | none => failed s
      | some b =>
        if b.take 16 ≠ r.block.take 16 then failed s
        else
          let (w, s) := withKey (slice b 16 32) v s
          s.setSlot n { w with kcv := v.kcv }

/-- The main bank is restored from the key store (R229), and the incarnation record restores the incarnations of slots that have lost theirs
(R250). -/
def restoreBank (s : State) : State :=
  let s := makeDeviceKeys s
  let s := s.keys.store.foldl (fun s e => restoreSlot e.1 e.2 s) s
  let s := s.keys.incarns.foldl (fun (s : State) e =>
    let v := s.slot e.1
    if v.state = 0 ∧ v.incarn = 0 then s.setSlot e.1 { v with incarn := e.2 } else s) s
  s.wrB Reg.VLT_STATUS 2 true

/-- Firmware lets every cluster accept frames from its released ports, and set up the flows of HYBRID terminals (R50, R182, R203), before the tile blocks
are locked. -/
def openClusters (s : State) : State :=
  (List.range 64).foldl (fun (s : State) k =>
    (((s.wrB (Reg.DPL_CTL k) 0 true).wrB (Reg.FLW_CTL k) 1 true).wrB (Reg.DPL_LOCK k) 0 true).wrB (Reg.FLW_LOCK k) 0 true) s

/-- The copy of the settings in use is loaded: registers, terminal profiles and the game table. RELEASE waits for stage 7, and the tile blocks are opened and
locked once configured. -/
def loadConfig (s : State) : State :=
  let s := loadSettings s
  let c := if s.upd.newestB then s.conf.copyB else s.conf.copyA
  let s := c.regs.foldl (fun (s : State) e => s.wr e.1 e.2) s
  let s := (List.range 512).foldl (fun (s : State) p =>
    s.wrB (Reg.PRT_CTL p) 1 false) s
  let s := openClusters s
  let s := (List.range 4).foldl (fun (s : State) t => s.wrB (Reg.TRM_LOCK t) 0 true) s
  { s with flow := { s.flow with profiles := c.profiles }, tim := { s.tim with games := c.games } }

/-- A ceremony that the journal shows open at a start outside ZEROIZED: a committed close is completed, any other is restored (R498), and the mode is
selected again as from the mode it leads to. -/
def resolveCeremony (s : State) : State :=
  if s.cer.phase = .idle then s
  else if s.cer.phase = .closing then updSys (fun y => { y with mode := .notary }) (completeClose s)
  else
    let from_ := s.cer.openedFrom
    updSys (fun y => { y with mode := from_, keeperZeroized := from_ == .zeroized }) (restoreCeremony s)

/-- Start-mode selection (R39). -/
def selectMode (s : State) : State :=
  let old := s.sys.mode
  let s := if s.sys.shipFuse && !s.sys.keeperZeroized then resolveCeremony s else s
  let set := s.sys.maintStored
  let (m, set) :=
    if !s.sys.shipFuse then (Mode.factory, set)
    else if s.sys.keeperZeroized then (.zeroized, set)
    else if !s.anyCharter then (.notary, set)
    else if s.held then (.maintenance, MaintSet.all)
    else if !set.isEmpty then (.maintenance, set)
    else (.service, set)
  updSys (fun y => { y with mode := m, prevMode := old, maint := set, maintStored := set }) s

/-- The Ledger starts, but not in FACTORY (R32): the START event goes before every other record, and ZEROIZE events that waited follow it (R52, R269, R281). -/
def startLedger (s : State) : State :=
  if s.sys.mode = .factory then s else
  let body := eventBody s 0x0001 0 0xFFFF
    (be 4 (s.rd Reg.SYS_RESET_CAUSE).toNat ++ be 1 s.sys.mode.code ++ be 4 (s.rd Reg.SYS_HOLD).toNat ++ be 2 s.sys.portsAtStage4)
  let zs := s.tpr.zeroEvents.map (fun d => (⟨0x0002, eventBody s 0x0002 (srcMaster 1024) 0xFFFF d, true⟩ : Event))
  let s := updTpr (fun t => { t with zeroEvents := [] }) s
  pump { s with ldg := { s.ldg with
    evq := [⟨0x0001, body, true⟩] ++ s.ldg.afterStart ++ zs ++ s.ldg.evq, afterStart := []
    started := true, running := true, nextClose := s.epoch, firstEpoch := some s.epoch } }

/-- At every start of a pair member each HOLDER, RELEASING and TAKING record becomes DORMANT (R556). -/
def dormantCharters (s : State) : State :=
  if !s.pair.paired then s
  else { s with pair := { s.pair with charters := s.pair.charters.map (fun e =>
    if [1, 3, 4].contains e.2.role then (e.1, { e.2 with prior := e.2.role, role := 5 }) else e) } }

/-- Link training begins on every port that the mode enables: in NOTARY every lane (R53), in SERVICE and MAINTENANCE those whose ENABLE is set
(R46). -/
def trainPorts (s : State) : State :=
  let train (p : Nat) (s : State) : State := if s.tileCond (tileOf p) = .up then setEnable p true s else s
  let s := regroup 0 512 s
  if s.plane = .notary then (List.range 512).foldl (fun (s : State) p => train p s) s
  else if s.sealing then (List.range 512).foldl (fun (s : State) p => if s.bitOf (Reg.PRT_CTL p) 0 then train p s else s) s
  else s

/-- The register image begins to load (R186); in FACTORY and ZEROIZED there is none. -/
def beginImage (s : State) : State :=
  if s.sys.mode = .factory ∨ s.sys.mode = .zeroized then { s with flow := { s.flow with allLoaded := true } }
  else
    let fenced := !(s.flow.clean && s.flow.cleanCopy)
    let s := [0, 1, 2, 3].foldl (fun (s : State) t =>
      ((s.wrB (Reg.TRM_IMAGE t) 0 s.flow.clean).wrB (Reg.TRM_IMAGE t) 1 fenced).wrB (Reg.TRM_IMAGE t) 2 true) s
    { s with flow := { s.flow with fencedStart := fenced, nextPage := 0 } }

/-- BOOT_STAGE_5: start-mode selection and the loading of the configuration (R39, R46, R229, R476), the first event of the Ledger (R52), and the beginning of
stage 6. What registers 16 to 23 are extended with is not stated. -/
def execBootStage5 (pass : Bool) (s : State) : Out :=
  if !s.atStage 5 then .next s
  else if !pass then .next (enterRecovery 5 0x20 s)
  else
    let s := holdCalibration (loadCalibration (loadConfig (if s.sys.keeperZeroized then s else restoreBank s)))
    let s := dormantCharters (selectMode (deriveLink s))
    let s := if s.sys.mode = .zeroized then firstZeroized s else s
    let s := startLedger s
    let s := (List.range 8).foldl (fun (s : State) i => extendMr (16 + i) (s.freeBytes 32) (s.drawnBytes 32)) s
    .next (beginStage 6 (trainPorts (beginImage s)))

/-! ### Release (stages 6 and 7) -/

/-- Whether the start is chartered: it leads to SERVICE or MAINTENANCE. -/
def State.chartered (s : State) : Bool := s.sealing && s.anyCharter

/-- BOOT_STAGE_6: link training has been begun everywhere; a chartered start begins the seal check of stage 7 (R46, R515). -/
def execBootStage6 (s : State) : Out :=
  if !s.atStage 6 then .next s
  else .next (beginStage 7 (if s.chartered then startCheck none s else s))

/-- The KCV that the key store holds for a slot. -/
def State.storedKcv (s : State) (n : Nat) : Bytes := slice (tget (dflt noRecord) s.keys.store n).meta32 20 5

/-- A KCV comparison failed: VLT_IRQ_STATUS.KCV_MISMATCH with its alarm. -/
def kcvMismatch (s : State) : State := irq Reg.VLT_IRQ_STATUS 12 4 s

/-- The L1 keys are compared with their stored copies; every charter of a domain whose key fails becomes DORMANT (R229, R560). -/
def verifyL1 (s : State) : State :=
  (List.range 16).foldl (fun (s : State) d =>
    let ts := s.tenants.filter (fun t => (s.tenant t).domain == d)
    let v := s.slot (1 + d)
    if ts = [] ∨ (v.state = 1 ∧ kcvOf v.keyBytes = s.storedKcv (1 + d)) then s
    else ts.foldl (fun (s : State) t =>
      let c := s.charter t
      if c.role = 0 then s else s.setCharter t { c with role := 5, prior := 0 }) (kcvMismatch s)) s

/-- Whether a slot holds a key whose check value is the one its record carries (R229). -/
def State.keyVerified (s : State) (n : Nat) : Bool := (s.slot n).state == 1 && kcvOf (s.slot n).keyBytes == s.storedKcv n

/-- Every L2 and purpose key is derived again and compared, with the device keys whose label has no epoch; an L2 that differs, or that cannot be derived,
leaves its tenant's frames refused (R229). -/
def verifyTenants (s : State) : State :=
  let device := s.keyVerified storeKeySlot && s.keyVerified imageKeySlot
  let (s, all) := s.tenants.foldl (fun (x : State × Bool) t =>
    let s := derives 7 (fillSeeds t (makePurposes t (makeL2 t x.1)))
    if (s.slot (1 + (s.tenant t).domain)).state ≠ 1 ∨ !s.keyVerified (l2Slot t) then
      (kcvMismatch { s with keys := { s.keys with badL2 := s.keys.badL2 ++ [t] } }, false)
    else if [signSlot t, x25519Slot t, mlkemSlot t, monitorSlot t].all s.keyVerified then (s, x.2)
    else (kcvMismatch s, false)) (if device then s else kcvMismatch s, device)
  s.wrB Reg.VLT_STATUS 3 all

/-- The regions of a tenant marked PRELOAD, region 4,095 among them (R236). -/
def State.preloads (s : State) (n : Nat) : List Nat :=
  (s.keys.regions.filter (fun e => e.1 / 4096 == n && e.2.present && e.2.preload && e.1 % 4096 != 4095)).map (·.1 % 4096) ++ [4095]

/-- Put the L3 key of a region into the Leaf Mints of a tile, its shares re-randomised for each (R18). -/
def preloadRegion (t n r : Nat) (s : State) : State :=
  match mintL3 n r s with
  | none => s
  | some (e, s) => derives 1 ((List.range 16).foldl (fun s i => let (e, s) := e.renew s; putL3 (16 * t + i) e s) s)

/-- With MNT_CTL.PRELOAD, every region marked PRELOAD goes to the Leaf Mints of a tile, in tenant order, until their caches are full (R236). -/
def preloadTile (t : Nat) (s : State) : State :=
  if !s.mintUp ∨ !s.bitOf Reg.MNT_CTL 1 then s
  else ((s.tenants.flatMap (fun n => (s.preloads n).map (fun r => (n, r)))).take 2048).foldl (fun s x => preloadRegion t x.1 x.2 s) s

/-- The salts of a tile's flow caches are drawn (R189). -/
def drawSalts (t : Nat) (s : State) : State :=
  (List.range 16).foldl (fun (s : State) i =>
    { s.drawn with dp := { s.dp with salt := tput (dflt 0) s.dp.salt (16 * t + i) (s.freeBits.toNat % 2 ^ 32) } }) s

/-- Ports are released: RELEASE is set for every port whose ENABLE is set. -/
def releasePorts (s : State) : State :=
  (List.range 512).foldl (fun (s : State) p => if s.bitOf (Reg.PRT_CTL p) 0 then setRelease p true s else s) s

/-- BOOT_STAGE_7: once the seal check has ended, keys are verified and distributed and ports released; a hold reason takes a device in SERVICE to
MAINTENANCE (R46, R49, R229). -/
def execBootStage7 (s : State) : Out :=
  if !s.atStage 7 ∨ s.nfr.check.isSome then .next s
  else
    let s := if s.chartered then
        let s := verifyTenants (verifyL1 s)
        let s := s.tilesUp.foldl (fun s t => preloadTile t s) s
        if s.held ∧ s.sys.mode = .service then commitMode ⟨.maintenance, MaintSet.all, none⟩ s else s
      else s
    let s := s.tilesUp.foldl (fun s t => drawSalts t s) s
    let s := if s.plane = .notary ∨ s.chartered then releasePorts s else s
    .next (beginStage 0xF s)

/-! ### A tile's release (R44) -/

/-- TILE_RELEASE: a reset tile has reloaded, with the failures its known-answer tests found, and is released; when the reload fails the tile is marked failed
(R44, R162, R565). -/
def execTileRelease (tile : Fin 4) (pass : Bool) (badEngines : List (Fin 1152)) (badUnits : List (Fin 68)) (s : State) : Out :=
  if !s.sys.mainPower ∨ s.tileCond tile ≠ .held ∨ s.fld Reg.SYS_BOOT_STAGE 3 0 < 5 then .next s
  else if !pass then .next (failTile tile s)
  else
    let t := tile.val
    let s := applyRepair [t] (badEngines.map (·.val)) (badUnits.map (·.val)) (raiseTile t s)
    let s := (List.range 16).foldl (fun (s : State) i => ((s.wrB (Reg.MNT_LM_STATUS (16 * t + i)) 16 true).wrB (Reg.DPL_LOCK (16 * t + i)) 0 true).wrB (Reg.FLW_LOCK (16 * t + i)) 0 true) s
    let s := updTpr (fun x => { x with linksDown := x.linksDown &&& ~~~(1#4 <<< t) }) (s.wrB (Reg.TRM_LOCK t) 0 true)
    let s := drawSalts t (preloadTile t (s.tenants.foldl (fun s n => fillSeeds n s) s))
    .next (settlePorts (128 * t) 128 s)

/-! ### Status, identity and activation -/

/-- SYS_STATUS as read: CHARTER, RECOVERY and PAIRED follow the state. -/
def State.statusWord (s : State) : Word :=
  setBit (setBit (setBit (s.rd Reg.SYS_STATUS) 1 s.anyCharter) 3 s.sys.recovery) 5 s.pair.paired

/-- GET_STATUS: mode, status, hold reasons, boot stage, reset cause and the maintenance set; expert adds the Tally snapshot of a cluster or of the
Strongroom (R58, R577). -/
def execGetStatus (c : HostCmd) (selector : BitVec 8) (s : State) : Out :=
  let base (s : State) : Bytes := [s.modeWord, s.statusWord, s.rd Reg.SYS_HOLD, s.rd Reg.SYS_BOOT_STAGE, s.rd Reg.SYS_RESET_CAUSE].flatMap (fun w => be 4 w.toNat)
    ++ s.sys.maint.image
  .next (hostRun 0x0101 c [] (fun s =>
    if !c.expert then .done 0 (base s) 0 s
    else if 64 < selector.toNat then .fail 0x1F02
    else .done 0 (base s ++ s.tallySnapshot selector.toNat) 0 s) s)

/-- GET_IDENTITY: the identity public keys and the factory certificate; expert a signed identity statement over a nonce (R249). -/
def execGetIdentity (c : HostCmd) (nonce : Bytes) (s : State) : Out :=
  .next (hostRun 0x0102 c [] (fun s =>
    if !c.expert then .done 0 (idPublic ++ s.keys.certificate) 0 s
    else if nonce.length ≠ 32 then .fail 0x1F02
    else
      let st := identityStatement nonce s
      let (sig, s) := signStatement st s
      .done 0 (st ++ sig) 0 s) s)

/-- ACTIVATE: the staged bank becomes PREF on trial, and a warm reset follows (R475, R478). -/
def execActivate (c : HostCmd) (tries : BitVec 8) (s : State) : Out :=
  .next (hostRun 0x0825 c [] (fun s =>
    match activate c tries.toNat s with
    | .error st => .fail st
    | .ok s => .hold (warmReset 2 true (interimReply c.ref 0x010A s))) s)

end Sys2Proof.Machine
end

