-- ==== Sys2Proof/Machine/BusAccess.lean ====
section
/-! DEFINITION. The registers as the bus sees them: the value each one reads as, what a read does besides, and what a write does, by access code
(R8, R9), lock, gate, fixed rule, range and pair (R377 to R383). -/

namespace Sys2Proof.Machine

/-- The outcome's state. -/
def settled (o : Out) (s : State) : State := match o with | .next t => t | _ => s

/-- The instance numbers of an address: tile, cluster (of 64), port (of 512), custody unit and card slot. -/
def tileAt (a : Nat) : Nat := (a - 0x20000000) / 0x4000000
def unitAt (a : Nat) : Nat := (a - 0x10061000) / 0x100
def cardAt (a : Nat) : Nat := (a - 0x100D0100) / 0x40

/-! ### Values read -/

/-- A word of the bytes of R397: word `i` holds bytes 4i to 4i + 3, the first in bits [7:0]. -/
def leWord (b : Bytes) (i : Nat) : Word := BitVec.ofNat 32 (ofLe (slice b (4 * i) 4))

/-- The low or high word of a 64-bit value. -/
def half (v : Nat) (hi : Bool) : Word := BitVec.ofNat 32 (if hi then v / 2 ^ 32 else v)

/-- A word of bits. -/
def bitWord (p : Nat → Bool) : Word := BitVec.ofNat 32 (((List.range 32).map (fun k => b2n (p k) * 2 ^ k)).sum)

/-- The free ingress buffer of a cluster in KiB (DPL_BUF_FREE). -/
def State.bufFree (s : State) (c : Nat) : Nat := 512 - min 512 ((((List.range 8).map (fun i => s.ingressUse (8 * c + i))).sum + 1023) / 1024)

/-- The valid and the pending entries of a cluster's flow cache. -/
def State.flowActive (s : State) (c : Nat) : Nat := (s.flow.flows.filter (fun e => e.1 / 16384 == c && e.2.isSome)).length

/-- The dirty lines behind a tile. -/
def State.dirtyOf (s : State) (t : Nat) : Nat := (s.dirty.filter (fun n => stackTile n == t)).length

/-- L3 requests queued from each tile, seven bits a tile (MNT_L3_QDEPTH). -/
def State.l3Depth (s : State) : Nat :=
  ((List.range 4).map (fun t => min 127 (s.keys.mintQ.filter (fun q => q.rank == 3 && q.cluster / 16 == t)).length * 2 ^ (7 * t))).sum

/-- The first undelivered and unpopped entry of the selected mailbox channel. -/
def State.recvHead (s : State) : BitVec 64 := ((s.fifo (s.fld Reg.MBX_RECV_SEL 9 0)).head?).getD 0

/-- The bad granule shown (FSH_BB_ENTRY): the factory's entries first, then those grown; the spare used is the entry's number. -/
def State.bbEntry (s : State) (n : Nat) : Nat :=
  let f := Config.flashFactoryBad.map (·.toNat)
  match (f ++ s.fsh.grown)[n]? with
  | none => 0
  | some g => g + 2 ^ 15 * b2n (decide (f.length ≤ n)) + 2 ^ 16 * n

/-- The tamper log entry selected. -/
def State.tprLog (s : State) : Bytes := match s.tpr.log[s.fld Reg.TPR_LOG_SEL 5 0]? with | some e => e.bytes | none => zeros 16

/-- The head alarm record, and the first record of the selected class. -/
def State.almHead (s : State) : Bytes := match s.alm.queue with | a :: _ => a.bytes | [] => zeros 32
def State.almFirst (s : State) : Bytes :=
  match tget (dflt none) s.alm.firsts (s.fld Reg.ALM_FIRST_SEL 3 0) with | some a => a.bytes | none => zeros 32

/-- The selected digest context as DIG_DONE, DIG_CTX_STAT and DIG_RESULT show it; a comparing job shows no result (R398). -/
def State.ctxShown (s : State) : DigSession := s.ctx s.ctxSel
def State.ctxResult (s : State) : Bytes := if bit s.ctxShown.job 3 ∨ s.ctxShown.stat ≠ 3 then [] else s.ctxShown.result

/-- Registers whose value follows from the rest of the state. -/
def State.view (s : State) (name : String) (i a : Nat) : Option Word :=
  match name with
  | "SYS_MODE" => some s.modeWord
  | "SYS_STATUS" => some s.statusWord
  | "SYS_TNT_MAINT" => some (s.maintWord i)
  | "SYS_UPTIME_LO" => some (half s.ms false)
  | "SYS_UPTIME_HI" => some (half s.ms true)
  | "SYS_LOCKSTEP_CNT" => some (BitVec.ofNat 32 (min 2 s.mismatches.length))
  | "MBX_RECV_LO" => some (s.recvHead.setWidth 32)
  | "MBX_RECV_HI" => some s.host.recvHi
  | "MBX_RECV_STAT" => some (BitVec.ofNat 32 ((s.fifo (s.fld Reg.MBX_RECV_SEL 9 0)).length + 2 ^ 8 * b2n (s.bitOf Reg.MBX_RECV_STAT 8)))
  | "MBX_SEND_SPACE" => some (BitVec.ofNat 32 (8 - (s.fifo (s.fld Reg.MBX_SEND_SEL 9 0)).length))
  | "MBX_PEND" => some (bitWord (fun b => s.fifo (32 * i + b) != []))
  | "DPL_BUF_FREE" => some (BitVec.ofNat 32 (s.bufFree (clusterOfAddr a)))
  | "FLW_ACTIVE" => some (BitVec.ofNat 32 (s.flowActive (clusterOfAddr a)))
  | "FLW_PENDING" => some (BitVec.ofNat 32 (s.setupsBusy (clusterOfAddr a)))
  | "TRM_DIRTY" => some (BitVec.ofNat 32 (s.dirtyOf (tileAt a)))
  | "TRM_XCHG_DEPTH" => some (BitVec.ofNat 32 (s.exchQ (tileAt a)).length)
  | "MNT_L3_QDEPTH" => some (BitVec.ofNat 32 s.l3Depth)
  | "MNT_LM_STATUS" => some (setBits (s.rd a) 11 0 (tget (dflt []) s.keys.l3 (clusterOfAddr a)).length)
  | "MNT_LM_GRANT_LEFT" => some (BitVec.ofNat 32 ((s.grants (clusterOfAddr a)).map (·.left)).sum)
  | "VLT_META" => some (leWord ((s.slot (s.fld Reg.VLT_SEL 15 0)).metaBytes (s.fld Reg.VLT_SEL 15 0)) i)
  | "VLT_FREE" => some (BitVec.ofNat 32 s.poolFree)
  | "LDG_EPOCH_LO" => some (half s.epoch false)
  | "LDG_EPOCH_HI" => some (half s.epoch true)
  | "LDG_RECSEQ_LO" => some (half s.ldg.nextSeq false)
  | "LDG_RECSEQ_HI" => some (half s.ldg.nextSeq true)
  | "LDG_ACKSEQ_LO" => some (half s.ldg.ackSeq false)
  | "LDG_ACKSEQ_HI" => some (half s.ldg.ackSeq true)
  | "LDG_JNL_FILL" => some (BitVec.ofNat 32 ((s.lfs.jblocks.length - s.lfs.borrowed) % 2 ^ 13 + 2 ^ 13 * s.lfs.borrowed))
  | "LDG_RCPT_FREE" => some (BitVec.ofNat 32 s.receiptFree)
  | "LDG_EVQ_DEPTH" => some (BitVec.ofNat 32 s.ldg.evq.length)
  | "LDG_TL_TREES" => some (BitVec.ofNat 32 (s.ldg.trees.filter (fun t => t.tile == tileAt a)).length)
  | "LDG_CL_OPEN" => some (BitVec.ofNat 32 (s.chunks (clusterOfAddr a)).length)
  | "TIM_NOW_LO" => some (s.stamp.setWidth 32)
  | "TIM_NOW_HI" => some ((s.stamp >>> 32).setWidth 32)
  | "TIM_GT_COUNT" => some (BitVec.ofNat 32 s.gameCount)
  | "CUS_CYCLE_LO" => some (s.core.cycle.setWidth 32)
  | "CUS_CYCLE_HI" => some ((s.core.cycle >>> 32).setWidth 32)
  | "CUS_RETIRED_LO" => some (s.core.retired.setWidth 32)
  | "CUS_RETIRED_HI" => some ((s.core.retired >>> 32).setWidth 32)
  | "GTE_STATUS" => some (setBit (s.rd a) 0 (s.bitOf Reg.GTE_LOCK 0))
  | "GTE_TAG_PEEK" => some (if (s.rd a).toNat < 0x200000 then BitVec.ofNat 32 (s.sramTag ((s.rd a).toNat / 64)) else 0)
  | "GTE_VIO_DEPTH" => some (BitVec.ofNat 32 s.gte.log.length)
  | "GTE_VIO" => some (match s.gte.log with | v :: _ => v.words.getD i 0 | [] => 0)
  | "DIG_DONE_LO" => some (half s.ctxShown.absorbed false)
  | "DIG_DONE_HI" => some (half s.ctxShown.absorbed true)
  | "DIG_CTX_STAT" => some (BitVec.ofNat 32 (s.ctxShown.stat + 2 ^ 8 * s.ctxShown.err))
  | "DIG_RESULT" => some (leWord s.ctxResult i)
  | "DIG_MR_VAL" => some (leWord (s.mr (s.fld Reg.DIG_MR_SEL 4 0)) i)
  | "PKE_T_STATUS" => some (setBits (s.rd a) 1 0 (s.tileUnitState (tileAt a) ((a % 0x4000000 - 0x1030000) / 0x40)))
  | "FSH_RUN_US" => some (BitVec.ofNat 32 (min 0xFFF s.runUs))
  | "FSH_BB_SPARES" => some (BitVec.ofNat 32 s.sparesLeft)
  | "FSH_BB_GROWN" => some (BitVec.ofNat 32 s.fsh.grown.length)
  | "FSH_BB_ENTRY" => some (BitVec.ofNat 32 (s.bbEntry (s.fld Reg.FSH_BB_SEL 7 0)))
  | "LFS_GEOM" => some (BitVec.ofNat 32 Config.lflashFabricated)
  | "LFS_GOOD" => some (BitVec.ofNat 32 s.lfsGood)
  | "LFS_FACTORY_BAD" => some (BitVec.ofNat 32 factoryBadCount)
  | "LFS_GROWN_BAD" => some (BitVec.ofNat 32 s.grownBad)
  | "LFS_BLK_ERASES" => some (BitVec.ofNat 32 (s.lblock (s.fld Reg.LFS_BLK_SEL 17 0)).erases)
  | "LFS_BLK_INFO" => some (BitVec.ofNat 32 (s.blockInfo (s.fld Reg.LFS_BLK_SEL 17 0)))
  | "LFS_BW" => some (BitVec.ofNat 32 (sat 65535 s.writeRate))
  | "LFS_WEAR_MAX" => some (BitVec.ofNat 32 s.wearMax)
  | "LFS_WEAR_MEAN" => some (BitVec.ofNat 32 s.wearMean)
  | "LFS_WEAR_MIN" => some (BitVec.ofNat 32 s.wearMin)
  | "TPR_SVC_LEFT" => some (match s.tpr.window with
      | some w => BitVec.ofNat 32 (min 255 ((w.ends - s.now + 59999999999) / 60000000000) + 2 ^ 8 * w.mask)
      | none => 0)
  | "TPR_LOG_DEPTH" => some (BitVec.ofNat 32 (s.tpr.log.filter (fun e => !e.transferred)).length)
  | "TPR_LOG" => some (leWord s.tprLog i)
  | "ALM_STATUS" => some (BitVec.ofNat 32 (s.alm.queue.length + 2 ^ 16 * b2n (s.alm.held != [])))
  | "ALM_HEAD" => some (leWord s.almHead i)
  | "ALM_FIRST" => some (leWord s.almFirst i)
  | "PAI_STATUS" => some s.paiStatus
  | "PAI_PARTNER_LO" => some (half s.pair.partner false)
  | "PAI_PARTNER_HI" => some (half s.pair.partner true)
  | "PAI_REPL_BACKLOG" => some s.paiBacklog
  | "PAI_TNT" => some (s.paiTnt i)
  | "CRD_S_RXDATA" => some (match (s.cardSlot (cardAt a)).rx with | b :: _ => b.setWidth 32 ||| 0x100 | [] => 0)
  | "CRD_S_FIFO" => some (BitVec.ofNat 32 ((32 - (s.cardSlot (cardAt a)).tx.length) + 2 ^ 8 * (s.cardSlot (cardAt a)).rx.length))
  | "TLY_CL_OVF_SUM_LO" => some (bitWord (fun c => s.rd (Reg.TLY_CL_OVF c) != 0))
  | "TLY_CL_OVF_SUM_HI" => some (bitWord (fun c => s.rd (Reg.TLY_CL_OVF (32 + c)) != 0))
  | _ => none

/-- The bits of a row that a read shows: write-only bits read 0 (R8). -/
def RegRow.shown (row : RegRow) : Word := ~~~(row.wo &&& ~~~(row.rw ||| row.rwl))

/-- The live value of a register. -/
def State.live32 (s : State) (a : Nat) : Word :=
  match findReg a with
  | some (_, row, i) => (s.view row.name i a).getD (s.rd a &&& row.shown)
  | none => 0

/-- The value a master reads: its snapshot of a _HI register, or of an odd Tally counter chained or not, when it holds one (R383, R576). -/
def State.readValue (s : State) (master a : Nat) : Word :=
  match tget (dflt none) s.gte.snaps (2048 * a + master) with
  | some w => w
  | none => s.live32 a

/-- Keep a snapshot for a master. -/
def snapshot (a master : Nat) (v : Word) (s : State) : State :=
  { s with gte := { s.gte with snaps := tput (dflt none) s.gte.snaps (2048 * a + master) (some v) } }

/-! ### Reads with effects -/

/-- The ring of an access as an operand. -/
def Access.ringFin (a : Access) : Fin 4 := Fin.ofNat 4 a.ring

/-- What a read of a register does before it answers: the software port refills and pops (R420), Tally counters come up to date (R576). -/
def readBefore (name : String) (i : Nat) (a : Access) (env : BusEnv) (s : State) : State :=
  match name with
  | "RNG_DATA" => settled (execRngDataRead a.ringFin env.refill s) s
  | "TLY_CNT" => settled (execTallyCounterRead 64 (Fin.ofNat 16 i) (BitVec.ofNat 11 a.master) env.counted s) s
  | "TLY_CL_CNT" => settled (execTallyCounterRead (Fin.ofNat 65 (clusterOfAddr a.addr)) (Fin.ofNat 16 i) (BitVec.ofNat 11 a.master) env.counted s) s
  | _ => s

/-- What a read of a register does after it has answered: pops, snapshots and flags that the read clears. -/
def readAfter (row : RegRow) (i : Nat) (a : Access) (s : State) : State :=
  let s := if row.pair = 1 then snapshot (a.addr / 4 * 4 + 4) a.master (s.live32 (a.addr / 4 * 4 + 4)) s else s
  match row.name with
  | "MBX_RECV_LO" => settled (execMbxRecvPop s) s
  | "RNG_DATA_STAT" => showPort (updRng (fun r => { r with emptyRead := false }) s)
  | "GTE_VIO" => if i = 3 then settled (execGteVioPop s) s else s
  | "ALM_HEAD" => if i = 7 then settled (execAlmHeadPop a.ringFin s) s else s
  | "CRD_S_RXDATA" => settled (execCardRxPop (Fin.ofNat 4 (cardAt a.addr)) s) s
  | "DIG_MR_VAL" => if i = 0 then snapMr a.master s else s
  | _ => s

/-- The lane of a word that a read of a size at an address returns. -/
def lane (w : Word) (addr size : Nat) : Word :=
  let v := w >>> (8 * (addr % 4))
  if size = 0 then v &&& 0xFF else if size = 1 then v &&& 0xFFFF else v

/-- A read of a register that its gate has passed: the whole word with its side effects, cut to the width asked for (R382). An address of a block
that holds no register reads 0. A read of MBX_RECV_LO snapshots the popped entry, not the pair (R80). -/
def readReg (a : Access) (env : BusEnv) (s : State) : Word × State :=
  match findReg (a.addr / 4 * 4) with
  | none => (0, s)
  | some (_, row, i) =>
    let s := readBefore row.name i a env s
    (lane (s.readValue a.master (a.addr / 4 * 4)) a.addr a.size, readAfter { row with pair := if row.name = "MBX_RECV_LO" then 0 else row.pair } i a s)

/-- The bytes of a memory target: custody SRAM, the flash window, PKE slot memory, DRAM, and the host's memory as it answers. -/
def State.readBytes (s : State) (addr n : Nat) (host : Bytes) : Bytes :=
  if 0x80000000 ≤ addr then fit n host
  else if 0x18000000 ≤ addr ∧ addr < 0x18080000 then (List.range n).map (fun i => tget (dflt 0) s.pke.mem (addr - 0x18000000 + i))
  else (List.range n).map (fun i => s.memByte (addr + i))

/-- Write bytes to custody SRAM or DRAM; bytes of the host window leave the device. -/
def writeBytes (addr : Nat) (b : Bytes) (s : State) : State :=
  if addr < 0x200000 then { s with gte := { s.gte with sram := tputBytes (dflt 0) s.gte.sram addr b } }
  else if 0x40000000 ≤ addr ∧ addr < 0x80000000 then
    match s.dramAddr addr with
    | some d => { s with gte := { s.gte with dram := tputBytes (dflt 0) s.gte.dram d b } }
    | none => s
  else s

/-- An access that reads: refused and reported by the gate, or answered (R377, R379). A read of the flash window is seen by the snoop context and flagged
when indeterminate (R392, R456). -/
def busRead (a : Access) (env : BusEnv) (s : State) : Option Bytes × State :=
  match s.gateCheck a with
  | .refuse c r t => (none, violate c r t a s)
  | .pass =>
    let g := gateOf a.addr
    if 5 ≤ g ∧ g ≤ 31 then let r := readReg a env s; (some (le (sizeBytes a.size) r.1.toNat), r.2)
    else
      let b := s.readBytes a.addr (sizeBytes a.size) env.host
      (some b, if g = 1 then serveRead (a.addr - 0x04000000) (sizeBytes a.size) s else s)

/-! ### Writes -/

/-- The registers whose values outside a range are ignored: name and bounds (R85, R164, R193, R302, R402, R490, R511, R547, R552; and those whose summary gives a
range only, log entry 51). -/
def regRanges : List (String × Nat × Nat) := [
  ("MBX_WDOG", 1, 600), ("DPL_STALL", 1, 10000), ("DPL_USAGE_MARGIN", 10, 24), ("FLW_TIMEOUT", 1, 3600), ("FLW_GRACE", 0, 60000),
  ("TRM_WB_RATE", 10, 1000), ("TRM_XCHG_WAIT", 100, 60000), ("TIM_DRIFT", 1, 100000), ("TIM_BASE_UNC", 0, 100000),
  ("TIM_MAX_UNC", 1, 1000000), ("CPH_WKEY_LIMIT", 1, 65535), ("CRD_STEP_WAIT", 10, 900), ("CRD_CER_IDLE", 60, 14400),
  ("NFR_POLL", 100, 4000), ("PAI_GUARD", 100, 10000), ("THM_TJ_SET", 10240, 23040), ("THM_TJ_WARN", 20480, 25600),
  ("THM_DUTY", 20, 100)]

/-- Whether a value is one the register takes (R535 for the keeper thresholds; THM_DUTY is written only while the governor is off). -/
def State.valueOk (s : State) (name : String) (v : Word) : Bool :=
  (match regRanges.find? (fun e => e.1 == name) with
    | some (_, lo, hi) => decide (lo ≤ v.toNat) && decide (v.toNat ≤ hi)
    | none => true) &&
  (match name with
    | "THM_KEEP_ZTHR" => keeperOrder v.toNat (s.fld Reg.THM_KEEP_ZERO 15 0)
    | "THM_KEEP_ZERO" => keeperOrder (s.fld Reg.THM_KEEP_ZTHR 15 0) v.toNat
    | "THM_DUTY" => !s.bitOf Reg.THM_CTL 0
    | "NFR_SEAL_CFG" => decide (bits v 4 0 ≤ 16) && bits v 10 8 != 0 && bits v 15 12 != 0
    | _ => true)

/-- Whether the LOCK bit of the block instance that holds a register is set. -/
def State.blockLocked (s : State) (b : RegBlock) (a : Nat) : Bool :=
  match b.lock with
  | some o => s.bitOf (a - (instOffset b.dims (a - b.base)).getD 0 + o) 0
  | none => false

/-- A write by access code alone: RW and staged WO bits take the value, RWL bits while unlocked, W1C bits clear and W1S bits set where the value has a 1; RO,
CTR and reserved bits keep theirs (R8, R9). -/
def writeByCode (b : RegBlock) (row : RegRow) (i a : Nat) (v : Word) (s : State) : State :=
  let m := row.writable i &&& (row.rw ||| row.wo ||| (if s.blockLocked b a then 0 else row.rwl))
  let old := s.rd a
  s.wr a (((old &&& ~~~m) ||| (v &&& m) ||| (v &&& row.w1s)) &&& ~~~(v &&& row.w1c))

/-- A field that ignores a value keeps its own: WINDOW of the quarantine triggers ignores 0 (R208). -/
def State.fieldKept (s : State) (name : String) (a : Nat) (v : Word) : Word :=
  if (name = "FLW_QUAR_TAG" ∨ name = "FLW_QUAR_REPLAY") ∧ bits v 23 16 = 0 then setBits v 23 16 (s.fld a 23 16) else v

/-- The plain effect of a write: by code, unless the value is out of range. -/
def plainWrite (b : RegBlock) (row : RegRow) (i a : Nat) (v : Word) (s : State) : State :=
  let v := s.fieldKept row.name a v
  if s.valueOk row.name (v &&& (row.rw ||| row.rwl)) ∨ row.rw ||| row.rwl = 0 then writeByCode b row i a v s else s

/-- FSH_CMD: a keyed write runs its command; others have no effect. -/
def flashCommand (v : Word) (s : State) : State :=
  if bits v 31 16 ≠ 0x3E5A then s
  else match bits v 3 0 with
    | 1 => settled (execFlashProgram s) s
    | 2 => settled (execFlashErase s) s
    | 3 => settled (execFlashSuspend s) s
    | 4 => settled (execFlashResume s) s
    | _ => s

/-- DIG_GO: one bit per write. -/
def digGo (r : Fin 4) (v : Word) (env : BusEnv) (s : State) : State :=
  match bits v 4 0 with
  | 1 => settled (digOpen r s) s
  | 2 => settled (execDigGoFeed s) s
  | 4 => settled (execDigGoAbort s) s
  | 8 => settled (execDigGoExport s) s
  | 16 => settled (digImport r env.host s) s
  | _ => s

/-- SYS_RESET_CTL: by its KIND. -/
def resetControl (r : Fin 4) (v : Word) (s : State) : State :=
  match bits v 1 0 with
  | 1 => settled (execSysResetCtlWarm r v s) s
  | 2 => settled (execSysResetCtlCustody r v s) s
  | 3 => settled (execSysResetCtlTile r v s) s
  | _ => s

/-- TPR_COMMIT: ARM, then WINDOW. -/
def tprCommit (r : Fin 4) (v : Word) (env : BusEnv) (s : State) : State :=
  let s := settled (execTprCommitArm r v env.matched env.delays s) s
  settled (execTprCommitWindow r v s) s

/-- The effect of a write on a register that has one of its own; `none` for a register that only stores. -/
def ownWrite (name : String) (i : Nat) (a : Access) (v : Word) (env : BusEnv) (s : State) : Option State :=
  let r := a.ringFin
  match name with
  | "SYS_RESET_CTL" => some (resetControl r v s)
  | "SYS_MODE_REQ" => some (settled (execSysModeReqWrite v s) s)
  | "CUS_BOOT" => some (if bit v 0 then settled (execRomDisable r s) s else s)
  | "CUS_LS_TEST" => some (settled (execLockstepTestInject true r v s) s)
  | "MBX_SEND_HI" => some (commitSend (s.rd Reg.MBX_SEND_LO) v s)
  | "PRT_CTL" => some (writePortCtl (portOfAddr a.addr) v s)
  | "PRT_RESET" => some (settled (execPortReset (Fin.ofNat 512 (portOfAddr a.addr)) v s) s)
  | "GTE_SEL" => some (settled (execGteSelLoad v s) s)
  | "GTE_COMMIT" => some (settled (execGteCommit v s) s)
  | "GTE_TAG_CTL" => some (settled (execTagRetagStart v s) s)
  | "GTE_DPAGE" => some (settled (execGteDpageWrite (Fin.ofNat 256 i) v s) s)
  | "DIG_GO" => some (digGo r v env s)
  | "DIG_MR_CTL" => some (settled (execMrExtendStart r v s) s)
  | "CPH_GO" => some (if bit v 0 then settled (execCphJobStart r s) s else s)
  | "CPH_WKEYA" => some (settled (execCphWkeyWrite false (Fin.ofNat 8 i) v s) s)
  | "CPH_WKEYB" => some (settled (execCphWkeyWrite true (Fin.ofNat 8 i) v s) s)
  | "CPH_WKEY_CLR" => some (if bit v 0 then settled (execCphWkeyClear s) s else s)
  | "RNG_RESEED" => some (settled (execRngReseedWrite r v s) s)
  | "PKE_U_GO" =>
    let u := Fin.ofNat 8 (unitAt a.addr)
    some (if bit v 0 then settled (execPkeStart u s) s else if bit v 1 then settled (execPkeAbort u s) s else s)
  | "PKE_U_LAYOUT" =>
    let u := unitAt a.addr
    if i = 7 then some (settled (execPkeLayoutWrite (Fin.ofNat 8 u) r v s) s)
    else if (s.pkeUnit u).stat = 0 then none else some s
  | "FSH_CMD" => some (flashCommand v s)
  | "FSH_WPSET" => some (s.wr (Reg.FSH_WP i) (s.rd (Reg.FSH_WP i) ||| (v &&& (if i = 4 then 0xFFFF else 0xFFFFFFFF))))
  | "UPD_BANK_SET" => some (settled (execUpdBankSetWrite r v s) s)
  | "UPD_ARB_BLOW" => some (settled (execUpdArbBlowWrite r v s) s)
  | "UPD_GO" => some (if bit v 0 then settled (execUpdGoStart s) s else if bit v 1 then settled (execUpdGoAbort s) s else s)
  | "CRD_S_CTL" => some (writeSlotCtl (cardAt a.addr) v s)
  | "CRD_S_TXDATA" => some (settled (execCardTxWrite (Fin.ofNat 4 (cardAt a.addr)) v s) s)
  | "TPR_COMMIT" => some (tprCommit r v env s)
  | "TPR_ZERO_REQ" => some (settled (execTprZeroReq r v s) s)
  | "TPR_LOG_XFER" => some (settled (execTprLogXfer r v s) s)
  | "ALM_ACK" => some (settled (execAlmAck r v s) s)
  | "RPR_LEND_REQ" => some (settled (execLendRequest r v s) s)
  | "TLY_GCTL" => some (if bit v 0 then settled (execTallyRun r s) s else if bit v 1 then settled (execTallyStop r s) s else s)
  | "TLY_CLR" => some (settled (execTallyClear r 64 (v.setWidth 8 |>.setWidth 16) s) s)
  | "TLY_CL_CLR" => some (settled (execTallyClear r (Fin.ofNat 65 (clusterOfAddr a.addr)) (v.setWidth 16) s) s)
  | _ => none

/-- What follows a plain write of some registers: an armed snoop (R392), BAD_SEL (R573), VIEW held while an operation runs (R465), the field
switched off (R510), and the charger's threshold (R533). -/
def afterWrite (name : String) (a : Access) (old : Word) (s : State) : State :=
  match name with
  | "DIG_SNOOP_CTL" => snoopArm s
  | "TLY_SEL" => showBadSel 64 s
  | "RNG_CTL" => servePort s
  | "PKE_CTL" => seatSigner s
  | "THM_KEEP_VFULL" => charge (s.rd Reg.THM_KEEP_V).toNat s
  | "NFR_CTL" => if s.bitOf Reg.NFR_CTL 0 then s else removeToken s
  | "TLY_CL_SEL" => showBadSel (clusterOfAddr a.addr) s
  | "FSH_CTL" => if s.fld Reg.FSH_STATUS 1 0 = 0 then s else s.wrB Reg.FSH_CTL 0 (bit old 0)
  | _ => s

/-- A write of a register that is no half of a pair, or of a half that a commit writes. -/
def writeReg (a : Access) (v : Word) (env : BusEnv) (s : State) : State :=
  match findReg a.addr with
  | none => s
  | some (b, row, i) =>
    match ownWrite row.name i a v env s with
    | some t => t
    | none => afterWrite row.name a (s.rd a.addr) (plainWrite b row i a.addr v s)

/-- A write of a register that its gate has passed: the _LO half of a writable pair fills the stage, and the _HI half commits both halves and empties it
(R383). -/
def writePassed (a : Access) (v : Word) (env : BusEnv) (s : State) : State :=
  match findReg a.addr with
  | none => s
  | some (_, row, _) =>
    if row.rw ||| row.rwl ||| row.wo = 0 ∨ row.pair = 0 then writeReg a v env s
    else if row.pair = 1 then { s with gte := { s.gte with stages := tput (dflt none) s.gte.stages a.addr (some (a.master, v)) } }
    else
      let lo := match tget (dflt none) s.gte.stages (a.addr - 4) with | some (_, w) => w | none => 0
      let s := { s with gte := { s.gte with stages := tput (dflt none) s.gte.stages (a.addr - 4) none } }
      writeReg a v env (writeReg { a with addr := a.addr - 4 } lo env s)

/-- The fixed rules of a register that depend on its state or on the value written: the bound sender (R77), the boot ROM (R339), extension rights (R396),
and urgent jobs (R407). -/
def writeRefused (a : Access) (v : Word) (s : State) : Bool :=
  if a.addr = Reg.MBX_SEND_HI then !boundSender s (s.fld Reg.MBX_SEND_SEL 9 0) a.master
  else if a.addr = Reg.CUS_LS_TEST then a.ring != 0 || a.master != 0 || !s.bitOf Reg.CUS_BOOT 0
  else if a.addr = Reg.DIG_MR_CTL then a.ring != 0 || !s.mrOpen (bits v 4 0) false
  else if a.addr = Reg.CPH_GO then a.ring != 0 && bit v 0 && s.bitOf Reg.CPH_JOB 5
  else false

/-- An access that writes: refused and reported by the gate, or done (R377 to R379). The answer says whether it was done. -/
def busWrite (a : Access) (b : Bytes) (env : BusEnv) (s : State) : Bool × State :=
  let v := BitVec.ofNat 32 (ofLe b)
  match s.gateCheck a with
  | .refuse c r t => if c = 0x9 ∧ writeRefused a v s then (false, violate 0x8 r t a s) else (false, violate c r t a s)
  | .pass =>
    let g := gateOf a.addr
    if 5 ≤ g ∧ g ≤ 31 then
      if writeRefused a v s then (false, violate 0x8 ((s.rgnsAt g a.addr).headD 15) none a s) else (true, writePassed a v env s)
    else (true, writeBytes a.addr b s)

/-- REGISTER_WRITE: a write that reaches a register block from a master, with a ring (the cores only) and a colour. The cores carry their ring's colour;
while they or the device are held, they send nothing, and a write to a tile waits while its custody link retrains. -/
def execRegisterWrite (ring : Fin 4) (master : BitVec 11) (colour : BitVec 10) (size : Fin 5) (addr value : Word) (env : BusEnv) (s : State) : Out :=
  let core := master.toNat / 128 == 0
  if !s.sys.mainPower || (core && (s.sys.cusInReset || s.core.stopped)) || gateOf addr.toNat < 5 || 31 < gateOf addr.toNat
      || (28 ≤ gateOf addr.toNat && !s.linkOk (gateOf addr.toNat - 28)) then .next s
  else
    let a : Access := ⟨addr.toNat, size, true, if core then ring else 0, master.toNat,
      if core then s.ringColour ring else colour.toNat⟩
    .next (busWrite a (le 4 value.toNat) env s).2

end Sys2Proof.Machine
end

