-- ==== Sys2Proof/Machine/CoreMem.lean ====
section
/-! DEFINITION. The memory instructions of the custody cores: loads, posted stores and FENCE (R320, R321, R358), the stack (R322), and the block
instructions (R324 to R328). -/

namespace Sys2Proof.Machine

/-! ### Fetching (R313, R353, R392, R453) -/

/-- Whether the fetch at PC waits: it reads the flash window while an operation holds it (R453). -/
def State.fetchWaits (s : State) : Bool := inFlash s.core.pc.toNat && !s.flashIdle

/-- After the fetch at PC: one from the flash window is a read of it, which the snoop context sees. -/
def State.fetched (s : State) : State := if inFlash s.core.pc.toNat then serveRead (s.core.pc.toNat - 0x04000000) 4 s else s

/-- Execute the instruction at PC: its fetch first (R353). While the fetch waits the instruction has not begun. -/
def coreStep (f : State → State) (s : State) : State :=
  if !s.coreRuns then s
  else if !s.fetchable s.core.pc then fetchFault s
  else if s.fetchWaits then askSuspend s
  else f s.fetched

/-- An access of the cores in the present ring (R321). -/
def State.coreAccess (s : State) (addr size : Nat) (write : Bool) : Access :=
  ⟨addr, size, write, s.core.cring, 0, s.ringColour s.core.cring⟩

/-- Whether a gate's target answers a load within its instruction: custody SRAM and the register blocks of the Strongroom (R358). -/
def answersAtOnce (g : Nat) : Bool := g == 0 || (decide (5 ≤ g) && decide (g < 28))

/-- Whether a target can answer now: the flash window not while an operation holds it (R453), a tile window not while its custody link retrains. -/
def State.targetReady (s : State) (g : Nat) : Bool :=
  if g = 1 then s.flashIdle else if 28 ≤ g ∧ g < 32 then s.linkOk (g - 28) else true

/-- A read that meets a busy flash window asks for a suspend (R453). -/
def awaitTarget (g : Nat) (s : State) : State := if g = 1 then askSuspend s else s

/-! ### Posted stores (R321) -/

/-- Whether the cores go on with the instruction after the stores it waited for: a store may have reset or stopped them. -/
def State.stillRuns (s : State) : Bool := s.sys.mainPower && !s.sys.cusInReset && !s.core.stopped

/-- A posted store reaches its target: done, or refused and kept to be reported. -/
def deliver (p : PostedStore) (env : BusEnv) (s : State) : State :=
  let r := busWrite ⟨p.addr, p.size, true, p.ring, 0, p.colour⟩ (le (sizeBytes p.size) p.data.toNat) env s
  if !s.stillRuns then s
  else if r.1 then r.2 else updCore (fun c => { c with refused := c.refused ++ [(gateOf p.addr, p.addr)] }) r.2

/-- Deliver the posted stores of a target, oldest first. -/
def drain (g : Nat) (env : BusEnv) (s : State) : State :=
  let l := s.core.posted.filter (fun p => gateOf p.addr == g)
  l.foldl (fun s p => deliver p env s) (updCore (fun c => { c with posted := c.posted.filter (fun p => gateOf p.addr != g) }) s)

/-- The first refusal of a target that awaits its report. -/
def State.refusedAt (s : State) (g : Nat) : Option (Nat × Nat) := s.core.refused.find? (fun r => r.1 == g)

/-- Report a refusal: it is removed and the bus exception taken with the store's address (R352). -/
def reportRefused (r : Nat × Nat) (s : State) : State :=
  busFault 2 (BitVec.ofNat 32 r.2) (updCore (fun c => { c with refused := c.refused.erase r }) s)

/-- FENCE once nothing is posted: the oldest refusal is reported, or FENCE retires. -/
def endFence (s : State) : State :=
  match s.core.refused with
  | r :: _ => reportRefused r s
  | [] => retire s

/-- FENCE (R321): it waits while stores are posted. -/
def doFence (s : State) : State :=
  if s.core.posted = [] then endFence s else updCore (fun c => { c with waiting := some .fence }) s

/-- STORE_ACKNOWLEDGEMENT: the oldest store posted to a target arrives; a FENCE that waits for nothing further ends. -/
def acknowledge (g : Nat) (env : BusEnv) (s : State) : State :=
  if !s.targetReady g then s
  else match s.core.posted.find? (fun p => gateOf p.addr == g) with
    | none => s
    | some p =>
      let s := deliver p env (updCore (fun c => { c with posted := c.posted.erase p }) s)
      if s.core.waiting = some .fence ∧ s.core.posted = [] then endFence s else s

/-! ### Reads and writes of an instruction -/

/-- What a read or write within an instruction came to: its result, or the state after the exception it raised. -/
inductive Reach (α : Type) where
  | ok (v : α) (s : State)
  | fault (s : State)

/-- Whether an address is aligned to a size code (R312). -/
def alignedTo (a : Word) (size : Nat) : Bool := a.toNat % sizeBytes size == 0

/-- Read for an instruction: stores to the same target first, a refusal among them reported ahead of the load's own exceptions (R321, R353), then
alignment (R312), then the gate (R320). `detail` is that of the bus exception. -/
def coreRead (a : Word) (size detail : Nat) (env : BusEnv) (s : State) : Reach Bytes :=
  let g := gateOf a.toNat
  let s := drain g env s
  if !s.stillRuns then .fault s
  else match s.refusedAt g with
  | some r => .fault (reportRefused r s)
  | none =>
    if !alignedTo a size then .fault (misaligned a s)
    else match busRead (s.coreAccess a.toNat size false) env s with
      | (none, s) => .fault (busFault detail a s)
      | (some b, s) => .ok b s

/-- Write for an instruction whose store is not posted. -/
def coreWrite (a : Word) (size detail : Nat) (b : Bytes) (env : BusEnv) (s : State) : Reach Unit :=
  let s := drain (gateOf a.toNat) env s
  if !s.stillRuns then .fault s
  else if !alignedTo a size then .fault (misaligned a s)
  else
    let r := busWrite (s.coreAccess a.toNat size true) b env s
    if !r.1 then .fault (busFault detail a r.2) else if r.2.stillRuns then .ok () r.2 else .fault r.2

/-- The word a load returns: its bytes, zero- or sign-extended (R320). -/
def extend (signed : Bool) (b : Bytes) : Word :=
  let v := BitVec.ofNat 32 (ofLe b)
  if !signed then v
  else if b.length = 1 then ((v.setWidth 8 : BitVec 8).signExtend 32)
  else if b.length = 2 then ((v.setWidth 16 : BitVec 16).signExtend 32)
  else v

/-- A load that reads now. -/
def finishLoad (rd : Fin 16) (a : Word) (size : Nat) (signed : Bool) (env : BusEnv) (s : State) : State :=
  match coreRead a size 1 env s with
  | .fault s => s
  | .ok b s => retire (setG rd (extend signed b) s)

/-- LD and LDS (R320): targets outside custody SRAM and the Strongroom answer with BUS_RESPONSE. SIZE 0b11 is undefined. -/
def doLoad (signed : Bool) (rd base : Fin 16) (size : Nat) (off : BitVec 16) (env : BusEnv) (s : State) : State :=
  let a := s.g base + off.signExtend 32
  if size = 3 then undefined s
  else if answersAtOnce (gateOf a.toNat) || !alignedTo a size then finishLoad rd a size signed env s
  else awaitTarget (gateOf a.toNat) (updCore (fun c => { c with waiting := some (.load rd a.toNat size signed) }) s)

/-- ST (R320, R321): custody SRAM at once, any other target posted. -/
def doStore (rs base : Fin 16) (size : Nat) (off : BitVec 16) (env : BusEnv) (s : State) : State :=
  let a := s.g base + off.signExtend 32
  if size = 3 then undefined s
  else if !alignedTo a size then misaligned a s
  else if gateOf a.toNat = 0 then
    match coreWrite a size 0 (le (sizeBytes size) (s.g rs).toNat) env s with
    | .fault s => s
    | .ok _ s => retire s
  else
    retire (updCore (fun c => { c with posted := c.posted ++ [⟨a.toNat, size, s.g rs, c.cring, s.ringColour c.cring⟩] }) s)

/-! ### The stack (R322, R323) -/

/-- The checks before a push, the target's alignment with them (R322): the exception of the first that fails. -/
def pushFault (target : Word) (s : State) : Option State :=
  let p := s.g sp
  if !alignedTo p 2 then some (misaligned p s)
  else if (p - 4).toNat < (s.rd (Reg.CUS_STK_BOUND s.core.cring)).toNat then some (stackFault (p - 4) s)
  else if !alignedTo target 2 then some (misaligned target s)
  else none

/-- Push a word and go on at an address. -/
def pushWord (v next : Word) (env : BusEnv) (s : State) : State :=
  match pushFault next s with
  | some s => s
  | none =>
    match coreWrite (s.g sp - 4) 2 3 (le 4 v.toNat) env s with
    | .fault s => s
    | .ok _ s => jumpTo next (setG sp (s.g sp - 4) s)

/-- PUSH. -/
def doPush (ra : Fin 16) (env : BusEnv) (s : State) : State := pushWord (s.g ra) (s.core.pc + 4) env s

/-- CALL and CALLR. -/
def doCall (target : Word) (env : BusEnv) (s : State) : State := pushWord (s.core.pc + 4) target env s

/-- A POP whose word can be read now: rd, then g15. -/
def finishPop (rd : Fin 16) (a : Word) (env : BusEnv) (s : State) : State :=
  match coreRead a 2 3 env s with
  | .fault s => s
  | .ok b s =>
    let s := setG rd (extend false b) s
    retire (setG sp (s.g sp + 4) s)

/-- A RET whose word can be read now: the address must be word-aligned. -/
def finishRet (n : Nat) (a : Word) (env : BusEnv) (s : State) : State :=
  match coreRead a 2 3 env s with
  | .fault s => s
  | .ok b s =>
    let t := extend false b
    if !alignedTo t 2 then misaligned t s
    else jumpTo t (setG sp (s.g sp + 4 + BitVec.ofNat 32 (4 * n)) s)

/-- POP and RET: g15 word-aligned; a stack outside custody SRAM and the Strongroom answers with BUS_RESPONSE. -/
def doPop (rd : Fin 16) (env : BusEnv) (s : State) : State :=
  let a := s.g sp
  if answersAtOnce (gateOf a.toNat) || !alignedTo a 2 then finishPop rd a env s
  else awaitTarget (gateOf a.toNat) (updCore (fun c => { c with waiting := some (.pop rd a.toNat) }) s)
def doRet (n : Nat) (env : BusEnv) (s : State) : State :=
  let a := s.g sp
  if answersAtOnce (gateOf a.toNat) || !alignedTo a 2 then finishRet n a env s
  else awaitTarget (gateOf a.toNat) (updCore (fun c => { c with waiting := some (.ret n a.toNat) }) s)

/-- BUS_RESPONSE: the target of the waiting read answers (R358, R359). -/
def respond (env : BusEnv) (s : State) : State :=
  if !s.stillRuns then s
  else match s.core.waiting with
    | some (.load rd a size signed) =>
      if s.targetReady (gateOf a) then finishLoad rd (BitVec.ofNat 32 a) size signed env (updCore (fun c => { c with waiting := none }) s) else awaitTarget (gateOf a) s
    | some (.pop rd a) =>
      if s.targetReady (gateOf a) then finishPop rd (BitVec.ofNat 32 a) env (updCore (fun c => { c with waiting := none }) s) else awaitTarget (gateOf a) s
    | some (.ret n a) =>
      if s.targetReady (gateOf a) then finishRet n (BitVec.ofNat 32 a) env (updCore (fun c => { c with waiting := none }) s) else awaitTarget (gateOf a) s
    | _ => s

/-! ### Block instructions (R324 to R328) -/

/-- The block instructions. -/
inductive Block where
  | bcopy | bfill | bcmp | bseek | bcmpc | bgcopy
  deriving DecidableEq, Repr

/-- The registers of a block instruction: count, source, destination. -/
def gCount : Fin 16 := 1
def gSrc : Fin 16 := 2
def gDst : Fin 16 := 3

/-- What one element comes to: waiting for a target, performed, stopped early, or an exception. -/
inductive Elem where
  | wait (s : State)
  | went (env : BusEnv) (s : State)
  | found (s : State)
  | fault (s : State)

/-- Advance an address register. -/
def stepG (r : Fin 16) (n : Nat) (s : State) : State := setG r (s.g r + BitVec.ofNat 32 n) s

/-- Replace Z, or Z and K. -/
def setZ (z : Bool) (s : State) : State := setFlags (mkFlags z s.fS s.fK s.fO s.fT) s
def setZK (z k : Bool) (s : State) : State := setFlags (mkFlags z s.fS k s.fO s.fT) s

/-- What is left of the host's answers after a read of `n` bytes. -/
def usedHost (a : Word) (n : Nat) (env : BusEnv) : BusEnv := if 0x80000000 ≤ a.toNat then { env with host := env.host.drop n } else env

/-- The addresses an element reads. -/
def Block.reads (k : Block) (s : State) : List Word :=
  match k with
  | .bfill => []
  | .bseek | .bcopy | .bgcopy => [s.g gSrc]
  | .bcmp | .bcmpc => [s.g gSrc, s.g gDst]

/-- The target that an element waits for: one of its aligned reads meets a target that cannot answer yet. -/
def Block.awaits (k : Block) (size : Nat) (s : State) : Option Nat :=
  if !(k.reads s).all (alignedTo · size) then none
  else ((k.reads s).map (fun a => gateOf a.toNat)).find? (fun g => !s.targetReady g)

/-- One element (R324): nothing changes unless all of it succeeds (R327, R328). -/
def element (k : Block) (size : Nat) (ra : Fin 16) (env : BusEnv) (s : State) : Elem :=
  let n := sizeBytes size
  let src := s.g gSrc
  let dst := s.g gDst
  let fill := le n (s.g ra).toNat
  match k.awaits size s with
  | some g => .wait (awaitTarget g s)
  | none =>
  match k with
  | .bfill =>
    match coreWrite dst size 0 fill env s with
    | .fault t => .fault t
    | .ok _ t => .went env (stepG gDst n t)
  | .bseek =>
    match coreRead src size 1 env s with
    | .fault t => .fault t
    | .ok b t => if b = fill then .found (setZ true t) else .went (usedHost src n env) (stepG gSrc n t)
  | .bcopy | .bgcopy =>
    if alignedTo src size && !alignedTo dst size then .fault (misaligned dst s)
    else match coreRead src size 1 env s with
      | .fault t => .fault t
      | .ok b t =>
        match coreWrite dst size 0 b env t with
        | .fault t => .fault t
        | .ok _ t => .went (usedHost src n env) (stepG gDst n (stepG gSrc n t))
  | .bcmp | .bcmpc =>
    if alignedTo src size && !alignedTo dst size then .fault (misaligned dst s)
    else match coreRead src size 1 env s with
      | .fault t => .fault t
      | .ok b t =>
        let env := usedHost src n env
        match coreRead dst size 1 env t with
        | .fault t => .fault t
        | .ok b' t =>
          let env := usedHost dst n env
          if k = .bcmpc then .went env (stepG gDst n (stepG gSrc n (if b = b' then t else setZ false t)))
          else if b = b' then .went env (stepG gDst n (stepG gSrc n t))
          else .found (setZK false (decide (ofLe b < ofLe b')) t)

/-- The flags when the elements run out (R325). -/
def ranOut (k : Block) (s : State) : State :=
  match k with
  | .bcmp => setZ true s
  | .bseek => setZ false s
  | _ => s

/-- Repeat for at most `upto` elements: the instruction ends when g1 reaches 0 or an element stops it early; else it stands between two elements with PC on
it (R327). -/
def repeatBlock (k : Block) (size : Nat) (ra : Fin 16) : Nat → BusEnv → State → State
  | 0, _, s => s
  | n + 1, env, s =>
    match element k size ra env s with
    | .wait t => t
    | .fault t => t
    | .found t => retire t
    | .went env t =>
      let t := setG gCount (t.g gCount - 1) t
      if t.g gCount = 0 then retire (ranOut k t)
      else repeatBlock k size ra n env t

/-- A block instruction with RPT and SIZE (R324, R325): SIZE 0b11, a size of BGCOPY other than 0b00, and BCMPC or BGCOPY without RPT are undefined. -/
def doBlock (k : Block) (rpt : Bool) (size : Nat) (ra : Fin 16) (upto : Nat) (env : BusEnv) (s : State) : State :=
  if size = 3 ∨ (k = .bgcopy ∧ size ≠ 0) ∨ ((k = .bcmpc ∨ k = .bgcopy) ∧ !rpt) then undefined s
  else
    let z := if k = .bgcopy then 4 else size
    if rpt then (if s.g gCount = 0 then retire s else repeatBlock k z ra upto env s)
    else match element k z ra env s with
      | .wait t => t
      | .fault t => t
      | .found t => retire t
      | .went _ t => retire (ranOut k t)

/-- A step of the cores, with the custody reset of an escalation when one has arisen (R355). -/
def coreRow (f : State → State) (s : State) : Out :=
  let t := f s
  .next (if t.core.escalated then escalate (updCore (fun c => { c with escalated := false }) t) else t)

end Sys2Proof.Machine
end

