-- ==== Sys2Proof/Machine/CoreCmds.lean ====
section
/-! DEFINITION. The instructions of the custody cores (R315) and the steps that complete or interrupt them, one meaning each. -/

namespace Sys2Proof.Machine

/-! ### Integer (R316) -/

/-- ADD. -/
def execAdd (rd ra rb : Fin 16) (s : State) : Out :=
  coreRow (coreStep (fun s => result rd (s.g ra + s.g rb) (addFlags (s.g ra) (s.g rb) s) s)) s

/-- SUB. -/
def execSub (rd ra rb : Fin 16) (s : State) : Out :=
  coreRow (coreStep (fun s => result rd (s.g ra - s.g rb) (subFlags (s.g ra) (s.g rb) s) s)) s

/-- AND. -/
def execAnd (rd ra rb : Fin 16) (s : State) : Out :=
  coreRow (coreStep (fun s => result rd (s.g ra &&& s.g rb) (logicFlags (s.g ra &&& s.g rb) s) s)) s

/-- OR. -/
def execOr (rd ra rb : Fin 16) (s : State) : Out :=
  coreRow (coreStep (fun s => result rd (s.g ra ||| s.g rb) (logicFlags (s.g ra ||| s.g rb) s) s)) s

/-- XOR. -/
def execXor (rd ra rb : Fin 16) (s : State) : Out :=
  coreRow (coreStep (fun s => result rd (s.g ra ^^^ s.g rb) (logicFlags (s.g ra ^^^ s.g rb) s) s)) s

/-- ANDN: ra AND NOT rb. -/
def execAndn (rd ra rb : Fin 16) (s : State) : Out :=
  coreRow (coreStep (fun s => result rd (s.g ra &&& ~~~(s.g rb)) (logicFlags (s.g ra &&& ~~~(s.g rb)) s) s)) s

/-- MOV leaves FLAGS unchanged. -/
def execMov (rd ra : Fin 16) (s : State) : Out := coreRow (coreStep (fun s => result rd (s.g ra) s.core.flags s)) s

/-- CMP: SUB without its result. -/
def execCmp (ra rb : Fin 16) (s : State) : Out :=
  coreRow (coreStep (fun s => retire (setFlags (subFlags (s.g ra) (s.g rb) s) s))) s

/-- TST: AND without its result. -/
def execTst (ra rb : Fin 16) (s : State) : Out :=
  coreRow (coreStep (fun s => retire (setFlags (logicFlags (s.g ra &&& s.g rb) s) s))) s

/-- NEG: 0 minus ra. -/
def execNeg (rd ra : Fin 16) (s : State) : Out :=
  coreRow (coreStep (fun s => result rd (0 - s.g ra) (subFlags 0 (s.g ra) s) s)) s

/-- NOT. -/
def execNot (rd ra : Fin 16) (s : State) : Out :=
  coreRow (coreStep (fun s => result rd (~~~(s.g ra)) (logicFlags (~~~(s.g ra)) s) s)) s

/-- SHL by rb[4:0]. -/
def execShl (rd ra rb : Fin 16) (s : State) : Out := coreRow (coreStep (fun s => doShift .shl rd ra (bits (s.g rb) 4 0) s)) s

/-- SHR by rb[4:0]. -/
def execShr (rd ra rb : Fin 16) (s : State) : Out := coreRow (coreStep (fun s => doShift .shr rd ra (bits (s.g rb) 4 0) s)) s

/-- SAR by rb[4:0]. -/
def execSar (rd ra rb : Fin 16) (s : State) : Out := coreRow (coreStep (fun s => doShift .sar rd ra (bits (s.g rb) 4 0) s)) s

/-- ROR by rb[4:0]. -/
def execRor (rd ra rb : Fin 16) (s : State) : Out := coreRow (coreStep (fun s => doShift .ror rd ra (bits (s.g rb) 4 0) s)) s

/-- SHL by AUX[4:0]. -/
def execShlByAux (rd ra : Fin 16) (aux : BitVec 8) (s : State) : Out := coreRow (coreStep (doShift .shl rd ra (aux.toNat % 32))) s

/-- SHR by AUX[4:0]. -/
def execShrByAux (rd ra : Fin 16) (aux : BitVec 8) (s : State) : Out := coreRow (coreStep (doShift .shr rd ra (aux.toNat % 32))) s

/-- SAR by AUX[4:0]. -/
def execSarByAux (rd ra : Fin 16) (aux : BitVec 8) (s : State) : Out := coreRow (coreStep (doShift .sar rd ra (aux.toNat % 32))) s

/-- ROR by AUX[4:0]. -/
def execRorByAux (rd ra : Fin 16) (aux : BitVec 8) (s : State) : Out := coreRow (coreStep (doShift .ror rd ra (aux.toNat % 32))) s

/-- ADDI: IMM sign-extended. -/
def execAddi (rd ra : Fin 16) (imm : BitVec 16) (s : State) : Out :=
  coreRow (coreStep (fun s => result rd (s.g ra + imm.signExtend 32) (addFlags (s.g ra) (imm.signExtend 32) s) s)) s

/-- ANDI: IMM zero-extended. -/
def execAndi (rd ra : Fin 16) (imm : BitVec 16) (s : State) : Out :=
  coreRow (coreStep (fun s => result rd (s.g ra &&& imm.setWidth 32) (logicFlags (s.g ra &&& imm.setWidth 32) s) s)) s

/-- ORI: IMM zero-extended. -/
def execOri (rd ra : Fin 16) (imm : BitVec 16) (s : State) : Out :=
  coreRow (coreStep (fun s => result rd (s.g ra ||| imm.setWidth 32) (logicFlags (s.g ra ||| imm.setWidth 32) s) s)) s

/-- XORI: IMM zero-extended. -/
def execXori (rd ra : Fin 16) (imm : BitVec 16) (s : State) : Out :=
  coreRow (coreStep (fun s => result rd (s.g ra ^^^ imm.setWidth 32) (logicFlags (s.g ra ^^^ imm.setWidth 32) s) s)) s

/-- LUI: IMM shifted left by 16. -/
def execLui (rd : Fin 16) (imm : BitVec 16) (s : State) : Out :=
  coreRow (coreStep (fun s => result rd (imm.setWidth 32 <<< 16) s.core.flags s)) s

/-- CMPI: IMM sign-extended. -/
def execCmpi (ra : Fin 16) (imm : BitVec 16) (s : State) : Out :=
  coreRow (coreStep (fun s => retire (setFlags (subFlags (s.g ra) (imm.signExtend 32) s) s))) s

/-! ### Multiply and divide (R318) -/

/-- MUL: the low word of the product. -/
def execMul (rd ra rb : Fin 16) (s : State) : Out :=
  coreRow (coreStep (fun s => result rd (s.g ra * s.g rb) (zsFlags (s.g ra * s.g rb) s) s)) s

/-- MULHS: the high word of the signed product. -/
def execMulhs (rd ra rb : Fin 16) (s : State) : Out :=
  coreRow (coreStep (fun s =>
    let r := BitVec.ofInt 32 ((s.g ra).toInt * (s.g rb).toInt / 2 ^ 32)
    result rd r (zsFlags r s) s)) s

/-- MULHU: the high word of the unsigned product. -/
def execMulhu (rd ra rb : Fin 16) (s : State) : Out :=
  coreRow (coreStep (fun s =>
    let r := BitVec.ofNat 32 ((s.g ra).toNat * (s.g rb).toNat / 2 ^ 32)
    result rd r (zsFlags r s) s)) s

/-- DIVS. -/
def execDivs (rd ra rb : Fin 16) (s : State) : Out := coreRow (coreStep (doDiv .divs rd ra rb)) s

/-- DIVU. -/
def execDivu (rd ra rb : Fin 16) (s : State) : Out := coreRow (coreStep (doDiv .divu rd ra rb)) s

/-- REMS. -/
def execRems (rd ra rb : Fin 16) (s : State) : Out := coreRow (coreStep (doDiv .rems rd ra rb)) s

/-- REMU. -/
def execRemu (rd ra rb : Fin 16) (s : State) : Out := coreRow (coreStep (doDiv .remu rd ra rb)) s

/-! ### Fixed point (R319) -/

/-- SADD. -/
def execSadd (rd ra rb : Fin 16) (s : State) : Out := coreRow (coreStep (fun s => fixedS rd ((s.g ra).toInt + (s.g rb).toInt) s)) s

/-- SSUB. -/
def execSsub (rd ra rb : Fin 16) (s : State) : Out := coreRow (coreStep (fun s => fixedS rd ((s.g ra).toInt - (s.g rb).toInt) s)) s

/-- UADDS. -/
def execUadds (rd ra rb : Fin 16) (s : State) : Out :=
  coreRow (coreStep (fun s =>
    let v : Int := (s.g ra).toNat + (s.g rb).toNat
    fixed rd v (satU v) s)) s

/-- USUBS. -/
def execUsubs (rd ra rb : Fin 16) (s : State) : Out :=
  coreRow (coreStep (fun s =>
    let v : Int := (s.g ra).toNat - ((s.g rb).toNat : Int)
    fixed rd v (satU v) s)) s

/-- SMULQS with AUX[4:0] fraction bits. -/
def execSmulqs (rd ra rb : Fin 16) (aux : BitVec 8) (s : State) : Out :=
  coreRow (coreStep (fun s => fixedS rd (mulQ (s.g ra).toInt (s.g rb).toInt (aux.toNat % 32)) s)) s

/-- SSHL by AUX[4:0]. -/
def execSshl (rd ra : Fin 16) (aux : BitVec 8) (s : State) : Out :=
  coreRow (coreStep (fun s => fixedS rd ((s.g ra).toInt * 2 ^ (aux.toNat % 32)) s)) s

/-- SNEG. -/
def execSneg (rd ra : Fin 16) (s : State) : Out := coreRow (coreStep (fun s => fixedS rd (-(s.g ra).toInt) s)) s

/-- SABS. -/
def execSabs (rd ra : Fin 16) (s : State) : Out := coreRow (coreStep (fun s => fixedS rd ((s.g ra).toInt.natAbs : Int) s)) s

/-- SNARROW to AUX[4:0] + 1 bits. -/
def execSnarrow (rd ra : Fin 16) (aux : BitVec 8) (s : State) : Out :=
  coreRow (coreStep (fun s => fixed rd (s.g ra).toInt (satS (aux.toNat % 32 + 1) (s.g ra).toInt) s)) s

/-! ### Loads, stores and ordering (R320, R321) -/

/-- LD. -/
def execLd (rd base : Fin 16) (size : Fin 4) (off : BitVec 16) (env : BusEnv) (s : State) : Out :=
  coreRow (coreStep (doLoad false rd base size off env)) s

/-- LDS. -/
def execLds (rd base : Fin 16) (size : Fin 4) (off : BitVec 16) (env : BusEnv) (s : State) : Out :=
  coreRow (coreStep (doLoad true rd base size off env)) s

/-- ST. -/
def execSt (rs base : Fin 16) (size : Fin 4) (off : BitVec 16) (env : BusEnv) (s : State) : Out :=
  coreRow (coreStep (doStore rs base size off env)) s

/-- BUS_RESPONSE: a target answers the read that the cores wait for. -/
def execBusResponse (env : BusEnv) (s : State) : Out := coreRow (respond env) s

/-- STORE_ACKNOWLEDGEMENT: a target takes the oldest store posted to it. -/
def execStoreAcknowledgement (gate : Fin 33) (env : BusEnv) (s : State) : Out :=
  coreRow (fun s => if s.stillRuns then acknowledge gate env s else s) s

/-- FENCE. -/
def execFence (s : State) : Out := coreRow (coreStep doFence) s

/-! ### Control transfer and the stack (R314, R316, R322) -/

/-- B on a condition. -/
def execB (cond : Fin 16) (off : BitVec 22) (s : State) : Out :=
  coreRow (coreStep (fun s => if s.cond cond then jumpTo (s.target off.toInt) s else retire s)) s

/-- CALL. -/
def execCall (off : BitVec 26) (env : BusEnv) (s : State) : Out :=
  coreRow (coreStep (fun s => doCall (s.target off.toInt) env s)) s

/-- JMP. -/
def execJmp (off : BitVec 26) (s : State) : Out := coreRow (coreStep (fun s => jumpTo (s.target off.toInt) s)) s

/-- CALLR. -/
def execCallr (ra : Fin 16) (env : BusEnv) (s : State) : Out := coreRow (coreStep (fun s => doCall (s.g ra) env s)) s

/-- JMPR: a target that is not word-aligned raises the alignment exception (R312; log entry 53). -/
def execJmpr (ra : Fin 16) (s : State) : Out :=
  coreRow (coreStep (fun s => if alignedTo (s.g ra) 2 then jumpTo (s.g ra) s else misaligned (s.g ra) s)) s

/-- RET with its count. -/
def execRet (n : BitVec 8) (env : BusEnv) (s : State) : Out := coreRow (coreStep (doRet n.toNat env)) s

/-- PUSH. -/
def execPush (ra : Fin 16) (env : BusEnv) (s : State) : Out := coreRow (coreStep (doPush ra env)) s

/-- POP. -/
def execPop (rd : Fin 16) (env : BusEnv) (s : State) : Out := coreRow (coreStep (doPop rd env)) s

/-! ### Block instructions (R324 to R328) -/

/-- BCOPY: `upto` elements complete before the cores stop it for an interrupt. -/
def execBcopy (rpt : Bool) (size : Fin 4) (upto : Nat) (env : BusEnv) (s : State) : Out :=
  coreRow (coreStep (doBlock .bcopy rpt size 0 upto env)) s

/-- BFILL. -/
def execBfill (rpt : Bool) (size : Fin 4) (ra : Fin 16) (upto : Nat) (env : BusEnv) (s : State) : Out :=
  coreRow (coreStep (doBlock .bfill rpt size ra upto env)) s

/-- BCMP. -/
def execBcmp (rpt : Bool) (size : Fin 4) (upto : Nat) (env : BusEnv) (s : State) : Out :=
  coreRow (coreStep (doBlock .bcmp rpt size 0 upto env)) s

/-- BSEEK. -/
def execBseek (rpt : Bool) (size : Fin 4) (ra : Fin 16) (upto : Nat) (env : BusEnv) (s : State) : Out :=
  coreRow (coreStep (doBlock .bseek rpt size ra upto env)) s

/-- BCMPC. -/
def execBcmpc (rpt : Bool) (size : Fin 4) (upto : Nat) (env : BusEnv) (s : State) : Out :=
  coreRow (coreStep (doBlock .bcmpc rpt size 0 upto env)) s

/-- BGCOPY. -/
def execBgcopy (rpt : Bool) (size : Fin 4) (upto : Nat) (env : BusEnv) (s : State) : Out :=
  coreRow (coreStep (doBlock .bgcopy rpt size 0 upto env)) s

/-! ### System (R317, R346, R349, R362, R364) -/

/-- NOP. -/
def execNop (s : State) : Out := coreRow (coreStep retire) s

/-- MFS. -/
def execMfs (rd : Fin 16) (index : BitVec 12) (s : State) : Out := coreRow (coreStep (doMfs rd index.toNat)) s

/-- MTS. -/
def execMts (index : BitVec 12) (ra : Fin 16) (s : State) : Out := coreRow (coreStep (doMts index.toNat ra)) s

/-- RDFEAT: IMM12[2:0] names the feature register; IMM12[11:3] must be 0. -/
def execRdfeat (rd : Fin 16) (imm : BitVec 12) (s : State) : Out :=
  coreRow (coreStep (fun s => if 8 ≤ imm.toNat then undefined s else doMfs rd (8 + imm.toNat) s)) s

/-- WAIT. -/
def execWait (s : State) : Out := coreRow (coreStep doWait) s

/-- WAIT_WAKE. -/
def execWaitWake (s : State) : Out := coreRow (fun s => if s.stillRuns then wakeUp s else s) s

/-- GATE: IMM12[11:8] must be 0. -/
def execGate (imm : BitVec 12) (s : State) : Out :=
  coreRow (coreStep (fun s => if 256 ≤ imm.toNat then undefined s else doGate imm.toNat s)) s

/-- GRET: IMM12[1:0] is the kind; kind 3 and other bits are undefined. -/
def execGret (imm : BitVec 12) (s : State) : Out :=
  coreRow (coreStep (fun s => if 3 ≤ imm.toNat then undefined s else doGret imm.toNat s)) s

/-- UNDEFINED_INSTRUCTION: a word that no row of R315 defines. -/
def execUndefinedInstruction (word : Word) (s : State) : Out := coreRow (coreStep (doUndefined word)) s

/-- INTERRUPT_ENTRY: a takeable interrupt is taken at a boundary. -/
def execInterruptEntry (s : State) : Out := coreRow takeInterrupt s

/-! ### The lockstep comparator (R334 to R336) -/

/-- The stores that had left the core pair at a mismatch complete; the `held` youngest still lie in core A's two-cycle output delay and are
suppressed (R334, R336). -/
def deliverLeft (held : Nat) (env : BusEnv) (s : State) : State :=
  let left := s.core.posted.take (s.core.posted.length - held)
  left.foldl (fun s p => deliver p env s) (updCore (fun c => { c with posted := [] }) s)

/-- A mismatch is captured and counted, with its time for the count of R43 and its alarm (R336). -/
def captureMismatch (groups : BitVec 5) (pc : Word) (s : State) : State :=
  let s := (s.wr Reg.CUS_LS_LAST_PC pc).wr Reg.CUS_LS_LAST_GRP (groups.setWidth 32)
  let s := (s.wr64 Reg.CUS_LS_LAST_CYC_LO s.core.cycle.toNat).bump Reg.CUS_LS_TOTAL
  let s := updSys (fun y => { y with lockstep := s.mismatches ++ [s.tim.keeperNs] }) s
  alarm 0x03 groups.toNat (srcMaster 0) true s

/-- LOCKSTEP_MISMATCH: the groups of R335 in a mask differ at a PC, with the outputs of at most two cycles of core A still in their delay. The cores
stop, the mismatch is captured and counted, and the third within 60 s starts zeroization, any other a custody reset (R43, R336). -/
def execLockstepMismatch (groups : BitVec 5) (found : Mismatch) (s : State) : Out :=
  if !s.sys.mainPower ∨ s.sys.cusInReset ∨ s.pin.resetLow ∨ s.core.stopped ∨ groups = 0 then .next s
  else
    let s := deliverLeft found.held found.env (captureMismatch groups found.pc s)
    if 3 ≤ s.sys.lockstep.length ∧ s.zeroizable then .next (detect 0x0B 0 s)
    else if s.stillRuns then .next (custodyReset 3 s)
    else .next (s.wrB Reg.SYS_RESET_CAUSE 3 true)

end Sys2Proof.Machine
end

