-- ==== Sys2Proof/Machine/LedgerCmds.lean ====
section
/-! DEFINITION. The ledger commands, group 0x04 (R292, R293), and the completion of a ledger flash read (R463). -/

namespace Sys2Proof.Machine

/-! ### What the journal and the receipt area hold -/

/-- The programmed records, oldest first. -/
def State.records (s : State) : List JRecord := s.ldg.journal.flatten

/-- The sequence of the oldest record held and of the next record to be programmed. -/
def State.oldestSeq (s : State) : Nat := ((s.records.head?).map (·.seq)).getD s.ldg.nextSeq
def State.programmedTo (s : State) : Nat := ((s.records.getLast?).map (fun r => r.seq + 1)).getD s.ldg.nextSeq

/-- The record of a root: of a tenant, or of the device (`devOwner`), for an epoch; a partner's root that this device keeps counts too
(R557). -/
def State.rootRecord (s : State) (o e : Nat) : Option Bytes :=
  match s.records.find? (fun r => r.typ != 0x10 && r.owner == o && r.epoch == e) with
  | some r => some r.bytes
  | none => (s.pair.roots.find? (fun r => r.1 == o && r.2.1 == e)).map (·.2.2)

/-- The receipt pages held of a tenant with their sequences: this device's own and those kept for its partner (R557). -/
def State.pagesOf (s : State) (t : Nat) : List (Nat × Bytes) :=
  (s.ldg.pages.filter (fun p => p.tenant == t)).map (fun p => (p.seq, p.bytes))
    ++ (s.pair.pages.filter (fun p => p.1 == t)).map (fun p => (p.2.1, p.2.2))

/-- The entries of a tenant's programmed pages for an epoch. -/
def State.entriesOf (s : State) (t e : Nat) : List Bytes :=
  ((s.ldg.pages.filter (fun p => p.tenant == t)).flatMap (·.entries)).filter (fun x => field x 32 8 == e)

/-- Kind of an entry: 1 receipt, 2 chunk record. -/
def entryKind (x : Bytes) : Nat := field x 40 1 / 64

/-! ### Queries -/

/-- GET_LEDGER_STATUS: epoch, LDG_SIGNED, next record sequence, journal fill, free receipt blocks and, for a tenant, blocks held and last page
sequence. -/
def execGetLedgerStatus (c : HostCmd) (tenant : Fin 512) (s : State) : Out :=
  let t := c.target tenant
  .next (hostRun 0x0401 c (if c.fn.val ≠ 0 ∨ c.expert then [t] else []) (fun s =>
    let fill := (s.lfs.jblocks.length - s.lfs.borrowed) % 2 ^ 13 + 2 ^ 13 * s.lfs.borrowed
    .done 0 (be 8 s.epoch ++ be 8 (s.rd64 Reg.LDG_SIGNED_LO) ++ be 8 s.ldg.nextSeq ++ be 4 fill ++ be 4 s.receiptFree
      ++ (if c.fn.val ≠ 0 ∨ c.expert then be 4 (s.tenantBlocks t) ++ be 8 (s.openSeq t - 1) else [])) 0 s) s)

/-- The records a function may read (R293): a VF the device roots, its own roots and the events that name its tenant. -/
def readable (c : HostCmd) (r : JRecord) : Bool :=
  c.fn.val == 0 || r.typ == 0x01 || (r.typ == 0x02 && r.owner == c.own) || (r.typ == 0x10 && field r.bytes 68 2 == c.own)

/-- Take whole records up to a byte limit. -/
def takeRecords : Nat → List JRecord → Bytes
  | _, [] => []
  | n, r :: rs => if r.bytes.length ≤ n then r.bytes ++ takeRecords (n - r.bytes.length) rs else []

/-- READ_JOURNAL: records from a sequence on, up to a byte limit; the expert form adds a mask of record types. -/
def execReadJournal (c : HostCmd) (first : BitVec 64) (limit : BitVec 32) (typeMask : BitVec 32) (s : State) : Out :=
  .next (hostRun 0x0402 c [] (fun s =>
    if first.toNat < s.oldestSeq ∨ s.programmedTo ≤ first.toNat then .fail 0x1401
    else if c.outLen < limit.toNat then .fail 0x3401
    else
      let l := s.records.filter (fun r => decide (first.toNat ≤ r.seq) && readable c r && (!c.expert || typeMask.getLsbD r.typ))
      .hold { s with ldg := { s.ldg with reads := s.ldg.reads ++ [⟨c.ref, 0, takeRecords limit.toNat l⟩] } }) s)

/-- Whether a function may read the receipts of a tenant: the tenant's VF, or PF0 in ZEROIZED (R293). -/
def mayRead (c : HostCmd) (s : State) : Bool := c.fn.val != 0 || (c.expert && s.sys.mode == .zeroized)

/-- READ_RECEIPTS: up to 64 receipt pages from a sequence on. -/
def execReadReceipts (c : HostCmd) (tenant : Fin 512) (first : BitVec 64) (count : Nat) (s : State) : Out :=
  let t := c.target tenant
  .next (hostRun 0x0403 c [t] (fun s =>
    if !mayRead c s then .fail 0x2401
    else
      let n := min 64 count
      let l := (s.pagesOf t).filter (fun p => decide (first.toNat ≤ p.1) && decide (p.1 < first.toNat + n))
      if l.all (fun p => p.1 != first.toNat) then .fail 0x1401
      else if c.outLen < 16384 * l.length then .fail 0x3401
      else .hold { s with ldg := { s.ldg with reads := s.ldg.reads ++ [⟨c.ref, 0, l.flatMap (·.2)⟩] } }) s)

/-- GET_ROOT: the root record of an epoch: the tenant's from a VF or for the tenant PF0 names, else the device's. -/
def execGetRoot (c : HostCmd) (tenant : Fin 512) (epoch : BitVec 64) (s : State) : Out :=
  let o := if c.fn.val = 0 ∧ !c.expert then devOwner else c.target tenant
  .next (hostRun 0x0404 c (if o = devOwner then [] else [o]) (fun s =>
    match s.rootRecord o epoch.toNat with
    | none => .fail 0x1402
    | some b => .hold { s with ldg := { s.ldg with reads := s.ldg.reads ++ [⟨c.ref, 0, b⟩] } }) s)

/-- The retained tile tree of a tenant in an epoch, from its chunk records: roots in tile index order. -/
def retainedTree (l : List Bytes) (tile : Nat) : List Bytes :=
  let r := l.filter (fun x => entryKind x == 2 && field x 40 1 % 64 / 16 == tile)
  (List.range r.length).map (fun i => ((r.find? (fun x => field x 44 3 == i)).map (·.take 32)).getD [])

/-- The leaf digests of a chunk in position order: `none` when a receipt is missing. -/
def chunkLeaves (l : List Bytes) (cluster seq n : Nat) : Option (List Bytes) :=
  let r := l.filter (fun x => entryKind x == 1 && field x 40 1 % 64 == cluster && field x 41 3 == seq)
  let ds := (List.range n).map (fun i => ((r.find? (fun x => field x 44 1 == i)).map (·.take 32)).getD [])
  if ds.contains [] then none else some ds

/-- The closing reason that gives a chunk its recorded root. -/
def closeReason (cluster : Nat) (ch : Chunk) (root : Bytes) : Nat :=
  ([1, 2, 3].find? (fun r => chunkRoot cluster r ch == root)).getD 2

/-- The proof blob of R292. -/
def proofBlob (t e cluster seq pos : Nat) (l : List Bytes) (rec_ : Bytes) (leaves : List Bytes) (trec drec : Bytes) (table : List Bytes) :
    Bytes :=
  let tile := cluster / 16
  let index := field rec_ 44 3
  let tree := retainedTree l tile
  let sibs := mthPath mthFuel index tree
  let a (k : Nat) := mth mthFuel (retainedTree l k)
  let ch : Chunk := ⟨⟨t, true, e⟩, seq, leaves⟩
  let pair := if tile % 2 = 0 then a (tile + 1) else a (tile - 1)
  let other := if tile < 2 then node (a 2) (a 3) else node (a 0) (a 1)
  [0x50, 0x52, 0x46, 0x31] ++ be 2 t ++ be 1 tile ++ be 1 sibs.length ++ be 8 e ++ be 3 index ++ be 1 pos ++ be 4 tree.length
    ++ chunkHeader ch.stream cluster seq ++ leaves.flatten ++ chunkTrailer leaves.length (closeReason cluster ch (rec_.take 32))
    ++ sibs.flatten ++ pair ++ other ++ trec ++ (mthPath mthFuel t table).flatten ++ drec

/-- The tenant table of an epoch, from the tenant root records held: entry `t` is the tenant root of tenant `t` or 32 zero bytes. -/
def State.tenantTable (s : State) (e : Nat) : List Bytes :=
  (List.range 512).map (fun t =>
    ((s.records.find? (fun r => r.typ == 0x02 && r.owner == t && r.epoch == e)).map (fun r => sha256 (slice r.bytes 64 128))).getD (zeros 32))

/-- GET_PROOF: the proof blob of a retained leaf of the caller's tenant (R292). -/
def execGetProof (c : HostCmd) (epoch : BitVec 64) (cluster : BitVec 8) (seq : BitVec 24) (position : BitVec 8) (s : State) : Out :=
  let t := c.own
  let e := epoch.toNat
  .next (hostRun 0x0405 c [t] (fun s =>
    match s.rootRecord t e, s.rootRecord devOwner e with
    | some trec, some drec =>
      let l := s.entriesOf t e
      match l.find? (fun x => entryKind x == 2 && field x 40 1 % 64 == cluster.toNat && field x 41 3 == seq.toNat) with
      | none => .fail 0x1403
      | some r =>
        let n := field r 47 1 + 1
        match chunkLeaves l cluster.toNat seq.toNat n with
        | none => .fail 0x1403
        | some leaves =>
          if n ≤ position.toNat ∨ [0, 1, 2, 3].any (fun k => (retainedTree l k).contains []) then .fail 0x1403
          else
            let b := proofBlob t e cluster.toNat seq.toNat position.toNat l r leaves trec drec (s.tenantTable e)
            if c.outLen < b.length then .fail 0x3401
            else .wait 0x0104 { s with ldg := { s.ldg with reads := s.ldg.reads ++ [⟨c.ref, 0, b⟩] } }
    | _, _ => .fail 0x1402) s)

/-- LFLASH_READ_DONE: a page read of a block completes: a scrub read, while LFS_CTL.SCRUB_EN is 1, or one that a command needs. A read that corrected more
than 40 bits in a KiB schedules its block for relocation; an uncorrectable read counts, and the command that needed it completes with 0x4401 (R463). -/
def execLflashReadDone (read : BlockRead) (corrected : Nat) (ok : Bool) (s : State) : Out :=
  if read.scrub && !s.bitOf Reg.LFS_CTL 0 then .next s else
  let s := if ok ∧ 0 < corrected then s.bump64 Reg.LFS_ECC_CORR_LO else s
  let s := if ok then s else irq Reg.LFS_IRQ_STATUS 8 2 (s.bump Reg.LFS_ECC_UNCORR)
  let s := serveMoves (if ok ∧ 40 < corrected then scheduleMove read.block.toNat false s else s)
  if read.scrub then .next s
  else
    match s.ldg.reads with
    | [] => .next s
    | r :: rs =>
      let s := { s with ldg := { s.ldg with reads := rs } }
      .next (finalReply r.cmd (if ok then r.status else 0x4401) (if ok then r.out else []) 0 s)

/-- GET_RETENTION: the settings of the caller's tenant, of the tenant PF0 names, or of every tenant in order. -/
def execGetRetention (c : HostCmd) (tenant : Fin 512) (s : State) : Out :=
  let one (s : State) (t : Nat) : Bytes := be 4 (s.rd (Reg.LDG_RET_LO t)).toNat ++ be 4 (s.rd (Reg.LDG_RET_HI t)).toNat
  .next (hostRun 0x0406 c (if c.fn.val ≠ 0 ∨ c.expert then [c.target tenant] else []) (fun s =>
    if c.fn.val ≠ 0 ∨ c.expert then .done 0 (one s (c.target tenant)) 0 s else .done 0 (s.tenants.flatMap (one s)) 0 s) s)

/-! ### Changes -/

/-- The leading pages whose every record is acknowledged. -/
def ackedPages (upto : Nat) : List (List JRecord) → Nat
  | [] => 0
  | p :: ps => if p.all (fun r => decide (r.seq ≤ upto)) then ackedPages upto ps + 1 else 0

/-- ACK_JOURNAL: every record up to a sequence is acknowledged; pages wholly acknowledged are reclaimed (R288). An earlier sequence has no
effect. -/
def execAckJournal (c : HostCmd) (seq : BitVec 64) (s : State) : Out :=
  .next (hostRun 0x0410 c [] (fun s =>
    if s.programmedTo ≤ seq.toNat then .fail 0x1401
    else if seq.toNat + 1 ≤ s.ldg.ackSeq then .done 0 [] 0 s
    else
      let s := { s with ldg := { s.ldg with ackSeq := seq.toNat + 1 } }.wr64 Reg.LDG_ACKSEQ_LO seq.toNat
      .done 0 [] 0 (pump (reclaimJournal (ackedPages seq.toNat s.ldg.journal) s))) s)

/-- The page groups of a tenant that are full and wholly acknowledged. -/
def State.ackedGroups (s : State) (t : Nat) : List Nat :=
  ((s.lfs.rblocks.filter (fun r => r.1 == t)).map (·.2.1)).filter (fun g =>
    decide (pageGroup (s.openSeq t) ≠ g)
      && !s.ldg.rcptProg.any (fun p => p.tenant == t && pageGroup p.seq == g)
      && (s.ldg.pages.filter (fun p => p.tenant == t && pageGroup p.seq == g)).all (·.acked))

/-- ACK_RECEIPTS: pages up to a sequence are acknowledged, and blocks wholly acknowledged are reclaimed (R287). PF0 acknowledges pages of an
earlier L0 generation only. -/
def execAckReceipts (c : HostCmd) (tenant : Fin 512) (seq : BitVec 64) (s : State) : Out :=
  let t := c.target tenant
  .next (hostRun 0x0411 c [t] (fun s =>
    let mine (p : RcptPage) : Bool := p.tenant == t && decide (p.seq ≤ seq.toNat)
    if s.openSeq t ≤ seq.toNat ∨ s.ldg.rcptProg.any (fun p => p.tenant == t && p.seq == seq.toNat) then .fail 0x1401
    else if c.fn.val = 0 ∧ (!c.expert ∨ s.ldg.pages.any (fun p => mine p && decide (s.keys.l0gen ≤ p.l0gen))) then .fail 0x2401
    else
      let s := { s with ldg := { s.ldg with pages := s.ldg.pages.map (fun p => if mine p then { p with acked := true } else p) } }
      .done 0 [] 0 ((s.ackedGroups t).foldl (fun s g => eraseGroup t g s) s)) s)

/-- Tell the partner of the retention settings of a tenant (R549). -/
def sendRetention (t : Nat) (s : State) : State :=
  sendConfig t ([9] ++ be 4 (s.rd (Reg.LDG_RET_LO t)).toNat ++ be 4 (s.rd (Reg.LDG_RET_HI t)).toNat) s

/-- SET_RETENTION: the caller's RETAIN mask, and in expert form its FULL policy (R286). -/
def execSetRetention (c : HostCmd) (retain : BitVec 32) (full : BitVec 8) (s : State) : Out :=
  .next (hostRun 0x0412 c [c.own] (fun s =>
    if 2 ^ 16 ≤ retain.toNat ∨ (c.expert ∧ 1 < full.toNat) then .fail 0x1404
    else
      let s := s.wrF (Reg.LDG_RET_LO c.own) 15 0 retain.toNat
      .done 0 [] 0 (sendRetention c.own (if c.expert then s.wrB (Reg.LDG_RET_LO c.own) 16 (full == 1) else s))) s)

/-- SET_RECEIPT_QUOTA: a tenant's quota in blocks; the sum of all quotas stays within the receipt area (R286). -/
def execSetReceiptQuota (c : HostCmd) (tenant : BitVec 16) (blocks : BitVec 32) (s : State) : Out :=
  .next (hostRun 0x0413 c [] (fun s =>
    if 512 ≤ tenant.toNat ∨ 2 ^ 18 ≤ blocks.toNat then .fail 0x1404
    else if !(s.tenant tenant.toNat).present then .fail 0x2101
    else if s.receiptArea < (((List.range 512).filter (· != tenant.toNat)).map s.quota).sum + blocks.toNat then .fail 0x3402
    else .done 0 [] 0 (sendRetention tenant.toNat (s.wr (Reg.LDG_RET_HI tenant.toNat) blocks))) s)

/-- APPEND_NOTE: a NOTE event of the tenant's 40 bytes (R277); NOTES_EN = 0 refuses it, and a full queue leaves no room. -/
def execAppendNote (c : HostCmd) (note : Bytes) (s : State) : Out :=
  .next (hostRun 0x0414 c [c.own] (fun s =>
    if !s.bitOf Reg.LDG_CTL 1 then .fail 0x2101
    else if 3840 ≤ s.ldg.evq.length then .fail 0x3403
    else .done 0 [] 0 (pump (event 0x0070 (srcMaster 0) c.own (fit 40 note) s))) s)

end Sys2Proof.Machine
end

