-- ==== Sys2Proof/Machine/Pins.lean ====
section
/-! DEFINITION. The regulator bus, the management target and the test access port (chapters 23 and 24). -/

namespace Sys2Proof.Machine

/-! ### The PMBus controller -/

/-- Keep the readings of the regulators that acknowledge. -/
def keepReadings (silent : BitVec 4) (vout iout : Vector (BitVec 16) 4) (s : State) : State :=
  let one (tab : Tab Nat) (t : Fin 4) :=
    if silent.getLsbD t then tab
    else tput (dflt 0) (tput (dflt 0) tab (2 * t) vout[t].toNat) (2 * t + 1) iout[t].toNat
  { s with pin := { s.pin with regReads := [0, 1, 2, 3].foldl one s.pin.regReads } }

/-- PMBUS_POLL: every 100 ms while PWR_OK is high, READ_VOUT and READ_IOUT of each regulator are read; those in `silent` do not acknowledge (R588). -/
def execPmbusPoll (silent : BitVec 4) (vout iout : Vector (BitVec 16) 4) (s : State) : Out :=
  if !s.sys.mainPower then .next s else .next (keepReadings silent vout iout s)

/-! ### The SMBus target -/

/-- One bit of the CRC-8 of the packet error code, polynomial x^8 + x^2 + x + 1 (PRESUMED: the SMBus specification's). -/
def crc8Bit (c : Byte) : Byte := if c.getLsbD 7 then (c <<< 1) ^^^ 0x07 else c <<< 1

/-- The packet error code of a list of bytes. -/
def crc8 (b : Bytes) : Byte :=
  b.foldl (fun c x => crc8Bit (crc8Bit (crc8Bit (crc8Bit (crc8Bit (crc8Bit (crc8Bit (crc8Bit (c ^^^ x))))))))) 0

/-- The target's 7-bit address (R597). -/
def State.smbAddress (s : State) : Nat := 0x58 + s.pin.smbAddr % 4

/-- Whether the target serves: from 5 ms after PWR_OK rises (R597). -/
def State.smbServed (s : State) : Bool := s.sys.mainPower && decide (5000000 ≤ s.now)

/-- Put an answer on the bus, or none. -/
def smbAnswer (r : Option Bytes) (s : State) : State := { s with pin := { s.pin with smbReply := r } }

/-- The bytes of a Block Read: a count of 4, the value in little-endian order, and the packet error code when one further byte is clocked. -/
def State.smbBlock (s : State) (code : Nat) (pec : Bool) (v : Word) : Bytes :=
  let body := BitVec.ofNat 8 4 :: le 4 v.toNat
  let head := [BitVec.ofNat 8 (2 * s.smbAddress), BitVec.ofNat 8 code, BitVec.ofNat 8 (2 * s.smbAddress + 1)]
  if pec then body ++ [crc8 (head ++ body)] else body

/-- A Block Read of a value under a command code (R597, R598). -/
def smbRead (code : Nat) (pec : Bool) (v : Word) (s : State) : State :=
  smbAnswer (if s.smbServed then some (s.smbBlock code pec v) else none) s

/-- SMB_READ_SYS_MODE: command 0x01 (R598). -/
def execSmbReadSysMode (pec : Bool) (s : State) : Out := .next (smbRead 0x01 pec (s.live32 Reg.SYS_MODE) s)

/-- SMB_READ_SYS_STATUS: command 0x02 (R598). -/
def execSmbReadSysStatus (pec : Bool) (s : State) : Out := .next (smbRead 0x02 pec (s.live32 Reg.SYS_STATUS) s)

/-- SMB_READ_SYS_HOLD: command 0x03 (R598). -/
def execSmbReadSysHold (pec : Bool) (s : State) : Out := .next (smbRead 0x03 pec (s.live32 Reg.SYS_HOLD) s)

/-- SMB_READ_SYS_BOOT_STAGE: command 0x04 (R598). -/
def execSmbReadSysBootStage (pec : Bool) (s : State) : Out := .next (smbRead 0x04 pec (s.live32 Reg.SYS_BOOT_STAGE) s)

/-- SMB_READ_SYS_RESET_CAUSE: command 0x05 (R598). -/
def execSmbReadSysResetCause (pec : Bool) (s : State) : Out := .next (smbRead 0x05 pec (s.live32 Reg.SYS_RESET_CAUSE) s)

/-- SMB_READ_TPR_STATUS: command 0x06 (R598). -/
def execSmbReadTprStatus (pec : Bool) (s : State) : Out := .next (smbRead 0x06 pec (s.live32 Reg.TPR_STATUS) s)

/-- SMB_READ_THM_STATUS: command 0x07 (R598). -/
def execSmbReadThmStatus (pec : Bool) (s : State) : Out := .next (smbRead 0x07 pec (s.live32 Reg.THM_STATUS) s)

/-- The hottest of the four tile junctions, signed. -/
def State.hottestTile (s : State) : Word :=
  [1, 2, 3].foldl (fun (m : Word) t =>
    let v := s.live32 (Reg.THM_TJ t)
    if (m.setWidth 16).toInt < (v.setWidth 16).toInt then v else m) (s.live32 (Reg.THM_TJ 0))

/-- SMB_READ_HOTTEST_TILE: command 0x08 (R598). -/
def execSmbReadHottestTile (pec : Bool) (s : State) : Out := .next (smbRead 0x08 pec s.hottestTile s)

/-- SMB_READ_THM_TJ_SR: command 0x09 (R598). -/
def execSmbReadThmTjSr (pec : Bool) (s : State) : Out := .next (smbRead 0x09 pec (s.live32 Reg.THM_TJ_SR) s)

/-- SMB_READ_THM_INLET: command 0x0A (R598). -/
def execSmbReadThmInlet (pec : Bool) (s : State) : Out := .next (smbRead 0x0A pec (s.live32 Reg.THM_INLET) s)

/-- SMB_READ_THM_FLOW: command 0x0B (R598). -/
def execSmbReadThmFlow (pec : Bool) (s : State) : Out := .next (smbRead 0x0B pec (s.live32 Reg.THM_FLOW) s)

/-- SMB_READ_THM_KEEP_V: command 0x0C (R598). -/
def execSmbReadThmKeepV (pec : Bool) (s : State) : Out := .next (smbRead 0x0C pec (s.live32 Reg.THM_KEEP_V) s)

/-- SMB_READ_TIM_STATUS: command 0x0D (R598). -/
def execSmbReadTimStatus (pec : Bool) (s : State) : Out := .next (smbRead 0x0D pec (s.live32 Reg.TIM_STATUS) s)

/-- SMB_READ_ALM_STATUS: command 0x0E (R598). -/
def execSmbReadAlmStatus (pec : Bool) (s : State) : Out := .next (smbRead 0x0E pec (s.live32 Reg.ALM_STATUS) s)

/-- SMB_READ_SYS_SERIAL_LO: command 0x10 (R598). -/
def execSmbReadSysSerialLo (pec : Bool) (s : State) : Out := .next (smbRead 0x10 pec (s.live32 Reg.SYS_SERIAL_LO) s)

/-- SMB_READ_SYS_SERIAL_HI: command 0x11 (R598). -/
def execSmbReadSysSerialHi (pec : Bool) (s : State) : Out := .next (smbRead 0x11 pec (s.live32 Reg.SYS_SERIAL_HI) s)

/-- SMB_READ_SYS_ORDER: command 0x12 (R598). -/
def execSmbReadSysOrder (pec : Bool) (s : State) : Out := .next (smbRead 0x12 pec (s.live32 Reg.SYS_ORDER) s)

/-- Byte `t` for command 0x13: the fused voltage of VDD_T`t`, and bit 7 when its regulator did not acknowledge (R588, R598). -/
def State.voltageByte (s : State) (t : Nat) : Byte :=
  (if s.pin.noAck.getLsbD t then 0x80 else 0) ||| (Config.tileVoltage t).setWidth 8

/-- SMB_READ_TILE_VOLTAGES: command 0x13 (R598). -/
def execSmbReadTileVoltages (pec : Bool) (s : State) : Out :=
  .next (smbRead 0x13 pec (BitVec.ofNat 32 (ofLe [s.voltageByte 0, s.voltageByte 1, s.voltageByte 2, s.voltageByte 3])) s)

/-- SMB_UNDEFINED_COMMAND: an undefined code, and any write, is not acknowledged after the command byte (R597). -/
def execSmbUndefinedCommand (s : State) : Out := .next (smbAnswer none s)

/-- Whether SMB_ALERT_N is low (R597). -/
def State.smbAlert (s : State) : Bool :=
  s.rd Reg.SYS_HOLD != 0 || s.bitOf Reg.SYS_BOOT_STAGE 4 || s.bitOf Reg.TPR_STATUS 1 || s.sys.mode == .zeroized

/-- SMB_ALERT_RESPONSE: the target answers the Alert Response Address with its own address while SMB_ALERT_N is low (R597). -/
def execSmbAlertResponse (s : State) : Out :=
  .next (smbAnswer (if s.smbServed && s.smbAlert then some [BitVec.ofNat 8 (2 * s.smbAddress)] else none) s)

/-! ### The test access port -/

/-- What Capture-IR loads (R609). -/
def State.captureIr (s : State) : Nat := 1 + 4 * b2n s.sys.shipFuse + 8 * b2n s.pin.tapReplaced

/-- Load an instruction. One that acts only while SYS_RESET_N is low is replaced by BYPASS at any other time (R609, R610). -/
def loadTap (code : Nat) (onlyInReset : Bool) (s : State) : State :=
  let repl := onlyInReset && !s.pin.resetLow
  { s with pin := { s.pin with tapIrOut := s.captureIr, tapIr := if repl then 0xFF else code, tapReplaced := repl } }

/-- Scan the selected data register: what it captured is shifted out. -/
def scanOut (v : BitVec 81) (s : State) : State := { s with pin := { s.pin with tapOut := v } }

/-- Scan the boundary register: the sample of the pins out, new values in (R611). -/
def scanBoundary (sample values : BitVec 81) (s : State) : State :=
  { s with pin := { s.pin with tapOut := sample, boundary := values } }

/-- Run a row of the test access port, which operates while PWR_OK is high (R609). -/
def tapRow (f : State → State) (s : State) : Out := if s.sys.mainPower then .next (f s) else .next s

/-- TAP_RESET: TRST_N, or five TCK cycles with TMS high, selects IDCODE (R609). -/
def execTapReset (s : State) : Out := tapRow (fun s => { s with pin := { s.pin with tapIr := 0x01 } }) s

/-- EXTEST: selects the boundary register and drives the pins from it while SYS_RESET_N is low; replaced by BYPASS at any other time (R610, R611). -/
def execExtest (sample values : BitVec 81) (s : State) : Out :=
  tapRow (fun s => let t := loadTap 0x00 true s; if s.pin.resetLow then scanBoundary sample values t else scanOut 0 t) s

/-- IDCODE: selects the device identification, 0xB512_546B (R609). -/
def execIdcode (s : State) : Out := tapRow (fun s => scanOut 0xB512546B (loadTap 0x01 false s)) s

/-- SAMPLE_PRELOAD: samples the pins and preloads the boundary register (R609, R611). -/
def execSamplePreload (sample values : BitVec 81) (s : State) : Out :=
  tapRow (fun s => scanBoundary sample values (loadTap 0x02 false s)) s

/-- CLAMP: holds the pins from the boundary register and selects bypass, while SYS_RESET_N is low (R610). -/
def execClamp (s : State) : Out := tapRow (fun s => scanOut 0 (loadTap 0x03 true s)) s

/-- HIGHZ: disables every boundary output and selects bypass, while SYS_RESET_N is low (R610). -/
def execHighz (s : State) : Out := tapRow (fun s => scanOut 0 (loadTap 0x04 true s)) s

/-- The TESTLOCK register (R613): SHIP and the closures made with it, KEEPER_INIT, MESH_ARMED and the signature. -/
def State.testlock (s : State) : Nat :=
  b2n s.sys.shipFuse * 0x1F + b2n s.sys.keeperInit * 0x20 + b2n (s.bitOf Reg.TPR_STATUS 3) * 0x40 + 0xA5C30000

/-- TESTLOCK: selects the TESTLOCK register (R613). -/
def execTestlock (s : State) : Out := tapRow (fun s => scanOut (BitVec.ofNat 81 s.testlock) (loadTap 0x10 false s)) s

/-- BYPASS, code 0xFF and every code without an instruction of its own: selects the bypass register (R609). -/
def execBypass (s : State) : Out := tapRow (fun s => scanOut 0 (loadTap 0xFF false s)) s

/-- The level at an output cell of the boundary register, `none` where the device keeps the pin or its enable is 0: the cell after it is the enable
(R611). -/
def State.drivenPin (s : State) (cell : Nat) : Option Bool :=
  if s.pin.resetLow && (s.pin.tapIr == 0x00 || s.pin.tapIr == 0x03) && s.pin.boundary.getLsbD (cell + 1)
  then some (s.pin.boundary.getLsbD cell) else none

end Sys2Proof.Machine
end

