-- ==== Sys2Proof/Machine/Dispatch.lean ====
section
/-! DEFINITION. The meaning of every command: one arm for each constructor of Instr, each a direct call of its meaning. -/

namespace Sys2Proof.Machine

def exec (i : Instr) (s : State) : Host.Outcome State Fault Refusal :=
  match i with
  | .shipFuseBlow => Sys2Proof.Machine.execShipFuseBlow s
  | .powerOn off smbAddr => Sys2Proof.Machine.execPowerOn off smbAddr s
  | .powerFail levels => Sys2Proof.Machine.execPowerFail levels s
  | .warmResetPin low => Sys2Proof.Machine.execWarmResetPin low s
  | .sysResetCtlWarm ring value => Sys2Proof.Machine.execSysResetCtlWarm ring value s
  | .sysResetCtlCustody ring value => Sys2Proof.Machine.execSysResetCtlCustody ring value s
  | .sysResetCtlTile ring value => Sys2Proof.Machine.execSysResetCtlTile ring value s
  | .custodyResetDone detected => Sys2Proof.Machine.execCustodyResetDone detected s
  | .uncorrectableTileFault tile ledger => Sys2Proof.Machine.execUncorrectableTileFault tile ledger s
  | .tileRelease tile pass badEngines badUnits => Sys2Proof.Machine.execTileRelease tile pass badEngines badUnits s
  | .pcieFlr fn => Sys2Proof.Machine.execPcieFlr fn s
  | .perstNAssert => Sys2Proof.Machine.execPerstNAssert s
  | .pcieConfigRequest request => Sys2Proof.Machine.execPcieConfigRequest request s
  | .bootStage0 detected mv => Sys2Proof.Machine.execBootStage0 detected mv s
  | .bootStage1 => Sys2Proof.Machine.execBootStage1 s
  | .bootStage2 pass => Sys2Proof.Machine.execBootStage2 pass s
  | .bootStage3 acks loaded => Sys2Proof.Machine.execBootStage3 acks loaded s
  | .bootStage4 badEngines badUnits badCustody mint badLeaf => Sys2Proof.Machine.execBootStage4 badEngines badUnits badCustody mint badLeaf s
  | .bootStage5 pass => Sys2Proof.Machine.execBootStage5 pass s
  | .bootStage6 => Sys2Proof.Machine.execBootStage6 s
  | .bootStage7 => Sys2Proof.Machine.execBootStage7 s
  | .modeCommit => Sys2Proof.Machine.execModeCommit s
  | .sysModeReqWrite value => Sys2Proof.Machine.execSysModeReqWrite value s
  | .getStatus c selector => Sys2Proof.Machine.execGetStatus c selector s
  | .getIdentity c nonce => Sys2Proof.Machine.execGetIdentity c nonce s
  | .enterMaintenance c map => Sys2Proof.Machine.execEnterMaintenance c map s
  | .exitMaintenance c map => Sys2Proof.Machine.execExitMaintenance c map s
  | .reset c kind tile => Sys2Proof.Machine.execReset c kind tile s
  | .sqTailDoorbell fn queue value stream => Sys2Proof.Machine.execSqTailDoorbell fn queue value stream s
  | .cqHeadDoorbell fn queue value stream => Sys2Proof.Machine.execCqHeadDoorbell fn queue value stream s
  | .queueEnable fn queue ctl => Sys2Proof.Machine.execQueueEnable fn queue ctl s
  | .queueDisable fn queue ctl => Sys2Proof.Machine.execQueueDisable fn queue ctl s
  | .hostRegisterAccess fn write offset value dws stream => Sys2Proof.Machine.execHostRegisterAccess fn write offset value dws stream s
  | .commandFetch fn queue entry dmaOk params named => Sys2Proof.Machine.execCommandFetch fn queue entry dmaOk params named s
  | .commandReserve fn queue ident free => Sys2Proof.Machine.execCommandReserve fn queue ident free s
  | .commandWatchdog dt => Sys2Proof.Machine.execCommandWatchdog dt s
  | .replyWrite fn queue ok => Sys2Proof.Machine.execReplyWrite fn queue ok s
  | .interruptCoalesceTimeout fn queue => Sys2Proof.Machine.execInterruptCoalesceTimeout fn queue s
  | .mbxSendCommit sender hi => Sys2Proof.Machine.execMbxSendCommit sender hi s
  | .mbxRecvPop => Sys2Proof.Machine.execMbxRecvPop s
  | .registerWrite ring master colour size addr value env => Sys2Proof.Machine.execRegisterWrite ring master colour size addr value env s
  | .frameStart dt start => Sys2Proof.Machine.execFrameStart dt start s
  | .frameBeat port bytes => Sys2Proof.Machine.execFrameBeat port bytes s
  | .headerBeat port bytes => Sys2Proof.Machine.execHeaderBeat port bytes s
  | .frameTail port bytes => Sys2Proof.Machine.execFrameTail port bytes s
  | .fabricTransfer cluster dst => Sys2Proof.Machine.execFabricTransfer cluster dst s
  | .egressFrameStart port => Sys2Proof.Machine.execEgressFrameStart port s
  | .egressUnderrun port sent => Sys2Proof.Machine.execEgressUnderrun port sent s
  | .stallTimerExpiry port sent => Sys2Proof.Machine.execStallTimerExpiry port sent s
  | .pauseFrame port quanta => Sys2Proof.Machine.execPauseFrame port quanta s
  | .pauseExpiry port => Sys2Proof.Machine.execPauseExpiry port s
  | .portLinkUp port => Sys2Proof.Machine.execPortLinkUp port s
  | .portLinkLost port => Sys2Proof.Machine.execPortLinkLost port s
  | .portReset port value => Sys2Proof.Machine.execPortReset port value s
  | .portEnable port => Sys2Proof.Machine.execPortEnable port s
  | .portDisable port => Sys2Proof.Machine.execPortDisable port s
  | .portRelease port => Sys2Proof.Machine.execPortRelease port s
  | .portHold port => Sys2Proof.Machine.execPortHold port s
  | .portCounterClear port => Sys2Proof.Machine.execPortCounterClear port s
  | .portGroupWrite port value => Sys2Proof.Machine.execPortGroupWrite port value s
  | .engineKatWindow cluster => Sys2Proof.Machine.execEngineKatWindow cluster s
  | .engineFailure engine cause => Sys2Proof.Machine.execEngineFailure engine cause s
  | .spareTakeover port => Sys2Proof.Machine.execSpareTakeover port s
  | .tileLinkFault a b => Sys2Proof.Machine.execTileLinkFault a b s
  | .tileLinkRetrained a b => Sys2Proof.Machine.execTileLinkRetrained a b s
  | .tileLinkRetrainTimeout a b => Sys2Proof.Machine.execTileLinkRetrainTimeout a b s
  | .egressKeyDelivered cluster tenant terminal => Sys2Proof.Machine.execEgressKeyDelivered cluster tenant terminal s
  | .leafPipeOutput cluster => Sys2Proof.Machine.execLeafPipeOutput cluster s
  | .chunkRootDelivered cluster => Sys2Proof.Machine.execChunkRootDelivered cluster s
  | .flowSetupStart cluster tenant terminal dir macOk => Sys2Proof.Machine.execFlowSetupStart cluster tenant terminal dir macOk s
  | .flowSetupDone cluster tenant terminal dir => Sys2Proof.Machine.execFlowSetupDone cluster tenant terminal dir s
  | .flowSetupTimeout dt cluster tenant terminal dir => Sys2Proof.Machine.execFlowSetupTimeout dt cluster tenant terminal dir s
  | .migrationRequest cluster tenant terminal dir => Sys2Proof.Machine.execMigrationRequest cluster tenant terminal dir s
  | .migrationDrained cluster tenant terminal dir => Sys2Proof.Machine.execMigrationDrained cluster tenant terminal dir s
  | .flowWayDrained cluster tenant terminal dir => Sys2Proof.Machine.execFlowWayDrained cluster tenant terminal dir s
  | .imagePageReadDone => Sys2Proof.Machine.execImagePageReadDone s
  | .imageBackgroundLoad page => Sys2Proof.Machine.execImageBackgroundLoad page s
  | .flowIdleSweep cluster => Sys2Proof.Machine.execFlowIdleSweep cluster s
  | .graceExpiry cluster tenant terminal => Sys2Proof.Machine.execGraceExpiry cluster tenant terminal s
  | .flowNotice cluster tenant terminal => Sys2Proof.Machine.execFlowNotice cluster tenant terminal s
  | .exchangeDone tile unit fault => Sys2Proof.Machine.execExchangeDone tile unit fault s
  | .exchangeWaitTimeout dt tile => Sys2Proof.Machine.execExchangeWaitTimeout dt tile s
  | .registerWriteback slot => Sys2Proof.Machine.execRegisterWriteback slot s
  | .flushDone => Sys2Proof.Machine.execFlushDone s
  | .getFlow c tenant terminal dir cluster => Sys2Proof.Machine.execGetFlow c tenant terminal dir cluster s
  | .getTerminal c tenant terminal => Sys2Proof.Machine.execGetTerminal c tenant terminal s
  | .getQuota c tenant => Sys2Proof.Machine.execGetQuota c tenant s
  | .getSetupStats c tile => Sys2Proof.Machine.execGetSetupStats c tile s
  | .allocTerminals c first count hybrid profile region l4ver => Sys2Proof.Machine.execAllocTerminals c first count hybrid profile region l4ver s
  | .freeTerminals c first count => Sys2Proof.Machine.execFreeTerminals c first count s
  | .setProfile c number classes actions egress zones notice => Sys2Proof.Machine.execSetProfile c number classes actions egress zones notice s
  | .quarantine c tenant terminal => Sys2Proof.Machine.execQuarantine c tenant terminal s
  | .release c tenant terminal => Sys2Proof.Machine.execRelease c tenant terminal s
  | .evictFlow c terminal dir => Sys2Proof.Machine.execEvictFlow c terminal dir s
  | .setVerdict c setting port enable template => Sys2Proof.Machine.execSetVerdict c setting port enable template s
  | .setQuota c tenant base quota => Sys2Proof.Machine.execSetQuota c tenant base quota s
  | .rekey c terminal egress => Sys2Proof.Machine.execRekey c terminal egress s
  | .reenrol c terminal l4ver => Sys2Proof.Machine.execReenrol c terminal l4ver s
  | .flushRegister c => Sys2Proof.Machine.execFlushRegister c s
  | .setFlowTimers c timeout grace tagCount tagWindow replayCount replayWindow => Sys2Proof.Machine.execSetFlowTimers c timeout grace tagCount tagWindow replayCount replayWindow s
  | .vaultRefreshRound => Sys2Proof.Machine.execVaultRefreshRound s
  | .vaultRefreshLate => Sys2Proof.Machine.execVaultRefreshLate s
  | .mintDerivation => Sys2Proof.Machine.execMintDerivation s
  | .l3Delivery cluster => Sys2Proof.Machine.execL3Delivery cluster s
  | .leafMintDerivation cluster tenant terminal dir => Sys2Proof.Machine.execLeafMintDerivation cluster tenant terminal dir s
  | .mintKat unit pass => Sys2Proof.Machine.execMintKat unit pass s
  | .purgeAck tile => Sys2Proof.Machine.execPurgeAck tile s
  | .grantIssue cluster => Sys2Proof.Machine.execGrantIssue cluster s
  | .fingerprintKeyDelivery => Sys2Proof.Machine.execFingerprintKeyDelivery s
  | .getSlot c handle => Sys2Proof.Machine.execGetSlot c handle s
  | .getKcv c handle => Sys2Proof.Machine.execGetKcv c handle s
  | .getPubkeys c tenant which => Sys2Proof.Machine.execGetPubkeys c tenant which s
  | .getRegions c first count => Sys2Proof.Machine.execGetRegions c first count s
  | .attest c handle challenge => Sys2Proof.Machine.execAttest c handle challenge s
  | .generateKey c cls len attr limit => Sys2Proof.Machine.execGenerateKey c cls len attr limit s
  | .importComponents c key count kcv => Sys2Proof.Machine.execImportComponents c key count kcv s
  | .importWrapped c kek block => Sys2Proof.Machine.execImportWrapped c kek block s
  | .exportWrapped c handle kek => Sys2Proof.Machine.execExportWrapped c handle kek s
  | .destroyKey c handle => Sys2Proof.Machine.execDestroyKey c handle s
  | .bindZone c zone handle => Sys2Proof.Machine.execBindZone c zone handle s
  | .createRegion c region preload => Sys2Proof.Machine.execCreateRegion c region preload s
  | .setUsageLimit c childExp handle limit => Sys2Proof.Machine.execSetUsageLimit c childExp handle limit s
  | .rollPurpose c which => Sys2Proof.Machine.execRollPurpose c which s
  | .rollHierarchy c region => Sys2Proof.Machine.execRollHierarchy c region s
  | .epochCut dt => Sys2Proof.Machine.execEpochCut dt s
  | .epochClose dt => Sys2Proof.Machine.execEpochClose dt s
  | .tileRootForm tile => Sys2Proof.Machine.execTileRootForm tile s
  | .rootsFormed => Sys2Proof.Machine.execRootsFormed s
  | .rootSignDone => Sys2Proof.Machine.execRootSignDone s
  | .eventEnqueue code src tenant data => Sys2Proof.Machine.execEventEnqueue code src tenant data s
  | .journalPageTimer => Sys2Proof.Machine.execJournalPageTimer s
  | .journalPageProgramDone ok => Sys2Proof.Machine.execJournalPageProgramDone ok s
  | .receiptPageProgramDone ok => Sys2Proof.Machine.execReceiptPageProgramDone ok s
  | .journalScanDone torn => Sys2Proof.Machine.execJournalScanDone torn s
  | .lflashBlockEraseDone block ok => Sys2Proof.Machine.execLflashBlockEraseDone block ok s
  | .eraseCountCheckpoint => Sys2Proof.Machine.execEraseCountCheckpoint s
  | .getLedgerStatus c tenant => Sys2Proof.Machine.execGetLedgerStatus c tenant s
  | .readJournal c first limit typeMask => Sys2Proof.Machine.execReadJournal c first limit typeMask s
  | .readReceipts c tenant first count => Sys2Proof.Machine.execReadReceipts c tenant first count s
  | .getRoot c tenant epoch => Sys2Proof.Machine.execGetRoot c tenant epoch s
  | .getProof c epoch cluster seq position => Sys2Proof.Machine.execGetProof c epoch cluster seq position s
  | .getRetention c tenant => Sys2Proof.Machine.execGetRetention c tenant s
  | .ackJournal c seq => Sys2Proof.Machine.execAckJournal c seq s
  | .ackReceipts c tenant seq => Sys2Proof.Machine.execAckReceipts c tenant seq s
  | .setRetention c retain full => Sys2Proof.Machine.execSetRetention c retain full s
  | .setReceiptQuota c tenant blocks => Sys2Proof.Machine.execSetReceiptQuota c tenant blocks s
  | .appendNote c note => Sys2Proof.Machine.execAppendNote c note s
  | .secondPulse dt width => Sys2Proof.Machine.execSecondPulse dt width s
  | .holdoverTimeout dt => Sys2Proof.Machine.execHoldoverTimeout dt s
  | .uncertaintyUpdate dt => Sys2Proof.Machine.execUncertaintyUpdate dt s
  | .timeRequestTimeout dt => Sys2Proof.Machine.execTimeRequestTimeout dt s
  | .gameChangeActivate dt => Sys2Proof.Machine.execGameChangeActivate dt s
  | .gameChangeAck cluster => Sys2Proof.Machine.execGameChangeAck cluster s
  | .gameChangeTimeout dt => Sys2Proof.Machine.execGameChangeTimeout dt s
  | .getTime c => Sys2Proof.Machine.execGetTime c s
  | .getGame c tenant game => Sys2Proof.Machine.execGetGame c tenant game s
  | .listGames c tenant first count => Sys2Proof.Machine.execListGames c tenant first count s
  | .setTime c seconds => Sys2Proof.Machine.execSetTime c seconds s
  | .setTimeParams c drift base maxUnc => Sys2Proof.Machine.execSetTimeParams c drift base maxUnc s
  | .realign c => Sys2Proof.Machine.execRealign c s
  | .addGame c game close margin => Sys2Proof.Machine.execAddGame c game close margin s
  | .setClose c game close margin => Sys2Proof.Machine.execSetClose c game close margin s
  | .closeNow c game => Sys2Proof.Machine.execCloseNow c game s
  | .deleteGame c game => Sys2Proof.Machine.execDeleteGame c game s
  | .add rd ra rb => Sys2Proof.Machine.execAdd rd ra rb s
  | .sub rd ra rb => Sys2Proof.Machine.execSub rd ra rb s
  | .and rd ra rb => Sys2Proof.Machine.execAnd rd ra rb s
  | .or rd ra rb => Sys2Proof.Machine.execOr rd ra rb s
  | .xor rd ra rb => Sys2Proof.Machine.execXor rd ra rb s
  | .andn rd ra rb => Sys2Proof.Machine.execAndn rd ra rb s
  | .mov rd ra => Sys2Proof.Machine.execMov rd ra s
  | .cmp ra rb => Sys2Proof.Machine.execCmp ra rb s
  | .tst ra rb => Sys2Proof.Machine.execTst ra rb s
  | .neg rd ra => Sys2Proof.Machine.execNeg rd ra s
  | .not rd ra => Sys2Proof.Machine.execNot rd ra s
  | .shl rd ra rb => Sys2Proof.Machine.execShl rd ra rb s
  | .shr rd ra rb => Sys2Proof.Machine.execShr rd ra rb s
  | .sar rd ra rb => Sys2Proof.Machine.execSar rd ra rb s
  | .ror rd ra rb => Sys2Proof.Machine.execRor rd ra rb s
  | .shlByAux rd ra aux => Sys2Proof.Machine.execShlByAux rd ra aux s
  | .shrByAux rd ra aux => Sys2Proof.Machine.execShrByAux rd ra aux s
  | .sarByAux rd ra aux => Sys2Proof.Machine.execSarByAux rd ra aux s
  | .rorByAux rd ra aux => Sys2Proof.Machine.execRorByAux rd ra aux s
  | .addi rd ra imm => Sys2Proof.Machine.execAddi rd ra imm s
  | .andi rd ra imm => Sys2Proof.Machine.execAndi rd ra imm s
  | .ori rd ra imm => Sys2Proof.Machine.execOri rd ra imm s
  | .xori rd ra imm => Sys2Proof.Machine.execXori rd ra imm s
  | .lui rd imm => Sys2Proof.Machine.execLui rd imm s
  | .cmpi ra imm => Sys2Proof.Machine.execCmpi ra imm s
  | .mul rd ra rb => Sys2Proof.Machine.execMul rd ra rb s
  | .mulhs rd ra rb => Sys2Proof.Machine.execMulhs rd ra rb s
  | .mulhu rd ra rb => Sys2Proof.Machine.execMulhu rd ra rb s
  | .divs rd ra rb => Sys2Proof.Machine.execDivs rd ra rb s
  | .divu rd ra rb => Sys2Proof.Machine.execDivu rd ra rb s
  | .rems rd ra rb => Sys2Proof.Machine.execRems rd ra rb s
  | .remu rd ra rb => Sys2Proof.Machine.execRemu rd ra rb s
  | .sadd rd ra rb => Sys2Proof.Machine.execSadd rd ra rb s
  | .ssub rd ra rb => Sys2Proof.Machine.execSsub rd ra rb s
  | .uadds rd ra rb => Sys2Proof.Machine.execUadds rd ra rb s
  | .usubs rd ra rb => Sys2Proof.Machine.execUsubs rd ra rb s
  | .smulqs rd ra rb aux => Sys2Proof.Machine.execSmulqs rd ra rb aux s
  | .sshl rd ra aux => Sys2Proof.Machine.execSshl rd ra aux s
  | .sneg rd ra => Sys2Proof.Machine.execSneg rd ra s
  | .sabs rd ra => Sys2Proof.Machine.execSabs rd ra s
  | .snarrow rd ra aux => Sys2Proof.Machine.execSnarrow rd ra aux s
  | .ld rd base size off env => Sys2Proof.Machine.execLd rd base size off env s
  | .lds rd base size off env => Sys2Proof.Machine.execLds rd base size off env s
  | .st rs base size off env => Sys2Proof.Machine.execSt rs base size off env s
  | .busResponse env => Sys2Proof.Machine.execBusResponse env s
  | .b cond off => Sys2Proof.Machine.execB cond off s
  | .call off env => Sys2Proof.Machine.execCall off env s
  | .jmp off => Sys2Proof.Machine.execJmp off s
  | .callr ra env => Sys2Proof.Machine.execCallr ra env s
  | .jmpr ra => Sys2Proof.Machine.execJmpr ra s
  | .ret n env => Sys2Proof.Machine.execRet n env s
  | .push ra env => Sys2Proof.Machine.execPush ra env s
  | .pop rd env => Sys2Proof.Machine.execPop rd env s
  | .bcopy rpt size upto env => Sys2Proof.Machine.execBcopy rpt size upto env s
  | .bfill rpt size ra upto env => Sys2Proof.Machine.execBfill rpt size ra upto env s
  | .bcmp rpt size upto env => Sys2Proof.Machine.execBcmp rpt size upto env s
  | .bseek rpt size ra upto env => Sys2Proof.Machine.execBseek rpt size ra upto env s
  | .bcmpc rpt size upto env => Sys2Proof.Machine.execBcmpc rpt size upto env s
  | .bgcopy rpt size upto env => Sys2Proof.Machine.execBgcopy rpt size upto env s
  | .nop => Sys2Proof.Machine.execNop s
  | .mfs rd index => Sys2Proof.Machine.execMfs rd index s
  | .mts index ra => Sys2Proof.Machine.execMts index ra s
  | .rdfeat rd imm => Sys2Proof.Machine.execRdfeat rd imm s
  | .wait => Sys2Proof.Machine.execWait s
  | .waitWake => Sys2Proof.Machine.execWaitWake s
  | .fence => Sys2Proof.Machine.execFence s
  | .gate imm => Sys2Proof.Machine.execGate imm s
  | .gret imm => Sys2Proof.Machine.execGret imm s
  | .undefinedInstruction word => Sys2Proof.Machine.execUndefinedInstruction word s
  | .interruptEntry => Sys2Proof.Machine.execInterruptEntry s
  | .lockstepMismatch groups found => Sys2Proof.Machine.execLockstepMismatch groups found s
  | .lockstepTestInject rom ring value => Sys2Proof.Machine.execLockstepTestInject rom ring value s
  | .romDisable ring => Sys2Proof.Machine.execRomDisable ring s
  | .gteSelLoad value => Sys2Proof.Machine.execGteSelLoad value s
  | .gteCommit value => Sys2Proof.Machine.execGteCommit value s
  | .gteDpageWrite page value => Sys2Proof.Machine.execGteDpageWrite page value s
  | .tagRetagStart value => Sys2Proof.Machine.execTagRetagStart value s
  | .tagRetagDone => Sys2Proof.Machine.execTagRetagDone s
  | .gteVioPop => Sys2Proof.Machine.execGteVioPop s
  | .digGoOpen => Sys2Proof.Machine.execDigGoOpen s
  | .digGoFeed => Sys2Proof.Machine.execDigGoFeed s
  | .digGoAbort => Sys2Proof.Machine.execDigGoAbort s
  | .digGoExport => Sys2Proof.Machine.execDigGoExport s
  | .digGoImport host => Sys2Proof.Machine.execDigGoImport host s
  | .digestFeedDone host r => Sys2Proof.Machine.execDigestFeedDone host r s
  | .flashWindowRead span ecc dt => Sys2Proof.Machine.execFlashWindowRead span ecc dt s
  | .mrExtendStart ring value => Sys2Proof.Machine.execMrExtendStart ring value s
  | .mrExtendDone => Sys2Proof.Machine.execMrExtendDone s
  | .mrValueSnapshot => Sys2Proof.Machine.execMrValueSnapshot s
  | .cphJobStart ring => Sys2Proof.Machine.execCphJobStart ring s
  | .cphJobDone host r => Sys2Proof.Machine.execCphJobDone host r s
  | .cphWkeyWrite share word value => Sys2Proof.Machine.execCphWkeyWrite share word value s
  | .cphWkeyClear => Sys2Proof.Machine.execCphWkeyClear s
  | .getDigestSessions c => Sys2Proof.Machine.execGetDigestSessions c s
  | .digest c alg addr len handle expect => Sys2Proof.Machine.execDigest c alg addr len handle expect s
  | .digestOpen c alg total handle => Sys2Proof.Machine.execDigestOpen c alg total handle s
  | .digestFeed c session addr len expect => Sys2Proof.Machine.execDigestFeed c session addr len expect s
  | .digestExport c session => Sys2Proof.Machine.execDigestExport c session s
  | .digestImport c blob => Sys2Proof.Machine.execDigestImport c blob s
  | .digestClose c session => Sys2Proof.Machine.execDigestClose c session s
  | .cmac c handle addr len expect => Sys2Proof.Machine.execCmac c handle addr len expect s
  | .noiseBlock source block dt => Sys2Proof.Machine.execNoiseBlock source block dt s
  | .sourceRestart source dt => Sys2Proof.Machine.execSourceRestart source dt s
  | .drbgScheduledReseed dt => Sys2Proof.Machine.execDrbgScheduledReseed dt s
  | .drbgReseed => Sys2Proof.Machine.execDrbgReseed s
  | .drbgReseedTimeout dt => Sys2Proof.Machine.execDrbgReseedTimeout dt s
  | .clusterDrbgReseed cluster requests => Sys2Proof.Machine.execClusterDrbgReseed cluster requests s
  | .rngDataRead ring refill => Sys2Proof.Machine.execRngDataRead ring refill s
  | .rngReseedWrite ring value => Sys2Proof.Machine.execRngReseedWrite ring value s
  | .portStarved dt => Sys2Proof.Machine.execPortStarved dt s
  | .drbgReinstantiate => Sys2Proof.Machine.execDrbgReinstantiate s
  | .calibrationPassDone h0 h1 h2 thermal dt => Sys2Proof.Machine.execCalibrationPassDone h0 h1 h2 thermal dt s
  | .getRandom c len extra predict => Sys2Proof.Machine.execGetRandom c len extra predict s
  | .reseed c extra => Sys2Proof.Machine.execReseed c extra s
  | .calibrate c => Sys2Proof.Machine.execCalibrate c s
  | .pkeStart unit => Sys2Proof.Machine.execPkeStart unit s
  | .pkeAbort unit => Sys2Proof.Machine.execPkeAbort unit s
  | .pkeOperationDone unit host r => Sys2Proof.Machine.execPkeOperationDone unit host r s
  | .pkeClearDone unit => Sys2Proof.Machine.execPkeClearDone unit s
  | .pkeLayoutWrite unit ring value => Sys2Proof.Machine.execPkeLayoutWrite unit ring value s
  | .verifyBatchStart tile => Sys2Proof.Machine.execVerifyBatchStart tile s
  | .verifyBatchDone unit => Sys2Proof.Machine.execVerifyBatchDone unit s
  | .pkeKatWindow unit pass => Sys2Proof.Machine.execPkeKatWindow unit pass s
  | .pkeSpareTakeover unit => Sys2Proof.Machine.execPkeSpareTakeover unit s
  | .getPkeStatus c => Sys2Proof.Machine.execGetPkeStatus c s
  | .keypair c => Sys2Proof.Machine.execKeypair c s
  | .sign c => Sys2Proof.Machine.execSign c s
  | .verify c => Sys2Proof.Machine.execVerify c s
  | .shared c => Sys2Proof.Machine.execShared c s
  | .encaps c => Sys2Proof.Machine.execEncaps c s
  | .decaps c => Sys2Proof.Machine.execDecaps c s
  | .rsaPublic c => Sys2Proof.Machine.execRsaPublic c s
  | .rsaPrivate c => Sys2Proof.Machine.execRsaPrivate c s
  | .modexp c => Sys2Proof.Machine.execModexp c s
  | .flashProgram => Sys2Proof.Machine.execFlashProgram s
  | .flashErase => Sys2Proof.Machine.execFlashErase s
  | .flashSuspend => Sys2Proof.Machine.execFlashSuspend s
  | .flashResume => Sys2Proof.Machine.execFlashResume s
  | .flashOpDone fails => Sys2Proof.Machine.execFlashOpDone fails s
  | .flashAutoResume dt => Sys2Proof.Machine.execFlashAutoResume dt s
  | .getFlashStatus c => Sys2Proof.Machine.execGetFlashStatus c s
  | .getLflashBlocks c first count => Sys2Proof.Machine.execGetLflashBlocks c first count s
  | .eraseSector c first count => Sys2Proof.Machine.execEraseSector c first count s
  | .updGoStart => Sys2Proof.Machine.execUpdGoStart s
  | .updGoAbort => Sys2Proof.Machine.execUpdGoAbort s
  | .updJobDone host r => Sys2Proof.Machine.execUpdJobDone host r s
  | .updBankSetWrite ring value => Sys2Proof.Machine.execUpdBankSetWrite ring value s
  | .updArbBlowWrite ring value => Sys2Proof.Machine.execUpdArbBlowWrite ring value s
  | .getImages c => Sys2Proof.Machine.execGetImages c s
  | .updateBegin c => Sys2Proof.Machine.execUpdateBegin c s
  | .updateWrite c kind offset data fail => Sys2Proof.Machine.execUpdateWrite c kind offset data fail s
  | .updateCopy c kind => Sys2Proof.Machine.execUpdateCopy c kind s
  | .updateEnd c => Sys2Proof.Machine.execUpdateEnd c s
  | .updateAbort c => Sys2Proof.Machine.execUpdateAbort c s
  | .activate c tries => Sys2Proof.Machine.execActivate c tries s
  | .confirm c => Sys2Proof.Machine.execConfirm c s
  | .getCeremony c => Sys2Proof.Machine.execGetCeremony c s
  | .getNonce c => Sys2Proof.Machine.execGetNonce c s
  | .getRoster c scope first => Sys2Proof.Machine.execGetRoster c scope first s
  | .getCards c => Sys2Proof.Machine.execGetCards c s
  | .openCeremony c journalOk => Sys2Proof.Machine.execOpenCeremony c journalOk s
  | .closeCeremony c journalOk => Sys2Proof.Machine.execCloseCeremony c journalOk s
  | .abortCeremony c => Sys2Proof.Machine.execAbortCeremony c s
  | .enrolCustodian c slot scope flags => Sys2Proof.Machine.execEnrolCustodian c slot scope flags s
  | .revokeCustodian c number => Sys2Proof.Machine.execRevokeCustodian c number s
  | .setPolicy c scope m regMin => Sys2Proof.Machine.execSetPolicy c scope m regMin s
  | .createDomain c domain profile count slots kcv => Sys2Proof.Machine.execCreateDomain c domain profile count slots kcv s
  | .createTenant c tenant domain word m regMin => Sys2Proof.Machine.execCreateTenant c tenant domain word m regMin s
  | .destroyTenant c tenant => Sys2Proof.Machine.execDestroyTenant c tenant s
  | .setOwnerPerm c word => Sys2Proof.Machine.execSetOwnerPerm c word s
  | .ceremonyClosed => Sys2Proof.Machine.execCeremonyClosed s
  | .ceremonyRestored => Sys2Proof.Machine.execCeremonyRestored s
  | .ceremonyIdleTimeout => Sys2Proof.Machine.execCeremonyIdleTimeout s
  | .cardStepWaitTimeout => Sys2Proof.Machine.execCardStepWaitTimeout s
  | .nonceExpiry fn => Sys2Proof.Machine.execNonceExpiry fn s
  | .cardInsert slot => Sys2Proof.Machine.execCardInsert slot s
  | .cardRemove slot => Sys2Proof.Machine.execCardRemove slot s
  | .cardActivate slot value => Sys2Proof.Machine.execCardActivate slot value s
  | .cardDeactivate slot value => Sys2Proof.Machine.execCardDeactivate slot value s
  | .atrTimeout slot => Sys2Proof.Machine.execAtrTimeout slot s
  | .cardWaitTimeout slot character => Sys2Proof.Machine.execCardWaitTimeout slot character s
  | .cardResponse slot sw data => Sys2Proof.Machine.execCardResponse slot sw data s
  | .cardTxWrite slot value => Sys2Proof.Machine.execCardTxWrite slot value s
  | .cardRxPop slot => Sys2Proof.Machine.execCardRxPop slot s
  | .cardOvercurrent slot => Sys2Proof.Machine.execCardOvercurrent slot s
  | .getSeals c => Sys2Proof.Machine.execGetSeals c s
  | .enrolSeal c num => Sys2Proof.Machine.execEnrolSeal c num s
  | .retireSeal c num => Sys2Proof.Machine.execRetireSeal c num s
  | .releaseSealFail c rebase => Sys2Proof.Machine.execReleaseSealFail c rebase s
  | .checkSeals c => Sys2Proof.Machine.execCheckSeals c s
  | .sealCheckDone => Sys2Proof.Machine.execSealCheckDone s
  | .tagResponse answer => Sys2Proof.Machine.execTagResponse answer s
  | .tokenActivate typeB => Sys2Proof.Machine.execTokenActivate typeB s
  | .tokenPresenceCheck answered => Sys2Proof.Machine.execTokenPresenceCheck answered s
  | .capacitiveSense value antennaFault => Sys2Proof.Machine.execCapacitiveSense value antennaFault s
  | .nfcPoll => Sys2Proof.Machine.execNfcPoll s
  | .nfcPollTimeout => Sys2Proof.Machine.execNfcPollTimeout s
  | .tamperDetection kind index => Sys2Proof.Machine.execTamperDetection kind index s
  | .zeroizationComplete failing => Sys2Proof.Machine.execZeroizationComplete failing s
  | .loopWordCompare net word => Sys2Proof.Machine.execLoopWordCompare net word s
  | .keeperLoopBurst net burst => Sys2Proof.Machine.execKeeperLoopBurst net burst s
  | .serviceWindowEnd dt levels => Sys2Proof.Machine.execServiceWindowEnd dt levels s
  | .keeperEnergyTest mv => Sys2Proof.Machine.execKeeperEnergyTest mv s
  | .keeperUnpoweredTest mv => Sys2Proof.Machine.execKeeperUnpoweredTest mv s
  | .keeperVoltageChange mv => Sys2Proof.Machine.execKeeperVoltageChange mv s
  | .thermalSample tj sr coldest inlet outlet tach duty => Sys2Proof.Machine.execThermalSample tj sr coldest inlet outlet tach duty s
  | .hotHoldEnter tile => Sys2Proof.Machine.execHotHoldEnter tile s
  | .hotHoldClear tile => Sys2Proof.Machine.execHotHoldClear tile s
  | .flowLow low => Sys2Proof.Machine.execFlowLow low s
  | .pumpFail => Sys2Proof.Machine.execPumpFail s
  | .leak => Sys2Proof.Machine.execLeak s
  | .busIntegrityFailure dt failed => Sys2Proof.Machine.execBusIntegrityFailure dt failed s
  | .alarmReport cls detail security src transmitter tenant data => Sys2Proof.Machine.execAlarmReport cls detail security src transmitter tenant data s
  | .alarmRecordClose dt => Sys2Proof.Machine.execAlarmRecordClose dt s
  | .dropSummary cluster => Sys2Proof.Machine.execDropSummary cluster s
  | .tamperLogTransfer => Sys2Proof.Machine.execTamperLogTransfer s
  | .tprCommitArm ring value matched delays => Sys2Proof.Machine.execTprCommitArm ring value matched delays s
  | .tprCommitWindow ring value => Sys2Proof.Machine.execTprCommitWindow ring value s
  | .tprZeroReq ring value => Sys2Proof.Machine.execTprZeroReq ring value s
  | .tprLogXfer ring value => Sys2Proof.Machine.execTprLogXfer ring value s
  | .almHeadPop ring => Sys2Proof.Machine.execAlmHeadPop ring s
  | .almAck ring value => Sys2Proof.Machine.execAlmAck ring value s
  | .getTamper c => Sys2Proof.Machine.execGetTamper c s
  | .readTamperLog c first count => Sys2Proof.Machine.execReadTamperLog c first count s
  | .getAlarms c => Sys2Proof.Machine.execGetAlarms c s
  | .getThermal c => Sys2Proof.Machine.execGetThermal c s
  | .getKeeper c => Sys2Proof.Machine.execGetKeeper c s
  | .zeroize c => Sys2Proof.Machine.execZeroize c s
  | .setTamperCfg c cfg => Sys2Proof.Machine.execSetTamperCfg c cfg s
  | .serviceWindow c mask minutes => Sys2Proof.Machine.execServiceWindow c mask minutes s
  | .closeWindow c levels => Sys2Proof.Machine.execCloseWindow c levels s
  | .setThermal c setpoint warn duty flowK => Sys2Proof.Machine.execSetThermal c setpoint warn duty flowK s
  | .ackAlarms c mask => Sys2Proof.Machine.execAckAlarms c mask s
  | .setKeeper c zthr low vfull => Sys2Proof.Machine.execSetKeeper c zthr low vfull s
  | .mirrorLinkUp lanes => Sys2Proof.Machine.execMirrorLinkUp lanes s
  | .mirrorLinkDown => Sys2Proof.Machine.execMirrorLinkDown s
  | .generationExchange gens => Sys2Proof.Machine.execGenerationExchange gens s
  | .leaseTimer dt => Sys2Proof.Machine.execLeaseTimer dt s
  | .leaseReceived dt map expiry => Sys2Proof.Machine.execLeaseReceived dt map expiry s
  | .leaseExpiry dt tenant => Sys2Proof.Machine.execLeaseExpiry dt tenant s
  | .takeRequestReceived dt tenant => Sys2Proof.Machine.execTakeRequestReceived dt tenant s
  | .takeAckReceived dt tenant cut => Sys2Proof.Machine.execTakeAckReceived dt tenant cut s
  | .takeAckTimeout dt tenant => Sys2Proof.Machine.execTakeAckTimeout dt tenant s
  | .handoverCut dt tenant => Sys2Proof.Machine.execHandoverCut dt tenant s
  | .finalReceived dt tenant => Sys2Proof.Machine.execFinalReceived dt tenant s
  | .rootMessage tenant epoch record => Sys2Proof.Machine.execRootMessage tenant epoch record s
  | .rootAck tenant epoch => Sys2Proof.Machine.execRootAck tenant epoch s
  | .rootAckTimeout dt tenant epoch => Sys2Proof.Machine.execRootAckTimeout dt tenant epoch s
  | .lineMessage slot entry => Sys2Proof.Machine.execLineMessage slot entry s
  | .pageMessage tenant seq page => Sys2Proof.Machine.execPageMessage tenant seq page s
  | .configMessage change => Sys2Proof.Machine.execConfigMessage change s
  | .domainMessage domain block => Sys2Proof.Machine.execDomainMessage domain block s
  | .getPair c => Sys2Proof.Machine.execGetPair c s
  | .getCharters c first count => Sys2Proof.Machine.execGetCharters c first count s
  | .pairJoin c serial digest => Sys2Proof.Machine.execPairJoin c serial digest s
  | .shareDomain c domain => Sys2Proof.Machine.execShareDomain c domain s
  | .takeCharter c tenant force => Sys2Proof.Machine.execTakeCharter c tenant force s
  | .resumeSolo c => Sys2Proof.Machine.execResumeSolo c s
  | .setReplication c tenant on => Sys2Proof.Machine.execSetReplication c tenant on s
  | .pairDissolve c => Sys2Proof.Machine.execPairDissolve c s
  | .lendRequest ring value => Sys2Proof.Machine.execLendRequest ring value s
  | .lendDone fail => Sys2Proof.Machine.execLendDone fail s
  | .getRepair c => Sys2Proof.Machine.execGetRepair c s
  | .getTally c block => Sys2Proof.Machine.execGetTally c block s
  | .retest c kind res pass => Sys2Proof.Machine.execRetest c kind res pass s
  | .disableResource c kind res => Sys2Proof.Machine.execDisableResource c kind res s
  | .resetPort c port => Sys2Proof.Machine.execResetPort c port s
  | .setTally c block counter event selector chain => Sys2Proof.Machine.execSetTally c block counter event selector chain s
  | .clearTally c block mask => Sys2Proof.Machine.execClearTally c block mask s
  | .tallyRun ring => Sys2Proof.Machine.execTallyRun ring s
  | .tallyStop ring => Sys2Proof.Machine.execTallyStop ring s
  | .tallyGctlApply dt => Sys2Proof.Machine.execTallyGctlApply dt s
  | .tallyClear ring block mask => Sys2Proof.Machine.execTallyClear ring block mask s
  | .tallyCounterRead block counter master counted => Sys2Proof.Machine.execTallyCounterRead block counter master counted s
  | .pmbusPoll silent vout iout => Sys2Proof.Machine.execPmbusPoll silent vout iout s
  | .smbAlertResponse => Sys2Proof.Machine.execSmbAlertResponse s
  | .smbReadSysMode pec => Sys2Proof.Machine.execSmbReadSysMode pec s
  | .smbReadSysStatus pec => Sys2Proof.Machine.execSmbReadSysStatus pec s
  | .smbReadSysHold pec => Sys2Proof.Machine.execSmbReadSysHold pec s
  | .smbReadSysBootStage pec => Sys2Proof.Machine.execSmbReadSysBootStage pec s
  | .smbReadSysResetCause pec => Sys2Proof.Machine.execSmbReadSysResetCause pec s
  | .smbReadTprStatus pec => Sys2Proof.Machine.execSmbReadTprStatus pec s
  | .smbReadThmStatus pec => Sys2Proof.Machine.execSmbReadThmStatus pec s
  | .smbReadHottestTile pec => Sys2Proof.Machine.execSmbReadHottestTile pec s
  | .smbReadThmTjSr pec => Sys2Proof.Machine.execSmbReadThmTjSr pec s
  | .smbReadThmInlet pec => Sys2Proof.Machine.execSmbReadThmInlet pec s
  | .smbReadThmFlow pec => Sys2Proof.Machine.execSmbReadThmFlow pec s
  | .smbReadThmKeepV pec => Sys2Proof.Machine.execSmbReadThmKeepV pec s
  | .smbReadTimStatus pec => Sys2Proof.Machine.execSmbReadTimStatus pec s
  | .smbReadAlmStatus pec => Sys2Proof.Machine.execSmbReadAlmStatus pec s
  | .smbReadSysSerialLo pec => Sys2Proof.Machine.execSmbReadSysSerialLo pec s
  | .smbReadSysSerialHi pec => Sys2Proof.Machine.execSmbReadSysSerialHi pec s
  | .smbReadSysOrder pec => Sys2Proof.Machine.execSmbReadSysOrder pec s
  | .smbReadTileVoltages pec => Sys2Proof.Machine.execSmbReadTileVoltages pec s
  | .smbUndefinedCommand => Sys2Proof.Machine.execSmbUndefinedCommand s
  | .tapReset => Sys2Proof.Machine.execTapReset s
  | .extest sample values => Sys2Proof.Machine.execExtest sample values s
  | .idcode => Sys2Proof.Machine.execIdcode s
  | .samplePreload sample values => Sys2Proof.Machine.execSamplePreload sample values s
  | .clamp => Sys2Proof.Machine.execClamp s
  | .highz => Sys2Proof.Machine.execHighz s
  | .testlock => Sys2Proof.Machine.execTestlock s
  | .bypass => Sys2Proof.Machine.execBypass s
  | .keeperPowerLoss => Sys2Proof.Machine.execKeeperPowerLoss s
  | .perstNDeassert => Sys2Proof.Machine.execPerstNDeassert s
  | .spdmDoeRequest measure auth ide => Sys2Proof.Machine.execSpdmDoeRequest measure auth ide s
  | .verdictTokenRefill port n => Sys2Proof.Machine.execVerdictTokenRefill port n s
  | .fabricAcknowledgement src dst => Sys2Proof.Machine.execFabricAcknowledgement src dst s
  | .eraseSuspendPoint dt => Sys2Proof.Machine.execEraseSuspendPoint dt s
  | .lflashReadDone read corrected ok => Sys2Proof.Machine.execLflashReadDone read corrected ok s
  | .storeAcknowledgement gate env => Sys2Proof.Machine.execStoreAcknowledgement gate env s
  | .custodyLinkRetrained tile => Sys2Proof.Machine.execCustodyLinkRetrained tile s
  | .cardAtrReceived slot atr => Sys2Proof.Machine.execCardAtrReceived slot atr s
  | .cardPpsResponse slot response => Sys2Proof.Machine.execCardPpsResponse slot response s
  | .cardParityError slot same => Sys2Proof.Machine.execCardParityError slot same s
  | .tokenFrameWaitTimeout => Sys2Proof.Machine.execTokenFrameWaitTimeout s
  | .leakClear => Sys2Proof.Machine.execLeakClear s
  | .takingGuardEnd dt tenant => Sys2Proof.Machine.execTakingGuardEnd dt tenant s
  | .pairHandshakeReceived msg => Sys2Proof.Machine.execPairHandshakeReceived msg s
  | .lockstepMismatchAgeout dt => Sys2Proof.Machine.execLockstepMismatchAgeout dt s

end Sys2Proof.Machine
end

