-- ==== Sys2Proof/WellFormed.lean ====
section
/-! DEFINITION. Which commands the outside world can send: a host command whose parts the fields of its entry can carry, beats of at most 16 bytes,
lists that name each thing once. A command that breaks a rule of the spec and receives an error status is well formed; its meaning answers it. -/

namespace Sys2Proof

/-- A host command that an entry of R69 can carry: parameters and ticket of at most 65,536 bytes, an output length of 32 bits. -/
def HostCmd.fits (c : HostCmd) : Bool :=
  decide (c.params.length + (c.ticket.getD []).length ≤ 65536) && decide (c.outLen < 2 ^ 32)

/-- A list that names each thing once. -/
def once {α : Type} [DecidableEq α] : List α → Bool
  | [] => true
  | x :: r => !r.contains x && once r

/-- A beat of a frame: 1 to 16 bytes (R129). -/
def isBeat (b : Bytes) : Bool := decide (0 < b.length) && decide (b.length ≤ 16)

/-- The well-formed commands. -/
def Instr.wf : Instr → Bool
  | .shipFuseBlow => true
  | .powerOn .. => true
  | .powerFail .. => true
  | .warmResetPin .. => true
  | .sysResetCtlWarm .. => true
  | .sysResetCtlCustody .. => true
  | .sysResetCtlTile .. => true
  | .custodyResetDone .. => true
  | .uncorrectableTileFault .. => true
  | .tileRelease _ _ engines units => once engines && once units
  | .pcieFlr .. => true
  | .perstNAssert => true
  | .pcieConfigRequest .. => true
  | .bootStage0 .. => true
  | .bootStage1 => true
  | .bootStage2 .. => true
  | .bootStage3 .. => true
  | .bootStage4 engines units custody _ leaf => once engines && once units && once custody && once leaf
  | .bootStage5 .. => true
  | .bootStage6 => true
  | .bootStage7 => true
  | .modeCommit => true
  | .sysModeReqWrite .. => true
  | .getStatus c .. => c.fits
  | .getIdentity c .. => c.fits
  | .enterMaintenance c .. => c.fits
  | .exitMaintenance c .. => c.fits
  | .reset c .. => c.fits
  | .sqTailDoorbell .. => true
  | .cqHeadDoorbell .. => true
  | .queueEnable .. => true
  | .queueDisable .. => true
  | .hostRegisterAccess _ _ _ _ dws _ => decide (0 < dws)
  | .commandFetch _ _ entry .. => decide (entry.length = 64)
  | .commandReserve .. => true
  | .commandWatchdog .. => true
  | .replyWrite .. => true
  | .interruptCoalesceTimeout .. => true
  | .mbxSendCommit .. => true
  | .mbxRecvPop => true
  | .registerWrite .. => true
  | .frameStart .. => true
  | .frameBeat _ bytes => isBeat bytes
  | .headerBeat _ bytes => isBeat bytes
  | .frameTail _ bytes => isBeat bytes
  | .fabricTransfer .. => true
  | .egressFrameStart .. => true
  | .egressUnderrun .. => true
  | .stallTimerExpiry .. => true
  | .pauseFrame .. => true
  | .pauseExpiry .. => true
  | .portLinkUp .. => true
  | .portLinkLost .. => true
  | .portReset .. => true
  | .portEnable .. => true
  | .portDisable .. => true
  | .portRelease .. => true
  | .portHold .. => true
  | .portCounterClear .. => true
  | .portGroupWrite .. => true
  | .engineKatWindow .. => true
  | .engineFailure .. => true
  | .spareTakeover .. => true
  | .tileLinkFault .. => true
  | .tileLinkRetrained .. => true
  | .tileLinkRetrainTimeout .. => true
  | .egressKeyDelivered .. => true
  | .leafPipeOutput .. => true
  | .chunkRootDelivered .. => true
  | .flowSetupStart .. => true
  | .flowSetupDone .. => true
  | .flowSetupTimeout .. => true
  | .migrationRequest .. => true
  | .migrationDrained .. => true
  | .flowWayDrained .. => true
  | .imagePageReadDone => true
  | .imageBackgroundLoad .. => true
  | .flowIdleSweep .. => true
  | .graceExpiry .. => true
  | .flowNotice .. => true
  | .exchangeDone .. => true
  | .exchangeWaitTimeout .. => true
  | .registerWriteback .. => true
  | .flushDone => true
  | .getFlow c .. => c.fits
  | .getTerminal c .. => c.fits
  | .getQuota c .. => c.fits
  | .getSetupStats c .. => c.fits
  | .allocTerminals c .. => c.fits
  | .freeTerminals c .. => c.fits
  | .setProfile c .. => c.fits
  | .quarantine c .. => c.fits
  | .release c .. => c.fits
  | .evictFlow c .. => c.fits
  | .setVerdict c .. => c.fits
  | .setQuota c .. => c.fits
  | .rekey c .. => c.fits
  | .reenrol c .. => c.fits
  | .flushRegister c => c.fits
  | .setFlowTimers c .. => c.fits
  | .vaultRefreshRound => true
  | .vaultRefreshLate => true
  | .mintDerivation => true
  | .l3Delivery .. => true
  | .leafMintDerivation .. => true
  | .mintKat .. => true
  | .purgeAck .. => true
  | .grantIssue .. => true
  | .fingerprintKeyDelivery => true
  | .getSlot c .. => c.fits
  | .getKcv c .. => c.fits
  | .getPubkeys c .. => c.fits
  | .getRegions c .. => c.fits
  | .attest c .. => c.fits
  | .generateKey c .. => c.fits
  | .importComponents c .. => c.fits
  | .importWrapped c .. => c.fits
  | .exportWrapped c .. => c.fits
  | .destroyKey c .. => c.fits
  | .bindZone c .. => c.fits
  | .createRegion c .. => c.fits
  | .setUsageLimit c .. => c.fits
  | .rollPurpose c .. => c.fits
  | .rollHierarchy c .. => c.fits
  | .epochCut .. => true
  | .epochClose .. => true
  | .tileRootForm .. => true
  | .rootsFormed => true
  | .rootSignDone => true
  | .eventEnqueue .. => true
  | .journalPageTimer => true
  | .journalPageProgramDone .. => true
  | .receiptPageProgramDone .. => true
  | .journalScanDone .. => true
  | .lflashBlockEraseDone .. => true
  | .eraseCountCheckpoint => true
  | .getLedgerStatus c .. => c.fits
  | .readJournal c .. => c.fits
  | .readReceipts c .. => c.fits
  | .getRoot c .. => c.fits
  | .getProof c .. => c.fits
  | .getRetention c .. => c.fits
  | .ackJournal c .. => c.fits
  | .ackReceipts c .. => c.fits
  | .setRetention c .. => c.fits
  | .setReceiptQuota c .. => c.fits
  | .appendNote c .. => c.fits
  | .secondPulse .. => true
  | .holdoverTimeout .. => true
  | .uncertaintyUpdate .. => true
  | .timeRequestTimeout .. => true
  | .gameChangeActivate .. => true
  | .gameChangeAck .. => true
  | .gameChangeTimeout .. => true
  | .getTime c => c.fits
  | .getGame c .. => c.fits
  | .listGames c .. => c.fits
  | .setTime c .. => c.fits
  | .setTimeParams c .. => c.fits
  | .realign c => c.fits
  | .addGame c .. => c.fits
  | .setClose c .. => c.fits
  | .closeNow c .. => c.fits
  | .deleteGame c .. => c.fits
  | .add .. => true
  | .sub .. => true
  | .and .. => true
  | .or .. => true
  | .xor .. => true
  | .andn .. => true
  | .mov .. => true
  | .cmp .. => true
  | .tst .. => true
  | .neg .. => true
  | .not .. => true
  | .shl .. => true
  | .shr .. => true
  | .sar .. => true
  | .ror .. => true
  | .shlByAux .. => true
  | .shrByAux .. => true
  | .sarByAux .. => true
  | .rorByAux .. => true
  | .addi .. => true
  | .andi .. => true
  | .ori .. => true
  | .xori .. => true
  | .lui .. => true
  | .cmpi .. => true
  | .mul .. => true
  | .mulhs .. => true
  | .mulhu .. => true
  | .divs .. => true
  | .divu .. => true
  | .rems .. => true
  | .remu .. => true
  | .sadd .. => true
  | .ssub .. => true
  | .uadds .. => true
  | .usubs .. => true
  | .smulqs .. => true
  | .sshl .. => true
  | .sneg .. => true
  | .sabs .. => true
  | .snarrow .. => true
  | .ld .. => true
  | .lds .. => true
  | .st .. => true
  | .busResponse .. => true
  | .b .. => true
  | .call .. => true
  | .jmp .. => true
  | .callr .. => true
  | .jmpr .. => true
  | .ret .. => true
  | .push .. => true
  | .pop .. => true
  | .bcopy .. => true
  | .bfill .. => true
  | .bcmp .. => true
  | .bseek .. => true
  | .bcmpc .. => true
  | .bgcopy .. => true
  | .nop => true
  | .mfs .. => true
  | .mts .. => true
  | .rdfeat .. => true
  | .wait => true
  | .waitWake => true
  | .fence => true
  | .gate .. => true
  | .gret .. => true
  | .undefinedInstruction .. => true
  | .interruptEntry => true
  | .lockstepMismatch .. => true
  | .lockstepTestInject .. => true
  | .romDisable .. => true
  | .gteSelLoad .. => true
  | .gteCommit .. => true
  | .gteDpageWrite .. => true
  | .tagRetagStart .. => true
  | .tagRetagDone => true
  | .gteVioPop => true
  | .digGoOpen => true
  | .digGoFeed => true
  | .digGoAbort => true
  | .digGoExport => true
  | .digGoImport .. => true
  | .digestFeedDone .. => true
  | .flashWindowRead .. => true
  | .mrExtendStart .. => true
  | .mrExtendDone => true
  | .mrValueSnapshot => true
  | .cphJobStart .. => true
  | .cphJobDone .. => true
  | .cphWkeyWrite .. => true
  | .cphWkeyClear => true
  | .getDigestSessions c => c.fits
  | .digest c .. => c.fits
  | .digestOpen c .. => c.fits
  | .digestFeed c .. => c.fits
  | .digestExport c .. => c.fits
  | .digestImport c .. => c.fits
  | .digestClose c .. => c.fits
  | .cmac c .. => c.fits
  | .noiseBlock .. => true
  | .sourceRestart .. => true
  | .drbgScheduledReseed .. => true
  | .drbgReseed => true
  | .drbgReseedTimeout .. => true
  | .clusterDrbgReseed .. => true
  | .rngDataRead .. => true
  | .rngReseedWrite .. => true
  | .portStarved .. => true
  | .drbgReinstantiate => true
  | .calibrationPassDone .. => true
  | .getRandom c .. => c.fits
  | .reseed c .. => c.fits
  | .calibrate c => c.fits
  | .pkeStart .. => true
  | .pkeAbort .. => true
  | .pkeOperationDone .. => true
  | .pkeClearDone .. => true
  | .pkeLayoutWrite .. => true
  | .verifyBatchStart .. => true
  | .verifyBatchDone .. => true
  | .pkeKatWindow .. => true
  | .pkeSpareTakeover .. => true
  | .getPkeStatus c => c.fits
  | .keypair c => c.fits
  | .sign c => c.fits
  | .verify c => c.fits
  | .shared c => c.fits
  | .encaps c => c.fits
  | .decaps c => c.fits
  | .rsaPublic c => c.fits
  | .rsaPrivate c => c.fits
  | .modexp c => c.fits
  | .flashProgram => true
  | .flashErase => true
  | .flashSuspend => true
  | .flashResume => true
  | .flashOpDone .. => true
  | .flashAutoResume .. => true
  | .getFlashStatus c => c.fits
  | .getLflashBlocks c .. => c.fits
  | .eraseSector c .. => c.fits
  | .updGoStart => true
  | .updGoAbort => true
  | .updJobDone .. => true
  | .updBankSetWrite .. => true
  | .updArbBlowWrite .. => true
  | .getImages c => c.fits
  | .updateBegin c => c.fits
  | .updateWrite c .. => c.fits
  | .updateCopy c .. => c.fits
  | .updateEnd c => c.fits
  | .updateAbort c => c.fits
  | .activate c .. => c.fits
  | .confirm c => c.fits
  | .getCeremony c => c.fits
  | .getNonce c => c.fits
  | .getRoster c .. => c.fits
  | .getCards c => c.fits
  | .openCeremony c .. => c.fits
  | .closeCeremony c .. => c.fits
  | .abortCeremony c => c.fits
  | .enrolCustodian c .. => c.fits
  | .revokeCustodian c .. => c.fits
  | .setPolicy c .. => c.fits
  | .createDomain c _ _ _ slots _ => c.fits && once slots
  | .createTenant c .. => c.fits
  | .destroyTenant c .. => c.fits
  | .setOwnerPerm c .. => c.fits
  | .ceremonyClosed => true
  | .ceremonyRestored => true
  | .ceremonyIdleTimeout => true
  | .cardStepWaitTimeout => true
  | .nonceExpiry .. => true
  | .cardInsert .. => true
  | .cardRemove .. => true
  | .cardActivate .. => true
  | .cardDeactivate .. => true
  | .atrTimeout .. => true
  | .cardWaitTimeout .. => true
  | .cardResponse .. => true
  | .cardTxWrite .. => true
  | .cardRxPop .. => true
  | .cardOvercurrent .. => true
  | .getSeals c => c.fits
  | .enrolSeal c .. => c.fits
  | .retireSeal c .. => c.fits
  | .releaseSealFail c .. => c.fits
  | .checkSeals c => c.fits
  | .sealCheckDone => true
  | .tagResponse .. => true
  | .tokenActivate .. => true
  | .tokenPresenceCheck .. => true
  | .capacitiveSense .. => true
  | .nfcPoll => true
  | .nfcPollTimeout => true
  | .tamperDetection .. => true
  | .zeroizationComplete .. => true
  | .loopWordCompare .. => true
  | .keeperLoopBurst .. => true
  | .serviceWindowEnd .. => true
  | .keeperEnergyTest .. => true
  | .keeperUnpoweredTest .. => true
  | .keeperVoltageChange .. => true
  | .thermalSample .. => true
  | .hotHoldEnter .. => true
  | .hotHoldClear .. => true
  | .flowLow .. => true
  | .pumpFail => true
  | .leak => true
  | .busIntegrityFailure .. => true
  | .alarmReport .. => true
  | .alarmRecordClose .. => true
  | .dropSummary .. => true
  | .tamperLogTransfer => true
  | .tprCommitArm .. => true
  | .tprCommitWindow .. => true
  | .tprZeroReq .. => true
  | .tprLogXfer .. => true
  | .almHeadPop .. => true
  | .almAck .. => true
  | .getTamper c => c.fits
  | .readTamperLog c .. => c.fits
  | .getAlarms c => c.fits
  | .getThermal c => c.fits
  | .getKeeper c => c.fits
  | .zeroize c => c.fits
  | .setTamperCfg c .. => c.fits
  | .serviceWindow c .. => c.fits
  | .closeWindow c .. => c.fits
  | .setThermal c .. => c.fits
  | .ackAlarms c .. => c.fits
  | .setKeeper c .. => c.fits
  | .mirrorLinkUp .. => true
  | .mirrorLinkDown => true
  | .generationExchange gens => once (gens.map (fun g => g.1))
  | .leaseTimer .. => true
  | .leaseReceived .. => true
  | .leaseExpiry .. => true
  | .takeRequestReceived .. => true
  | .takeAckReceived .. => true
  | .takeAckTimeout .. => true
  | .handoverCut .. => true
  | .finalReceived .. => true
  | .rootMessage .. => true
  | .rootAck .. => true
  | .rootAckTimeout .. => true
  | .lineMessage .. => true
  | .pageMessage .. => true
  | .configMessage .. => true
  | .domainMessage .. => true
  | .getPair c => c.fits
  | .getCharters c .. => c.fits
  | .pairJoin c .. => c.fits
  | .shareDomain c .. => c.fits
  | .takeCharter c .. => c.fits
  | .resumeSolo c => c.fits
  | .setReplication c .. => c.fits
  | .pairDissolve c => c.fits
  | .lendRequest .. => true
  | .lendDone .. => true
  | .getRepair c => c.fits
  | .getTally c .. => c.fits
  | .retest c .. => c.fits
  | .disableResource c .. => c.fits
  | .resetPort c .. => c.fits
  | .setTally c .. => c.fits
  | .clearTally c .. => c.fits
  | .tallyRun .. => true
  | .tallyStop .. => true
  | .tallyGctlApply .. => true
  | .tallyClear .. => true
  | .tallyCounterRead .. => true
  | .pmbusPoll .. => true
  | .smbAlertResponse => true
  | .smbReadSysMode .. => true
  | .smbReadSysStatus .. => true
  | .smbReadSysHold .. => true
  | .smbReadSysBootStage .. => true
  | .smbReadSysResetCause .. => true
  | .smbReadTprStatus .. => true
  | .smbReadThmStatus .. => true
  | .smbReadHottestTile .. => true
  | .smbReadThmTjSr .. => true
  | .smbReadThmInlet .. => true
  | .smbReadThmFlow .. => true
  | .smbReadThmKeepV .. => true
  | .smbReadTimStatus .. => true
  | .smbReadAlmStatus .. => true
  | .smbReadSysSerialLo .. => true
  | .smbReadSysSerialHi .. => true
  | .smbReadSysOrder .. => true
  | .smbReadTileVoltages .. => true
  | .smbUndefinedCommand => true
  | .tapReset => true
  | .extest .. => true
  | .idcode => true
  | .samplePreload .. => true
  | .clamp => true
  | .highz => true
  | .testlock => true
  | .bypass => true
  | .keeperPowerLoss => true
  | .perstNDeassert => true
  | .spdmDoeRequest .. => true
  | .verdictTokenRefill .. => true
  | .fabricAcknowledgement .. => true
  | .eraseSuspendPoint .. => true
  | .lflashReadDone .. => true
  | .storeAcknowledgement .. => true
  | .custodyLinkRetrained .. => true
  | .cardAtrReceived .. => true
  | .cardPpsResponse .. => true
  | .cardParityError .. => true
  | .tokenFrameWaitTimeout => true
  | .leakClear => true
  | .takingGuardEnd .. => true
  | .pairHandshakeReceived .. => true
  | .lockstepMismatchAgeout .. => true

end Sys2Proof
end

