-- ==== Sys2Proof/Safety.lean ====
section
/-! DEFINITION. What counts as a safe run, in the terms the statements use: the canonical form of the sparse tables, the fuses that order a
device's life, and the queue. -/

namespace Sys2Proof.Machine

/-- The canonical form of the registers and of the addressed memories: keys strictly rising, nothing listed that an unlisted key reads as. -/
def State.canonical (s : State) : Bool :=
  twf regDefault s.regs && twf (dflt 0) s.gte.sram && twf (dflt 0) s.gte.dram

/-- Every command that waits is well formed. -/
def State.queueOk (s : State) : Bool := s.pending.all Instr.wf

/-- The ship fuse is blown and nothing leads back to FACTORY (R38): not the mode, not a transition accepted and not yet committed, not the mode
from which a ceremony was opened. -/
def State.shipped (s : State) : Bool :=
  s.sys.shipFuse && s.sys.mode != .factory && s.sys.pend.all (fun m => m.target != .factory) && s.cer.openedFrom != .factory

/-- Whether a command comes over the test access port, the management target or the regulator bus. -/
def isTestAccess : Instr → Bool
  | .pmbusPoll _ _ _ | .smbAlertResponse | .smbUndefinedCommand => true
  | .smbReadSysMode _ | .smbReadSysStatus _ | .smbReadSysHold _ | .smbReadSysBootStage _ | .smbReadSysResetCause _ | .smbReadTprStatus _ => true
  | .smbReadThmStatus _ | .smbReadHottestTile _ | .smbReadThmTjSr _ | .smbReadThmInlet _ | .smbReadThmFlow _ | .smbReadThmKeepV _ => true
  | .smbReadTimStatus _ | .smbReadAlmStatus _ | .smbReadSysSerialLo _ | .smbReadSysSerialHi _ | .smbReadSysOrder _ | .smbReadTileVoltages _ => true
  | .tapReset | .extest _ _ | .idcode | .samplePreload _ _ | .clamp | .highz | .testlock | .bypass => true
  | _ => false

/-- Only test access waits, and the device is `d` in everything but its pins and the queue. -/
def TestOnly (d s : State) : Prop := s.pending.all isTestAccess = true ∧ s = { d with pin := s.pin, pending := s.pending }

/-- A host command that has been fetched, checked and started, with custody firmware ready and its output buffer reachable: its work runs now (R82). -/
def Runs (s : State) (op : Nat) (c : HostCmd) : Prop := s.ready = true ∧ alreadyRunning op c s = true ∧ c.outOk = true

/-- The work of a host command goes on from `u`: without a ticket from the state as it is, with one that passes from the state its checks leave (R487). -/
def Admitted (op : Nat) (c : HostCmd) (scope : Nat) (s u : State) : Prop :=
  (c.ticket = none ∧ u = s) ∨ ∃ tk, c.ticket = some tk ∧ ticketCheck op c scope tk s = (none, u)

/-- Nothing waits for the Ledger's sequencer to place it in the journal (R279). -/
def State.quiet (s : State) : Prop := s.ldg.evq = [] ∧ s.ldg.evHeld = [] ∧ s.ldg.signQ = [] ∧ s.ldg.page = []

/-- The custody cores execute and the instruction at PC can be fetched now (R313, R453); no escalation is in progress. -/
def State.fetches (s : State) : Prop :=
  s.coreRuns = true ∧ s.fetchable s.core.pc = true ∧ s.fetchWaits = false ∧ s.core.escalated = false

/-- FLAGS of both cores after an instruction: as they were, or those of core B bitwise inverted (R334). -/
def FlagsPair (s t : State) : Prop :=
  (t.core.flags = s.core.flags ∧ t.core.flagsB = s.core.flagsB) ∨ t.core.flagsB = ~~~t.core.flags

/-- An instruction that writes one general register retires: nothing but that register in both cores, FLAGS, PC and the retired count changes (R311,
R334). FLAGS of `t` are left to the statement that uses this, and a fetch from the flash window is a read of it (R392). -/
def Wrote (rd : Fin 16) (v : Word) (s t : State) : Prop :=
  FlagsPair s t ∧ t = { s.fetched with core := { s.core with
    g := s.core.g.set rd v, gB := s.core.gB.set rd (~~~v), flags := t.core.flags, flagsB := t.core.flagsB, pc := s.core.pc + 4
    retired := s.core.retired + 1, waiting := none } }

/-- An instruction that writes no general register retires at `pc`. -/
def Went (pc : Word) (s t : State) : Prop :=
  FlagsPair s t ∧ t = { s.fetched with core := { s.core with
    flags := t.core.flags, flagsB := t.core.flagsB, pc := pc, retired := s.core.retired + 1, waiting := none } }

/-- An exception was taken (R354): the context is saved, ring 0 continues at the vector, and g0 to g14 and memory are as before. -/
def Took (code detail : Nat) (info : Word) (s t : State) : Prop :=
  t.core.pc = s.sr 38 + BitVec.ofNat 32 (0x40 * code) ∧ t.core.cring = 0 ∧ t.core.flags = 0
  ∧ t.sr 33 = s.core.pc &&& 0xFFFFFFFC ∧ t.sr 34 = s.g 15 &&& 0xFFFFFFFC
  ∧ t.sr 35 = BitVec.ofNat 32 (1 + 2 * s.core.cring + 8 * s.core.flags.toNat) &&& 0xFF
  ∧ t.sr 36 = BitVec.ofNat 32 (code + 256 * detail) &&& 0xFF0F ∧ t.sr 37 = info
  ∧ t.g 15 = (if s.core.cring = 0 then s.g 15 else s.sr 20) ∧ (∀ r : Fin 16, r ≠ 15 → t.g r = s.g r)
  ∧ t.gte.sram = s.gte.sram ∧ t.gte.dram = s.gte.dram

/-- A 32-bit counter one further on, stopping at all ones (R176). -/
def up (w : Word) (n : Nat) : Word := BitVec.ofNat 32 (sat 0xFFFFFFFF (w.toNat + n))

end Sys2Proof.Machine
end

