-- ==== Sys2Proof/Certificates/Slice0/Obligations.lean ====
section
/-! DEFINITION. The statements for the provers. -/

open Sys2Proof Sys2Proof.Machine

/-- A step with a command at the front of the queue is that command on the state with the queue's rest; on an empty queue the state stays as it is (the model's choice, log entry 61); every command, whatever its operands, answers a next state in every state. (95_what_each_step_holds.md) -/
def Obligations.StepRunsFront : Prop :=
  (∀ (c : Instr) (rest : List Instr) (s : State), s.pending = c :: rest → step s = exec c { s with pending := rest })
  ∧ (∀ s : State, s.pending = [] → step s = .next s)
  ∧ ∀ (c : Instr) (s : State), ∃ t, exec c s = .next t

/-- SHIP_FUSE_BLOW blows the fuse in FACTORY and nowhere else; POWER_ON begins stage 0 with the cause shown, custody SRAM and cores at reset and keeper power's count kept, in ZEROIZED when the keeper record is missing; POWER_FAIL leaves the main bank without keys; KEEPER_POWER_LOSS empties the keeper bank, with the incarnation of a slot that held a key one higher, and the keeper records; a lockstep mismatch is captured and counted and resets the custody cores, the third within 60 s zeroizes; an injection counts from the boot ROM alone; ring 0 disables the ROM. (R33, R41, R43, R313, R336, R337, R529, R531, R587, 02_modes_and_startup.md) -/
def Obligations.PowerAndLockstep : Prop :=
  (∀ s : State,
    (s.sys.mode = .factory → s.sys.shipFuse = false → ∃ t, exec .shipFuseBlow s = .next t ∧ t.sys = { s.sys with shipFuse := true, l0Fused := true }
      ∧ t.bitOf Reg.TPR_STATUS 3 = true ∧ t.keys = s.keys ∧ t.host = s.host)
    ∧ (s.sys.mode ≠ .factory → exec .shipFuseBlow s = .next s))
  ∧ (∀ (off : Nat) (addr : Fin 4) (s : State), s.sys.mainPower = false →
    ∃ t, exec (.powerOn off addr) s = .next t ∧ t.sys.mainPower = true ∧ t.sys.starts = s.sys.starts + 1 ∧ t.tim.keeperNs = s.tim.keeperNs + off
      ∧ t.pin.smbAddr = addr ∧ t.gte.sram = [] ∧ t.core = CoreState.reset ∧ t.host.queues = [] ∧ t.mrs = []
      ∧ t.fld Reg.SYS_RESET_CAUSE 6 0 = 1 ∧ t.fld Reg.SYS_BOOT_STAGE 3 0 = 0 ∧ t.bitOf Reg.CUS_BOOT 0 = true
      ∧ t.sys.shipFuse = s.sys.shipFuse
      ∧ (s.sys.keeperRecord = true → t.sys.mode = s.sys.mode)
      ∧ (s.sys.keeperRecord = false → s.sys.keeperInit = true → t.sys.mode = .zeroized ∧ t.sys.keeperZeroized = true ∧ t.sys.keeperRecord = true
        ∧ t.bitOf Reg.SYS_RESET_CAUSE 8 = true))
  ∧ (∀ (levels : BitVec 8) (s : State), s.sys.mainPower = true →
    ∃ t, exec (.powerFail levels) s = .next t ∧ t.sys.mainPower = false ∧ t.host.linkUp = false ∧ t.gte.sram = [] ∧ t.core = CoreState.reset
      ∧ t.tpr.window = none ∧ (∀ n, 64 ≤ n → (t.slot n).state = 0 ∧ (t.slot n).shareA = 0 ∧ (t.slot n).shareB = 0)
      ∧ (s.tpr.window = none → t.sys.mode = s.sys.mode ∧ ∀ n, n < 64 → (t.slot n).key = (s.slot n).key))
  ∧ (∀ s : State, s.sys.mainPower = false →
    ∃ t, exec .keeperPowerLoss s = .next t ∧ t.sys.keeperRecord = false ∧ t.sys.keeperZeroized = false ∧ t.tpr.log = [] ∧ t.tpr.zeroEvents = []
      ∧ t.tim.keeperNs = 0 ∧ t.ldg.lastRoot = 0 ∧ t.keys.l0gen = 0 ∧ (∀ n, n < 64 → (t.slot n).state = 0 ∧ (t.slot n).shareA = 0
        ∧ (t.slot n).shareB = 0 ∧ ((s.slot n).state ≠ 0 → ((s.slot n).incarn + 1) % 256 ≠ 0 → (t.slot n).incarn = ((s.slot n).incarn + 1) % 256))
      ∧ t.rd Reg.TPR_CFG = 0 ∧ t.sys.mode = s.sys.mode ∧ t.sys.keeperInit = s.sys.keeperInit ∧ t.keys.store = s.keys.store ∧ t.ldg.journal = s.ldg.journal)
  ∧ (∀ (groups : BitVec 5) (pc : Word) (held : Fin 3) (env : BusEnv) (s : State), s.sys.mainPower = true → s.sys.cusInReset = false →
    s.pin.resetLow = false → s.core.stopped = false → groups ≠ 0 →
    let u := deliverLeft held env (captureMismatch groups pc s)
    (3 ≤ u.sys.lockstep.length → u.zeroizable = true → exec (.lockstepMismatch groups ⟨pc, held, env⟩) s = .next (detect 0x0B 0 u))
    ∧ (u.sys.lockstep.length < 3 ∨ u.zeroizable = false → u.stillRuns = true →
      exec (.lockstepMismatch groups ⟨pc, held, env⟩) s = .next (custodyReset 3 u))
    ∧ (u.sys.lockstep.length < 3 ∨ u.zeroizable = false → u.stillRuns = false →
      exec (.lockstepMismatch groups ⟨pc, held, env⟩) s = .next (u.wrB Reg.SYS_RESET_CAUSE 3 true)))
  ∧ (∀ (groups : BitVec 5) (pc : Word) (held : Fin 3) (env : BusEnv) (s : State), s.sys.mainPower = true → s.sys.cusInReset = false →
    s.pin.resetLow = false → s.core.stopped = false → groups ≠ 0 → s.core.posted.length ≤ held.val → (s.zeroizable = true → s.tpr.zero = none) →
    ∃ t, exec (.lockstepMismatch groups ⟨pc, held, env⟩) s = .next t ∧ t.rd Reg.CUS_LS_LAST_PC = pc ∧ t.rd Reg.CUS_LS_LAST_GRP = groups.setWidth 32
      ∧ t.rd Reg.CUS_LS_TOTAL = up (s.rd Reg.CUS_LS_TOTAL) 1 ∧ t.sys.lockstep = s.mismatches ++ [s.tim.keeperNs] ∧ t.sys.cusInReset = true
      ∧ t.gte.sram = []
      ∧ (s.mismatches.length < 2 → t.bitOf Reg.SYS_RESET_CAUSE 3 = true ∧ t.core = CoreState.reset ∧ t.sys.mode = s.sys.mode)
      ∧ (2 ≤ s.mismatches.length → s.zeroizable = true → t.sys.mode = .zeroized ∧ t.tpr.zero.isSome = true))
  ∧ (∀ (dt : Nat) (s : State), ∃ t, exec (.lockstepMismatchAgeout dt) s = .next t
    ∧ t.sys = { (s.advance dt).sys with lockstep := (s.advance dt).mismatches } ∧ t.regs = (s.advance dt).regs)
  ∧ (∀ (ring : Fin 4) (value : Word) (s : State),
    (s.bitOf Reg.CUS_BOOT 0 = true → bits value 31 16 = 0x1C5A → bits value 2 0 ≤ 4 →
      ∃ t, exec (.lockstepTestInject true ring value) s = .next t ∧ t.bitOf Reg.CUS_LS_TSTAT (bits value 2 0) = true
        ∧ (∀ g, g < 5 → g ≠ bits value 2 0 → t.bitOf Reg.CUS_LS_TSTAT g = s.bitOf Reg.CUS_LS_TSTAT g)
        ∧ (t.fld Reg.CUS_LS_TSTAT 4 0 = 0x1F → t.bitOf Reg.CUS_STATUS 0 = true) ∧ t.sys = s.sys ∧ t.core = s.core)
    ∧ (s.bitOf Reg.CUS_BOOT 0 = false → exec (.lockstepTestInject true ring value) s = .next s)
    ∧ (∃ t, exec (.lockstepTestInject false ring value) s = .next t ∧ t.rd Reg.CUS_LS_TSTAT = s.rd Reg.CUS_LS_TSTAT
      ∧ t.rd Reg.GTE_VIO_COUNT = up (s.rd Reg.GTE_VIO_COUNT) 1))
  ∧ (∀ (ring : Fin 4) (s : State),
    (ring = 0 → ∃ t, exec (.romDisable ring) s = .next t ∧ t.bitOf Reg.CUS_BOOT 0 = false ∧ t.bitOf Reg.CUS_STATUS 1 = true ∧ t.core = s.core)
    ∧ (ring ≠ 0 → ∃ t, exec (.romDisable ring) s = .next t ∧ t.rd Reg.CUS_BOOT = s.rd Reg.CUS_BOOT
      ∧ t.rd Reg.GTE_VIO_COUNT = up (s.rd Reg.GTE_VIO_COUNT) 1))

/-- A warm reset, by pin, by SYS_RESET_CTL, by RESET or by a fault in a ledger unit, shows its cause, empties SRAM, queues and measurement registers and keeps the mode; a custody reset holds the cores with SRAM zero and leaves the mode, the tiles and the Ledger's journal; a tile reset holds a tile that is up or failed and leaves the others; a wrong key or another kind does nothing, another ring is refused with a violation record, and RESET while a transition or a ceremony is open fails. CUSTODY_RESET_DONE begins the stages again during the start-up, and later runs the cores again or halts, ending the outstanding commands; TILE_RELEASE raises a held tile or marks it failed. That a fault in a ledger unit shows WARM_CMD is the model's choice (log entry 310). (R41, R42, R44, R58, R60, R61, R93, R596, 02_modes_and_startup.md) -/
def Obligations.ResetsAndTheirEnd : Prop :=
  let warm (s t : State) (cause : Nat) : Prop := t.fld Reg.SYS_RESET_CAUSE 6 0 = 2 ^ cause ∧ t.gte.sram = [] ∧ t.host.queues = [] ∧ t.mrs = []
    ∧ t.core = CoreState.reset ∧ t.sys.mode = s.sys.mode ∧ t.sys.cusInReset = false ∧ t.sys.shipFuse = s.sys.shipFuse ∧ t.host.rrs = true
    ∧ t.fld Reg.SYS_BOOT_STAGE 3 0 = 0 ∧ ∀ k, k < 4 → t.tileCond k = .held
  let cus (s t : State) (cause : Nat) : Prop := t.bitOf Reg.SYS_RESET_CAUSE cause = true ∧ t.sys.cusInReset = true ∧ t.gte.sram = []
    ∧ t.core = CoreState.reset ∧ t.sys.mode = s.sys.mode ∧ t.sys.tiles = s.sys.tiles ∧ t.ldg.journal = s.ldg.journal ∧ t.keys.slots = s.keys.slots
  let tile (s t : State) (n : Nat) : Prop := t.bitOf Reg.SYS_RESET_CAUSE 6 = true ∧ t.tileCond n = .held ∧ (∀ k, k ≠ n → t.tileCond k = s.tileCond k)
    ∧ t.sys.mode = s.sys.mode ∧ t.core = s.core ∧ t.gte.sram = s.gte.sram
  let refused (s t : State) : Prop := t.sys = s.sys ∧ t.core = s.core ∧ t.rd Reg.GTE_VIO_COUNT = up (s.rd Reg.GTE_VIO_COUNT) 1
  (∀ (low : Bool) (s : State), s.sys.mainPower = false → exec (.warmResetPin low) s = .next s)
  ∧ (∀ s : State, s.sys.mainPower = true →
    (∃ t, exec (.warmResetPin true) s = .next t ∧ warm s t 1 ∧ t.pin.resetLow = true)
    ∧ (∃ t, exec (.warmResetPin false) s = .next t ∧ t.pin.resetLow = false ∧ t.pin.boundary = 0 ∧ t.regs = s.regs ∧ t.sys = s.sys
      ∧ t.pin.tapIr = (if s.pin.tapIr = 0x00 ∨ s.pin.tapIr = 0x03 ∨ s.pin.tapIr = 0x04 then 0xFF else s.pin.tapIr)))
  ∧ (∀ (ring : Fin 4) (value : Word) (s : State),
    let asked (kind : Nat) : Prop := bits value 31 16 = 0x5A17 ∧ bits value 1 0 = kind
    let n := bits value 5 4
    (ring = 0 →
      (asked 1 → ∃ t, exec (.sysResetCtlWarm ring value) s = .next t ∧ warm s t 2)
      ∧ (¬ asked 1 → exec (.sysResetCtlWarm ring value) s = .next s)
      ∧ (asked 2 → ∃ t, exec (.sysResetCtlCustody ring value) s = .next t ∧ cus s t 4)
      ∧ (¬ asked 2 → exec (.sysResetCtlCustody ring value) s = .next s)
      ∧ (asked 3 → s.tileCond n ≠ .held → ∃ t, exec (.sysResetCtlTile ring value) s = .next t ∧ tile s t n)
      ∧ (¬ asked 3 ∨ s.tileCond n = .held → exec (.sysResetCtlTile ring value) s = .next s))
    ∧ (ring ≠ 0 → (∃ t, exec (.sysResetCtlWarm ring value) s = .next t ∧ refused s t) ∧ (∃ t, exec (.sysResetCtlCustody ring value) s = .next t ∧ refused s t)
      ∧ (∃ t, exec (.sysResetCtlTile ring value) s = .next t ∧ refused s t)))
  ∧ (∀ (n : Fin 4) (ledger : Bool) (s : State), s.tileCond n ≠ .up → exec (.uncorrectableTileFault n ledger) s = .next s)
  ∧ (∀ (n : Fin 4) (s : State), s.tileCond n = .up →
    (∃ t, exec (.uncorrectableTileFault n true) s = .next t ∧ warm s t 2) ∧ (∃ t, exec (.uncorrectableTileFault n false) s = .next t ∧ tile s t n))
  ∧ (∀ (c : HostCmd) (kind n : BitVec 8) (s : State), Runs s 0x0120 c →
    let k := if c.expert then kind.toNat else c.profile.toNat + 1
    let idle : Prop := s.busy = false ∧ s.cer.phase = .idle
    (k = 1 → idle → ∃ t, exec (.reset c kind n) s = .next t ∧ warm s t 2)
    ∧ (k = 2 → idle → ∃ t, exec (.reset c kind n) s = .next t ∧ cus s t 4)
    ∧ (k = 1 ∨ k = 2 → ¬ idle → ∃ t, exec (.reset c kind n) s = .next t ∧ t = finalReply c.ref 0x2104 [] 0 s)
    ∧ (k = 3 → n.toNat < 4 → s.tileCond n.toNat ≠ .held → ∃ t, exec (.reset c kind n) s = .next t ∧ tile s t n.toNat)
    ∧ (k = 3 → n.toNat < 4 → s.tileCond n.toNat = .held → ∃ t, exec (.reset c kind n) s = .next t
      ∧ t = finalReply c.ref 0 [] 0 (interimReply c.ref 0x0101 s))
    ∧ (k = 0 ∨ 3 < k ∨ (k = 3 ∧ 3 < n.toNat) → ∃ t, exec (.reset c kind n) s = .next t ∧ t = finalReply c.ref 0x1102 [] 0 s))
  ∧ (∀ (detected : BitVec 5) (s : State),
    let ends : Prop := s.sys.mainPower = true ∧ s.sys.cusInReset = true ∧ s.tpr.zero = none ∧ s.bitOf Reg.TPR_STATUS 1 = false ∧ s.pin.resetLow = false
    let i : Instr := .custodyResetDone detected
    let u : State := { s.wrB Reg.FSH_CTL 0 false with sys := { s.sys with cusInReset := false } }
    let v := scanFlash (lockstepTested detected.toNat u)
    let started : Prop := 3 ≤ s.fld Reg.SYS_BOOT_STAGE 3 0 ∧ s.bitOf Reg.SYS_BOOT_STAGE 4 = false
    let loaded (b : Nat) : State := loadFirmware (v.wrF Reg.UPD_BANK 5 5 b)
    (¬ ends → exec i s = .next s)
    ∧ (ends → ¬ started → ∃ t, exec i s = .next t ∧ t.sys = u.sys ∧ t.host = s.host ∧ t.fld Reg.SYS_BOOT_STAGE 3 0 = 0
      ∧ t.bitOf Reg.SYS_BOOT_STAGE 4 = false ∧ t.fld Reg.SYS_BOOT_STAGE 15 8 = 0)
    ∧ (ends → started → v.bitOf Reg.CUS_STATUS 0 = false → ∃ t, exec i s = .next t ∧ t = haltBoot 0x04 v)
    ∧ (ends → started → v.bitOf Reg.CUS_STATUS 0 = true →
      (∀ e, v.bootBank = .error e → ∃ t, exec i s = .next t ∧ t = haltBoot e v)
      ∧ (∀ b, v.bootBank = .ok b → (loaded b).sys.recovery = true → ∃ t, exec i s = .next t ∧ t = loaded b)
      ∧ (∀ b, v.bootBank = .ok b → (loaded b).sys.recovery = false →
        ∃ t, exec i s = .next t ∧ t.sys.cusInReset = false ∧ t.fld Reg.SYS_BOOT_STAGE 3 0 = s.fld Reg.SYS_BOOT_STAGE 3 0
          ∧ t.host.rrs = false ∧ t.bitOf Reg.DIG_MR_LOCK 0 = true
          ∧ ((∀ e ∈ s.host.queues, e.2.stalled = [] ∧ e.2.outstanding.length + e.2.backlog.length ≤ 64) → ∀ k, (t.queue k).outstanding = []))))
  ∧ (∀ (n : Fin 4) (pass : Bool) (engines : List (Fin 1152)) (units : List (Fin 68)) (s : State),
    s.sys.mainPower = false ∨ s.tileCond n ≠ .held ∨ s.fld Reg.SYS_BOOT_STAGE 3 0 < 5 → exec (.tileRelease n pass engines units) s = .next s)
  ∧ (∀ (n : Fin 4) (engines : List (Fin 1152)) (units : List (Fin 68)) (s : State), s.sys.mainPower = true → s.tileCond n = .held →
    5 ≤ s.fld Reg.SYS_BOOT_STAGE 3 0 →
    (∃ t, exec (.tileRelease n true engines units) s = .next t ∧ t.tileCond n = .up ∧ (∀ k, k ≠ n.val → t.tileCond k = s.tileCond k)
      ∧ t.sys.mode = s.sys.mode ∧ t.bitOf (Reg.TRM_LOCK n) 0 = true)
    ∧ (∃ t, exec (.tileRelease n false engines units) s = .next t ∧ t.tileCond n = .failed ∧ t.bitOf Reg.SYS_STATUS (8 + n.val) = true
      ∧ (∀ k, k ≠ n.val → t.tileCond k = s.tileCond k)))

/-- A stage that is not in progress does nothing. Stage 0 halts with its error code, goes on while the noise sources are tested, or selects the bank and goes on to stage 1, with the first keeper record written once the ship fuse is blown; stage 1 measures what it loads, or enters recovery; stage 2 writes the binding table, locks the blocks and exposes the host interface; stage 3 raises the tiles that load; stage 4 takes out what fails its test; stage 5 selects the mode and starts the Ledger outside FACTORY; stage 6 begins the seal check of a chartered start; stage 7 waits for that check, releases ports and takes a held device to MAINTENANCE. (R39, R46, R47, R52, R77, R298, R396, R467, R475, R480, R515, 02_modes_and_startup.md) -/
def Obligations.StartUpStages : Prop :=
  (∀ (detected : BitVec 5) (mv : BitVec 16) (s : State), s.atStage 0 = true →
    let u := scanFlash (energyTest mv.toNat (lockstepTested detected.toNat s))
    (u.bitOf Reg.CUS_STATUS 0 = false → ∃ t, exec (.bootStage0 detected mv) s = .next t ∧ t = haltBoot 0x04 u ∧ t.core.stopped = true)
    ∧ (u.bitOf Reg.CUS_STATUS 0 = true → 2 ≤ ((List.range 3).filter (fun n => (u.noise n).stat == 3)).length →
      ∃ t, exec (.bootStage0 detected mv) s = .next t ∧ t = haltBoot 0x05 u)
    ∧ (u.bitOf Reg.CUS_STATUS 0 = true → ((List.range 3).filter (fun n => (u.noise n).stat == 3)).length < 2 →
      (u.rngReady = false → u.sourcesPassed < 2 ∨ instantiateDrbg u = none → ∃ t, exec (.bootStage0 detected mv) s = .next t ∧ t = u)
      ∧ (∀ w, (u.rngReady = true ∧ w = u) ∨ (u.rngReady = false ∧ 2 ≤ u.sourcesPassed ∧ (instantiateDrbg u).map startKeys = some w) →
        (∀ e, (bankAtStart (loadTime w)).bootBank = .error e → ∃ t, exec (.bootStage0 detected mv) s = .next t ∧ t.core.stopped = true
          ∧ t.bitOf Reg.SYS_BOOT_STAGE 4 = true ∧ t.fld Reg.SYS_BOOT_STAGE 15 8 = e ∧ t.fld Reg.SYS_BOOT_STAGE 3 0 = 0)
        ∧ (∀ b, (bankAtStart (loadTime w)).bootBank = .ok b → ∃ t, exec (.bootStage0 detected mv) s = .next t ∧ t.fld Reg.SYS_BOOT_STAGE 3 0 = 1
          ∧ t.runningBank = b ∧ t.core = s.core
          ∧ (s.sys.shipFuse = true → s.sys.keeperInit = false → t.sys.mode = .notary ∧ t.sys.keeperInit = true ∧ t.sys.keeperRecord = true
            ∧ t.keys.l0gen = s.keys.l0gen + 1)
          ∧ (s.sys.shipFuse = false ∨ s.sys.keeperInit = true → t.sys = s.sys)))))
  ∧ (∀ s : State, s.atStage 1 = true →
    let e := eraseIncomplete (disableRom s)
    let u := showCode (e.stage1Code (e.fld Reg.UPD_BANK 5 5)) e
    (u.firmwareBank = none → ∃ t, exec .bootStage1 s = .next t ∧ t = endCommands 0x4101 (enterRecovery 1 0x14 u))
    ∧ (∀ b, u.firmwareBank = some b → ∃ t, exec .bootStage1 s = .next t ∧ t.fld Reg.SYS_BOOT_STAGE 3 0 = 2 ∧ t.runningBank = b
      ∧ t.bitOf Reg.SYS_STATUS 4 = (b != u.prefBank) ∧ t.bitOf Reg.CUS_BOOT 0 = false ∧ t.bitOf Reg.DIG_MR_LOCK 0 = true
      ∧ t.mr 0 = sha384 (s.mr 0 ++ sha384 (u.imageBody b 1)) ∧ t.mr 1 = sha384 (s.mr 1 ++ sha384 (u.imageBody b 2)) ∧ t.sys = s.sys))
  ∧ (∀ s : State, s.atStage 2 = true →
    (∃ t, exec (.bootStage2 true) s = .next t ∧ t.fld Reg.SYS_BOOT_STAGE 3 0 = 3 ∧ t.host.rrs = false ∧ (∀ a ∈ stageLocks, t.bitOf a 0 = true)
      ∧ (s.sys.mode ≠ .factory → t.bitOf Reg.FSH_CTL 0 = true) ∧ t.sys = s.sys
      ∧ (s.bitOf Reg.MBX_LOCK 0 = false → ∀ k, k < 588 → t.rd (Reg.MBX_BIND_LO k) = (bindEntry k).1 ∧ t.rd (Reg.MBX_BIND_HI k) = (bindEntry k).2))
    ∧ (∃ t, exec (.bootStage2 false) s = .next t ∧ t.sys.recovery = true ∧ t.host.rrs = false ∧ t.bitOf Reg.SYS_BOOT_STAGE 4 = true
      ∧ t.bitOf Reg.FSH_CTL 0 = false ∧ t.sys.mode = s.sys.mode))
  ∧ (∀ (acks loaded : BitVec 4) (s : State), s.atStage 3 = true →
    (s.tileImages = none → ∃ t, exec (.bootStage3 acks loaded) s = .next t ∧ t.fld Reg.SYS_BOOT_STAGE 3 0 = 4 ∧ t.pin.noAck = ~~~acks
      ∧ (∀ n, n < 4 → t.tileCond n = (if loaded.getLsbD n then .up else .failed) ∧ t.bitOf Reg.SYS_STATUS (8 + n) = !loaded.getLsbD n)
      ∧ (∀ k, k < 3 → t.mr (8 + k) = sha384 (s.mr (8 + k) ++ sha384 (s.imageBody s.runningBank (3 + k)))) ∧ t.bitOf Reg.DIG_MR_LOCK 1 = true)
    ∧ (∀ e, s.tileImages = some e → ∃ t, exec (.bootStage3 acks loaded) s = .next t ∧ (∀ n, n < 4 → t.tileCond n = .failed)
      ∧ t.fld Reg.SYS_BOOT_STAGE 15 8 = e ∧ t.mrs = s.mrs))
  ∧ (∀ (engines : List (Fin 1152)) (units : List (Fin 68)) (custody : List (Fin 8)) (mint : Bool) (leaf : List (Fin 64)) (s : State), s.atStage 4 = true →
    ∃ t, exec (.bootStage4 engines units custody mint leaf) s = .next t ∧ t.fld Reg.SYS_BOOT_STAGE 3 0 = 5 ∧ t.sys.tiles = s.sys.tiles
      ∧ t.sys.mode = s.sys.mode ∧ (∀ e ∈ engines, s.tileCond (engineCluster e.val / 16) = .up → t.engineBad e.val = true)
      ∧ (∀ n ∈ custody, (t.pkeUnit n.val).stat = 3)
      ∧ (s.bitOf Reg.MNT_STATUS 5 = false ∨ s.keys.mintRetest = true → t.bitOf Reg.MNT_STATUS 4 = mint))
  ∧ (∀ s : State, s.atStage 5 = true →
    (∃ t, exec (.bootStage5 false) s = .next t ∧ t = enterRecovery 5 0x20 s)
    ∧ (let u := holdCalibration (loadCalibration (loadConfig (if s.sys.keeperZeroized then s else restoreBank s)))
      u.cer.phase = .idle →
      ∃ t, exec (.bootStage5 true) s = .next t ∧ t.fld Reg.SYS_BOOT_STAGE 3 0 = 6 ∧ (s.sys.shipFuse = true → t.ldg.started = true) ∧ t.sys.prevMode = u.sys.mode
        ∧ t.sys.mode = (if !s.sys.shipFuse then .factory else if s.sys.keeperZeroized then .zeroized else if !u.anyCharter then .notary
          else if u.held || !s.sys.maintStored.isEmpty then .maintenance else .service)))
  ∧ (∀ s : State, s.atStage 6 = true → ∃ t, exec .bootStage6 s = .next t ∧ t.fld Reg.SYS_BOOT_STAGE 3 0 = 7 ∧ t.sys = s.sys
    ∧ (s.chartered = true → t.nfr.check.isSome = true) ∧ (s.chartered = false → t.nfr = s.nfr))
  ∧ (∀ (detected : BitVec 5) (mv : BitVec 16) (pass mint : Bool) (acks loaded : BitVec 4) (engines : List (Fin 1152)) (units : List (Fin 68))
      (custody : List (Fin 8)) (leaf : List (Fin 64)) (s : State),
    let idle (k : Nat) (i : Instr) : Prop := s.atStage k = false → exec i s = .next s
    idle 0 (.bootStage0 detected mv) ∧ idle 1 .bootStage1 ∧ idle 2 (.bootStage2 pass) ∧ idle 3 (.bootStage3 acks loaded)
    ∧ idle 4 (.bootStage4 engines units custody mint leaf) ∧ idle 5 (.bootStage5 pass) ∧ idle 6 .bootStage6 ∧ idle 7 .bootStage7
    ∧ (s.nfr.check.isSome = true → exec .bootStage7 s = .next s))
  ∧ (∀ s : State, s.atStage 7 = true → s.nfr.check = none →
    ∃ t, exec .bootStage7 s = .next t ∧ t.fld Reg.SYS_BOOT_STAGE 3 0 = 0xF
      ∧ (s.chartered = false → t.sys = s.sys)
      ∧ (s.plane = .notary → ∀ p, p < 512 → s.bitOf (Reg.PRT_CTL p) 0 = true → t.bitOf (Reg.PRT_CTL p) 1 = true)
      ∧ (s.chartered = true → s.held = true → s.sys.mode = .service → t.sys.mode = .maintenance ∧ t.sys.maint = MaintSet.all))

/-- A request of a listed transition makes SYS_MODE.BUSY 1 until MODE_COMMIT commits it, which changes the mode, the previous mode and the maintenance set and completes its command; one not listed sets error 0x21. ENTER_MAINTENANCE and EXIT_MAINTENANCE request the sets they name, an exit to SERVICE fails while a hold reason is present; GET_STATUS and GET_IDENTITY are answered at once. (R33, R34, R36, R58, R59, R62, R249, R615, 02_modes_and_startup.md) -/
def Obligations.ModesAndStatus : Prop :=
  (∀ (m : PendingMode) (s : State), s.sys.pend = some m →
    ∃ t, exec .modeCommit s = .next t ∧ t.sys.mode = m.target ∧ t.sys.prevMode = s.sys.mode ∧ t.sys.maint = m.set ∧ t.sys.maintStored = m.set
      ∧ t.sys.pend = none ∧ t.sys.keeperRecord = true ∧ t.sys.shipFuse = s.sys.shipFuse ∧ t.gte = s.gte ∧ t.core = s.core
      ∧ (m.target = .ceremony ∨ m.target = .zeroized → s.ldg.evq.length < 4096 → s.ldg.evHeld = [] →
        t.ldg.evq = s.ldg.evq ++ [⟨0x0003, eventBody s 0x0003 (srcMaster 0) 0xFFFF
          (be 1 s.sys.mode.code ++ be 1 m.target.code ++ [0, 0] ++ sha256 m.set.image ++ zeros 4), true⟩])
      ∧ (∀ r, m.cmd = some r → (s.queue (qkey r.fn r.queue)).orphan r.ident = false → (s.queue (qkey r.fn r.queue)).backlog.length < 64 →
        s.ldg.heldReplies = [] →
        ∀ o ∈ (t.queue (qkey r.fn r.queue)).outstanding, o.ident ≠ r.ident))
  ∧ (∀ (value : Word) (s : State),
    let u := s.wr Reg.SYS_MODE_REQ (value &&& 7)
    (s.busy = false →
      (s.sys.mode = .service ∨ s.sys.mode = .maintenance → bits value 2 0 = Mode.maintenance.code →
        ∃ t, exec (.sysModeReqWrite value) s = .next t ∧ t = { u with sys := { s.sys with pend := some ⟨.maintenance, MaintSet.all, none⟩ } })
      ∧ (s.sys.mode = .maintenance → s.held = false → bits value 2 0 = Mode.service.code →
        ∃ t, exec (.sysModeReqWrite value) s = .next t ∧ t = { u with sys := { s.sys with pend := some ⟨.service, MaintSet.empty, none⟩ } })
      ∧ (s.sys.mode = .notary ∨ s.sys.mode = .maintenance ∨ s.sys.mode = .zeroized → bits value 2 0 = Mode.ceremony.code →
        ∃ t, exec (.sysModeReqWrite value) s = .next t ∧ t = openCeremony 0 none u)
      ∧ (s.sys.mode = .ceremony → s.cer.phase = .opened → bits value 2 0 = s.closeMode.1.code →
        ∃ t, exec (.sysModeReqWrite value) s = .next t ∧ t = beginClose none u)
      ∧ (s.sys.mode = .ceremony → s.cer.phase = .opened → s.cer.openedFrom ≠ s.closeMode.1 → s.cer.openedFrom ≠ .zeroized →
        bits value 2 0 = s.cer.openedFrom.code → ∃ t, exec (.sysModeReqWrite value) s = .next t ∧ t = beginRestore none u))
    ∧ (s.busy = true → bits value 2 0 ≠ Mode.zeroized.code → ∃ t, exec (.sysModeReqWrite value) s = .next t ∧ t.sys = s.sys ∧ t.cer = s.cer
      ∧ t.rd Reg.SYS_MODE_REQ = value &&& 7)
    ∧ (bits value 2 0 = Mode.zeroized.code → s.zeroizable = true → ∃ t, exec (.sysModeReqWrite value) s = .next t ∧ t = zeroize 2 0 0 [] u)
    ∧ ((Mode.ofCode (bits value 2 0)).bind s.requestedMode = none → ∃ t, exec (.sysModeReqWrite value) s = .next t
      ∧ t.fld Reg.SYS_BOOT_STAGE 15 8 = 0x21 ∧ t.rd Reg.SYS_MODE_REQ = value &&& 7 ∧ t.sys = s.sys))
  ∧ (∀ s : State, (s.sys.mode ≠ .ceremony ∨ s.cer.openedFrom ≠ .factory → s.requestedMode .factory = none)
    ∧ (s.held = true → s.sys.mode = .maintenance → s.requestedMode .service = none)
    ∧ (s.sys.mode = .factory ∨ s.sys.mode = .zeroized → s.requestedMode .zeroized = none))
  ∧ (∀ (c : HostCmd) (selector : BitVec 8) (s : State), Runs s 0x0101 c →
    let base := [s.modeWord, s.statusWord, s.rd Reg.SYS_HOLD, s.rd Reg.SYS_BOOT_STAGE, s.rd Reg.SYS_RESET_CAUSE].flatMap (fun w => be 4 w.toNat)
      ++ s.sys.maint.image
    (c.expert = false → ∃ t, exec (.getStatus c selector) s = .next t ∧ t = finalReply c.ref 0 base 0 s)
    ∧ (c.expert = true → selector.toNat ≤ 64 → ∃ t, exec (.getStatus c selector) s = .next t
      ∧ t = finalReply c.ref 0 (base ++ s.tallySnapshot selector.toNat) 0 s)
    ∧ (c.expert = true → 64 < selector.toNat → ∃ t, exec (.getStatus c selector) s = .next t ∧ t = finalReply c.ref 0x1F02 [] 0 s))
  ∧ (∀ (c : HostCmd) (nonce : Bytes) (s : State), Runs s 0x0102 c →
    (c.expert = false → ∃ t, exec (.getIdentity c nonce) s = .next t ∧ t = finalReply c.ref 0 (idPublic ++ s.keys.certificate) 0 s)
    ∧ (c.expert = true → nonce.length ≠ 32 → ∃ t, exec (.getIdentity c nonce) s = .next t ∧ t = finalReply c.ref 0x1F02 [] 0 s)
    ∧ (c.expert = true → nonce.length = 32 → ∃ t, exec (.getIdentity c nonce) s = .next t
      ∧ t = finalReply c.ref 0 (identityStatement nonce s ++ (signStatement (identityStatement nonce s) s).1) 0
        (signStatement (identityStatement nonce s) s).2))
  ∧ (∀ (c : HostCmd) (map : BitVec 512) (s : State), Runs s 0x0110 c →
    (maintCheck c map s = none → ∃ t u, exec (.enterMaintenance c map) s = .next t ∧ t = interimReply c.ref 0x0101 u
      ∧ u = { s with sys := { s.sys with pend := some ⟨.maintenance, s.sys.maint.add c.fn (maintNamed c map), some c.ref⟩ } })
    ∧ (∀ st, maintCheck c map s = some st → ∃ t, exec (.enterMaintenance c map) s = .next t ∧ t = finalReply c.ref st [] 0 s))
  ∧ (∀ (c : HostCmd) (map : BitVec 512) (s : State), Runs s 0x0111 c → maintCheck c map s = none →
    (c.fn.val ≠ 0 → c.expert = false → s.sys.maint.byPf c.own = true → ∃ t, exec (.exitMaintenance c map) s = .next t ∧ t = finalReply c.ref 0x2103 [] 0 s)
    ∧ (c.fn.val = 0 ∨ s.sys.maint.byPf c.own = false →
    let set := s.sys.maint.remove (maintNamed c map) s.tenantMap
    (set.isEmpty = false → ∃ t u, exec (.exitMaintenance c map) s = .next t ∧ t = interimReply c.ref 0x0101 u
      ∧ u = { s with sys := { s.sys with pend := some ⟨.maintenance, set, some c.ref⟩ } })
    ∧ (set.isEmpty = true → s.held = false → ∃ t u, exec (.exitMaintenance c map) s = .next t ∧ t = interimReply c.ref 0x0101 u
      ∧ u = { s with sys := { s.sys with pend := some ⟨.service, MaintSet.empty, some c.ref⟩ } })
    ∧ (set.isEmpty = true → s.held = true → ∃ t, exec (.exitMaintenance c map) s = .next t ∧ t = finalReply c.ref 0x2102 [] 0 s)))

/-- When the host reaches BAR0 and the channel accepts entries, SQ_TAIL_DOORBELL and CQ_HEAD_DOORBELL append one entry with the value in [15:0], the kind in [16] and the function in [41:32], and MBX_DB_SHADOW holds the value. (R76) -/
def Obligations.DoorbellEntersMailbox : Prop :=
  ∀ (fn : Fin 513) (queue : Fin 8) (value : BitVec 16) (stream : Option (Fin 8)) (s : State),
    s.hostUp = true → queueExists fn queue = true → s.ideOk fn stream = true →
    let k := channelOf fn queue
    (s.bound k = true ∧ s.bitOf Reg.MBX_CTL 0 = true ∧ (s.fifo k).length < 8 →
      (∃ t, exec (.sqTailDoorbell fn queue value stream) s = .next t
        ∧ t.fifo k = s.fifo k ++ [BitVec.ofNat 64 (value.toNat + 2 ^ 32 * fn.val)]
        ∧ t.fld (Reg.MBX_DB_SHADOW k) 15 0 = value.toNat)
      ∧ (∃ t, exec (.cqHeadDoorbell fn queue value stream) s = .next t
        ∧ t.fifo k = s.fifo k ++ [BitVec.ofNat 64 (value.toNat + 2 ^ 16 + 2 ^ 32 * fn.val)]
        ∧ t.fld (Reg.MBX_DB_SHADOW k) 31 16 = value.toNat))
    ∧ (¬ (s.bound k = true ∧ s.bitOf Reg.MBX_CTL 0 = true ∧ (s.fifo k).length < 8) →
      (∃ t, exec (.sqTailDoorbell fn queue value stream) s = .next t
        ∧ t.fifo k = s.fifo k ∧ t.fld (Reg.MBX_DB_SHADOW k) 15 0 = value.toNat
        ∧ t.bitOf (Reg.MBX_OVR (k / 32)) (k % 32) = true ∧ (t.queue (qkey fn queue)).dbOvr = true)
      ∧ (∃ t, exec (.cqHeadDoorbell fn queue value stream) s = .next t
        ∧ t.fifo k = s.fifo k ∧ t.fld (Reg.MBX_DB_SHADOW k) 31 16 = value.toNat
        ∧ t.bitOf (Reg.MBX_OVR (k / 32)) (k % 32) = true ∧ (t.queue (qkey fn queue)).dbOvr = true))

/-- MBX_SEND_COMMIT of the bound sender appends the 64 bits it staged and wrote, or sets REFUSED and MBX_OVR when the channel is full or not valid; another sender, or one that has not staged the low word, is refused with its record; MBX_RECV_POP removes the oldest entry and snapshots its high word, or sets EMPTY_READ and pops nothing. (R79, R81, R95, 03_command_interface.md) -/
def Obligations.MailboxesAreFifos : Prop :=
  (∀ (ring : Fin 4) (master : BitVec 11) (colour : BitVec 10) (hi lo : Word) (s : State),
    let k := s.fld Reg.MBX_SEND_SEL 9 0
    let a : Access := ⟨Reg.MBX_SEND_HI, 2, true, ring, master.toNat, colour.toNat⟩
    let region := (s.rgnsAt (gateOf Reg.MBX_SEND_HI) Reg.MBX_SEND_HI).headD 15
    (boundSender s k master.toNat = true → tget (dflt none) s.gte.stages Reg.MBX_SEND_LO = some (master.toNat, lo) →
      (s.bound k = true → (s.fifo k).length < 8 → ∃ t, exec (.mbxSendCommit ⟨ring, master, colour⟩ hi) s = .next t
        ∧ t.fifo k = s.fifo k ++ [BitVec.ofNat 64 (lo.toNat + 2 ^ 32 * hi.toNat)] ∧ (∀ j, j ≠ k → t.fifo j = s.fifo j) ∧ t.regs = s.regs
        ∧ tget (dflt none) t.gte.stages Reg.MBX_SEND_LO = none)
      ∧ (s.bound k = false ∨ 8 ≤ (s.fifo k).length → ∃ t, exec (.mbxSendCommit ⟨ring, master, colour⟩ hi) s = .next t
        ∧ t.host = s.host ∧ t.bitOf Reg.MBX_SEND_STAT 0 = true ∧ t.bitOf (Reg.MBX_OVR (k / 32)) (k % 32) = true))
    ∧ (boundSender s k master.toNat = false → ∃ t, exec (.mbxSendCommit ⟨ring, master, colour⟩ hi) s = .next t ∧ t = violate 0x8 region none a s)
    ∧ (boundSender s k master.toNat = true → (∀ v, tget (dflt none) s.gte.stages Reg.MBX_SEND_LO ≠ some (master.toNat, v)) →
      ∃ t, exec (.mbxSendCommit ⟨ring, master, colour⟩ hi) s = .next t ∧ t = violate 0x9 region none a s))
  ∧ ∀ s : State,
    let k := s.fld Reg.MBX_RECV_SEL 9 0
    (∀ e es, s.fifo k = e :: es → ∃ t, exec .mbxRecvPop s = .next t
      ∧ t.fifo k = es ∧ t.host.recvHi = (e >>> 32).setWidth 32 ∧ t.bitOf Reg.MBX_RECV_STAT 8 = false)
    ∧ (s.fifo k = [] → ∃ t, exec .mbxRecvPop s = .next t
      ∧ t.host = s.host ∧ t.bitOf Reg.MBX_RECV_STAT 8 = true)

/-- QUEUE_ENABLE of a queue that is not live makes it live when its configuration is valid and otherwise sets BAD_CFG with ENABLE at 0; QUEUE_DISABLE of a live queue clears ENABLE and ERROR and leaves neither an outstanding command nor a reply to write, while the commands that run go on; a tail that is not less than the ring size sets BAD_DB and ERROR, and with ERROR set nothing is fetched. (R68) -/
def Obligations.QueueControl : Prop :=
  (∀ (fn : Fin 513) (queue : Fin 8) (ctl : Word) (stream : Option (Fin 8)) (s : State),
    s.hostUp = true → queueExists fn queue = true → s.ideOk fn stream = true →
    let q := s.queue (qkey fn queue)
    (q.live = false → q.cfgOk = true → ∃ t, exec (.queueEnable fn queue ⟨ctl, stream⟩) s = .next t ∧ (t.queue (qkey fn queue)).live = true
      ∧ (t.queue (qkey fn queue)).phase = true ∧ (t.queue (qkey fn queue)).badCfg = q.badCfg ∧ t.regs = s.regs)
    ∧ (q.live = false → q.cfgOk = false → ∃ t, exec (.queueEnable fn queue ⟨ctl, stream⟩) s = .next t ∧ (t.queue (qkey fn queue)).live = false
      ∧ (t.queue (qkey fn queue)).badCfg = true)
    ∧ (q.live = true → ∃ t, exec (.queueEnable fn queue ⟨ctl, stream⟩) s = .next t ∧ (t.queue (qkey fn queue)).live = true
      ∧ (t.queue (qkey fn queue)).outstanding = q.outstanding)
    ∧ (q.live = true → ∃ t, exec (.queueDisable fn queue ⟨ctl, stream⟩) s = .next t ∧ (t.queue (qkey fn queue)).live = false
      ∧ (t.queue (qkey fn queue)).error = false ∧ (t.queue (qkey fn queue)).outstanding = [] ∧ (t.queue (qkey fn queue)).backlog = []
      ∧ (t.queue (qkey fn queue)).stalled = [] ∧ (t.queue (qkey fn queue)).orphans = q.goOn ∧ t.regs = s.regs)
    ∧ (q.live = false → ∃ t, exec (.queueDisable fn queue ⟨ctl, stream⟩) s = .next t ∧ (t.queue (qkey fn queue)).live = false
      ∧ (t.queue (qkey fn queue)).outstanding = q.outstanding))
  ∧ (∀ (q : Queue) (v : Nat), q.live = true → 2 ^ q.sqSize ≤ v → (q.tailTo v).badDb = true ∧ (q.tailTo v).error = true)
  ∧ (∀ (fn : Fin 513) (queue : Fin 8) (entry : Bytes) (dmaOk : Bool) (params : Option Bytes) (named : List Nat) (s : State),
    (s.queue (qkey fn queue)).error = true → exec (.commandFetch fn queue entry dmaOk params named) s = .next s)
  ∧ (∀ (fn : Fin 513) (queue : Fin 8) (entry : Bytes) (params : Option Bytes) (named : List Nat) (s : State),
    s.ready = true → s.queueServed (qkey fn queue) = true →
    ∃ t, exec (.commandFetch fn queue entry false params named) s = .next t
      ∧ (t.queue (qkey fn queue)).dmaErr = true ∧ (t.queue (qkey fn queue)).error = true)

/-- HOST_REGISTER_ACCESS: a write whose payload is not one aligned DW only counts in MBX_HOST_WIDTH, a read of one DW returns the register, a read of more is aborted, MBX_Q_CTL written through it acts as QUEUE_ENABLE or QUEUE_DISABLE, a table entry of BAR2, in the layout of log entry 303 (the model's, PRESUMED), takes its message data, and a request outside the stream that IDE_REQ asks for only counts in MBX_IDE_REJECT, a read being answered with Unsupported Request. (R66, R67, R92) -/
def Obligations.HostRegisterWidth : Prop :=
  ∀ (fn : Fin 513) (bar2 : Bool) (offset : Fin 65536) (value : Word) (dws : Nat) (stream : Option (Fin 8)) (s : State),
    s.hostUp = true →
    (s.ideOk fn stream = true →
      (dws ≠ 1 ∨ offset.val % 4 ≠ 0 → ∃ t, exec (.hostRegisterAccess fn true ⟨bar2, offset⟩ value dws stream) s = .next t
        ∧ t = s.bump Reg.MBX_HOST_WIDTH)
      ∧ (dws ≤ 1 → ∃ t, exec (.hostRegisterAccess fn false ⟨bar2, offset⟩ value dws stream) s = .next t
        ∧ t.host.lastRead = .data (if bar2 then s.bar2 fn offset else s.bar0 fn offset) ∧ t.host.queues = s.host.queues ∧ t.regs = s.regs)
      ∧ (1 < dws → ∃ t, exec (.hostRegisterAccess fn false ⟨bar2, offset⟩ value dws stream) s = .next t ∧ t.host.lastRead = .aborted
        ∧ t.host.queues = s.host.queues ∧ t.regs = s.regs)
      ∧ (∀ queue : Fin 8, queueExists fn queue = true → offset.val = 0x11C + 0x40 * queue.val → dws = 1 →
        exec (.hostRegisterAccess fn true ⟨false, offset⟩ value dws stream) s
          = (if bit value 0 then exec (.queueEnable fn queue ⟨value, stream⟩) s else exec (.queueDisable fn queue ⟨value, stream⟩) s))
      ∧ (∀ v : Fin 64, v.val < vectorsOf fn → offset.val = 16 * v.val + 8 → dws = 1 →
        ∃ t, exec (.hostRegisterAccess fn true ⟨true, offset⟩ value dws stream) s = .next t ∧ t.regs = s.regs ∧ t.host.queues = s.host.queues
          ∧ (t.msix fn v).data = value ∧ (t.msix fn v).addr = (s.msix fn v).addr ∧ (t.msix fn v).masked = (s.msix fn v).masked))
    ∧ (s.ideOk fn stream = false →
      (∃ t, exec (.hostRegisterAccess fn true ⟨bar2, offset⟩ value dws stream) s = .next t ∧ t = s.bump Reg.MBX_IDE_REJECT)
      ∧ (∃ t, exec (.hostRegisterAccess fn false ⟨bar2, offset⟩ value dws stream) s = .next t ∧ t.host.lastRead = .unsupported
        ∧ t.host.queues = s.host.queues ∧ t.rd Reg.MBX_IDE_REJECT = up (s.rd Reg.MBX_IDE_REJECT) 1))

/-- COMMAND_FETCH of a well-formed entry whose identifier is free, whose opcode passes every check and whose function is below its limit takes the entry, advances the submission head and lists the command as WAITING; each failing check posts its own status and lists nothing. (R74, R82, R83) -/
def Obligations.FetchChecks : Prop :=
  ∀ (fn : Fin 513) (queue : Fin 8) (entry : Bytes) (params : Option Bytes) (named : List Nat) (s : State),
    s.ready = true → s.queueServed (qkey fn queue) = true → entry.length = 64 →
    let k := qkey fn queue
    let q := s.queue k
    let ident := field entry 2 2
    let op := field entry 0 2 % 0x8000
    let st := entryStaged fn entry (params.getD [])
    let u := takeEntry k s
    ∃ t, exec (.commandFetch fn queue entry true params named) s = .next t
      ∧ (t.queue k).sqHead = (q.sqHead + 1) % 2 ^ q.sqSize ∧ t.regs = s.regs
      ∧ (entryWellFormed entry fn queue = false → (t.queue k).outstanding = q.outstanding
          ∧ t = putQueue k (q.advanceHead.post ⟨ident, 0x1F02, q.advanceHead.sqHead, queue, false, 0, 0, [], 0⟩) u)
      ∧ (entryWellFormed entry fn queue = true → (q.find ident).isSome = true →
          t = putQueue k (q.advanceHead.post ⟨ident, 0x1F05, q.advanceHead.sqHead, queue, false, 0, 0, [], 0⟩) u)
      ∧ (∀ code, entryWellFormed entry fn queue = true → (q.find ident).isSome = false →
          checkOp s op fn st.expert st.ticket st.profile named params.isSome = some code →
          t = putQueue k (q.advanceHead.post ⟨ident, code, q.advanceHead.sqHead, queue, false, 0, 0, [], 0⟩) u)
      ∧ (entryWellFormed entry fn queue = true → (q.find ident).isSome = false →
          checkOp s op fn st.expert st.ticket st.profile named params.isSome = none → s.outstandingOf fn < outstandingLimit fn →
          (t.queue k).outstanding = q.outstanding ++ [⟨ident, op, nbit (field entry 4 1) 0, .waiting, s.ms, st⟩])

/-- COMMAND_RESERVE starts only the first WAITING command of its queue, a FENCE command only when nothing earlier is outstanding; COMMAND_WATCHDOG completes the oldest WAITING command past the period with 0x3F01; REPLY_WRITE moves the oldest reply of a backlog into a ring with room; INTERRUPT_COALESCE_TIMEOUT signals what is unsignalled. (R70, R72, R84, R85) -/
def Obligations.CommandsStartInRingOrder : Prop :=
  (∀ (fn : Fin 513) (queue : Fin 8) (ident : BitVec 16) (s : State) (o : Outstanding),
    let q := s.queue (qkey fn queue)
    q.outstanding.find? (fun o => o.stage == .waiting) = some o →
    (o.ident = ident.toNat → (o.fence = false ∨ earliest o.ident q.outstanding = true) → q.orphan o.ident = false →
      s.parked ⟨fn, queue, o.ident⟩ = false →
      ∃ t, exec (.commandReserve fn queue ident true) s = .next t ∧ t.queue (qkey fn queue) = q.restage o.ident .running
        ∧ (∀ k, k ≠ qkey fn queue → t.queue k = s.queue k) ∧ t.regs = s.regs)
    ∧ (exec (.commandReserve fn queue ident false) s = .next s)
    ∧ (o.ident ≠ ident.toNat → exec (.commandReserve fn queue ident true) s = .next s)
    ∧ (o.fence = true → earliest o.ident q.outstanding = false → exec (.commandReserve fn queue ident true) s = .next s))
  ∧ (∀ (dt : Nat) (s : State) (w : WaitingCmd), s.ready = true →
    let u := s.advance dt
    let q := u.queue w.key
    s.host.lastWatchdog + 100 ≤ u.ms →
    oldest (u.waitingCmds.filter (fun w => decide (w.fetched + 1000 * s.fld Reg.MBX_WDOG 9 0 < u.ms))) = some w →
    ∃ t, exec (.commandWatchdog dt) s = .next t ∧ t.host.lastWatchdog = u.ms
      ∧ t = unpark (· == ⟨w.key / 8, w.key % 8, w.ident⟩)
          (putQueue w.key (q.complete ⟨w.ident, 0x3F01, q.sqHead, w.key % 8, false, 0, 0, [], 0⟩) { u with host := { u.host with lastWatchdog := u.ms } }))
  ∧ (∀ (dt : Nat) (s : State), s.ready = true → s.host.lastWatchdog + 100 ≤ (s.advance dt).ms →
    oldest ((s.advance dt).waitingCmds.filter (fun w => decide (w.fetched + 1000 * s.fld Reg.MBX_WDOG 9 0 < (s.advance dt).ms))) = none →
    ∃ t, exec (.commandWatchdog dt) s = .next t ∧ t.host.queues = (s.advance dt).host.queues)
  ∧ (∀ (fn : Fin 513) (queue : Fin 8) (s : State) (r : Reply) (rs : List Reply),
    let q := s.queue (qkey fn queue)
    q.live = true → q.hasRoom = true → q.backlog = r :: rs → q.stalled = [] →
    ∃ t, exec (.replyWrite fn queue true) s = .next t ∧ (t.queue (qkey fn queue)).backlog = rs
      ∧ tget (dflt ⟨0, 0, 0, 0, false, 0, 0, [], 0⟩) (t.queue (qkey fn queue)).ring q.cqTail = { r with phase := q.phase })
  ∧ (∀ (fn : Fin 513) (queue : Fin 8) (s : State), (s.queue (qkey fn queue)).live = true →
    ∃ t, exec (.replyWrite fn queue false) s = .next t ∧ (t.queue (qkey fn queue)).dmaErr = true ∧ (t.queue (qkey fn queue)).error = true)
  ∧ (∀ (fn : Fin 513) (queue : Fin 8) (s : State), (s.queue (qkey fn queue)).live = true → 0 < (s.queue (qkey fn queue)).unsignalled →
    bits (s.queue (qkey fn queue)).ctl 27 16 ≠ 0 →
    ∃ t, exec (.interruptCoalesceTimeout fn queue) s = .next t ∧ (t.queue (qkey fn queue)).unsignalled = 0
      ∧ (t.queue (qkey fn queue)).messages = (s.queue (qkey fn queue)).messages + 1)

/-- PCIE_FLR returns the queues of one function to their reset values, with the commands that run going on without replies, and leaves every other function's queues; PERST_N_ASSERT does so for all and takes the link down; PERST_N_DEASSERT brings the link back; configuration requests are answered only after stage 2, in recovery for PF0 alone; SPDM_DOE_REQUEST with a measurement answers the measurement register, and once the device is authenticated it gives an IDE stream a key. (R48, R65, R82, R94, R590) -/
def Obligations.FunctionResets : Prop :=
  let afresh (s t : State) (k : Nat) : Prop := t.queue k = { Queue.reset with orphans := (t.queue k).orphans }
    ∧ ((∀ e ∈ s.host.queues, e.1 = k → e.2 = s.queue k) → (t.queue k).orphans = (s.queue k).goOn)
  (∀ (fn : Fin 513) (s : State), s.hostUp = true → ∃ t, exec (.pcieFlr fn) s = .next t
    ∧ (∀ q < 8, afresh s t (qkey fn q)) ∧ (∀ k, k / 8 ≠ fn.val → t.queue k = s.queue k) ∧ t.regs = s.regs)
  ∧ (∀ s : State, ∃ t, exec .perstNAssert s = .next t ∧ (∀ k, afresh s t k) ∧ t.host.perst = true ∧ t.host.linkUp = false
    ∧ t.regs = s.regs ∧ t.dp = s.dp)
  ∧ (∀ s : State, ∃ t, exec .perstNDeassert s = .next t ∧ t.host.perst = false ∧ t.host.linkUp = s.sys.mainPower)
  ∧ (∀ (fn : Fin 513) (item : CfgItem) (s : State), s.hostUp = true →
    ∃ t, exec (.pcieConfigRequest ⟨fn, item⟩) s = .next t ∧ t.host.configOk = (!s.host.rrs && (fn.val == 0 || !s.sys.recovery))
      ∧ (t.host.configOk = true → t.host.configValue = configField fn item) ∧ t.regs = s.regs ∧ t.host.queues = s.host.queues)
  ∧ (configField 0 .totalVfs = 512 ∧ configField 0 .firstVfOffset = 1 ∧ configField 0 .vfStride = 1)
  ∧ (∀ (n : Fin 16) (s : State), s.hostUp = true → s.host.rrs = false →
    ∃ t, exec (.spdmDoeRequest (some n) false none) s = .next t ∧ t.host.doeReply = s.mr n ∧ t.host.ideStreams = s.host.ideStreams)
  ∧ (∀ (k : Fin 8) (s : State), s.hostUp = true → s.host.rrs = false → s.host.spdmAuth = true →
    ∃ t, exec (.spdmDoeRequest none false (some (k, true, false))) s = .next t ∧ k.val ∈ t.host.ideStreams
      ∧ (∀ j, j ≠ k.val → (j ∈ t.host.ideStreams ↔ j ∈ s.host.ideStreams)))

/-- FRAME_START at a port with a link begins an empty frame stamped now under the settings of now, or one that is discarded and counted by the rule it breaks, and counts the decoder's codewords; FRAME_BEAT and HEADER_BEAT append at most 16 bytes and change nothing else before the header stage and after it while the frame is at most 9,216 bytes, and a longer one is counted as a giant; bytes with no frame in progress are a fragment; STALL_TIMER_EXPIRY of a frame that has shown no seal header ends it, marks what follows as a fragment, counts PRT_RX_STALL and leaves one more leaf. (R49, R129, R140, R150, R152, 05_sealing_pipeline.md) -/
def Obligations.FramesArriveInBeats : Prop :=
  (∀ (dt : Nat) (port : Fin 512) (corrected lost : BitVec 16) (s : State),
    let u := clearFragment port (countFec port corrected.toNat lost.toNat (s.advance dt))
    ((s.advance dt).portLink port = true → (s.advance dt).member port = false → (s.advance dt).live port = none →
      (startRule u port = none → ∃ t f, exec (.frameStart dt ⟨port, corrected, lost⟩) s = .next t ∧ (t.port port).cur = some f ∧ f.data = []
        ∧ f.kind = .unknown ∧ f.port = port.val ∧ f.stamp = (s.advance dt).stamp ∧ f.cfg.regs = u.regs ∧ f.cfg.profiles = s.flow.profiles
        ∧ t.regs = u.regs ∧ t.ldg = s.ldg ∧ (∀ p, p ≠ port.val → t.port p = s.port p)
        ∧ t.rd (Reg.portBase port + 0x194) = up (s.rd (Reg.portBase port + 0x194)) corrected.toNat
        ∧ t.rd (Reg.portBase port + 0x198) = up (s.rd (Reg.portBase port + 0x198)) lost.toNat)
      ∧ (∀ o, startRule u port = some o → ∃ t f, exec (.frameStart dt ⟨port, corrected, lost⟩) s = .next t ∧ (t.port port).cur = some f
        ∧ f.kind = .discarded o ∧ t.rd (Reg.portBase port + o) = up (u.rd (Reg.portBase port + o)) 1
        ∧ (o ≠ 0x114 → ∀ a, a ≠ Reg.portBase port + o → t.rd a = u.rd a) ∧ t.ldg.fifos = s.ldg.fifos))
    ∧ ((s.advance dt).portLink port = false ∨ (s.advance dt).member port = true ∨ ((s.advance dt).live port).isSome = true →
      exec (.frameStart dt ⟨port, corrected, lost⟩) s = .next (s.advance dt)))
  ∧ (∀ (port : Fin 512) (bytes : Bytes) (s : State) (f : InFrame), s.live port = some f → f.port = port.val →
    let d := { f with data := f.data ++ bytes.take 16 }
    (f.under = true → exec (.frameBeat port bytes) s = .next s ∧ exec (.headerBeat port bytes) s = .next s)
    ∧ (f.under = false → f.kind = .unknown → f.hold = none → d.data.length ≤ 9216 →
      (f.hdrDone = true ∨ s.verifyWaits port = true ∨ d.body.length < 14 ∨ isControl d.body = true →
        (∃ t, exec (.frameBeat port bytes) s = .next t ∧ t = setCur port (some d) s)
        ∧ (∃ t, exec (.headerBeat port bytes) s = .next t ∧ t = setCur port (some d) s))
      ∧ (s.verifyWaits port = false → s.sealing = false → s.plane ≠ .notary → f.hdrDone = false → 14 ≤ d.body.length → isControl d.body = false →
        (∃ t, exec (.frameBeat port bytes) s = .next t ∧ t = setCur port (some { d with kind := .discarded 0x118, hdrDone := true }) s)
        ∧ (∃ t, exec (.headerBeat port bytes) s = .next t ∧ t = setCur port (some { d with kind := .discarded 0x118, hdrDone := true }) s)))
    ∧ (f.under = false → f.kind = .unknown → f.hold = none → f.egress = none → f.idx = none → f.res = none → f.hdrDone = true → 9216 < d.data.length →
      ∃ t, exec (.frameBeat port bytes) s = .next t ∧ t.rd (Reg.portBase port + 0x108) = up (s.rd (Reg.portBase port + 0x108)) 1
        ∧ (t.port port).cur = some { d with kind := .discarded 0x108, data := [] } ∧ t.ldg = s.ldg))
  ∧ (∀ (port : Fin 512) (bytes : Bytes) (s : State), s.live port = none →
    (∃ t, exec (.frameBeat port bytes) s = .next t ∧ t = fragmentBytes port s) ∧ (∃ t, exec (.headerBeat port bytes) s = .next t ∧ t = fragmentBytes port s))
  ∧ (∀ (port : Fin 512) (sent : Nat) (s : State) (f : InFrame), s.live port = some f → f.port = port.val →
    (let u := setCur port none s
     ∃ t, exec (.stallTimerExpiry port sent) s = .next t
      ∧ t = endInTransit f 0x30 sent (u.setPort port { u.port port with fragment := true, fragSeen := false }))
    ∧ (f.kind = .unknown → f.egress = none → ∃ t, exec (.stallTimerExpiry port sent) s = .next t ∧ (t.port port).cur = none
      ∧ (t.port port).fragment = true ∧ (t.port port).count = (s.port port).count + 1
      ∧ t.rd (Reg.portBase port + 0x174) = up (s.rd (Reg.portBase port + 0x174)) 1
      ∧ (∃ l, l.form = 2 ∧ t.ldg.fifos = tput (dflt []) s.ldg.fifos (clusterOf port) (tget (dflt []) s.ldg.fifos (clusterOf port) ++ [l]))))

/-- A frame whose tail shows a broken MAC rule is counted under that rule and leaves no leaf and no octet count; an unsealed frame without IP that every MAC rule passes, on a port whose UNSEALED setting was DROP when it began, leaves exactly one notary leaf with disposition 0x05, counts one frame in PRT_RX_UNSEALED, and moves the port's frame counter by one; one with a fault of encapsulation leaves one with disposition 0x02; while the port has no verify engine to work it waits; the tail of a discarded frame ends it, and that of one failed by an underrun ends it as STALL. (R100, R125, R127, R140, 05_sealing_pipeline.md) -/
def Obligations.FrameTailsLeaveOneLeaf : Prop :=
  (∀ (port : Fin 512) (bytes : Bytes) (s : State) (f : InFrame), (s.port port).cur = some f → f.port = port.val → f.kind = .unknown →
    f.verdict = 0 → f.hdrDone = false → f.waiting = false → f.egress = none → f.res = none → f.idx = none → f.under = false →
    let d := f.data ++ bytes.take 16
    let body := d.take (d.length - 4)
    let enc := encapWhole body (f.fld (Reg.DPL_SEAL_ENC (clusterOf port)) 15 0) (f.fld (Reg.DPL_SEAL_ENC (clusterOf port)) 31 16)
    (∀ o, macRule d = some o → ∃ t, exec (.frameTail port bytes) s = .next t ∧ t.ldg = s.ldg ∧ (t.port port).cur = none
      ∧ t.rd (Reg.portBase port + o) = up (s.rd (Reg.portBase port + o)) 1
      ∧ t.rd (Reg.portBase port + 0x88) = s.rd (Reg.portBase port + 0x88))
    ∧ (macRule d = none → s.verifyWaits port = true → ∃ t g, exec (.frameTail port bytes) s = .next t ∧ (t.port port).cur = none
      ∧ (t.port port).moved = (s.port port).moved ++ [g] ∧ g.data = d ∧ t.ldg = s.ldg)
    ∧ (macRule d = none → s.verifyWaits port = false → s.sealing = true →
      (∀ l, enc = .unsealed 0 l → f.bitOf (Reg.PRT_CTL port) 3 = false → ∃ t l, exec (.frameTail port bytes) s = .next t
        ∧ t.ldg.fifos = tput (dflt []) s.ldg.fifos (clusterOf port) (tget (dflt []) s.ldg.fifos (clusterOf port) ++ [l])
        ∧ l.form = 2 ∧ l.owner = 0xFFFF ∧ l.input.take 6 = [0x00, 0x05] ++ be 2 port ++ [0xFF, 0xFF]
        ∧ (t.port port).cur = none ∧ (t.port port).count = (s.port port).count + 1
        ∧ t.rd (Reg.portBase port + 0x124) = up (s.rd (Reg.portBase port + 0x124)) 1
        ∧ t.rd (Reg.portBase port + 0x100) = s.rd (Reg.portBase port + 0x100))
      ∧ (enc = .fault → ∃ t l, exec (.frameTail port bytes) s = .next t
        ∧ t.ldg.fifos = tput (dflt []) s.ldg.fifos (clusterOf port) (tget (dflt []) s.ldg.fifos (clusterOf port) ++ [l])
        ∧ l.form = 2 ∧ l.input.take 6 = [0x00, 0x02] ++ be 2 port ++ [0xFF, 0xFF]
        ∧ t.rd (Reg.portBase port + 0x120) = up (s.rd (Reg.portBase port + 0x120)) 1)))
  ∧ (∀ (port : Fin 512) (bytes : Bytes) (s : State),
    ((s.port port).cur = none → ∃ t, exec (.frameTail port bytes) s = .next t ∧ (t.port port).fragment = false ∧ t.ldg = s.ldg)
    ∧ (∀ f, (s.port port).cur = some f → f.isDiscarded = true → ∃ t, exec (.frameTail port bytes) s = .next t ∧ t = setCur port none s)
    ∧ (∀ f, (s.port port).cur = some f → f.isDiscarded = false → f.under = true → ∃ t, exec (.frameTail port bytes) s = .next t
      ∧ t = endInTransit f 0x30 0 (setCur port none s)))

/-- FABRIC_TRANSFER lets the first waiting frame of a cluster cross when link, route and egress buffer allow; FABRIC_ACKNOWLEDGEMENT drops the oldest record of a tile, or marks its oldest unacknowledged frame that has arrived whole; EGRESS_FRAME_START sends the complete frame chosen by R145 with its leaf and counts it, or puts one still arriving on the wire; EGRESS_UNDERRUN ends the frame on the wire and counts PRT_TX_UNDERRUN; PAUSE_FRAME that a start rule discards counts there, and any other pauses the transmitter when PAUSE_RX is 1, and PAUSE_EXPIRY ends the pause. (R141, R145, R151, R154, R155, R160, 05_sealing_pipeline.md) -/
def Obligations.EgressQueuesMove : Prop :=
  (∀ (cluster : Fin 64) (dst : Fin 512) (s : State) (g : EgFrame),
    (s.port dst).queue.find? (fun g => clusterOf g.src == cluster && !g.crossed) = some g →
    (s.retraining (tileOf g.src) (tileOf dst) = false → s.routeOk g.src dst = true → s.egressRoom dst g.len g.urgent = true →
      ∃ t, exec (.fabricTransfer cluster dst) s = .next t
        ∧ (t.port dst).queue = (s.port dst).queue.map (fun x =>
          if x = g then { x with crossed := true, acked := tileOf g.src == tileOf dst, hold := none } else x)
        ∧ t.regs = s.regs ∧ t.ldg = s.ldg)
    ∧ (s.retraining (tileOf g.src) (tileOf dst) = true ∨ s.routeOk g.src dst = false ∨ s.egressRoom dst g.len g.urgent = false →
      exec (.fabricTransfer cluster dst) s = .next s))
  ∧ (∀ (src : Fin 4) (dst : Fin 512) (s : State),
    (∀ r, s.dp.records.find? (fun r => tileOf r.src == src.val && r.dst == dst.val) = some r →
      ∃ t, exec (.fabricAcknowledgement src dst) s = .next t ∧ t.dp.records = s.dp.records.filter (· != r) ∧ t.dp.ports = s.dp.ports ∧ t.regs = s.regs)
    ∧ (∀ g, s.dp.records.find? (fun r => tileOf r.src == src.val && r.dst == dst.val) = none →
      (s.port dst).queue.find? (fun g => g.crossed && g.complete && !g.acked && tileOf g.src == src) = some g →
      ∃ t, exec (.fabricAcknowledgement src dst) s = .next t
        ∧ (t.port dst).queue = (s.port dst).queue.map (fun x => if x = g then { x with acked := true } else x) ∧ t.regs = s.regs))
  ∧ (∀ (port : Fin 512) (s : State) (g : EgFrame), s.portState port = 3 → s.member port = false → s.moving port true = false →
    (s.port port).pause = 0 → (s.port port).queue.any (fun g => g.onWire) = false → s.nextOut port = some g →
    (∀ l, g.complete = true → g.dst = port.val → g.leaf = some l →
      ∃ t, exec (.egressFrameStart port) s = .next t ∧ (t.port port).queue = (s.port port).queue.filter (fun x => x.num != g.num)
        ∧ (t.port port).lastSent = g.bytes
        ∧ t.ldg.fifos = tput (dflt []) s.ldg.fifos (clusterOf port) (tget (dflt []) s.ldg.fifos (clusterOf port) ++ [l])
        ∧ t.rd (Reg.portBase port + 0x180) = s.rd (Reg.portBase port + 0x180))
    ∧ (g.complete = false → ∃ t, exec (.egressFrameStart port) s = .next t
      ∧ (t.port port).queue = (s.port port).queue.map (fun x => if x = g then { x with onWire := true } else x) ∧ t.regs = s.regs ∧ t.ldg = s.ldg))
  ∧ (∀ (port : Fin 512) (sent : Nat) (s : State) (g : EgFrame) (f : InFrame),
    (s.port port).queue.find? (fun g => g.onWire) = some g → s.source g = some f → g.src ≠ port.val →
    ∃ t, exec (.egressUnderrun port sent) s = .next t ∧ (t.port port).queue = (s.port port).queue.filter (fun x => x.num != g.num)
      ∧ (t.port port).lastSent = poisoned ((emittedSoFar f).take sent) 0x30 f.port f.stamp
      ∧ (t.port g.src).cur = some { f with under := true }
      ∧ t.rd (Reg.portBase port + 0x190) = up (s.rd (Reg.portBase port + 0x190)) 1)
  ∧ (∀ (port : Fin 512) (quanta : BitVec 16) (s : State), s.portLink port = true → s.member port = false → s.live port = none →
    let u := clearFragment port s
    (startRule u port = none → ∃ t, exec (.pauseFrame port quanta) s = .next t
      ∧ t.rd (Reg.portBase port + 0x10C) = up (s.rd (Reg.portBase port + 0x10C)) 1
      ∧ (s.bitOf (Reg.PRT_CTL port) 5 = true → (t.port port).pause = quanta.toNat ∧ t.bitOf (Reg.PRT_STATUS port) 10 = (quanta.toNat != 0))
      ∧ (s.bitOf (Reg.PRT_CTL port) 5 = false → t.dp = u.dp))
    ∧ (∀ o, startRule u port = some o → ∃ t, exec (.pauseFrame port quanta) s = .next t ∧ t.rd (Reg.portBase port + o) = up (s.rd (Reg.portBase port + o)) 1
      ∧ t.rd (Reg.portBase port + 0x10C) = s.rd (Reg.portBase port + 0x10C) ∧ (t.port port).cur = none ∧ (t.port port).pause = (s.port port).pause))
  ∧ (∀ (port : Fin 512) (s : State), ∃ t, exec (.pauseExpiry port) s = .next t ∧ (t.port port).pause = 0
    ∧ t.bitOf (Reg.PRT_STATUS port) 10 = false ∧ (t.port port).queue = (s.port port).queue)

/-- For a port that is no member of a group: ENABLE of an OFF port that is not disabled starts training; the link of a training port brings it to RELEASED when it is released and to HELD otherwise; RELEASE of a HELD port releases it, clearing it holds a RELEASED one; a lost link returns it to TRAINING and clearing ENABLE to OFF; PRT_RESET acts only with its key, and waits for a takeover; CNT_CLR returns every counter of the port to 0 and changes no other register; GROUP keeps its value while a lane is not OFF and else groups two lanes, the second a member outside NOTARY. (R169, R170, R176, R177, R178, 05_sealing_pipeline.md) -/
def Obligations.PortStates : Prop :=
  ∀ (port : Fin 512) (s : State), s.fld (Reg.PRT_CTL port) 7 6 = 0 → s.member port = false →
    (s.portState port = 0 → s.bitOf (Reg.PRT_STATUS port) 4 = false → s.plane ≠ .zeroized →
      ∃ t, exec (.portEnable port) s = .next t ∧ t.portState port = 1 ∧ t.portLink port = false ∧ t.bitOf (Reg.PRT_CTL port) 0 = true
        ∧ (t.port port).trainStart = s.ms)
    ∧ (s.portState port = 1 → ∃ t, exec (.portLinkUp port) s = .next t ∧ t.portLink port = true
        ∧ t.portState port = (if s.releaseOn port then 3 else 2))
    ∧ (∃ t, exec (.portRelease port) s = .next t ∧ t.bitOf (Reg.PRT_CTL port) 1 = true
        ∧ (s.portState port = 2 → (s.wrB (Reg.PRT_CTL port) 1 true).releaseOn port = true → t.portState port = 3)
        ∧ (s.portState port < 2 → t.portState port = s.portState port) ∧ t.dp = s.dp)
    ∧ (∃ t, exec (.portHold port) s = .next t ∧ t.bitOf (Reg.PRT_CTL port) 1 = false ∧ t.dp = s.dp
        ∧ (s.portState port = 3 → t.portState port = 2) ∧ (s.portState port ≠ 3 → t.portState port = s.portState port))
    ∧ (s.portLink port = true → ∃ t, exec (.portLinkLost port) s = .next t ∧ t = report ⟨0x07, 4, false, srcPort port, srcExternal port, 0xFFFF, 0⟩ (portDown port 1 s))
    ∧ (s.portState port ≠ 0 → ∃ t, exec (.portDisable port) s = .next t ∧ t = portDown port 0 (s.wrB (Reg.PRT_CTL port) 0 false))
    ∧ (∀ value : Word, bit value 0 = true → bits value 31 16 = 0x7C3D → 
        ((s.port port).takeover = none → let u := resetMac port (regainEngines port s)
          ∃ t, exec (.portReset port value) s = .next t ∧ (s.portState port = 0 → t = u) ∧ (s.portState port ≠ 0 → t = portDown port 1 u))
        ∧ ((s.port port).takeover ≠ none → ∃ t, exec (.portReset port value) s = .next t ∧ t = s.setPort port { s.port port with resetPending := true }))
    ∧ (∀ value : Word, (bit value 0 = false ∨ bits value 31 16 ≠ 0x7C3D) → exec (.portReset port value) s = .next s)
    ∧ (∃ t, exec (.portCounterClear port) s = .next t
        ∧ (∀ a, Reg.portBase port + 0x80 ≤ a → a < Reg.portBase port + 0x19C → t.rd a = regDefault a)
        ∧ (∀ a, a < Reg.portBase port + 0x80 ∨ Reg.portBase port + 0x19C ≤ a → t.rd a = s.rd a) ∧ t.dp.ports = s.dp.ports)
    ∧ (∀ value : Word, s.portState port ≠ 0 → bits value 7 6 ≠ 0 → bit value 0 = s.bitOf (Reg.PRT_CTL port) 0 → bit value 1 = s.bitOf (Reg.PRT_CTL port) 1 →
        bit value 8 = false → ∃ t, exec (.portGroupWrite port value) s = .next t ∧ t.fld (Reg.PRT_CTL port) 7 6 = 0
          ∧ t.fld (Reg.PRT_CTL port) 5 2 = bits value 5 2 ∧ t.dp = s.dp)
    ∧ (∀ value : Word, s.portState port = 0 → s.portState (port + 1) = 0 → port.val % 2 = 0 → bits value 7 6 = 1 →
        bit value 0 = s.bitOf (Reg.PRT_CTL port) 0 → bit value 1 = s.bitOf (Reg.PRT_CTL port) 1 → bit value 8 = false →
        ∃ t, exec (.portGroupWrite port value) s = .next t ∧ t.fld (Reg.PRT_CTL port) 7 6 = 1 ∧ t.dp = s.dp
          ∧ (s.plane ≠ .notary → t.member (port + 1) = true))

/-- ENGINE_KAT_WINDOW counts a window; ENGINE_FAILURE of an engine that serves no port sets its bit in DPL_KAT_STATUS and enters the grown map; SPARE_TAKEOVER with nothing to take over changes nothing, waits for the end of a frame that arrives, and otherwise ends the takeover; a faulted tile link retrains and is counted, a retrained one is up with its route, a timed-out one has its route marked down; VERDICT_TOKEN_REFILL never passes 64 tokens; EGRESS_KEY_DELIVERED to a flow that awaits a successor advances it and otherwise changes nothing. (R124, R149, R161, R162, R163, R164, R165, 05_sealing_pipeline.md) -/
def Obligations.EnginesAndLinks : Prop :=
  (∀ (cluster : Fin 64) (s : State), ∃ t, exec (.engineKatWindow cluster) s = .next t ∧ t = s.bump (Reg.DPL_KAT_RUNS cluster))
  ∧ (∀ (engine : Fin 1152) (cause : Fin 3) (s : State), s.portOf engine = none →
    ∃ t, exec (.engineFailure engine cause) s = .next t ∧ t.bitOf (Reg.DPL_KAT_STATUS (engineCluster engine)) (engineBit engine) = true
      ∧ t.bitOf (Reg.DPL_IRQ_STATUS (engineCluster engine)) 0 = true ∧ t.dp = s.dp)
  ∧ (∀ (port : Fin 512) (s : State),
    ((s.port port).takeover = none → exec (.spareTakeover port) s = .next s)
    ∧ ((s.port port).takeover = some 1 → s.member port = false → (s.live port).isSome = true →
      ∃ t, exec (.spareTakeover port) s = .next t ∧ (t.port port).takeover = some 1 ∧ t.regs = s.regs)
    ∧ ((s.port port).takeover = some 1 → s.member port = false → s.live port = none → (s.port port).moved = [] →
      (s.port port).resetPending = false → s.spareFree (clusterOf port) false = true →
      ∃ t, exec (.spareTakeover port) s = .next t ∧ (t.port port).takeover = none
        ∧ t.engineOf port false = spareOf (clusterOf port) false ∧ t.bitOf (Reg.PRT_STATUS port) 5 = true
        ∧ t.bitOf (Reg.DPL_SPARE (clusterOf port)) 0 = true ∧ t.fld (Reg.DPL_SPARE (clusterOf port)) 11 8 = sliceOf port))
  ∧ (∀ (a b : Fin 4) (s : State), a ≠ b →
    (∃ t, exec (.tileLinkFault a b) s = .next t
      ∧ (s.inQueues (fun g => g.crossed && !g.acked && tileOf g.src == a.val && tileOf g.dst == b.val) = [] →
        t.bitOf (Reg.DPL_FAB_STATUS a) b = false ∧ t.bitOf (Reg.DPL_FAB_STATUS a) (4 + b) = true
        ∧ t.rd (Reg.DPL_FAB_RETRAIN a b) = up (s.rd (Reg.DPL_FAB_RETRAIN a b)) 1 ∧ t.dp.ports = s.dp.ports))
    ∧ (∃ t, exec (.tileLinkRetrained a b) s = .next t ∧ t.bitOf (Reg.DPL_FAB_STATUS a) b = true
      ∧ t.bitOf (Reg.DPL_FAB_STATUS a) (4 + b) = false ∧ t.bitOf (Reg.DPL_FAB_ROUTE a) b = false ∧ t.dp = s.dp)
    ∧ (s.retraining a b = true → ∃ t, exec (.tileLinkRetrainTimeout a b) s = .next t
      ∧ t.bitOf (Reg.DPL_FAB_ROUTE a) b = true ∧ t.retraining a b = false))
  ∧ (∀ (port : Fin 512) (n : Nat) (s : State), ∃ t, exec (.verdictTokenRefill port n) s = .next t
    ∧ (t.port port).tokens = min 64 ((s.port port).tokens + n) ∧ t.regs = s.regs ∧ (t.port port).queue = (s.port port).queue)
  ∧ (∀ (cluster : Fin 64) (tenant : Fin 512) (terminal : BitVec 24) (s : State) (k : Nat) (f : Flow),
    s.findFlow cluster tenant terminal.toNat 0 = some k → s.flowAt k = some f →
    (f.egWait = true → ∃ t, exec (.egressKeyDelivered cluster tenant terminal) s = .next t ∧ t = advanceEgress k f s)
    ∧ (f.egWait = false → exec (.egressKeyDelivered cluster tenant terminal) s = .next s))

/-- FLOW_SETUP_START takes a slot; with the entry not yet in DRAM it asks for its image page, and with an ACTIVE entry whose home is free and a free way it claims the home and takes the way, and the write of the entry raises its version counter; a set-up that has started, or with every slot in use, waits; LEAF_MINT_DERIVATION derives L4 from a cached L3 key first; FLOW_SETUP_DONE with every key derived makes the entry LIVE and counts the set-up; FLOW_SETUP_TIMEOUT after more than 1 ms ends it and counts FLW_SETUP_FAIL; FLOW_WAY_DRAINED takes a free way for a set-up that has its home. (R186, R191, R192, R193, 06_flows_and_terminals.md) -/
def Obligations.FlowSetupRuns : Prop :=
  ∀ (cluster : Fin 64) (tenant : Fin 512) (terminal : BitVec 24) (dir : Fin 2) (s : State) (x : Setup) (n : Nat),
    let c := cluster.val
    let t := tenant.val
    let term := terminal.toNat
    let ok : Prop := s.pageLoaded n = true ∧ (s.term n).state = 1 ∧ (s.term n).mode = 0 ∧ s.bitOf (Reg.FLW_CTL c) 0 = true
      ∧ s.bitOf (Reg.TRM_CTL (c / 16)) 0 = true ∧ s.unitOverlap (c / 16) t (n / 4096) = false ∧ s.leafRefuses c = false
      ∧ (s.region t (s.term n).region).present = true ∧ s.keys.badL2.contains t = false ∧ s.findFlow c t term dir = none
    s.setupOf c t term dir = some x → s.termSlot (c / 16) t term = some n →
    (x.started = false → s.setupsBusy c < 32 → s.pageLoaded n = false → ∀ macOk,
      ∃ u, exec (.flowSetupStart cluster tenant terminal dir macOk) s = .next u ∧ (n / 256) ∈ u.flow.demand
        ∧ u.setupOf c t term dir = some { x with started := true, begun := s.now } ∧ u.regs = s.regs)
    ∧ (∀ k, x.started = false → s.setupsBusy c < 32 → ok → x.read = false → x.successor = false → x.claimed = false →
      x.migrating = none → x.way = none → (s.term n).home dir = none →
      (waysOf s c t term dir).find? (fun k => s.flowAt k = none) = some k →
      ∃ u, exec (.flowSetupStart cluster tenant terminal dir true) s = .next u
        ∧ u.setupOf c t term dir = some { x with started := true, begun := s.now, read := true, claimed := true, way := some k }
        ∧ (u.term n).home dir = some c ∧ u.flowAt k = some (setupFlow x)
        ∧ u.version n = (s.version n + 1) % 2 ^ 32
        ∧ u.rd (Reg.TRM_LOADS (stackTile n)) = up (s.rd (Reg.TRM_LOADS (stackTile n))) 1)
    ∧ (∀ macOk, x.started = true ∨ 32 ≤ s.setupsBusy c → exec (.flowSetupStart cluster tenant terminal dir macOk) s = .next s)
    ∧ (∀ l3, x.started = true → x.claimed = true → s.leafRefuses c = false → x.l4 = none → x.needsS (s.term n) = true →
      s.l3Key c t (s.term n).region = some l3 →
      ∃ u, exec (.leafMintDerivation cluster tenant terminal dir) s = .next u
        ∧ u.setupOf c t term dir = some { x with l4 := some (l4Of s t term (s.term n) l3) })
    ∧ (∀ k, x.started = true → x.claimed = true → x.needsS (s.term n) = false → x.needsE = false → x.needsH (s.term n) = false →
      (s.term n).state = 1 → x.session = false → x.successor = false → x.way = some k → s.waitingIn c = [] → s.arriving c t term dir = [] →
      ∃ u, exec (.flowSetupDone cluster tenant terminal dir) s = .next u ∧ u.flowAt k = some (liveFlow s n x (s.term n))
        ∧ u.setupOf c t term dir = none ∧ u.rd (Reg.FLW_SETUPS c) = up (s.rd (Reg.FLW_SETUPS c)) 1 ∧ u.flow.terms = s.flow.terms)
    ∧ (∀ dt, x.started = true → x.begun + 1000000 < s.now + dt → s.waitingIn c = [] → s.arriving c t term dir = [] →
      ∃ u, exec (.flowSetupTimeout dt cluster tenant terminal dir) s = .next u ∧ u.setupOf c t term dir = none
        ∧ u.rd (Reg.FLW_SETUP_FAIL c) = up (s.rd (Reg.FLW_SETUP_FAIL c)) 1)
    ∧ (∀ k, x.started = true → x.read = true → x.claimed = true → x.way = none → x.successor = false → ok →
      (waysOf s c t term dir).find? (fun k => s.flowAt k = none) = some k →
      ∃ u, exec (.flowWayDrained cluster tenant terminal dir) s = .next u ∧ u.setupOf c t term dir = some { x with way := some k }
        ∧ u.flowAt k = some (setupFlow x) ∧ u.regs = s.regs ∧ u.flow.terms = s.flow.terms)

/-- MIGRATION_REQUEST marks a LIVE entry MIGRATING; MIGRATION_DRAINED of a drained migrating flow clears its home, removes it and counts FLW_MIGRATE_OUT; the sweep adds one second to a flow that is not idle long enough and evicts one that is; GRACE_EXPIRY ends the acceptance of the previous generation; FLOW_NOTICE gives the DIR = 1 flow the port in ATTACH, and under a new generation it takes that and asks for its key. (R192, R193, R197, R199, 06_flows_and_terminals.md) -/
def Obligations.FlowsMoveAndAge : Prop :=
  (∀ (cluster : Fin 64) (tenant : Fin 512) (terminal : BitVec 24) (dir : Fin 2) (s : State) (k : Nat) (f : Flow),
    s.findFlow cluster tenant terminal.toNat dir = some k → s.flowAt k = some f →
    ((s.claimant cluster tenant terminal.toNat dir).isSome = true → f.stage = .live →
      ∃ t, exec (.migrationRequest cluster tenant terminal dir) s = .next t ∧ t.flowAt k = some { f with stage := .migrating }
        ∧ t.regs = s.regs ∧ t.flow.terms = s.flow.terms ∧ (∀ j, j ≠ k → t.flowAt j = s.flowAt j))
    ∧ (∀ n, s.claimant cluster tenant terminal.toNat dir = none → f.stage = .migrating → f.detached = false → f.inflight = 0 → s.flowSlot k f = some n →
      (s.term n).state ≠ 0 →
      ∃ t, exec (.migrationDrained cluster tenant terminal dir) s = .next t ∧ t.flowAt k = none
        ∧ (t.term n).home f.dir = none ∧ t.rd (Reg.FLW_MIGRATE_OUT cluster) = up (s.rd (Reg.FLW_MIGRATE_OUT cluster)) 1
        ∧ (∀ m, m ≠ n → t.term m = s.term m)))
  ∧ (∀ (cluster : Fin 64) (s : State), twf (dflt none) s.flow.flows = true →
    ∃ t, exec (.flowIdleSweep cluster) s = .next t ∧ ∀ k f, s.flowAt k = some f → k / 16384 = cluster.val → f.stage ≠ .setup →
      (f.idle < s.fld (Reg.FLW_TIMEOUT cluster) 11 0 → t.flowAt k = some f.sweep)
      ∧ (s.fld (Reg.FLW_TIMEOUT cluster) 11 0 ≤ f.idle → f.stage = .live →
        t.flowAt k = (if f.inflight = 0 then none else some { f.sweep with stage := .evicting })))
  ∧ (∀ (cluster : Fin 64) (tenant : Fin 512) (terminal : BitVec 24) (s : State) (k : Nat) (f : Flow),
    (s.findFlow cluster tenant terminal.toNat 0 = some k → s.flowAt k = some f →
      ∃ t, exec (.graceExpiry cluster tenant terminal) s = .next t ∧ t.flowAt k = some { f with prev := none, prevKey := [], grace := 0 }
        ∧ t.regs = s.regs ∧ t.flow.terms = s.flow.terms)
    ∧ (∀ n, s.findFlow cluster tenant terminal.toNat 1 = some k → s.flowAt k = some f → s.flowSlot k f = some n → f.stage ≠ .setup →
      let e := s.term n
      (e.sgen = f.sgen → e.context = f.sctx →
        ∃ t, exec (.flowNotice cluster tenant terminal) s = .next t ∧ t.flowAt k = some { f with egress := e.attach }
          ∧ t.regs = s.regs ∧ t.flow.terms = s.flow.terms)
      ∧ (e.sgen ≠ f.sgen ∨ e.context ≠ f.sctx → ∃ t, exec (.flowNotice cluster tenant terminal) s = .next t
          ∧ t = wantSession k tenant terminal.toNat 1 n (touchTerms (setFlow k (some { f with
            egress := e.attach, sgen := e.sgen, sctx := e.context, skey := none, scount := 0, rekeyDue := e.rekeyDue, fence := e.fence }) s)))))

/-- The page first asked for is loaded by IMAGE_PAGE_READ_DONE and, from stage 6, the next page in order by IMAGE_BACKGROUND_LOAD while none is asked for, every entry with the restart fence when the start was fenced; REGISTER_WRITEBACK makes the image hold a loaded slot's entry while WB_EN is 1 and no write of a higher rank waits; FLUSH_REGISTER answers 0x0103 and waits; FLUSH_DONE, once no journal page waits, brings every dirty line into the image, sets CLEAN exactly when no terminal state changed since the flush began, and completes the waiting commands. (R185, R186, R187, R210, 06_flows_and_terminals.md) -/
def Obligations.RegisterImage : Prop :=
  (∀ (s : State) (p : Nat) (r : List Nat), s.flow.demand = p :: r → s.flow.setups = [] → s.flow.allLoaded = false →
    tget (dflt false) s.flow.loaded p = false →
    ∃ t, exec .imagePageReadDone s = .next t ∧ p ∉ t.flow.demand
      ∧ ∀ n, n / 256 = p → t.pageLoaded n = true
        ∧ (s.flow.fencedStart = true → t.term n = (tget noEntry s.flow.image n).fenced)
        ∧ (s.flow.fencedStart = false → tget noEntry s.flow.image n ≠ TermEntry.free → t.term n = tget noEntry s.flow.image n))
  ∧ (∀ (page : Fin 32768) (s : State), s.flow.demand = [] →
      (s.flow.nextPage = page.val → 6 ≤ s.fld Reg.SYS_BOOT_STAGE 3 0 → s.flow.setups = [] → ∃ t, exec (.imageBackgroundLoad page) s = .next t
        ∧ (∀ n, n / 256 = page.val → t.pageLoaded n = true) ∧ t.flow.image = s.flow.image ∧ t.flow.nextPage = page.val + 1)
      ∧ (s.flow.nextPage ≠ page.val → exec (.imageBackgroundLoad page) s = .next s))
  ∧ (∀ (slot : Fin 8388608) (s : State),
    (s.bitOf (Reg.TRM_CTL (stackTile slot)) 1 = true → s.pageLoaded slot = true → s.writeWaits 4 = false →
      ∃ t, exec (.registerWriteback slot) s = .next t ∧ tget noEntry t.flow.image slot = s.term slot
        ∧ (∀ n, n ≠ slot.val → tget noEntry t.flow.image n = tget noEntry s.flow.image n) ∧ t.flow.terms = s.flow.terms)
    ∧ (s.bitOf (Reg.TRM_CTL (stackTile slot)) 1 = false ∨ s.pageLoaded slot = false ∨ s.writeWaits 4 = true →
      exec (.registerWriteback slot) s = .next s))
  ∧ (∀ (c : HostCmd) (s : State), Runs s 0x031A c → ∃ t s', exec (.flushRegister c) s = .next t ∧ t = interimReply c.ref 0x0103 s'
      ∧ s' = (let u := beginFlush s; { u with flow := { u.flow with flushCmds := s.flow.flushCmds ++ [c.ref] } })
      ∧ t.flow.flushCmds = s.flow.flushCmds ++ [c.ref] ∧ t.flow.changed = false ∧ t.flow.flushing = true)
  ∧ (∀ s : State,
    (s.flow.flushing = true → s.writeWaits 2 = false → ∃ t, exec .flushDone s = .next t ∧ t.flow.clean = !s.flow.changed
      ∧ t.flow.cleanCopy = t.flow.clean ∧ t.flow.flushCmds = [] ∧ t.flow.flushing = false
      ∧ (∀ tile, tile < 4 → t.bitOf (Reg.TRM_IMAGE tile) 0 = t.flow.clean) ∧ (∀ n, n ∈ s.dirty → tget noEntry t.flow.image n = s.term n))
    ∧ (s.flow.flushing = false ∨ s.writeWaits 2 = true → exec .flushDone s = .next s))

/-- A successful exchange of an allocated terminal with no cached flow writes SCTX, CTX, the generation asked for and zero counts into the entry and leaves the queue; an exchange of a terminal that is FREE or QUARANTINED is discarded; one whose unit faults is put back once; one that has waited longer than TRM_XCHG_WAIT leaves the queue and is counted. (R203, R204, R205, 06_flows_and_terminals.md) -/
def Obligations.ExchangesComplete : Prop :=
  (∀ (tile : Fin 4) (unit : Fin 17) (s : State) (x : Exchange) (r : List Exchange) (n : Nat), s.exchQ tile = x :: r →
    s.unitServes (tileUnitNo tile unit) = true → s.termSlot tile x.tenant x.terminal = some n →
    (∀ ctx, (s.term n).state ≠ 0 → (s.term n).state ≠ 2 → exchangeContext s tile x = some ctx → s.flow0 x.tenant x.terminal = none →
      ∃ t, exec (.exchangeDone tile unit false) s = .next t ∧ t.exchQ tile = r
        ∧ t.term n = { s.term n with sctx := ctx, ctx := true, sgen := x.sgen, suse0 := 0, suse1 := 0, rekeyDue := false, fence := false }
        ∧ (∀ m, m ≠ n → t.term m = s.term m) ∧ t.rd (Reg.TRM_XCHG_DONE tile) = up (s.rd (Reg.TRM_XCHG_DONE tile)) 1)
    ∧ ((s.term n).state = 0 ∨ (s.term n).state = 2 →
      ∃ t, exec (.exchangeDone tile unit false) s = .next t ∧ t.exchQ tile = r ∧ t.flow.terms = s.flow.terms)
    ∧ (x.retried = false → ∃ t, exec (.exchangeDone tile unit true) s = .next t ∧ t.exchQ tile = { x with retried := true } :: r
      ∧ t.flow.terms = s.flow.terms))
  ∧ (∀ (dt : Nat) (tile : Fin 4) (s : State), ∃ t, exec (.exchangeWaitTimeout dt tile) s = .next t
    ∧ t.exchQ tile = (s.exchQ tile).filter (fun x => decide ((s.advance dt).ms ≤ x.queued + s.fld (Reg.TRM_XCHG_WAIT tile) 15 0))
    ∧ t.rd (Reg.TRM_XCHG_DROP tile) = up (s.rd (Reg.TRM_XCHG_DROP tile)) ((s.exchQ tile).length - (t.exchQ tile).length))

/-- ALLOC_TERMINALS makes every terminal of a FREE range ACTIVE, as its entry was loaded in all else, and writes it through to the image; FREE_TERMINALS zeroes every entry of the range there and in DRAM; QUARANTINE of an ACTIVE terminal and RELEASE of a quarantined one write the state and the reason through; REENROL with a greater version resets generations, counts and context and keeps the sequences; REKEY below generation 255 sets REKEY_DUE; EVICT_FLOW removes a flow with nothing in flight; each completes with 0x0000, or refuses with its own status and changes nothing else. (R185, R201, R209, R210, R211, 06_flows_and_terminals.md) -/
def Obligations.TerminalsAreManaged : Prop :=
  (∀ (c : HostCmd) (first count : BitVec 24) (hybrid : Bool) (profile : Fin 16) (region : Fin 4096) (l4ver : BitVec 16) (s : State),
    Runs s 0x0310 c →
    (s.slotRange c.own first.toNat count.toNat = none → ∃ t, exec (.allocTerminals c first count hybrid profile region l4ver) s = .next t
      ∧ t = finalReply c.ref 0x1301 [] 0 s)
    ∧ (∀ ns, s.slotRange c.own first.toNat count.toNat = some ns → ns.any (fun n => (s.entryNow n).state != 0) = true →
      ∃ t, exec (.allocTerminals c first count hybrid profile region l4ver) s = .next t ∧ t = finalReply c.ref 0x1303 [] 0 s)
    ∧ (∀ ns, s.slotRange c.own first.toNat count.toNat = some ns → ns.any (fun n => (s.entryNow n).state != 0) = false → c.expert = true →
      (s.region c.own region).present = true →
      ∃ t, exec (.allocTerminals c first count hybrid profile region l4ver) s = .next t ∧ ∀ n, n ∈ ns → tget noEntry t.flow.image n = t.term n
        ∧ t.term n = { (loadSlots ns s).term n with
          state := 1, mode := b2n hybrid, profile := profile.val, region := region.val, l4ver := l4ver.toNat }))
  ∧ (∀ (c : HostCmd) (first count : BitVec 24) (s : State) (ns : List Nat), Runs s 0x0311 c → s.slotRange c.own first.toNat count.toNat = some ns →
    ∃ t, exec (.freeTerminals c first count) s = .next t ∧ ∀ n, n ∈ ns → t.term n = TermEntry.free ∧ tget noEntry t.flow.image n = TermEntry.free)
  ∧ (∀ (c : HostCmd) (tenant : Fin 512) (terminal : BitVec 24) (s : State) (n : Nat),
    s.termSlot 0 (c.target tenant) terminal.toNat = some n →
    (Runs s 0x0313 c → (s.entryNow n).state = 1 → ∃ t, exec (.quarantine c tenant terminal) s = .next t
      ∧ (t.term n).state = 2 ∧ (t.term n).qreason = 1 ∧ (tget noEntry t.flow.image n).state = 2 ∧ (tget noEntry t.flow.image n).qreason = 1)
    ∧ (Runs s 0x0313 c → (s.entryNow n).state ≠ 1 → ∃ t, exec (.quarantine c tenant terminal) s = .next t ∧ t = finalReply c.ref 0x2303 [] 0 s)
    ∧ (Runs s 0x0314 c → c.ticket = none → (s.entryNow n).state = 2 → (s.entryNow n).qreason ≠ 0xF →
      ∃ t, exec (.release c tenant terminal) s = .next t ∧ (t.term n).state = 1 ∧ (t.term n).qreason = 0 ∧ tget noEntry t.flow.image n = t.term n)
    ∧ (Runs s 0x0314 c → c.ticket = none → (s.entryNow n).state = 2 → (s.entryNow n).qreason = 0xF →
      ∃ t, exec (.release c tenant terminal) s = .next t ∧ t = finalReply c.ref 0x2304 [] 0 s))
  ∧ (∀ (c : HostCmd) (terminal : BitVec 24) (s : State) (n : Nat), s.termSlot 0 c.own terminal.toNat = some n →
    (∀ l4ver : BitVec 16, Runs s 0x0319 c → (s.entryNow n).l4ver < l4ver.toNat → ∃ t, exec (.reenrol c terminal l4ver) s = .next t
      ∧ (t.term n).l4ver = l4ver.toNat ∧ (t.term n).sgen = 0 ∧ (t.term n).egen = 0 ∧ (t.term n).suse0 = 0 ∧ (t.term n).suse1 = 0
      ∧ (t.term n).euse = 0 ∧ (t.term n).ctx = false)
    ∧ (Runs s 0x0318 c → s.pageLoaded n = true → s.flow0 c.own terminal.toNat = none → (s.term n).sgen < 255 →
      ∃ t, exec (.rekey c terminal false) s = .next t ∧ (t.term n).rekeyDue = true ∧ (t.term n).reason = 2 ∧ (t.term n).sgen = (s.term n).sgen)
    ∧ (∀ dir : Fin 2, Runs s 0x0315 c → ∃ t, exec (.evictFlow c terminal dir) s = .next t
      ∧ ∀ k f, s.flowAt k = some f → f.tenant = c.own → f.terminal = terminal.toNat → f.dir = dir.val → f.stage ≠ .setup → f.inflight = 0 → t.flowAt k = none))

/-- A valid SET_PROFILE replaces the profile and a pair of equal zones is refused with 0x1304; SET_VERDICT writes the setting in every tile and refuses 4 and above with 0x1305; SET_QUOTA writes a range that overlaps no other in every tile, an overlapping one completes with 0x1306 and an absent tenant with 0x2101; SET_FLOW_TIMERS writes both timers in every cluster and refuses values out of range with 0x1308. Each query completes with 0x0000 and its output and changes nothing but the reply; a terminal outside the quota completes with 0x1301 and a flow that is not cached with 0x1302. (R195, R210, R211, R212, 06_flows_and_terminals.md) -/
def Obligations.FlowSettingsAndQueries : Prop :=
  (∀ (c : HostCmd) (number : Fin 16) (classes : BitVec 16) (actions : BitVec 8) (egress : BitVec 16) (zones : List (BitVec 8 × BitVec 8))
    (notice : Bool) (s : State), Runs s 0x0312 c →
    (128 ≤ actions.toNat ∨ 512 ≤ egress.toNat ∨ 8 < zones.length ∨ (∃ z ∈ zones, z.1 = z.2) →
      ∃ t, exec (.setProfile c number classes actions egress zones notice) s = .next t ∧ t = finalReply c.ref 0x1304 [] 0 s)
    ∧ (actions.toNat < 128 → egress.toNat < 512 → zones.length ≤ 8 → (∀ z ∈ zones, z.1 ≠ z.2) →
      ∃ t, exec (.setProfile c number classes actions egress zones notice) s = .next t
        ∧ t.profile c.own number = ⟨classes, actions.setWidth 7, egress.toNat, zones.map (fun z => (z.1.toNat, z.2.toNat)), notice⟩
        ∧ (∀ u p, p < 16 → 16 * u + p ≠ 16 * c.own + number.val → t.profile u p = s.profile u p) ∧ (s.pair.paired = false → t.regs = s.regs) ∧ t.flow.terms = s.flow.terms))
  ∧ (∀ (c : HostCmd) (setting : BitVec 8) (port : BitVec 16) (enable : Bool) (template : Bytes) (s : State), Runs s 0x0316 c →
    (4 ≤ setting.toNat → ∃ t, exec (.setVerdict c setting port enable template) s = .next t ∧ t = finalReply c.ref 0x1305 [] 0 s)
    ∧ (setting.toNat < 4 → c.expert = false → c.own < 512 → ∃ t, exec (.setVerdict c setting port enable template) s = .next t
      ∧ ∀ tile, tile < 4 → t.fld (Reg.TRM_TNT_HI tile c.own) 1 0 = setting.toNat
        ∧ t.fld (Reg.TRM_TNT_HI tile c.own) 31 16 = s.fld (Reg.TRM_TNT_HI tile c.own) 31 16))
  ∧ (∀ (c : HostCmd) (tenant : Fin 512) (base quota : BitVec 16) (s : State), Runs s 0x0317 c →
    ((s.tenant tenant).present = false → ∃ t, exec (.setQuota c tenant base quota) s = .next t ∧ t = finalReply c.ref 0x2101 [] 0 s)
    ∧ ((s.tenant tenant).present = true → 2048 < base.toNat + quota.toNat →
      ∃ t, exec (.setQuota c tenant base quota) s = .next t ∧ t = finalReply c.ref 0x1306 [] 0 s)
    ∧ ((s.tenant tenant).present = true → base.toNat + quota.toNat ≤ 2048 → base.toNat < 2048 →
      s.tenants.any (fun u => u != tenant.val && rangesMeet base.toNat quota.toNat (s.range 0 u).1 (s.range 0 u).2) = false →
      s.allocatedFrom tenant 0 = false → ∃ t, exec (.setQuota c tenant base quota) s = .next t
        ∧ (∀ tile, tile < 4 → t.range tile tenant = (base.toNat, quota.toNat)) ∧ t.flow = s.flow))
  ∧ (∀ (c : HostCmd) (timeout grace : BitVec 16) (a b d e : BitVec 8) (s : State), Runs s 0x031B c →
    (timeout.toNat < 1 ∨ 3600 < timeout.toNat ∨ 60000 < grace.toNat →
      ∃ t, exec (.setFlowTimers c timeout grace a b d e) s = .next t ∧ t = finalReply c.ref 0x1308 [] 0 s)
    ∧ (1 ≤ timeout.toNat → timeout.toNat ≤ 3600 → grace.toNat ≤ 60000 → c.expert = false →
      ∃ t, exec (.setFlowTimers c timeout grace a b d e) s = .next t ∧ (∀ k, k < 64 → t.fld (Reg.FLW_TIMEOUT k) 11 0 = timeout.toNat
        ∧ t.fld (Reg.FLW_GRACE k) 15 0 = grace.toNat ∧ t.rd (Reg.FLW_QUAR_TAG k) = s.rd (Reg.FLW_QUAR_TAG k)) ∧ t.flow = s.flow))
  ∧ (∀ (c : HostCmd) (tenant : Fin 512) (terminal : BitVec 24) (dir : Fin 2) (cluster : Fin 64) (s : State), Runs s 0x0301 c →
    (s.termSlot 0 (c.target tenant) terminal.toNat = none →
      ∃ t, exec (.getFlow c tenant terminal dir cluster) s = .next t ∧ t = finalReply c.ref 0x1301 [] 0 s)
    ∧ (∀ n, s.termSlot 0 (c.target tenant) terminal.toNat = some n → c.expert = false → (s.entryNow n).home dir = none →
      ∃ t, exec (.getFlow c tenant terminal dir cluster) s = .next t ∧ t = finalReply c.ref 0x1302 [] 0 s)
    ∧ (∀ n h k f, s.termSlot 0 (c.target tenant) terminal.toNat = some n → c.expert = false → (s.entryNow n).home dir = some h →
      s.findFlow h (c.target tenant) terminal.toNat dir = some k → s.flowAt k = some f →
      ∃ t, exec (.getFlow c tenant terminal dir cluster) s = .next t ∧ t = finalReply c.ref 0 (f.bytes s.ms) 0 s)
    ∧ (∀ n k f, s.termSlot 0 (c.target tenant) terminal.toNat = some n → c.expert = true →
      s.findFlow cluster (c.target tenant) terminal.toNat dir = some k → s.flowAt k = some f →
      ∃ t, exec (.getFlow c tenant terminal dir cluster) s = .next t ∧ t = finalReply c.ref 0 (f.bytes s.ms) 0 s))
  ∧ (∀ (c : HostCmd) (tenant : Fin 512) (terminal : BitVec 24) (s : State) (n : Nat), Runs s 0x0302 c →
    s.termSlot 0 (c.target tenant) terminal.toNat = some n →
    ∃ t, exec (.getTerminal c tenant terminal) s = .next t
      ∧ t = finalReply c.ref 0 ((s.entryNow n).bytes48.take (if c.expert then 48 else 4)) 0 s)
  ∧ (∀ (c : HostCmd) (tenant : Fin 512) (s : State), Runs s 0x0303 c →
    (c.expert = false → c.fn.val = 0 → ∃ t, exec (.getQuota c tenant) s = .next t ∧ t = finalReply c.ref 0 (s.tenants.flatMap (rangeBytes s)) 0 s)
    ∧ (c.fn.val ≠ 0 → ∃ t, exec (.getQuota c tenant) s = .next t ∧ t = finalReply c.ref 0 (rangeBytes s c.own) 0 s))
  ∧ (∀ (c : HostCmd) (tile : Fin 4) (s : State), Runs s 0x0304 c → ∃ t, exec (.getSetupStats c tile) s = .next t
    ∧ t = finalReply c.ref 0 (setupStats s (if c.expert then (List.range 16).map (16 * tile.val + ·) else List.range 64)) 0 s)

/-- With the central DRBG running, a refresh round exclusive-ors both shares of each of the 65,536 slots with the same random bits, so every key and every metadata record stays as it is, and counts one round; with it stopped neither the refresh nor a derivation happens; a late round sets REFRESH_LATE alone; the Mint derives the first L3 key asked for that no purge holds back and sends it on its way as shares; a delivery puts the key first in its cluster's cache; a known-answer test passed or failed runs or stops the Mint, a stopped Mint is tested again only after a custody reset, and a Leaf Mint's failure stops that Leaf Mint; the next epoch's fingerprint key is delivered when nothing of a higher rank waits. (R225, R235, R236, R238, 07_keys.md) -/
def Obligations.VaultAndMint : Prop :=
  (∀ s : State, (s.drbgMasks = true → ∃ t, exec .vaultRefreshRound s = .next t
      ∧ (∀ n, n < 65536 → (t.slot n).key = (s.slot n).key
        ∧ t.slot n = { s.slot n with shareA := (s.slot n).shareA ^^^ Config.freeBits (s.free + n), shareB := (s.slot n).shareB ^^^ Config.freeBits (s.free + n) })
      ∧ t.rd Reg.VLT_REFRESH_ROUNDS = up (s.rd Reg.VLT_REFRESH_ROUNDS) 1 ∧ t.keys.store = s.keys.store ∧ t.flow = s.flow)
    ∧ (s.drbgMasks = false → exec .vaultRefreshRound s = .next s ∧ exec .mintDerivation s = .next s))
  ∧ (∀ s : State, ∃ t, exec .vaultRefreshLate s = .next t ∧ t.bitOf Reg.VLT_STATUS 4 = true ∧ t.keys = s.keys)
  ∧ (∀ (s : State) (q : MintReq) (l2 : Bytes), s.mintUp = true → s.drbgMasks = true →
    s.keys.mintQ.find? (fun q => q.rank == 3 && !s.purged q.tenant q.region) = some q → s.liveKey (l2Slot q.tenant) = some l2 →
    ∃ t e, exec .mintDerivation s = .next t ∧ t.keys.deliver = s.keys.deliver ++ [(q.cluster, e)]
      ∧ e.tenant = q.tenant ∧ e.region = q.region ∧ e.gen = (s.region q.tenant q.region).gen
      ∧ e.shares.key = deriveL3 l2 (s.tenant q.tenant).domain q.tenant q.region (s.region q.tenant q.region).gen
      ∧ q ∉ t.keys.mintQ ∧ t.keys.slots = s.keys.slots)
  ∧ (∀ (cluster : Fin 64) (s : State) (d : Nat × L3Entry), s.linkOk (cluster / 16) = true →
    s.keys.deliver.find? (fun d => d.1 == cluster.val) = some d →
    ∃ t, exec (.l3Delivery cluster) s = .next t ∧ (t.l3 cluster).head? = some d.2 ∧ (t.l3 cluster).length ≤ 2048 ∧ d ∉ t.keys.deliver
      ∧ t.rd Reg.MNT_L3_SENT = up (s.rd Reg.MNT_L3_SENT) 1 ∧ (∀ c, c ≠ cluster.val → t.l3 c = s.l3 c) ∧ t.keys.slots = s.keys.slots)
  ∧ (∀ s : State, (s.bitOf Reg.MNT_STATUS 5 = false ∨ s.keys.mintRetest = true →
      (∃ t, exec (.mintKat none true) s = .next t ∧ t.bitOf Reg.MNT_STATUS 4 = true ∧ t.bitOf Reg.MNT_STATUS 5 = false
        ∧ t.keys = { s.keys with mintRetest := false })
      ∧ (∃ t, exec (.mintKat none false) s = .next t ∧ t.bitOf Reg.MNT_STATUS 5 = true ∧ t.mintUp = false
        ∧ t.rd Reg.MNT_KAT_FAIL = up (s.rd Reg.MNT_KAT_FAIL) 1 ∧ t.keys = { s.keys with mintRetest := false }))
    ∧ (s.bitOf Reg.MNT_STATUS 5 = true → s.keys.mintRetest = false → ∀ pass, exec (.mintKat none pass) s = .next s)
    ∧ (∀ c : Fin 64, ∃ t, exec (.mintKat (some c) false) s = .next t ∧ t.leafRefuses c = true ∧ t.bitOf (Reg.MNT_LM_STATUS c) 17 = true
      ∧ t.keys.slots = s.keys.slots)
    ∧ ∀ c : Fin 64, ∃ t, exec (.mintKat (some c) true) s = .next t ∧ t.bitOf (Reg.MNT_LM_STATUS c) 16 = true ∧ t.leafRefuses c = s.leafRefuses c
      ∧ t.keys = s.keys)
  ∧ (∀ (s : State) (l0 : Bytes), s.mintUp = true → s.liveKey 0 = some l0 → s.l3Waits = false → (∀ q ∈ s.keys.mintQ, q.rank ≠ 4) →
    ∃ t, exec .fingerprintKeyDelivery s = .next t ∧ tget (dflt []) t.keys.fpKeys (s.epoch + 1) = deriveFp l0 (s.epoch + 1)
      ∧ (∀ n, n ≠ fpSlot → n ≠ fpSlot + 1 → t.slot n = s.slot n))

/-- GRANT_ISSUE of a request for a LIVE slot with a limit charges the slot with 2^16 invocations or what is left of its limit, in full and at once, and the cluster holds a grant of the key of at least that many; one without a limit is granted 2^16 and charged nothing; a monitor slot whose COUNT reaches its limit less the margin takes its successor generation; nothing is granted while the Mint is stopped or an L3 request waits; PURGE_ACK of a tile leaves no L3 entry that the purge names in any of its caches; the last acknowledgement of a region purge raises the region's generation by one modulo 256 and closes the purge. (R234, R239, 07_keys.md) -/
def Obligations.GrantsAndPurges : Prop :=
  (∀ (cluster : Fin 64) (s : State) (q : MintReq), s.keys.mintQ.find? (fun q => q.rank == 4 && q.cluster == cluster.val) = some q →
    let v := s.slot q.slot
    let n := min (2 ^ 16) (v.limit - v.count)
    (s.mintUp = false ∨ s.l3Waits = true → exec (.grantIssue cluster) s = .next s)
    ∧ (s.mintUp = true → s.l3Waits = false → v.state = 1 → v.limitExp ≠ 0 → v.count < v.limit → v.cls ≠ 0x0C →
      ∃ t, exec (.grantIssue cluster) s = .next t ∧ (t.slot q.slot).count = v.count + n ∧ (t.slot q.slot).key = v.key
        ∧ ((t.slot q.slot).state = 2 ↔ v.limit ≤ v.count + n)
        ∧ (∃ g ∈ t.grants cluster, g.slot = q.slot ∧ g.incarn = v.incarn ∧ g.gen = v.gen ∧ g.shares.key = v.keyBytes ∧ n ≤ g.left)
        ∧ t.rd Reg.MNT_GRANTS = up (s.rd Reg.MNT_GRANTS) 1 ∧ (∀ m, m ≠ q.slot → t.slot m = s.slot m))
    ∧ (s.mintUp = true → s.l3Waits = false → v.state = 1 → v.limitExp = 0 → v.cls ≠ 0x0C →
      ∃ t, exec (.grantIssue cluster) s = .next t ∧ t.keys.slots = s.keys.slots
        ∧ (∃ g ∈ t.grants cluster, g.slot = q.slot ∧ g.incarn = v.incarn ∧ g.gen = v.gen ∧ g.shares.key = v.keyBytes ∧ 2 ^ 16 ≤ g.left)
        ∧ t.rd Reg.MNT_GRANTS = up (s.rd Reg.MNT_GRANTS) 1)
    ∧ (s.mintUp = true → s.l3Waits = false → v.state = 1 → v.limitExp ≠ 0 → v.cls = 0x0C → v.count + s.margin cluster < v.limit →
      ∃ t, exec (.grantIssue cluster) s = .next t ∧ t.rd Reg.MNT_GRANTS = up (s.rd Reg.MNT_GRANTS) 1
        ∧ (v.count + n + s.margin cluster < v.limit → t.slot q.slot = { v with count := v.count + n }
          ∧ ∃ g ∈ t.grants cluster, g.slot = q.slot ∧ g.gen = v.gen ∧ g.shares.key = v.keyBytes ∧ n ≤ g.left)
        ∧ (v.limit ≤ v.count + n + s.margin cluster → q.slot = monitorSlot v.owner → ∀ l2, s.liveKey (l2Slot v.owner) = some l2 →
          l2Slot v.owner ≠ q.slot → (t.slot q.slot).gen = (v.gen + 1) % 256 ∧ (t.slot q.slot).state = 1)))
  ∧ (∀ (tile : Fin 4) (s : State) (p : Purge) (r : List Purge), s.linkOk tile = true → s.keys.purges = p :: r →
    (s.tilesAcked (p.acks ++ [tile.val]) = false → ∃ t, exec (.purgeAck tile) s = .next t
      ∧ t.keys.purges = { p with acks := p.acks ++ [tile.val] } :: r ∧ t.keys.slots = s.keys.slots
      ∧ ∀ i, i < 16 → ∀ e ∈ t.l3 (16 * tile.val + i), p.what.covers e.tenant e.region = false)
    ∧ (∀ tn rg, s.tilesAcked (p.acks ++ [tile.val]) = true → p.what = .regionGen tn rg → rg < 4095 →
      ∃ t, exec (.purgeAck tile) s = .next t ∧ t.keys.purges = r ∧ (t.region tn rg).gen = ((s.region tn rg).gen + 1) % 256
        ∧ t.keys.slots = s.keys.slots ∧ t.bitOf Reg.MNT_STATUS 6 = (r != [])))

/-- GET_SLOT and GET_KCV answer the 32-byte record and the check value of a slot of the caller, 0x1201 for a stale handle and 0x2204 for another owner's slot, and change nothing else; GET_REGIONS answers the entries asked for or 0x1205; GET_PUBKEYS answers the public keys, or 0x4201 while the Mint is stopped; ATTEST answers the statement and its CMAC, charges the slot one invocation and writes its record again, and an EXHAUSTED slot completes with 0x3202. (R228, R245, R247, R252, R253, 07_keys.md) -/
def Obligations.KeyQueries : Prop :=
  (∀ (c : HostCmd) (handle : BitVec 32) (s : State),
    (Runs s 0x0201 c → s.slotOf handle = none → ∃ t, exec (.getSlot c handle) s = .next t ∧ t = finalReply c.ref 0x1201 [] 0 s)
    ∧ (Runs s 0x0202 c → s.slotOf handle = none → ∃ t, exec (.getKcv c handle) s = .next t ∧ t = finalReply c.ref 0x1201 [] 0 s)
    ∧ ∀ n, s.slotOf handle = some n →
      (Runs s 0x0201 c → ∃ t, exec (.getSlot c handle) s = .next t ∧ t = if (s.slot n).owner = (if c.fn.val = 0 then 0xFFFF else c.own)
        then finalReply c.ref 0 ((s.slot n).metaBytes n) 0 s else finalReply c.ref 0x2204 [] 0 s)
      ∧ (Runs s 0x0202 c → ∃ t, exec (.getKcv c handle) s = .next t ∧ t = if (s.slot n).owner = (if c.fn.val = 0 then 0xFFFF else c.own)
        then finalReply c.ref 0 (s.slot n).kcv 0 s else finalReply c.ref 0x2204 [] 0 s))
  ∧ (∀ (c : HostCmd) (tenant : Fin 512) (which : Fin 3) (s : State), Runs s 0x0203 c →
    (s.mintUp = false → ∃ t, exec (.getPubkeys c tenant which) s = .next t ∧ t = finalReply c.ref 0x4201 [] 0 s)
    ∧ (s.mintUp = true → c.expert = false → ∃ t u, exec (.getPubkeys c tenant which) s = .next t
      ∧ t = finalReply c.ref 0 (ledgerPublic s (c.target tenant) ++ x25519Public s (c.target tenant) ++ mlkemPublic s (c.target tenant)) 0 u
      ∧ u.keys = s.keys ∧ u.flow = s.flow)
    ∧ (s.mintUp = true → c.expert = true → which = 0 → ∃ t u, exec (.getPubkeys c tenant which) s = .next t
      ∧ t = finalReply c.ref 0 (ledgerPublic s (c.target tenant)) 0 u ∧ u.keys = s.keys))
  ∧ (∀ (c : HostCmd) (first count : BitVec 16) (s : State), Runs s 0x0204 c →
    (4096 < first.toNat + count.toNat → ∃ t, exec (.getRegions c first count) s = .next t ∧ t = finalReply c.ref 0x1205 [] 0 s)
    ∧ (first.toNat + count.toNat ≤ 4096 → ∃ t, exec (.getRegions c first count) s = .next t
      ∧ t = finalReply c.ref 0 ((List.range count.toNat).flatMap (fun i => regionBytes (s.region c.own (first.toNat + i)))) 0 s))
  ∧ (∀ (c : HostCmd) (handle : BitVec 32) (challenge : Bytes) (s : State) (n : Nat), Runs s 0x0205 c → s.slotOf handle = some n → n ≠ 0 →
    (s.slot n).owner = (if c.fn.val = 0 then 0xFFFF else c.own) → (s.slot n).cls = 0x0A → (s.slot n).attr.getLsbD 5 = true →
    ((s.slot n).state = 2 → ∃ t, exec (.attest c handle challenge) s = .next t ∧ t = finalReply c.ref 0x3202 [] 0 s)
    ∧ ((s.slot n).state ≠ 2 → (s.slot n).limitExp ≠ 0 → ∃ t u, exec (.attest c handle challenge) s = .next t
      ∧ t = finalReply c.ref 0 (attestStatement s n challenge ++ cmac (s.slot n).key (attestStatement s n challenge)) 0 u
      ∧ (u.slot n).count = (s.slot n).count + 1 ∧ (u.slot n).key = (s.slot n).key ∧ (∀ m, m ≠ n → u.slot m = s.slot m)
      ∧ (tget (dflt ⟨[], []⟩) u.keys.store n).1 = (u.slot n).metaBytes n ∧ u.flow = s.flow))

/-- GENERATE_KEY fills the free pool slot found with a key of ORIGIN 1, the class's default attributes, LIMIT_EXP 31 and COUNT 0, and writes its record; an impossible class completes with 0x1202; IMPORT_WRAPPED of a block of another tenant completes with 0x2204 and of a tampered one with 0x1203, and a good block fills a slot with ORIGIN 3; EXPORT_WRAPPED answers the key block only of an exportable slot under an export KEK while exports are enabled, and charges the KEK; DESTROY_KEY makes the slot EMPTY with its incarnation raised and its record removed; BIND_ZONE binds and unbinds. (R230, R240, R241, R242, R244, R246, R253, 07_keys.md) -/
def Obligations.StoredKeys : Prop :=
  (∀ (c : HostCmd) (cls len attr limit : BitVec 8) (s : State), Runs s 0x0210 c → c.expert = false →
    (storedClass cls.toNat = false → ∃ t, exec (.generateKey c cls len attr limit) s = .next t ∧ t = finalReply c.ref 0x1202 [] 0 s)
    ∧ (∀ n, storedClass cls.toNat = true → s.bitOf Reg.RNG_STATUS 1 = false → poolSlot c.own s = .ok n →
      ∃ t, exec (.generateKey c cls len attr limit) s = .next t ∧ (t.slot n).state = 1 ∧ (t.slot n).cls = cls.toNat ∧ (t.slot n).len = 3
        ∧ (t.slot n).attr = defaultAttrs cls.toNat ∧ (t.slot n).origin = 1 ∧ (t.slot n).owner = c.own ∧ (t.slot n).limitExp = 31
        ∧ (t.slot n).count = 0 ∧ (t.slot n).incarn = (s.slot n).incarn ∧ (∀ m, m ≠ n → t.slot m = s.slot m)
        ∧ (tget (dflt ⟨[], []⟩) t.keys.store n).1 = (t.slot n).metaBytes n))
  ∧ (∀ (c : HostCmd) (kek : BitVec 32) (block : Bytes) (s : State) (kn : Nat), Runs s 0x0212 c → s.slotOf kek = some kn →
    (s.slot kn).owner = c.own → c.fn.val ≠ 0 → (s.slot kn).attr.getLsbD 2 = true → (s.slot kn).state = 1 →
    (blockOk block = false → ∃ t, exec (.importWrapped c kek block) s = .next t ∧ t = finalReply c.ref 0x1202 [] 0 s)
    ∧ (blockOk block = true → field block 4 2 ≠ c.own → ∃ t, exec (.importWrapped c kek block) s = .next t
      ∧ t = finalReply c.ref 0x2204 [] 0 s)
    ∧ (blockOk block = true → field block 4 2 = c.own → kwUnwrap (s.slot kn).key (block.drop 16) = none →
      ∃ t, exec (.importWrapped c kek block) s = .next t ∧ t = finalReply c.ref 0x1203 [] 0 s)
    ∧ (∀ p n, blockOk block = true → field block 4 2 = c.own → kwUnwrap (s.slot kn).key (block.drop 16) = some p → p.take 16 = block.take 16 →
      (p.drop (16 + 8 * (field block 2 1 + 1))).any (fun x => x != 0) = false →
      kcvOf (slice p 16 (8 * (field block 2 1 + 1))) = slice block 8 5 → poolSlot c.own s = .ok n → n ≠ kn → kn ≠ 0 →
      (s.slot kn).limitExp ≠ 0 →
      ∃ t, exec (.importWrapped c kek block) s = .next t ∧ (t.slot n).state = 1 ∧ (t.slot n).origin = 3 ∧ (t.slot n).cls = field block 1 1
        ∧ (t.slot n).owner = c.own ∧ (t.slot n).count = 0 ∧ (t.slot kn).count = (s.slot kn).count + 1
        ∧ (∀ m, m ≠ n → m ≠ kn → t.slot m = s.slot m)))
  ∧ (∀ (c : HostCmd) (handle kek : BitVec 32) (s : State) (n kn : Nat), Runs s 0x0213 c → s.slotOf handle = some n → s.slotOf kek = some kn →
    c.fn.val ≠ 0 → (s.slot n).owner = c.own → (s.slot kn).owner = c.own →
    (s.bitOf Reg.VLT_CTL 1 = false ∨ (s.slot n).attr.getLsbD 0 = false ∨ (s.slot kn).attr.getLsbD 1 = false →
      ∃ t, exec (.exportWrapped c handle kek) s = .next t ∧ t = finalReply c.ref 0x2201 [] 0 s)
    ∧ (s.bitOf Reg.VLT_CTL 1 = true → (s.slot n).attr.getLsbD 0 = true → (s.slot n).attr.getLsbD 6 = false →
      (s.slot kn).attr.getLsbD 1 = true → (s.slot kn).state = 1 → (s.slot kn).limitExp ≠ 0 →
      ∃ t u, exec (.exportWrapped c handle kek) s = .next t ∧ t = finalReply c.ref 0 (keyBlock (s.slot kn).key (s.slot n)) 0 u
        ∧ (u.slot kn).count = (s.slot kn).count + 1 ∧ (∀ m, m ≠ kn → u.slot m = s.slot m)))
  ∧ (∀ (c : HostCmd) (handle : BitVec 32) (s : State) (n : Nat), Runs s 0x0214 c → s.slotOf handle = some n → c.fn.val ≠ 0 →
    (s.slot n).owner = c.own →
    (isPool n = false → ∃ t, exec (.destroyKey c handle) s = .next t ∧ t = finalReply c.ref 0x2201 [] 0 s)
    ∧ (isPool n = true → (s.slot n).state = 1 ∨ (s.slot n).state = 2 → ∃ t, exec (.destroyKey c handle) s = .next t ∧ t.slot n = { Slot.empty with incarn := ((s.slot n).incarn + 1) % 256 }
      ∧ tget (dflt (⟨[], []⟩ : KeyRecord)) t.keys.store n = ⟨[], []⟩ ∧ t.slotOf handle = none ∧ (∀ m, m ≠ n → t.slot m = s.slot m)))
  ∧ (∀ (c : HostCmd) (zone : BitVec 16) (handle : BitVec 32) (s : State), Runs s 0x0215 c →
    (256 ≤ zone.toNat → ∃ t, exec (.bindZone c zone handle) s = .next t ∧ t = finalReply c.ref 0x1205 [] 0 s)
    ∧ (∀ n, zone.toNat < 256 → handle ≠ 0 → s.slotOf handle = some n → c.fn.val ≠ 0 → (s.slot n).owner = c.own → isPool n = true →
      (s.slot n).cls = 0x08 → (s.slot n).attr.getLsbD 4 = true →
      ∃ t, exec (.bindZone c zone handle) s = .next t ∧ tget (dflt 0) t.keys.zones (256 * c.own + zone.toNat) = handle.toNat
        ∧ (∀ k, k ≠ 256 * c.own + zone.toNat → tget (dflt 0) t.keys.zones k = tget (dflt 0) s.keys.zones k) ∧ t.keys.slots = s.keys.slots)
    ∧ (zone.toNat < 256 → handle = 0 → ∃ t, exec (.bindZone c zone handle) s = .next t
      ∧ tget (dflt 0) t.keys.zones (256 * c.own + zone.toNat) = 0 ∧ t.keys.slots = s.keys.slots))

/-- CREATE_REGION makes the region exist with the PRELOAD of the expert form and refuses 4096 and above with 0x1205; SET_USAGE_LIMIT writes CHILD_EXP of the tenant's L2 slot and with it the limit of the monitor slot, from 20 to 32, refuses any other with 0x1206, and in expert form writes the limit of a pool slot; ROLL_PURPOSE and ROLL_HIERARCHY of a tenant in maintenance open a purge and answer 0x0101, complete with 0x2203 outside maintenance, with 0x1205 of a region that does not exist, with 0x4201 while the Mint is stopped and without a ticket with 0x2202. (R232, R239, R252, R253, R254, 07_keys.md) -/
def Obligations.KeySettings : Prop :=
  (∀ (c : HostCmd) (region : BitVec 16) (preload : Bool) (s : State), Runs s 0x0216 c →
    (4096 ≤ region.toNat → ∃ t, exec (.createRegion c region preload) s = .next t ∧ t = finalReply c.ref 0x1205 [] 0 s)
    ∧ (region.toNat < 4096 → ∃ t, exec (.createRegion c region preload) s = .next t ∧ (t.region c.own region.toNat).present = true
      ∧ (c.expert = true → region.toNat < 4095 → (t.region c.own region.toNat).preload = preload)
      ∧ (t.region c.own region.toNat).gen = (s.region c.own region.toNat).gen ∧ t.keys.slots = s.keys.slots))
  ∧ (∀ (c : HostCmd) (childExp limit : BitVec 8) (handle : BitVec 32) (s : State), Runs s 0x0217 c →
    (c.expert = false → childExp.toNat < 20 ∨ 32 < childExp.toNat →
      ∃ t, exec (.setUsageLimit c childExp handle limit) s = .next t ∧ t = finalReply c.ref 0x1206 [] 0 s)
    ∧ (c.expert = false → 20 ≤ childExp.toNat → childExp.toNat ≤ 32 →
      ∃ t, exec (.setUsageLimit c childExp handle limit) s = .next t
        ∧ t.slot (l2Slot c.own) = { s.slot (l2Slot c.own) with childExp := childExp.toNat }
        ∧ (t.slot (monitorSlot c.own) = if (s.slot (monitorSlot c.own)).state = 0 then s.slot (monitorSlot c.own)
          else { s.slot (monitorSlot c.own) with limitExp := childExp.toNat })
        ∧ (∀ m, m ≠ l2Slot c.own → m ≠ monitorSlot c.own → t.slot m = s.slot m) ∧ t.rd Reg.VLT_STORE_WRITES = up (s.rd Reg.VLT_STORE_WRITES) 1)
    ∧ (∀ n, c.expert = true → s.slotOf handle = some n → c.fn.val ≠ 0 → (s.slot n).owner = c.own → isPool n = true → limitOk limit.toNat = true →
      ∃ t, exec (.setUsageLimit c childExp handle limit) s = .next t ∧ (t.slot n).limitExp = limit.toNat
        ∧ (t.slot n).count = (s.slot n).count ∧ (∀ m, m ≠ n → t.slot m = s.slot m)))
  ∧ (∀ (c : HostCmd) (which : Fin 3) (s : State), Runs s 0x0218 c →
    (s.sys.maint.has c.own = false → ∃ t, exec (.rollPurpose c which) s = .next t ∧ t = finalReply c.ref 0x2203 [] 0 s)
    ∧ (s.sys.maint.has c.own = true → s.mintUp = false → ∃ t, exec (.rollPurpose c which) s = .next t ∧ t = finalReply c.ref 0x4201 [] 0 s)
    ∧ (s.sys.maint.has c.own = true → s.mintUp = true → ∃ t u, exec (.rollPurpose c which) s = .next t ∧ t = interimReply c.ref 0x0101 u
      ∧ u.keys.purges = s.keys.purges ++ [⟨.seed c.own which, [], some c.ref⟩] ∧ u.bitOf Reg.MNT_STATUS 6 = true
      ∧ u.keys.slots = s.keys.slots))
  ∧ (∀ (c : HostCmd) (region : Option (BitVec 16)) (s : State), Runs s 0x0219 c →
    (c.ticket = none → ∃ t, exec (.rollHierarchy c region) s = .next t ∧ t = finalReply c.ref 0x2202 [] 0 s)
    ∧ (∀ tk u, c.ticket = some tk → ticketCheck 0x0219 c c.own tk s = (none, u) →
      (u.sys.maint.has c.own = false → ∃ t, exec (.rollHierarchy c region) s = .next t ∧ t = finalReply c.ref 0x2203 [] 0 u)
      ∧ (u.sys.maint.has c.own = true → u.mintUp = true →
        (region = none → ∃ t v, exec (.rollHierarchy c region) s = .next t ∧ t = interimReply c.ref 0x0101 v
          ∧ v.keys.purges = u.keys.purges ++ [⟨.tenantGen c.own, [], some c.ref⟩] ∧ v.keys.slots = u.keys.slots)
        ∧ ∀ r, region = some r → (4096 ≤ r.toNat ∨ (u.region c.own r.toNat).present = false →
            ∃ t, exec (.rollHierarchy c region) s = .next t ∧ t = finalReply c.ref 0x1205 [] 0 u)
          ∧ (r.toNat < 4096 → (u.region c.own r.toNat).present = true →
            ∃ t v, exec (.rollHierarchy c region) s = .next t ∧ t = interimReply c.ref 0x0101 v
              ∧ v.keys.purges = u.keys.purges ++ [⟨.regionGen c.own r.toNat, [], some c.ref⟩] ∧ v.keys.slots = u.keys.slots))))

/-- LEAF_PIPE_OUTPUT takes the oldest leaf input of the cluster: in an open epoch its SHA-256 becomes the last leaf of the stream's open chunk, whose 256th leaf closes it with reason 1 and sends its root; a leaf of a closed epoch changes no chunk, counts in LDG_CL_LATE and becomes a LATE_LEAF event; CHUNK_ROOT_DELIVERED gives the oldest root of the cluster the next tile index of its stream. (R258, R260, R261, R263, R267, 08_ledger.md) -/
def Obligations.LeavesEnterChunks : Prop :=
  (∀ (cluster : Fin 64) (s : State) (l : LeafIn) (ls : List LeafIn), tget (dflt []) s.ldg.fifos cluster = l :: ls →
    (∀ ch, s.ldg.nextClose ≤ l.epoch → (s.chunks cluster).find? (fun x => x.stream == ⟨l.owner, s.retained l, l.epoch⟩) = some ch →
      (ch.leaves.length ≠ 255 → ∃ t, exec (.leafPipeOutput cluster) s = .next t ∧ tget (dflt []) t.ldg.fifos cluster = ls
        ∧ { ch with leaves := ch.leaves ++ [sha256 l.input] } ∈ t.chunks cluster ∧ t.ldg.roots = s.ldg.roots
        ∧ (∀ c, c ≠ cluster.val → t.chunks c = s.chunks c))
      ∧ (ch.leaves.length = 255 → ∃ t, exec (.leafPipeOutput cluster) s = .next t
        ∧ (∀ x ∈ t.chunks cluster, x.stream ≠ ch.stream)
        ∧ t.ldg.roots = s.ldg.roots ++ [⟨cluster, ch.stream, ch.seq, 256, sha256 (chunkHeader ch.stream cluster ch.seq
            ++ (ch.leaves ++ [sha256 l.input]).flatten ++ chunkTrailer 256 1)⟩]))
    ∧ (s.ldg.nextClose ≤ l.epoch → (s.chunks cluster).find? (fun x => x.stream == ⟨l.owner, s.retained l, l.epoch⟩) = none →
      ∃ t, exec (.leafPipeOutput cluster) s = .next t
        ∧ ⟨⟨l.owner, s.retained l, l.epoch⟩, s.chunkSeq cluster ⟨l.owner, s.retained l, l.epoch⟩, [sha256 l.input]⟩ ∈ t.chunks cluster
        ∧ t.chunkSeq cluster ⟨l.owner, s.retained l, l.epoch⟩ = s.chunkSeq cluster ⟨l.owner, s.retained l, l.epoch⟩ + 1)
    ∧ (l.epoch < s.ldg.nextClose → s.ldg.evq.length < 3840 → ∃ t, exec (.leafPipeOutput cluster) s = .next t
      ∧ t.ldg.chunks = s.ldg.chunks ∧ t.ldg.roots = s.ldg.roots ∧ t.rd (Reg.LDG_CL_LATE cluster) = up (s.rd (Reg.LDG_CL_LATE cluster)) 1
      ∧ t.ldg.evq = s.ldg.evq ++ [⟨0x0030, eventBody s 0x0030 (srcPort l.port) l.owner (sha256 l.input ++ be 8 l.epoch), false⟩]))
  ∧ (∀ (cluster : Fin 64) (s : State) (r : ChunkRoot), s.ldg.roots.find? (fun r => r.cluster == cluster.val) = some r →
    ∃ t, exec (.chunkRootDelivered cluster) s = .next t
      ∧ t.treeOf (cluster.val / 16) r.stream = s.treeOf (cluster.val / 16) r.stream ++ [r.root] ∧ r ∉ t.ldg.roots
      ∧ (∀ tile st, (tile, st) ≠ (cluster.val / 16, r.stream) → t.treeOf tile st = s.treeOf tile st) ∧ t.ldg.chunks = s.ldg.chunks)

/-- EPOCH_CUT shows the epoch in progress; EPOCH_CLOSE closes the next epoch 50 ms past the cut that ends it, leaving no open chunk of it, and before that only lets time pass; TILE_ROOT_FORM forms MTH over each of the tile's trees of the epoch; ROOTS_FORMED chains the device root and every tenant root due, queues them for signature and extends register 24 with the device root; ROOT_SIGN_DONE signs the next unsigned root without changing its body, the device root with the identity key and a tenant root with the tenant's live seed; without a free unit, or for a tenant root while the Mint is stopped, it signs none. (R264, R265, R266, R270, R271, R272, R291, 08_ledger.md) -/
def Obligations.EpochsClose : Prop :=
  (∀ (dt : Nat) (s : State), ∃ t, exec (.epochCut dt) s = .next t ∧ t.rd64 Reg.LDG_EPOCH_LO = (s.advance dt).epoch % 2 ^ 64
    ∧ t.ldg = s.ldg ∧ t.tim = (s.advance dt).tim)
  ∧ (∀ (dt : Nat) (s : State), s.ledgerRuns = true →
    ((s.ldg.nextClose + 1) * 1000000000 + 50000000 ≤ (s.advance dt).epochNs → ∃ t, exec (.epochClose dt) s = .next t
      ∧ t.ldg.nextClose = s.ldg.nextClose + 1 ∧ t.ldg.closing.map (·.epoch) = s.ldg.closing.map (·.epoch) ++ [s.ldg.nextClose]
      ∧ (∀ c ch, ch ∈ t.chunks c → ch.stream.epoch ≠ s.ldg.nextClose)
      ∧ (∀ c ch, ch ∈ t.chunks c → ch ∈ s.chunks c))
    ∧ ((s.advance dt).epochNs < (s.ldg.nextClose + 1) * 1000000000 + 50000000 → ∃ t, exec (.epochClose dt) s = .next t ∧ t = s.advance dt))
  ∧ (∀ (tile : Fin 4) (s : State) (i : CloseInfo), s.linkOk tile = true →
    s.ldg.closing.find? (fun c => !c.formed.contains tile.val) = some i →
    (∀ r ∈ s.ldg.roots, ¬ (r.cluster / 16 = tile.val ∧ r.stream.epoch = i.epoch)) →
    ∃ t, exec (.tileRootForm tile) s = .next t
      ∧ (∀ x ∈ s.ldg.trees, x.tile = tile.val → x.stream.epoch = i.epoch → ⟨tile, x.stream, mth mthFuel x.roots⟩ ∈ t.ldg.tileRoots ∧ x ∉ t.ldg.trees)
      ∧ (∀ x ∈ t.ldg.closing, x.epoch = i.epoch → tile.val ∈ x.formed) ∧ t.ldg.roots = s.ldg.roots ∧ t.ldg.pages = s.ldg.pages)
  ∧ (∀ (s : State) (i : CloseInfo) (r : List CloseInfo), s.ldg.closing = i :: r → [0, 1, 2, 3].all i.formed.contains = true → i.idle = false →
    (∀ n, (s.charter n).await = none) →
    ∃ t, exec .rootsFormed s = .next t ∧ (∀ x ∈ t.ldg.closing, x.epoch ≠ i.epoch)
      ∧ (∃ body, body.length = 176 ∧ body.take 2 = [0x04, 0x01] ∧ slice body 4 8 = be 8 i.epoch
          ∧ t.prevRoot 512 = sha256 body ∧ t.mr 24 = sha384 (s.mr 24 ++ sha256 body) ∧ (∃ x ∈ t.ldg.signQ, x.owner = devOwner ∧ x.body = body))
      ∧ ∀ n ∈ s.rootTenants i, ∃ x ∈ t.ldg.signQ, x.owner = n ∧ x.epoch = i.epoch ∧ x.body = tenantBody s i i.halted n
          ∧ (s.rootLast n i.epoch = false → t.prevRoot n = sha256 x.body))
  ∧ (∀ (s : State) (r : FormedRoot), s.nextToSign = some r →
    ((seatSigner s).seqUnits ≠ [] → r.owner = devOwner ∨ s.mintUp = true →
      ∃ t, exec .rootSignDone s = .next t ∧ r ∉ t.ldg.signQ
        ∧ (s.ldg.started = false → r.owner = devOwner → ∃ x ∈ t.ldg.signQ, x.signed = true ∧ x.body = r.body ∧ x.owner = devOwner
          ∧ x.sigE = Config.ecdsaSign idScalar (sha384 r.body) ((seatSigner s).freeBytes 48))
        ∧ (s.ldg.started = false → r.owner ≠ devOwner → ∃ x ∈ t.ldg.signQ, x.body = r.body ∧ x.owner = r.owner
          ∧ (x.signed = true ↔ (s.slot (signSlot r.owner)).state = 1)))
    ∧ ((seatSigner s).seqUnits = [] ∨ (r.owner ≠ devOwner ∧ s.mintUp = false) → s.ldg.started = false →
      ∃ t, exec .rootSignDone s = .next t ∧ t.ldg.signQ = s.ldg.signQ))

/-- With the sequencer idle an unprotected event becomes the next record of the staging page, with the record header, the chain digest and the CRC of R274; while a page is being programmed an event joins the queue, an unprotected one is dropped and counted once 3,840 entries are in use, and a protected one is held once 4,096 are; the page timer starts the program of a staging page; a programmed page joins the journal, and a failed program retires the block, puts a free one in its place and leaves the page to be written again; a programmed receipt page joins the tenant's pages, a failed one waits to be written again, and neither goes before a journal page or an image flush; the start scan counts a torn record and its event follows START. (R274, R275, R277, R278, R279, R280, R285, R463, 08_ledger.md) -/
def Obligations.JournalAndEvents : Prop :=
  (∀ (code src tenant : BitVec 16) (data : Bytes) (s : State),
    let e : Event := ⟨code.toNat, eventBody s code.toNat src.toNat tenant.toNat data, eventProtected code.toNat⟩
    (s.ldg.started = true → s.quiet → s.ldg.programming = [] → eventProtected code.toNat = false →
      let b := recordBytes s 0x10 e.body
      ∃ t, exec (.eventEnqueue code src tenant data) s = .next t ∧ t.ldg.evq = []
        ∧ t.ldg.page = [⟨s.ldg.nextSeq, 0x10, devOwner, s.epoch, b⟩] ∧ t.ldg.chain = sha256 b ∧ t.ldg.nextSeq = s.ldg.nextSeq + 1
        ∧ t.ldg.journal = s.ldg.journal ∧ t.regs = s.regs)
    ∧ (s.ldg.programming ≠ [] → s.ldg.signQ = [] → s.ldg.evHeld = [] →
      (s.ldg.evq.length < 3840 → ∃ t, exec (.eventEnqueue code src tenant data) s = .next t ∧ t.ldg.evq = s.ldg.evq ++ [e] ∧ t.regs = s.regs)
      ∧ (3840 ≤ s.ldg.evq.length → eventProtected code.toNat = false → ∃ t, exec (.eventEnqueue code src tenant data) s = .next t
        ∧ t.ldg.evq = s.ldg.evq ∧ t.ldg.dropped = s.ldg.dropped + 1 ∧ t.rd Reg.LDG_EVQ_DROP = up (s.rd Reg.LDG_EVQ_DROP) 1)
      ∧ (4096 ≤ s.ldg.evq.length → eventProtected code.toNat = true → ∃ t, exec (.eventEnqueue code src tenant data) s = .next t
        ∧ t.ldg.evq = s.ldg.evq ∧ t.ldg.evHeld = [e] ∧ t.ldg.dropped = s.ldg.dropped)))
  ∧ (∀ s : State, s.ldg.page ≠ [] → s.ldg.programming = [] → s.pageHasBlock = true →
    ∃ t, exec .journalPageTimer s = .next t ∧ t.ldg.programming = s.ldg.page ∧ t.ldg.journal = s.ldg.journal)
  ∧ (∀ (s : State) (r : JRecord), s.ldg.programming.getLast? = some r →
    (∃ t, exec (.journalPageProgramDone true) s = .next t ∧ t.ldg.journal = s.ldg.journal ++ [s.ldg.programming]
      ∧ t.ldg.chainDone = sha256 r.bytes)
    ∧ (∃ t, exec (.journalPageProgramDone false) s = .next t ∧ t.ldg.journal = s.ldg.journal ∧ t.ldg.programming = s.ldg.programming
      ∧ t.rd Reg.LFS_PROG_FAIL = up (s.rd Reg.LFS_PROG_FAIL) 1
      ∧ ∀ b m, s.lfs.jblocks.getLast? = some b → s.findBlock 0 = some m → t.lfs.jblocks = s.lfs.jblocks.dropLast ++ [m]
        ∧ (t.lblock b).area = 4 ∧ (t.lblock b).grown = true ∧ (t.lblock m).area = 1))
  ∧ (∀ (s : State) (p : RcptPage) (ps : List RcptPage), s.ldg.rcptProg = p :: ps → s.hasGroup p.tenant (pageGroup p.seq) = true →
    (s.writeWaits 3 = true → ∀ ok, exec (.receiptPageProgramDone ok) s = .next s)
    ∧ (s.writeWaits 3 = false → s.quiet → ∃ t, exec (.receiptPageProgramDone true) s = .next t ∧ t.ldg.rcptProg = ps
      ∧ t.ldg.pages = s.ldg.pages ++ [p] ∧ t.ldg.journal = s.ldg.journal)
    ∧ (s.writeWaits 3 = false → ∃ t, exec (.receiptPageProgramDone false) s = .next t ∧ t.ldg.rcptProg = s.ldg.rcptProg
      ∧ t.ldg.pages = s.ldg.pages ∧ t.rd Reg.LFS_PROG_FAIL = up (s.rd Reg.LFS_PROG_FAIL) 1))
  ∧ (∀ (seq : BitVec 64) (page : BitVec 32) (s : State), s.ldg.started = false →
    ∃ t, exec (.journalScanDone (some (seq, page))) s = .next t ∧ t.bitOf Reg.LDG_STATUS 3 = true
      ∧ t.rd Reg.LDG_TORN = up (s.rd Reg.LDG_TORN) 1 ∧ t.ldg.journal = s.ldg.journal
      ∧ (t.ldg.afterStart.drop s.ldg.afterStart.length).head?
          = some ⟨0x0031, eventBody s 0x0031 (srcMaster 0) 0xFFFF (be 8 seq.toNat ++ be 4 page.toNat), true⟩)

/-- The status and the retention settings are answered at once, for a tenant or for the device; a read of records, pages, a root or a proof that is held waits for ledger flash, and its reply carries what was read when LFLASH_READ_DONE reports it read and 0x4401 when it does not; a sequence outside the range held completes with 0x1401, an epoch without a root with 0x1402, a leaf that is not held with 0x1403, an output buffer too small with 0x3401, and receipts asked for by PF0 outside ZEROIZED with 0x2401; a read that corrected more than 40 bits schedules its block for relocation, an uncorrectable one counts, and scrub reads happen only while SCRUB_EN is 1. (R286, R292, R293, R463, 08_ledger.md) -/
def Obligations.LedgerQueries : Prop :=
  (∀ (c : HostCmd) (tenant : Fin 512) (s : State), Runs s 0x0401 c →
    ∃ t, exec (.getLedgerStatus c tenant) s = .next t ∧ t = finalReply c.ref 0 (be 8 s.epoch ++ be 8 (s.rd64 Reg.LDG_SIGNED_LO)
      ++ be 8 s.ldg.nextSeq ++ be 4 ((s.lfs.jblocks.length - s.lfs.borrowed) % 2 ^ 13 + 2 ^ 13 * s.lfs.borrowed) ++ be 4 s.receiptFree
      ++ (if c.fn.val = 0 ∧ c.expert = false then []
        else be 4 (s.tenantBlocks (c.target tenant)) ++ be 8 (s.openSeq (c.target tenant) - 1))) 0 s)
  ∧ (∀ (c : HostCmd) (first : BitVec 64) (limit typeMask : BitVec 32) (s : State), Runs s 0x0402 c →
    (first.toNat < s.oldestSeq ∨ s.programmedTo ≤ first.toNat → ∃ t, exec (.readJournal c first limit typeMask) s = .next t
      ∧ t = finalReply c.ref 0x1401 [] 0 s)
    ∧ (s.oldestSeq ≤ first.toNat → first.toNat < s.programmedTo → c.outLen < limit.toNat →
      ∃ t, exec (.readJournal c first limit typeMask) s = .next t ∧ t = finalReply c.ref 0x3401 [] 0 s)
    ∧ (s.oldestSeq ≤ first.toNat → first.toNat < s.programmedTo → limit.toNat ≤ c.outLen →
      ∃ t, exec (.readJournal c first limit typeMask) s = .next t ∧ t.regs = s.regs ∧ t.ldg.reads = s.ldg.reads
        ++ [⟨c.ref, 0, takeRecords limit.toNat (s.records.filter (fun r =>
          decide (first.toNat ≤ r.seq) && readable c r && (!c.expert || typeMask.getLsbD r.typ)))⟩]))
  ∧ (∀ (c : HostCmd) (tenant : Fin 512) (first : BitVec 64) (count : Nat) (s : State), Runs s 0x0403 c →
    let l := (s.pagesOf (c.target tenant)).filter (fun p => decide (first.toNat ≤ p.1) && decide (p.1 < first.toNat + min 64 count))
    let may : Prop := c.fn.val ≠ 0 ∨ (c.expert = true ∧ s.sys.mode = .zeroized)
    (¬ may → ∃ t, exec (.readReceipts c tenant first count) s = .next t ∧ t = finalReply c.ref 0x2401 [] 0 s)
    ∧ (may → (∀ p ∈ l, p.1 ≠ first.toNat) → ∃ t, exec (.readReceipts c tenant first count) s = .next t
      ∧ t = finalReply c.ref 0x1401 [] 0 s)
    ∧ (may → (∃ p ∈ l, p.1 = first.toNat) →
      (c.outLen < 16384 * l.length → ∃ t, exec (.readReceipts c tenant first count) s = .next t ∧ t = finalReply c.ref 0x3401 [] 0 s)
      ∧ (16384 * l.length ≤ c.outLen → ∃ t, exec (.readReceipts c tenant first count) s = .next t
        ∧ t.ldg.reads = s.ldg.reads ++ [⟨c.ref, 0, l.flatMap (·.2)⟩] ∧ t.regs = s.regs)))
  ∧ (∀ (c : HostCmd) (tenant : Fin 512) (epoch : BitVec 64) (s : State), Runs s 0x0404 c →
    let o := if c.fn.val = 0 ∧ c.expert = false then devOwner else c.target tenant
    (s.rootRecord o epoch.toNat = none → ∃ t, exec (.getRoot c tenant epoch) s = .next t ∧ t = finalReply c.ref 0x1402 [] 0 s)
    ∧ (∀ b, s.rootRecord o epoch.toNat = some b → ∃ t, exec (.getRoot c tenant epoch) s = .next t
      ∧ t.ldg.reads = s.ldg.reads ++ [⟨c.ref, 0, b⟩] ∧ t.regs = s.regs))
  ∧ (∀ (c : HostCmd) (epoch : BitVec 64) (cluster : BitVec 8) (seq : BitVec 24) (position : BitVec 8) (s : State), Runs s 0x0405 c →
    let l := s.entriesOf c.own epoch.toNat
    let found := l.find? (fun x => entryKind x == 2 && field x 40 1 % 64 == cluster.toNat && field x 41 3 == seq.toNat)
    (s.rootRecord c.own epoch.toNat = none ∨ s.rootRecord devOwner epoch.toNat = none →
      ∃ t, exec (.getProof c epoch cluster seq position) s = .next t ∧ t = finalReply c.ref 0x1402 [] 0 s)
    ∧ (∀ trec drec, s.rootRecord c.own epoch.toNat = some trec → s.rootRecord devOwner epoch.toNat = some drec →
      (found = none → ∃ t, exec (.getProof c epoch cluster seq position) s = .next t ∧ t = finalReply c.ref 0x1403 [] 0 s)
      ∧ (∀ r, found = some r →
        (chunkLeaves l cluster.toNat seq.toNat (field r 47 1 + 1) = none ∨ field r 47 1 < position.toNat →
          ∃ t, exec (.getProof c epoch cluster seq position) s = .next t ∧ t = finalReply c.ref 0x1403 [] 0 s)
        ∧ (∀ leaves, chunkLeaves l cluster.toNat seq.toNat (field r 47 1 + 1) = some leaves → position.toNat ≤ field r 47 1 →
          (∀ k, k < 4 → [] ∉ retainedTree l k) →
          let b := proofBlob c.own epoch.toNat cluster.toNat seq.toNat position.toNat l r leaves trec drec (s.tenantTable epoch.toNat)
          (c.outLen < b.length → ∃ t, exec (.getProof c epoch cluster seq position) s = .next t ∧ t = finalReply c.ref 0x3401 [] 0 s)
          ∧ (b.length ≤ c.outLen → ∃ t u, exec (.getProof c epoch cluster seq position) s = .next t ∧ t = interimReply c.ref 0x0104 u
            ∧ u.ldg.reads = s.ldg.reads ++ [⟨c.ref, 0, b⟩] ∧ u.regs = s.regs)))))
  ∧ (∀ (c : HostCmd) (tenant : Fin 512) (s : State), Runs s 0x0406 c →
    let one (n : Nat) : Bytes := be 4 (s.rd (Reg.LDG_RET_LO n)).toNat ++ be 4 (s.rd (Reg.LDG_RET_HI n)).toNat
    ∃ t, exec (.getRetention c tenant) s = .next t
      ∧ t = finalReply c.ref 0 (if c.fn.val = 0 ∧ c.expert = false then s.tenants.flatMap one else one (c.target tenant)) 0 s)
  ∧ (∀ (block : BitVec 18) (corrected : Nat) (s : State) (r : FlashRead) (rs : List FlashRead), s.ldg.reads = r :: rs →
    (∃ t u, exec (.lflashReadDone ⟨block, false⟩ corrected true) s = .next t ∧ t = finalReply r.cmd r.status r.out 0 u ∧ u.ldg.reads = rs
      ∧ (corrected = 0 → s.lfs.moves = [] → u.regs = s.regs)
      ∧ (40 < corrected → s.writeWaits 5 = true → (block.toNat, false) ∈ u.lfs.moves))
    ∧ (∃ t u, exec (.lflashReadDone ⟨block, false⟩ corrected false) s = .next t ∧ t = finalReply r.cmd 0x4401 [] 0 u ∧ u.ldg.reads = rs
      ∧ u.rd Reg.LFS_ECC_UNCORR = up (s.rd Reg.LFS_ECC_UNCORR) 1))
  ∧ (∀ (block : BitVec 18) (corrected : Nat) (ok : Bool) (s : State),
    (s.bitOf Reg.LFS_CTL 0 = false → exec (.lflashReadDone ⟨block, true⟩ corrected ok) s = .next s)
    ∧ (s.bitOf Reg.LFS_CTL 0 = true → ∃ t, exec (.lflashReadDone ⟨block, true⟩ corrected ok) s = .next t ∧ t.ldg = s.ldg
      ∧ (ok = false → t.rd Reg.LFS_ECC_UNCORR = up (s.rd Reg.LFS_ECC_UNCORR) 1)))

/-- An acknowledgement covers every record or page up to its sequence, reclaims the pages wholly acknowledged, and one of an earlier sequence has no effect; receipts of this L0 generation are acknowledged by their tenant alone, PF0 receiving 0x2401; SET_RETENTION writes the RETAIN mask of the caller's tenant and in expert form its FULL policy; SET_RECEIPT_QUOTA writes the quota of a tenant that exists while the sum stays within the receipt area and answers 0x1404, 0x2101 or 0x3402 otherwise; APPEND_NOTE enters the 40 bytes as a NOTE event, and completes with 0x2101 while notes are disabled and 0x3403 while the queue has no room. (R286, R287, R288, R293, R294, 08_ledger.md) -/
def Obligations.LedgerChanges : Prop :=
  (∀ (c : HostCmd) (seq : BitVec 64) (s : State), Runs s 0x0410 c →
    (s.programmedTo ≤ seq.toNat → ∃ t, exec (.ackJournal c seq) s = .next t ∧ t = finalReply c.ref 0x1401 [] 0 s)
    ∧ (seq.toNat < s.programmedTo → seq.toNat < s.ldg.ackSeq → ∃ t, exec (.ackJournal c seq) s = .next t ∧ t = finalReply c.ref 0 [] 0 s)
    ∧ (seq.toNat < s.programmedTo → s.ldg.ackSeq ≤ seq.toNat → ∃ t, exec (.ackJournal c seq) s = .next t ∧ t.ldg.ackSeq = seq.toNat + 1
      ∧ t.ldg.journal = s.ldg.journal.drop (ackedPages seq.toNat s.ldg.journal)))
  ∧ (∀ (c : HostCmd) (tenant : Fin 512) (seq : BitVec 64) (s : State), Runs s 0x0411 c →
    let o := c.target tenant
    let far : Prop := s.openSeq o ≤ seq.toNat ∨ ∃ p ∈ s.ldg.rcptProg, p.tenant = o ∧ p.seq = seq.toNat
    let barred : Prop := c.fn.val = 0 ∧ (c.expert = false ∨ ∃ p ∈ s.ldg.pages, p.tenant = o ∧ p.seq ≤ seq.toNat ∧ s.keys.l0gen ≤ p.l0gen)
    (far → ∃ t, exec (.ackReceipts c tenant seq) s = .next t ∧ t = finalReply c.ref 0x1401 [] 0 s)
    ∧ (¬ far → barred → ∃ t, exec (.ackReceipts c tenant seq) s = .next t ∧ t = finalReply c.ref 0x2401 [] 0 s)
    ∧ (¬ far → ¬ barred → ∃ t, exec (.ackReceipts c tenant seq) s = .next t
        ∧ (∀ p ∈ t.ldg.pages, p.tenant = o → p.seq ≤ seq.toNat → p.acked = true)
        ∧ (∀ p, p.tenant ≠ o → (p ∈ t.ldg.pages ↔ p ∈ s.ldg.pages)) ∧ t.ldg.journal = s.ldg.journal))
  ∧ (∀ (c : HostCmd) (retain : BitVec 32) (full : BitVec 8) (s : State), Runs s 0x0412 c →
    (2 ^ 16 ≤ retain.toNat → ∃ t, exec (.setRetention c retain full) s = .next t ∧ t = finalReply c.ref 0x1404 [] 0 s)
    ∧ (retain.toNat < 2 ^ 16 → c.expert = false → ∃ t, exec (.setRetention c retain full) s = .next t
      ∧ t.fld (Reg.LDG_RET_LO c.own) 15 0 = retain.toNat ∧ t.bitOf (Reg.LDG_RET_LO c.own) 16 = s.bitOf (Reg.LDG_RET_LO c.own) 16
      ∧ (∀ a, a ≠ Reg.LDG_RET_LO c.own → t.rd a = s.rd a))
    ∧ (retain.toNat < 2 ^ 16 → c.expert = true → full.toNat ≤ 1 → ∃ t, exec (.setRetention c retain full) s = .next t
      ∧ t.fld (Reg.LDG_RET_LO c.own) 15 0 = retain.toNat ∧ t.bitOf (Reg.LDG_RET_LO c.own) 16 = (full == 1)))
  ∧ (∀ (c : HostCmd) (tenant : BitVec 16) (blocks : BitVec 32) (s : State), Runs s 0x0413 c →
    (512 ≤ tenant.toNat → ∃ t, exec (.setReceiptQuota c tenant blocks) s = .next t ∧ t = finalReply c.ref 0x1404 [] 0 s)
    ∧ (tenant.toNat < 512 → blocks.toNat < 2 ^ 18 → (s.tenant tenant.toNat).present = false →
      ∃ t, exec (.setReceiptQuota c tenant blocks) s = .next t ∧ t = finalReply c.ref 0x2101 [] 0 s)
    ∧ (tenant.toNat < 512 → blocks.toNat < 2 ^ 18 → (s.tenant tenant.toNat).present = true →
      let rest := (((List.range 512).filter (· != tenant.toNat)).map s.quota).sum
      (s.receiptArea < rest + blocks.toNat → ∃ t, exec (.setReceiptQuota c tenant blocks) s = .next t ∧ t = finalReply c.ref 0x3402 [] 0 s)
      ∧ (rest + blocks.toNat ≤ s.receiptArea → ∃ t, exec (.setReceiptQuota c tenant blocks) s = .next t ∧ t.quota tenant.toNat = blocks.toNat
        ∧ (∀ a, a ≠ Reg.LDG_RET_HI tenant.toNat → t.rd a = s.rd a))))
  ∧ (∀ (c : HostCmd) (note : Bytes) (s : State), Runs s 0x0414 c →
    (s.bitOf Reg.LDG_CTL 1 = false → ∃ t, exec (.appendNote c note) s = .next t ∧ t = finalReply c.ref 0x2101 [] 0 s)
    ∧ (s.bitOf Reg.LDG_CTL 1 = true → 3840 ≤ s.ldg.evq.length → ∃ t, exec (.appendNote c note) s = .next t ∧ t = finalReply c.ref 0x3403 [] 0 s)
    ∧ (s.bitOf Reg.LDG_CTL 1 = true → s.ldg.evq.length < 3840 → s.ldg.programming ≠ [] → s.ldg.signQ = [] → s.ldg.evHeld = [] →
      ∃ t, exec (.appendNote c note) s = .next t ∧ t.regs = s.regs
        ∧ t.ldg.evq = s.ldg.evq ++ [⟨0x0070, eventBody s 0x0070 (srcMaster 0) c.own (fit 40 note), false⟩]))

/-- A pulse with PULSE_EN 0 only lets time pass and one shorter than 100 ns is counted; in FREE a pulse steps to the next second and a pending SET_TIME sets the count to the larger of its value and that second and locks; in LOCKED and HOLDOVER a pulse outside the window with no REALIGN pending moves nothing and is counted, and an accepted one is slewed by its phase error or, when more than 100 us behind, steps to its second, moving the seconds forward to a pending SET_TIME; HOLDOVER follows LOCKED at the time-out; U and FIT are recomputed; SET_TIME waits with 0x0105, replaces a pending one, and a value behind the count completes with 0x2501; a request not applied within 2 s is withdrawn; SET_TIME_PARAMS writes values in range and answers 0x1502 to others; GET_TIME answers. (R295, R299, R300, R301, R302, R309, R619, 09_time_and_close.md) -/
def Obligations.TheTimebase : Prop :=
  (∀ (dt width : Nat) (s : State),
    let u := s.advance dt
    let next := u.tim.now / 1000000000 + 1
    let sec := (u.tim.now + 500000000) / 1000000000
    let wrap := 2 ^ 34 * 1000000000
    (s.bitOf Reg.TIM_CTL 2 = false → ∃ t, exec (.secondPulse dt width) s = .next t ∧ t = u)
    ∧ (s.bitOf Reg.TIM_CTL 2 = true → width < 100 → ∃ t, exec (.secondPulse dt width) s = .next t ∧ t = u.bump Reg.TIM_PULSE_NARROW)
    ∧ (s.bitOf Reg.TIM_CTL 2 = true → 100 ≤ width →
      (s.timState = 0 → u.tim.pendSet = none → ∃ t, exec (.secondPulse dt width) s = .next t ∧ t.tim.now = next * 1000000000 % wrap
        ∧ t.timState = 0 ∧ t.tim.realigns = [] ∧ t.rd Reg.TIM_PULSES = up (s.rd Reg.TIM_PULSES) 1 ∧ t.tim.games = s.tim.games)
      ∧ (s.timState = 0 → u.tim.pendSet ≠ none → ∃ t, exec (.secondPulse dt width) s = .next t
        ∧ t.tim.now = max (u.rd64 Reg.TIM_NEXT_SEC_LO % 2 ^ 34) next * 1000000000 % wrap ∧ t.timState = 1 ∧ t.tim.pendSet = none
        ∧ t.tim.realigns = [])
      ∧ (s.timState ≠ 0 → u.inWindow u.phaseError = false → u.tim.realigns = [] → ∃ t, exec (.secondPulse dt width) s = .next t
        ∧ t.tim = u.tim ∧ t.timState = s.timState ∧ t.rd Reg.TIM_PULSE_REJ = up (s.rd Reg.TIM_PULSE_REJ) 1)
      ∧ (s.timState ≠ 0 → u.inWindow u.phaseError = true ∨ u.tim.realigns ≠ [] →
        let jump := if u.tim.pendSet = none then 0 else (max (u.rd64 Reg.TIM_NEXT_SEC_LO % 2 ^ 34) sec - sec) * 1000000000
        (-100000 ≤ u.phaseError → ∃ t, exec (.secondPulse dt width) s = .next t ∧ t.tim.residual = u.phaseError
          ∧ t.tim.now = (u.tim.now + jump) % wrap ∧ t.timState = 1 ∧ t.tim.realigns = [] ∧ t.tim.pendSet = none)
        ∧ (u.phaseError < -100000 → ∃ t, exec (.secondPulse dt width) s = .next t ∧ t.tim.residual = 0 ∧ t.tim.pendSet = none
          ∧ t.tim.now = (sec * 1000000000 + jump) % wrap ∧ t.timState = 1 ∧ t.rd Reg.TIM_STEPS = up (s.rd Reg.TIM_STEPS) 1))))
  ∧ (∀ (dt : Nat) (s : State),
    let u := s.advance dt
    let late := (u.tim.lastPulse + 1000001000) * 1000000000 + u.uncScaled (u.tim.lastPulse + 1000000000)
    (s.timState = 1 → late ≤ u.tim.now * 1000000000 → ∃ t, exec (.holdoverTimeout dt) s = .next t ∧ t.timState = 2 ∧ t.tim.now = u.tim.now
      ∧ t.bitOf Reg.TIM_IRQ_STATUS 1 = true)
    ∧ (s.timState = 1 → u.tim.now * 1000000000 < late → ∃ t, exec (.holdoverTimeout dt) s = .next t ∧ t = u)
    ∧ (∃ t, exec (.uncertaintyUpdate dt) s = .next t ∧ t.tim.distU = u.distributedU u.tim.now
      ∧ t.rd Reg.TIM_UNC = BitVec.ofNat 32 (u.distributedU u.tim.now) ∧ t.bitOf Reg.TIM_STATUS 5 = u.timeFit u.tim.now ∧ t.tim.now = u.tim.now)
    ∧ (∃ t, exec (.timeRequestTimeout dt) s = .next t
      ∧ (∀ ms c, u.tim.pendSet = some (ms, c) → (ms + 2000 ≤ u.ms → t.tim.pendSet = none ∧ t.rd64 Reg.TIM_NEXT_SEC_LO = 0)
        ∧ (u.ms < ms + 2000 → t.tim.pendSet = u.tim.pendSet))
      ∧ t.tim.realigns = u.tim.realigns.filter (fun r => decide (u.ms < r.1 + 2000)) ∧ t.tim.now = u.tim.now))
  ∧ (∀ (c : HostCmd) (seconds : BitVec 64) (s : State), Runs s 0x0510 c →
    (2 ^ 34 ≤ seconds.toNat → ∃ t, exec (.setTime c seconds) s = .next t ∧ t = finalReply c.ref 0x1502 [] 0 s)
    ∧ (seconds.toNat < 2 ^ 34 → seconds.toNat < s.secs → ∃ t, exec (.setTime c seconds) s = .next t ∧ t = finalReply c.ref 0x2501 [] 0 s)
    ∧ (seconds.toNat < 2 ^ 34 → s.secs ≤ seconds.toNat → ∃ t, exec (.setTime c seconds) s = .next t
      ∧ t.tim = { s.tim with pendSet := some (s.ms, some c.ref) } ∧ t.rd64 Reg.TIM_NEXT_SEC_LO = seconds.toNat
      ∧ t.bitOf Reg.TIM_STATUS 2 = true))
  ∧ (∀ (c : HostCmd) (drift base maxUnc : Nat) (s : State), Runs s 0x0511 c →
    (drift < 1 ∨ 100000 < drift ∨ 100000 < base ∨ maxUnc < 1 ∨ 1000000 < maxUnc →
      ∃ t, exec (.setTimeParams c drift base maxUnc) s = .next t ∧ t = finalReply c.ref 0x1502 [] 0 s)
    ∧ (1 ≤ drift → drift ≤ 100000 → base ≤ 100000 → 1 ≤ maxUnc → maxUnc ≤ 1000000 →
      ∃ t, exec (.setTimeParams c drift base maxUnc) s = .next t ∧ t.rd Reg.TIM_DRIFT = BitVec.ofNat 32 drift
        ∧ t.rd Reg.TIM_BASE_UNC = BitVec.ofNat 32 base ∧ t.rd Reg.TIM_MAX_UNC = BitVec.ofNat 32 maxUnc ∧ t.tim.now = s.tim.now))
  ∧ (∀ (c : HostCmd) (s : State), Runs s 0x0512 c →
    (c.ticket = none → ∃ t, exec (.realign c) s = .next t ∧ t = finalReply c.ref 0x2502 [] 0 s)
    ∧ (∀ tk u, c.ticket = some tk → ticketCheck 0x0512 c devScope tk s = (none, u) → ∃ t v, exec (.realign c) s = .next t
      ∧ t = interimReply c.ref 0x0105 v ∧ v.tim.realigns = u.tim.realigns ++ [(u.ms, some c.ref)] ∧ v.tim.now = u.tim.now))
  ∧ (∀ (c : HostCmd) (s : State), Runs s 0x0501 c → ∃ t, exec (.getTime c) s = .next t
    ∧ t = finalReply c.ref 0 (be 8 s.stamp.toNat ++ be 1 s.timState ++ be 4 (s.rd Reg.TIM_UNC).toNat ++ be 4 (s.rd Reg.TIM_PHASE).toNat
      ++ be 4 (s.rd Reg.TIM_DRIFT).toNat ++ be 8 (s.rd64 Reg.TIM_LAST_PULSE_LO)) 0 s)

/-- Without a ticket or with one that passes, a change waits with 0x0105 until its activation stamp, which lies at least 200 us and less than 201 us ahead on a whole microsecond; a later close, a lowered margin, an identifier not above the mark and the deletion of an open game need a ticket and complete with 0x2502 without one; a bad identifier or close completes with 0x1503, a game that exists with 0x1504, a full table with 0x3501 or 0x3502 and one that does not exist with 0x1501; at its stamp the change is written into the table, the last acknowledgement ends it, and 10 ms without all of them withdraws it with 0x4501; GET_GAME and LIST_GAMES answer. (R303, R304, R306, R307, R309, 09_time_and_close.md) -/
def Obligations.GamesAndCloses : Prop :=
  (∀ s : State, s.tim.now + 200000 ≤ s.activation ∧ s.activation < s.tim.now + 201000 ∧ s.activation % 1000 = 0)
  ∧ (∀ (c : HostCmd) (game : BitVec 32) (close : BitVec 64) (margin : BitVec 16) (s u : State), Runs s 0x0520 c → Admitted 0x0520 c c.own s u →
    let g := game.toNat
    (g = 0 ∨ (s.mark c.own < g ∧ validStamp close = false) → ∃ t, exec (.addGame c game close margin) s = .next t
      ∧ t = finalReply c.ref 0x1503 [] 0 u)
    ∧ (g ≠ 0 → validStamp close = true → (u.findGame c.own g).isSome = true → ∃ t, exec (.addGame c game close margin) s = .next t
      ∧ t = finalReply c.ref 0x1504 [] 0 u)
    ∧ (c.ticket = none → g ≠ 0 → (s.findGame c.own g) = none → g ≤ s.mark c.own → ∃ t, exec (.addGame c game close margin) s = .next t
      ∧ t = finalReply c.ref 0x2502 [] 0 s)
    ∧ (g ≠ 0 → (c.ticket = none → s.mark c.own < g) → validStamp close = true → u.findGame c.own g = none →
      (1024 ≤ u.gamesOf c.own ∨ 8192 ≤ u.gameCount → ∃ t, exec (.addGame c game close margin) s = .next t ∧ t = finalReply c.ref 0x3501 [] 0 u)
      ∧ (u.gamesOf c.own < 1024 → u.gameCount < 8192 →
        (u.freeGame c.own g = none → ∃ t, exec (.addGame c game close margin) s = .next t ∧ t = finalReply c.ref 0x3502 [] 0 u)
        ∧ ∀ i, u.freeGame c.own g = some i → ∃ t, exec (.addGame c game close margin) s = .next t ∧ t.mark c.own = max g (s.mark c.own)
          ∧ t.tim.changes = s.tim.changes ++ [⟨i, s.gameNext i, ⟨true, g, c.own, if c.expert then margin.toNat else 0, close⟩, s.activation,
              false, [], some c.ref⟩] ∧ t.tim.games = s.tim.games)))
  ∧ (∀ (c : HostCmd) (game : BitVec 32) (close : BitVec 64) (margin : BitVec 16) (s u : State) (i : Nat), Runs s 0x0521 c →
    Admitted 0x0521 c c.own s u → s.findGame c.own game.toNat = some i →
    let e := s.gameNext i
    let m := if c.expert then margin.toNat else 0
    let needs : Prop := e.close.toNat < close.toNat ∨ m < e.margin
    (c.ticket = none → needs → ∃ t, exec (.setClose c game close margin) s = .next t ∧ t = finalReply c.ref 0x2502 [] 0 s)
    ∧ (close = e.close → m = e.margin → ∃ t, exec (.setClose c game close margin) s = .next t ∧ t = finalReply c.ref 0 [] 0 u)
    ∧ ((c.ticket = none → ¬ needs) → ¬ (close = e.close ∧ m = e.margin) → ∃ t, exec (.setClose c game close margin) s = .next t
      ∧ t.tim.changes = s.tim.changes ++ [⟨i, e, { e with close := close, margin := m }, s.activation, false, [], some c.ref⟩]
      ∧ t.tim.games = s.tim.games))
  ∧ (∀ (c : HostCmd) (game : BitVec 32) (close : BitVec 64) (margin : BitVec 16) (s u : State), s.findGame c.own game.toNat = none →
    (Runs s 0x0521 c → Admitted 0x0521 c c.own s u → ∃ t, exec (.setClose c game close margin) s = .next t ∧ t = finalReply c.ref 0x1501 [] 0 u)
    ∧ (Runs s 0x0522 c → Admitted 0x0522 c c.own s u → ∃ t, exec (.closeNow c game) s = .next t ∧ t = finalReply c.ref 0x1501 [] 0 u)
    ∧ (Runs s 0x0523 c → Admitted 0x0523 c c.own s u → ∃ t, exec (.deleteGame c game) s = .next t ∧ t = finalReply c.ref 0x1501 [] 0 u))
  ∧ (∀ (c : HostCmd) (game : BitVec 32) (s u : State) (i : Nat), s.findGame c.own game.toNat = some i →
    (Runs s 0x0522 c → Admitted 0x0522 c c.own s u → ∃ t, exec (.closeNow c game) s = .next t
      ∧ ∃ x, t.tim.changes = s.tim.changes ++ [x] ∧ x.idx = i ∧ x.stampA = s.activation ∧ x.new.game = (s.gameNext i).game
        ∧ x.new.close.toNat = min (s.gameNext i).close.toNat (State.packStamp s.activation).toNat ∧ t.tim.games = s.tim.games)
    ∧ (Runs s 0x0523 c → Admitted 0x0523 c c.own s u →
      (c.ticket = none → s.tim.now + 200000 ≤ State.stampNs (s.gameNext i).close → ∃ t, exec (.deleteGame c game) s = .next t
        ∧ t = finalReply c.ref 0x2502 [] 0 s)
      ∧ ((c.ticket = none → State.stampNs (s.gameNext i).close < s.tim.now + 200000) → ∃ t, exec (.deleteGame c game) s = .next t
        ∧ t.tim.changes = s.tim.changes ++ [⟨i, s.gameNext i, Game.none, s.activation, false, [], some c.ref⟩] ∧ t.tim.games = s.tim.games)))
  ∧ (∀ (dt : Nat) (s : State) (x : GameChange), s.tim.changes = [x] → x.active = false →
    (x.stampA ≤ (s.advance dt).tim.now → ∃ t, exec (.gameChangeActivate dt) s = .next t ∧ t.game x.idx = x.new
      ∧ t.tim.changes = [{ x with active := true }] ∧ (∀ j, j ≠ x.idx → t.game j = s.game j))
    ∧ ((s.advance dt).tim.now < x.stampA → ∃ t, exec (.gameChangeActivate dt) s = .next t ∧ t.tim = (s.advance dt).tim))
  ∧ (∀ (s : State) (x : GameChange), s.tim.changes = [x] → x.active = true →
    (∀ cluster : Fin 64, s.linkOk (cluster / 16) = true → cluster.val ∉ x.acks →
      (s.allAcked (x.acks ++ [cluster.val]) = true → ∃ t, exec (.gameChangeAck cluster) s = .next t ∧ t.tim.changes = []
        ∧ t.tim.games = s.tim.games ∧ t.bitOf (Reg.TIM_GT_STATUS cluster) 1 = true)
      ∧ (s.allAcked (x.acks ++ [cluster.val]) = false → ∃ t, exec (.gameChangeAck cluster) s = .next t
        ∧ t.tim.changes = [{ x with acks := x.acks ++ [cluster.val] }] ∧ t.tim.games = s.tim.games))
    ∧ (∀ dt, x.stampA + 10000000 ≤ (s.advance dt).tim.now → ∃ t, exec (.gameChangeTimeout dt) s = .next t ∧ t.game x.idx = x.old
      ∧ t.tim.changes = [] ∧ (∀ r, x.cmd = some r → ∃ u, t = finalReply r 0x4501 [] 0 u)))
  ∧ (∀ (c : HostCmd) (tenant : Fin 512) (game : BitVec 32) (s : State), Runs s 0x0502 c → ∃ t, exec (.getGame c tenant game) s = .next t
    ∧ (∀ e, s.judge (c.target tenant) game.toNat s.tim.now = some e → t = finalReply c.ref 0 e.bytes 0 s)
    ∧ (s.judge (c.target tenant) game.toNat s.tim.now = none → t = finalReply c.ref 0x1501 [] 0 s))
  ∧ (∀ (c : HostCmd) (tenant : Fin 512) (first count : Nat) (s : State), Runs s 0x0503 c →
    let l := (((s.tim.games.filter (fun e => e.2.valid && e.2.tenant == c.target tenant)).map (·.2)).drop first).take count
    (c.outLen < 16 * l.length → ∃ t, exec (.listGames c tenant first count) s = .next t ∧ t = finalReply c.ref 0x3401 [] 0 s)
    ∧ (16 * l.length ≤ c.outLen → ∃ t, exec (.listGames c tenant first count) s = .next t
      ∧ t = finalReply c.ref 0 (l.flatMap Game.bytes) 0 s))

/-- Each integer instruction that can be fetched retires with its result in rd (CMP, TST and CMPI write none), with Z, S, K and O as the flag rule gives them and T unchanged, and changes no other register, no memory and no other state. (R315, R316, 10_custody_core.md) -/
def Obligations.IntegerInstructions : Prop :=
  ∀ (rd ra rb : Fin 16) (imm : BitVec 16) (aux : BitVec 8) (s : State), s.fetches →
    let a := s.g ra
    let b := s.g rb
    let x := imm.signExtend 32
    let z := imm.setWidth 32
    let flags (v : Word) (k o : Bool) : BitVec 5 := mkFlags (v == 0) v.msb k o s.fT
    let done (i : Instr) (v : Word) (k o : Bool) : Prop := ∃ t, exec i s = .next t ∧ Wrote rd v s t ∧ t.core.flags = flags v k o
    let kept (i : Instr) (v : Word) : Prop := ∃ t, exec i s = .next t ∧ Wrote rd v s t ∧ t.core.flags = s.core.flags
    let test (i : Instr) (v : Word) (k o : Bool) : Prop := ∃ t, exec i s = .next t ∧ Went (s.core.pc + 4) s t ∧ t.core.flags = flags v k o
    let carry (p q : Word) : Bool := decide (2 ^ 32 ≤ p.toNat + q.toNat)
    let ovf (p q : Word) : Bool := decide (p.toInt + q.toInt ≠ (p + q).toInt)
    let below (p q : Word) : Bool := decide (p.toNat < q.toNat)
    let under (p q : Word) : Bool := decide (p.toInt - q.toInt ≠ (p - q).toInt)
    let n := b.toNat % 32
    let m := aux.toNat % 32
    let out (c i : Nat) : Bool := if c = 0 then s.fK else a.getLsbD i
    done (.add rd ra rb) (a + b) (carry a b) (ovf a b)
    ∧ done (.sub rd ra rb) (a - b) (below a b) (under a b)
    ∧ done (.neg rd ra) (0 - a) (below 0 a) (under 0 a)
    ∧ done (.addi rd ra imm) (a + x) (carry a x) (ovf a x)
    ∧ test (.cmp ra rb) (a - b) (below a b) (under a b)
    ∧ test (.cmpi ra imm) (a - x) (below a x) (under a x)
    ∧ test (.tst ra rb) (a &&& b) false false
    ∧ done (.and rd ra rb) (a &&& b) false false ∧ done (.or rd ra rb) (a ||| b) false false
    ∧ done (.xor rd ra rb) (a ^^^ b) false false ∧ done (.andn rd ra rb) (a &&& ~~~b) false false ∧ done (.not rd ra) (~~~a) false false
    ∧ done (.andi rd ra imm) (a &&& z) false false ∧ done (.ori rd ra imm) (a ||| z) false false ∧ done (.xori rd ra imm) (a ^^^ z) false false
    ∧ kept (.mov rd ra) a ∧ kept (.lui rd imm) (z <<< 16)
    ∧ done (.shl rd ra rb) (a <<< n) (out n (32 - n)) s.fO ∧ done (.shr rd ra rb) (a >>> n) (out n (n - 1)) s.fO
    ∧ done (.sar rd ra rb) (a.sshiftRight n) (out n (n - 1)) s.fO ∧ done (.ror rd ra rb) (a.rotateRight n) (out n (n - 1)) s.fO
    ∧ done (.shlByAux rd ra aux) (a <<< m) (out m (32 - m)) s.fO ∧ done (.shrByAux rd ra aux) (a >>> m) (out m (m - 1)) s.fO
    ∧ done (.sarByAux rd ra aux) (a.sshiftRight m) (out m (m - 1)) s.fO ∧ done (.rorByAux rd ra aux) (a.rotateRight m) (out m (m - 1)) s.fO

/-- Each multiply and divide instruction that can be fetched retires with the result and the flags of the table of R318, corners included, and raises no exception; each fixed-point instruction retires with its exact result saturated to its type, with Z and S of the value written, K and O cleared, and T set when the result saturated. Nothing else changes. (R318) -/
def Obligations.MultiplyDivideAndFixedPoint : Prop :=
  ∀ (rd ra rb : Fin 16) (aux : BitVec 8) (s : State), s.fetches →
    let a := s.g ra
    let b := s.g rb
    let mult (i : Instr) (v : Word) : Prop :=
      ∃ t, exec i s = .next t ∧ Wrote rd v s t ∧ t.fZ = (v == 0) ∧ t.fS = v.msb ∧ t.fK = s.fK ∧ t.fO = s.fO ∧ t.fT = s.fT
    let quot (i : Instr) (v : Word) : Prop :=
      ∃ t, exec i s = .next t ∧ Wrote rd v s t ∧ t.fZ = (v == 0) ∧ t.fS = v.msb ∧ t.fK = false ∧ t.fO = false
    let corner (i : Instr) (v : Word) : Prop := ∃ t, exec i s = .next t ∧ Wrote rd v s t ∧ t.fO = true
    let sat (i : Instr) (lo hi x : Int) : Prop :=
      let v := BitVec.ofInt 32 (max lo (min hi x))
      ∃ t, exec i s = .next t ∧ Wrote rd v s t ∧ t.core.flags = mkFlags (v == 0) v.msb false false (s.fT || decide (x < lo ∨ hi < x))
    let lo := -(2 ^ 31 : Int)
    let hi := (2 ^ 31 : Int) - 1
    let f := aux.toNat % 32
    (mult (.mul rd ra rb) (a * b) ∧ mult (.mulhu rd ra rb) (BitVec.ofNat 32 (a.toNat * b.toNat / 2 ^ 32))
      ∧ mult (.mulhs rd ra rb) (BitVec.ofInt 32 (a.toInt * b.toInt / 2 ^ 32)))
    ∧ (b ≠ 0 → quot (.divu rd ra rb) (BitVec.ofNat 32 (a.toNat / b.toNat)) ∧ quot (.remu rd ra rb) (BitVec.ofNat 32 (a.toNat % b.toNat)))
    ∧ (b ≠ 0 → ¬ (a = 0x80000000 ∧ b = 0xFFFFFFFF) → quot (.divs rd ra rb) (BitVec.ofInt 32 (a.toInt.tdiv b.toInt))
        ∧ quot (.rems rd ra rb) (BitVec.ofInt 32 (a.toInt.tmod b.toInt)))
    ∧ (b = 0 → corner (.divu rd ra rb) 0xFFFFFFFF ∧ corner (.remu rd ra rb) a ∧ corner (.rems rd ra rb) a
        ∧ (0 ≤ a.toInt → corner (.divs rd ra rb) 0x7FFFFFFF) ∧ (a.toInt < 0 → corner (.divs rd ra rb) 0x80000000))
    ∧ (a = 0x80000000 → b = 0xFFFFFFFF → corner (.divs rd ra rb) 0x7FFFFFFF ∧ corner (.rems rd ra rb) 0)
    ∧ sat (.sadd rd ra rb) lo hi (a.toInt + b.toInt) ∧ sat (.ssub rd ra rb) lo hi (a.toInt - b.toInt)
    ∧ sat (.uadds rd ra rb) 0 0xFFFFFFFF (a.toNat + b.toNat) ∧ sat (.usubs rd ra rb) 0 0xFFFFFFFF ((a.toNat : Int) - b.toNat)
    ∧ sat (.smulqs rd ra rb aux) lo hi (Int.fdiv (a.toInt * b.toInt + if f = 0 then 0 else 2 ^ (f - 1)) (2 ^ f))
    ∧ sat (.sshl rd ra aux) lo hi (a.toInt * 2 ^ f) ∧ sat (.sneg rd ra) lo hi (-a.toInt) ∧ sat (.sabs rd ra) lo hi a.toInt.natAbs
    ∧ sat (.snarrow rd ra aux) (-(2 ^ f : Int)) (2 ^ f - 1) a.toInt

/-- With no store posted or refused before it, a load of custody SRAM or a Strongroom register writes the bytes the gate passed into rd, zero- or sign-extended, and a refused one raises BUS with the address; a misaligned access raises ALIGN and touches no memory; a store to custody SRAM is done at once and any other is posted; a load elsewhere waits and BUS_RESPONSE completes it; FENCE waits for posted stores and then reports the oldest refusal or retires; B is taken on its condition; CALL, CALLR, PUSH, POP and RET move g15 by a word as their steps say, and a push below the ring's bound raises STACK; SIZE 0b11 is undefined, and a jump to an address that cannot be fetched raises FETCH there. (R312, R316, R320, R321, R322, R323, R358, 10_custody_core.md) -/
def Obligations.LoadsStoresAndStack : Prop :=
  (∀ (rd base : Fin 16) (size : Fin 4) (off : BitVec 16) (env : BusEnv) (s0 : State), s0.fetches → size ≠ 3 → bit (s0.sr 35) 0 = false →
    s0.core.posted = [] → s0.core.refused = [] →
    let s := s0.fetched
    let a := s.g base + off.signExtend 32
    let n := 2 ^ size.val
    (a.toNat % n ≠ 0 →
      (∃ t, exec (.ld rd base size off env) s0 = .next t ∧ Took 5 0 a s t) ∧ (∃ t, exec (.lds rd base size off env) s0 = .next t ∧ Took 5 0 a s t)
      ∧ (∃ t, exec (.st rd base size off env) s0 = .next t ∧ Took 5 0 a s t))
    ∧ (a.toNat % n = 0 → answersAtOnce (gateOf a.toNat) = true → ∀ b u, busRead (s.coreAccess a.toNat size false) env s = (some b, u) →
      u.core.escalated = false →
      (∃ t, exec (.ld rd base size off env) s0 = .next t ∧ t = retire (setG rd (BitVec.ofNat 32 (ofLe b)) u))
      ∧ (∃ t, exec (.lds rd base size off env) s0 = .next t ∧ t = retire (setG rd (extend true b) u)))
    ∧ (a.toNat % n = 0 → answersAtOnce (gateOf a.toNat) = true → ∀ c r tag, s.gateCheck (s.coreAccess a.toNat size false) = .refuse c r tag →
      (∃ t, exec (.ld rd base size off env) s0 = .next t ∧ Took 7 1 a s t) ∧ (∃ t, exec (.lds rd base size off env) s0 = .next t ∧ Took 7 1 a s t))
    ∧ (a.toNat % n = 0 → answersAtOnce (gateOf a.toNat) = false →
      (∃ t, exec (.ld rd base size off env) s0 = .next t
        ∧ t = awaitTarget (gateOf a.toNat) { s with core := { s.core with waiting := some (.load rd a.toNat size false) } })
      ∧ (∃ t, exec (.lds rd base size off env) s0 = .next t
        ∧ t = awaitTarget (gateOf a.toNat) { s with core := { s.core with waiting := some (.load rd a.toNat size true) } }))
    ∧ (a.toNat % n = 0 → gateOf a.toNat = 0 → s.gateCheck (s.coreAccess a.toNat size true) = .pass →
      ∃ t, exec (.st rd base size off env) s0 = .next t
        ∧ t = retire { s with gte := { s.gte with sram := tputBytes (dflt 0) s.gte.sram a.toNat (le n (s.g rd).toNat) } })
    ∧ (a.toNat % n = 0 → gateOf a.toNat ≠ 0 → ∃ t, exec (.st rd base size off env) s0 = .next t
      ∧ t.core.posted = [⟨a.toNat, size, s.g rd, s.core.cring, s.ringColour s.core.cring⟩] ∧ t.core.pc = s.core.pc + 4 ∧ t.core.g = s.core.g
      ∧ t.gte = s.gte ∧ t.regs = s.regs))
  ∧ (∀ (rd base : Fin 16) (off : BitVec 16) (env : BusEnv) (s : State), s.fetches → bit (s.sr 35) 0 = false →
    (∃ t, exec (.ld rd base 3 off env) s = .next t ∧ Took 2 0 0 s.fetched t) ∧ (∃ t, exec (.lds rd base 3 off env) s = .next t ∧ Took 2 0 0 s.fetched t)
    ∧ (∃ t, exec (.st rd base 3 off env) s = .next t ∧ Took 2 0 0 s.fetched t))
  ∧ (∀ (env : BusEnv) (s : State) (rd : Fin 16) (a size : Nat) (signed : Bool) (b : Bytes) (u : State), s.stillRuns = true →
    s.core.escalated = false → s.core.waiting = some (.load rd a size signed) → s.core.posted = [] → s.core.refused = [] → a < 2 ^ 32 →
    a % sizeBytes size = 0 → s.targetReady (gateOf a) = true →
    busRead ({ s with core := { s.core with waiting := none } }.coreAccess a size false) env { s with core := { s.core with waiting := none } }
      = (some b, u) → u.core.escalated = false →
    ∃ t, exec (.busResponse env) s = .next t ∧ t = retire (setG rd (extend signed b) u))
  ∧ (∀ s0 : State, s0.fetches →
    let s := s0.fetched
    (s.core.posted = [] → s.core.refused = [] → ∃ t, exec .fence s0 = .next t ∧ Went (s.core.pc + 4) s0 t ∧ t.core.flags = s.core.flags)
    ∧ (s.core.posted ≠ [] → ∃ t, exec .fence s0 = .next t ∧ t = { s with core := { s.core with waiting := some .fence } })
    ∧ (∀ r l, s.core.posted = [] → s.core.refused = r :: l → bit (s.sr 35) 0 = false → ∃ t, exec .fence s0 = .next t
      ∧ Took 7 2 (BitVec.ofNat 32 r.2) s t ∧ t.core.refused = l))
  ∧ (∀ (gate : Fin 33) (env : BusEnv) (p : PostedStore) (l : List PostedStore) (s : State), s.stillRuns = true → s.core.escalated = false →
    s.core.waiting = none → s.core.posted = p :: l → gateOf p.addr = gate.val → gate.val = 3 ∨ gate.val = 4 →
    s.gateCheck ⟨p.addr, p.size, true, p.ring, 0, p.colour⟩ = .pass →
    ∃ t, exec (.storeAcknowledgement gate env) s = .next t ∧ t.core.posted = l ∧ t.core.pc = s.core.pc ∧ t.core.g = s.core.g
      ∧ (∀ d, gate.val = 3 → s.dramAddr p.addr = some d → t.gte.dram = tputBytes (dflt 0) s.gte.dram d (le (sizeBytes p.size) p.data.toNat)))
  ∧ (∀ (cond ra : Fin 16) (off : BitVec 22) (far : BitVec 26) (s0 : State), s0.fetches →
    let s := s0.fetched
    let near := s.core.pc + BitVec.ofInt 32 (4 * off.toInt)
    let dest := s.core.pc + BitVec.ofInt 32 (4 * far.toInt)
    let went (i : Instr) (pc : Word) : Prop :=
      (s.fetchable pc = true → ∃ t, exec i s0 = .next t ∧ Went pc s0 t ∧ t.core.flags = s.core.flags)
      ∧ (s.fetchable pc = false → bit (s.sr 35) 0 = false → ∃ t, exec i s0 = .next t ∧ Took 1 0 pc (retireTo pc s) t)
    (s.cond cond = false → ∃ t, exec (.b cond off) s0 = .next t ∧ Went (s.core.pc + 4) s0 t ∧ t.core.flags = s.core.flags)
    ∧ (s.cond cond = true → went (.b cond off) near)
    ∧ went (.jmp far) dest
    ∧ ((s.g ra).toNat % 4 = 0 → went (.jmpr ra) (s.g ra))
    ∧ ((s.g ra).toNat % 4 ≠ 0 → bit (s.sr 35) 0 = false → ∃ t, exec (.jmpr ra) s0 = .next t ∧ Took 5 0 (s.g ra) s t))
  ∧ (∀ (ra : Fin 16) (far : BitVec 26) (n : BitVec 8) (env : BusEnv) (s0 : State), s0.fetches → s0.core.posted = [] → s0.core.refused = [] →
    (s0.g 15).toNat % 4 = 0 → bit (s0.sr 35) 0 = false →
    let s := s0.fetched
    let p := s.g 15 - 4
    let dest := s.core.pc + BitVec.ofInt 32 (4 * far.toInt)
    let bound := (s.rd (Reg.CUS_STK_BOUND s.core.cring)).toNat
    (p.toNat < bound → (∃ t, exec (.push ra env) s0 = .next t ∧ Took 6 0 p s t) ∧ (∃ t, exec (.call far env) s0 = .next t ∧ Took 6 0 p s t)
      ∧ (∃ t, exec (.callr ra env) s0 = .next t ∧ Took 6 0 p s t))
    ∧ (bound ≤ p.toNat → p.toNat < 0x200000 → s.gateCheck (s.coreAccess p.toNat 2 true) = .pass →
      let pushed (v next : Word) (t : State) : Prop := t.core.pc = next ∧ t.g 15 = p ∧ (∀ r : Fin 16, r ≠ 15 → t.g r = s.g r)
        ∧ t.core.flags = s.core.flags ∧ t.gte.sram = tputBytes (dflt 0) s.gte.sram p.toNat (le 4 v.toNat) ∧ t.regs = s.regs
      (s.core.pc.toNat % 4 = 0 → s.fetchable (s.core.pc + 4) = true → ∃ t, exec (.push ra env) s0 = .next t ∧ pushed (s.g ra) (s.core.pc + 4) t)
      ∧ (dest.toNat % 4 = 0 → s.fetchable dest = true → ∃ t, exec (.call far env) s0 = .next t ∧ pushed (s.core.pc + 4) dest t)
      ∧ ((s.g ra).toNat % 4 = 0 → s.fetchable (s.g ra) = true → ∃ t, exec (.callr ra env) s0 = .next t ∧ pushed (s.core.pc + 4) (s.g ra) t))
    ∧ ((s.g 15).toNat < 0x200000 → s.gateCheck (s.coreAccess (s.g 15).toNat 2 false) = .pass →
      let v := BitVec.ofNat 32 (ofLe (s.readBytes (s.g 15).toNat 4 env.host))
      (ra ≠ 15 → ∃ t, exec (.pop ra env) s0 = .next t ∧ t.g ra = v ∧ t.g 15 = s.g 15 + 4 ∧ t.core.pc = s.core.pc + 4 ∧ t.gte = s.gte ∧ t.regs = s.regs
        ∧ (∀ r : Fin 16, r ≠ 15 → r ≠ ra → t.g r = s.g r))
      ∧ (v.toNat % 4 = 0 → s.fetchable v = true → ∃ t, exec (.ret n env) s0 = .next t ∧ t.core.pc = v
        ∧ t.g 15 = s.g 15 + BitVec.ofNat 32 (4 + 4 * n.toNat) ∧ t.gte = s.gte ∧ t.regs = s.regs ∧ (∀ r : Fin 16, r ≠ 15 → t.g r = s.g r))
      ∧ (v.toNat % 4 ≠ 0 → ∃ t, exec (.ret n env) s0 = .next t ∧ Took 5 0 v s t)))

/-- With g1 = 0 a repeated block instruction changes nothing; without RPT, BCOPY, BFILL, BCMP and BSEEK perform one element in custody SRAM, advance the addresses the table names and leave g1; repeated, BCMPC and BGCOPY perform the last element and retire; a repeated instruction stopped between two elements has its remaining work in g1 to g3 and PC still on it; a difference ends BCMP with Z 0 and K as the comparison, and a match ends BSEEK with Z 1. (R324, R325, R326, R327, 10_custody_core.md) -/
def Obligations.BlockInstructions : Prop :=
  ∀ (ra : Fin 16) (size : Fin 4) (n : Nat) (env : BusEnv) (s0 : State), s0.fetches → s0.core.posted = [] → s0.core.refused = [] → size ≠ 3 →
    let s := s0.fetched
    let w := 2 ^ size.val
    let src := (s.g 2).toNat
    let dst := (s.g 3).toNat
    let may (a k : Nat) (wr : Bool) : Prop := a + k ≤ 0x200000 ∧ a % k = 0
      ∧ s.gateCheck (s.coreAccess a (if k = 64 then 4 else size.val) wr) = .pass
    let mem (a k : Nat) : Bytes := s.readBytes a k env.host
    let put (a : Nat) (b : Bytes) : Tab Byte := tputBytes (dflt 0) s.gte.sram a b
    let keeps (t : State) : Prop := t.regs = s.regs ∧ t.gte.dram = s.gte.dram ∧ (∀ r : Fin 16, r ≠ 1 → r ≠ 2 → r ≠ 3 → t.g r = s.g r)
    (s.g 1 = 0 → ∀ i, i = .bcopy true size n env ∨ i = .bfill true size ra n env ∨ i = .bcmp true size n env ∨ i = .bseek true size ra n env
        ∨ i = .bcmpc true size n env ∨ i = .bgcopy true 0 n env →
      ∃ t, exec i s0 = .next t ∧ Went (s.core.pc + 4) s0 t ∧ t.core.flags = s.core.flags)
    ∧ (may src w false → may dst w true → ∃ t, exec (.bcopy false size n env) s0 = .next t ∧ t.core.pc = s.core.pc + 4 ∧ t.g 1 = s.g 1
      ∧ t.g 2 = s.g 2 + BitVec.ofNat 32 w ∧ t.g 3 = s.g 3 + BitVec.ofNat 32 w ∧ t.gte.sram = put dst (mem src w) ∧ keeps t)
    ∧ (may src w false → may dst w true → s.g 1 = 2 → ∃ t, exec (.bcopy true size 1 env) s0 = .next t ∧ t.core.pc = s.core.pc ∧ t.g 1 = 1
      ∧ t.g 2 = s.g 2 + BitVec.ofNat 32 w ∧ t.g 3 = s.g 3 + BitVec.ofNat 32 w ∧ t.gte.sram = put dst (mem src w) ∧ keeps t)
    ∧ (may dst w true → ∃ t, exec (.bfill false size ra n env) s0 = .next t ∧ t.core.pc = s.core.pc + 4 ∧ t.g 1 = s.g 1 ∧ t.g 2 = s.g 2
      ∧ t.g 3 = s.g 3 + BitVec.ofNat 32 w ∧ t.gte.sram = put dst (le w (s.g ra).toNat) ∧ keeps t)
    ∧ (may src w false → may dst w false → mem src w ≠ mem dst w → ∃ t, exec (.bcmp false size n env) s0 = .next t ∧ t.core.pc = s.core.pc + 4
      ∧ t.core.g = s.core.g ∧ t.fZ = false ∧ t.fK = decide (ofLe (mem src w) < ofLe (mem dst w)) ∧ t.gte.sram = s.gte.sram ∧ keeps t)
    ∧ (may src w false → may dst w false → mem src w = mem dst w → ∃ t, exec (.bcmp false size n env) s0 = .next t ∧ t.core.pc = s.core.pc + 4
      ∧ t.g 1 = s.g 1 ∧ t.g 2 = s.g 2 + BitVec.ofNat 32 w ∧ t.g 3 = s.g 3 + BitVec.ofNat 32 w ∧ t.fZ = true ∧ t.gte.sram = s.gte.sram ∧ keeps t)
    ∧ (may src w false → mem src w = le w (s.g ra).toNat → ∃ t, exec (.bseek false size ra n env) s0 = .next t ∧ t.core.pc = s.core.pc + 4
      ∧ t.core.g = s.core.g ∧ t.fZ = true ∧ t.gte.sram = s.gte.sram ∧ keeps t)
    ∧ (may src w false → mem src w ≠ le w (s.g ra).toNat → ∃ t, exec (.bseek false size ra n env) s0 = .next t ∧ t.core.pc = s.core.pc + 4
      ∧ t.g 1 = s.g 1 ∧ t.g 2 = s.g 2 + BitVec.ofNat 32 w ∧ t.g 3 = s.g 3 ∧ t.fZ = false ∧ t.gte.sram = s.gte.sram ∧ keeps t)
    ∧ (may src w false → may dst w false → s.g 1 = 1 → ∃ t, exec (.bcmpc true size (n + 1) env) s0 = .next t ∧ t.core.pc = s.core.pc + 4
      ∧ t.g 1 = 0 ∧ t.g 2 = s.g 2 + BitVec.ofNat 32 w ∧ t.g 3 = s.g 3 + BitVec.ofNat 32 w
      ∧ t.fZ = (s.fZ && decide (mem src w = mem dst w)) ∧ t.fK = s.fK ∧ t.gte.sram = s.gte.sram ∧ keeps t)
    ∧ (may src 64 false → may dst 64 true → s.g 1 = 1 → ∃ t, exec (.bgcopy true 0 (n + 1) env) s0 = .next t ∧ t.core.pc = s.core.pc + 4
      ∧ t.g 1 = 0 ∧ t.g 2 = s.g 2 + 64 ∧ t.g 3 = s.g 3 + 64 ∧ t.gte.sram = put dst (mem src 64) ∧ t.gte.sramTags = s.gte.sramTags ∧ keeps t)

/-- NOP retires; MFS and RDFEAT read and MTS writes a special register, and outside ring 0 an MTS, an MFS of another ring's registers and WAIT raise PRIV; WAIT waits in ring 0 until a source is eligible; GATE saves the caller in the target ring's link and enters at FENTRY plus the offset, and a busy link raises GATE with detail 4; GRET restores the link, the exception context or the context of the highest active level and clears its busy bit; an undefined word raises UNDEF and counts; an exception while ECTL.BUSY is 1 resets the custody cores; a takeable source of the highest priority is taken at its level's vector with the context saved, after a WAIT that it ends. (R317, R331, R333, R342, R346, R349, R352, R354, R355, R362, R364, 11_privilege_and_exceptions.md) -/
def Obligations.RingsGatesAndInterrupts : Prop :=
  (∀ (rd ra : Fin 16) (s0 : State), s0.fetches →
    let s := s0.fetched
    (∃ t, exec .nop s0 = .next t ∧ Went (s.core.pc + 4) s0 t ∧ t.core.flags = s.core.flags)
    ∧ (∀ i : BitVec 12, srDefined i.toNat = true → i.toNat ≠ 2 → (16 ≤ i.toNat → srReadable s.core.cring i.toNat = true) →
      ∃ t, exec (.mfs rd i) s0 = .next t ∧ Wrote rd (s.mfsValue i.toNat) s0 t ∧ t.core.flags = s.core.flags)
    ∧ (∃ t, exec (.mfs rd 2) s0 = .next t ∧ t.g rd = s.core.cycle.setWidth 32 ∧ t.core.cycleHi = (s.core.cycle >>> 32).setWidth 32)
    ∧ (∀ i : BitVec 12, i.toNat < 8 → ∃ t, exec (.rdfeat rd i) s0 = .next t ∧ Wrote rd (s.rd (Reg.CUS_FEAT i.toNat)) s0 t ∧ t.core.flags = s.core.flags)
    ∧ (∃ t, exec (.mts 0 ra) s0 = .next t ∧ Went (s.core.pc + 4) s0 t ∧ t.core.flags = (s.g ra).setWidth 5)
    ∧ (s.core.cring = 0 → ∀ i : BitVec 12, 16 ≤ i.toNat → i.toNat ≤ 58 → i.toNat ≠ 23 → i.toNat ≠ 39 →
      ∃ t, exec (.mts i ra) s0 = .next t ∧ t.sr i.toNat = s.g ra &&& srMask i.toNat ∧ t.core.pc = s.core.pc + 4
        ∧ (∀ k, k ≠ i.toNat → t.sr k = s.sr k) ∧ t.core.g = s.core.g)
    ∧ (s.core.cring ≠ 0 → bit (s.sr 35) 0 = false → (∃ t, exec (.mts 33 ra) s0 = .next t ∧ Took 3 2 0 s t)
      ∧ (∃ t, exec (.mfs rd 33) s0 = .next t ∧ Took 3 1 0 s t) ∧ (∃ t, exec .wait s0 = .next t ∧ Took 3 3 0 s t)))
  ∧ (∀ s0 : State, s0.fetches → s0.core.cring = 0 →
    let s := s0.fetched
    (s.bestSource = none → ∃ t, exec .wait s0 = .next t ∧ t.core.waiting = some .wait ∧ t.core.pc = s.core.pc
      ∧ t.bitOf Reg.CUS_STATUS 3 = true ∧ t.core.g = s.core.g)
    ∧ (s.bestSource.isSome = true → ∃ t, exec .wait s0 = .next t ∧ Went (s.core.pc + 4) s0 t))
  ∧ (∀ s : State, s.stillRuns = true → s.core.escalated = false → s.core.waiting = some .wait → s.bestSource.isSome = true →
    ∃ t, exec .waitWake s = .next t
      ∧ t.core.waiting = none ∧ t.core.pc = s.core.pc + 4 ∧ t.bitOf Reg.CUS_STATUS 3 = false ∧ t.core.g = s.core.g ∧ t.core.cring = s.core.cring)
  ∧ (∀ (n : BitVec 12) (s0 : State), s0.fetches → n.toNat < 256 →
    let s := s0.fetched
    let r := s.core.cring
    let e := s.gateEntry n.toNat
    let k := bits e 2 1
    let entry := s.sr (16 + k) + BitVec.ofNat 32 (4 * bits e 31 16)
    1 ≤ r → r ≤ 3 → bit e 0 = true → k < r → bit e (3 + r) = true →
    (bit (s.sr (30 + k)) 0 = false → s.fetchable entry = true → ∃ t, exec (.gate n) s0 = .next t ∧ t.core.pc = entry ∧ t.core.cring = k
      ∧ t.core.flags = 0 ∧ t.g 15 = s.sr (20 + k) ∧ (∀ x : Fin 16, x ≠ 15 → t.g x = s.g x) ∧ t.sr (24 + k) = (s.core.pc + 4) &&& 0xFFFFFFFC
      ∧ t.sr (27 + k) = s.g 15 &&& 0xFFFFFFFC ∧ t.sr (30 + k) = BitVec.ofNat 32 (1 + 2 * r + 8 * s.core.flags.toNat + 256 * n.toNat)
      ∧ t.gte = s.gte ∧ t.regs = s.regs)
    ∧ (bit (s.sr (30 + k)) 0 = true → bit (s.sr 35) 0 = false → ∃ t, exec (.gate n) s0 = .next t ∧ Took 4 4 (BitVec.ofNat 32 n.toNat) s t))
  ∧ (∀ s0 : State, s0.fetches →
    let s := s0.fetched
    let back (i : Instr) (pc g15 ctl : Word) (t : State) : Prop := exec i s0 = .next t ∧ t.core.pc = pc ∧ t.g 15 = g15 ∧ t.core.cring = bits ctl 2 1
      ∧ t.core.flags.toNat = bits ctl 7 3 ∧ (∀ x : Fin 16, x ≠ 15 → t.g x = s.g x) ∧ t.gte = s.gte ∧ t.regs = s.regs
    (∀ r, r = s.core.cring → r ≤ 2 →
      (bit (s.sr (30 + r)) 0 = true → r ≤ bits (s.sr (30 + r)) 2 1 → s.fetchable (s.sr (24 + r)) = true →
        ∃ t, back (.gret 0) (s.sr (24 + r)) (s.sr (27 + r)) (s.sr (30 + r)) t ∧ bit (t.sr (30 + r)) 0 = false)
      ∧ (bit (s.sr (30 + r)) 0 = false → bit (s.sr 35) 0 = false → ∃ t, exec (.gret 0) s0 = .next t ∧ Took 4 5 0 s t))
    ∧ (s.core.cring = 0 → bit (s.sr 35) 0 = true → s.fetchable (s.sr 33) = true →
      ∃ t, back (.gret 1) (s.sr 33) (s.sr 34) (s.sr 35) t ∧ bit (t.sr 35) 0 = false)
    ∧ (∀ p, s.core.cring = 0 → s.topLevel = some p → s.fetchable (s.sr (40 + p)) = true →
      ∃ t, back (.gret 2) (s.sr (40 + p)) (s.sr (44 + p)) (s.sr (48 + p)) t ∧ bit (t.sr 52) (4 + p) = false))
  ∧ (∀ (w : Word) (s0 : State), s0.fetches → definedWord w = false →
    let s := s0.fetched
    (bit (s.sr 35) 0 = false → ∃ t, exec (.undefinedInstruction w) s0 = .next t ∧ Took 2 0 0 s t
      ∧ t.rd Reg.CUS_UNDEF = up (s.rd Reg.CUS_UNDEF) 1
      ∧ (0x30 ≤ bits w 31 26 → bits w 31 26 ≤ 0x37 → t.rd Reg.CUS_FP_TRAP = up (s.rd Reg.CUS_FP_TRAP) 1))
    ∧ (bit (s.sr 35) 0 = true → s.bitOf Reg.CUS_BOOT 0 = false → ∃ t, exec (.undefinedInstruction w) s0 = .next t
      ∧ t.sys.cusInReset = true ∧ t.bitOf Reg.SYS_RESET_CAUSE 5 = true ∧ t.gte.sram = [] ∧ t.core = CoreState.reset))
  ∧ (∀ (n : Nat) (s : State), s.stillRuns = true → s.core.escalated = false → s.takeable = some n → s.core.cring ≤ 3 →
    let p := s.prio n
    let pc := if s.core.waiting = some .wait then s.core.pc + 4 else s.core.pc
    ∃ t, exec .interruptEntry s = .next t ∧ t.core.pc = s.sr 38 + BitVec.ofNat 32 (0x400 + 0x40 * p) ∧ t.core.cring = 0 ∧ t.core.flags = 0
      ∧ t.sr (40 + p) = pc &&& 0xFFFFFFFC ∧ t.sr (44 + p) = s.g 15 &&& 0xFFFFFFFC ∧ bit (t.sr 52) (4 + p) = true
      ∧ bits (t.sr (48 + p)) 21 16 = n ∧ bits (t.sr (48 + p)) 2 1 = s.core.cring ∧ bits (t.sr (48 + p)) 7 3 = s.core.flags.toNat
      ∧ t.g 15 = (if s.core.cring = 0 then s.g 15 else s.sr 20) ∧ (∀ x : Fin 16, x ≠ 15 → t.g x = s.g x) ∧ t.gte = s.gte
      ∧ t.core.waiting = none ∧ (s.core.waiting ≠ some .wait → t.regs = s.regs))

/-- A write that its gate passes changes a plain register by its access codes and no other register, a value out of range changes nothing, and the low half of a pair only waits in its stage; one that a gate refuses is counted and changes nothing else of the register. GTE_SEL loads the committed region; GTE_COMMIT replaces it, or keeps it and shows the failing condition; a retag gives every granule of its range the new tag and zeroes those whose tag changed; reading GTE_VIO3 removes the head record. (R8, R9, R371, R374, R377, R380, R381, R384, R385, 12_access_control.md) -/
def Obligations.AccessControl : Prop :=
  (∀ (ring : Fin 4) (master : BitVec 11) (colour : BitVec 10) (size : Fin 5) (addr value : Word) (env : BusEnv) (s : State),
    s.sys.mainPower = true → 128 ≤ master.toNat ∨ (s.sys.cusInReset = false ∧ s.core.stopped = false) →
    5 ≤ gateOf addr.toNat → gateOf addr.toNat < 28 →
    let core := master.toNat / 128 == 0
    let a : Access := ⟨addr.toNat, size, true, if core then ring else 0, master.toNat, if core then s.ringColour ring else colour.toNat⟩
    (∀ c r tag, s.gateCheck a = .refuse c r tag → ∃ t, exec (.registerWrite ring master colour size addr value env) s = .next t
      ∧ t = violate (if c = 0x9 ∧ writeRefused a value s = true then 0x8 else c) r tag a s
      ∧ t.rd Reg.GTE_VIO_COUNT = up (s.rd Reg.GTE_VIO_COUNT) 1 ∧ t.sys = s.sys ∧ t.gte.regions = s.gte.regions)
    ∧ (∀ b row i, s.gateCheck a = .pass → findReg addr.toNat = some (b, row, i) → row.pair = 0 → ownWrite row.name i a value env s = none →
      writeRefused a value s = false →
      row.name ∉ ["DIG_SNOOP_CTL", "TLY_SEL", "TLY_CL_SEL", "FSH_CTL", "RNG_CTL", "PKE_CTL", "THM_KEEP_VFULL", "NFR_CTL"] →
      let v := s.fieldKept row.name addr.toNat value
      let m := row.writable i &&& (row.rw ||| row.wo ||| (if s.blockLocked b addr.toNat then 0 else row.rwl))
      ∃ t, exec (.registerWrite ring master colour size addr value env) s = .next t
        ∧ (s.valueOk row.name (v &&& (row.rw ||| row.rwl)) = true →
          t.rd addr.toNat = ((s.rd addr.toNat &&& ~~~m) ||| (v &&& m) ||| (v &&& row.w1s)) &&& ~~~(v &&& row.w1c)
          ∧ (∀ x, x ≠ addr.toNat → t.rd x = s.rd x) ∧ t = { s with regs := t.regs })
        ∧ (s.valueOk row.name (v &&& (row.rw ||| row.rwl)) = false → row.rw ||| row.rwl ≠ 0 → t = s))
    ∧ (∀ b row i, s.gateCheck a = .pass → findReg addr.toNat = some (b, row, i) → row.pair = 1 → row.rw ||| row.rwl ||| row.wo ≠ 0 →
      writeRefused a value s = false → ∃ t, exec (.registerWrite ring master colour size addr value env) s = .next t
        ∧ tget (dflt none) t.gte.stages addr.toNat = some (master.toNat, value) ∧ t.regs = s.regs))
  ∧ (∀ (value : Word) (s : State),
    (∃ t, exec (.gteSelLoad value) s = .next t ∧ t.rd Reg.GTE_SEL = value &&& 0xF3F ∧ t.gte = s.gte
      ∧ (let r := s.rgn (bits value 5 0) (bits value 11 8)
        t.rd Reg.GTE_RGN_BASE = r.base ∧ t.rd Reg.GTE_RGN_LIMIT = r.limit ∧ t.rd Reg.GTE_RGN_ATTR = r.attr ∧ t.rd Reg.GTE_RGN_COLR = r.colr))
    ∧ (bit value 0 = false → exec (.gteCommit value) s = .next s)
    ∧ (bit value 0 = true →
      let g := s.fld Reg.GTE_SEL 5 0
      let r := s.fld Reg.GTE_SEL 11 8
      let n : Rgn := ⟨s.rd Reg.GTE_RGN_BASE, s.rd Reg.GTE_RGN_LIMIT, s.rd Reg.GTE_RGN_ATTR, s.rd Reg.GTE_RGN_COLR⟩
      ((s.commitCode g r n).1 = 0 → g < 32 → ∃ t, exec (.gteCommit value) s = .next t ∧ t.rgn g r = n ∧ t.fld Reg.GTE_CFG_STAT 3 0 = 0
        ∧ (∀ x y, y < 16 → (x, y) ≠ (g, r) → t.rgn x y = s.rgn x y) ∧ t.gte.sram = s.gte.sram)
      ∧ ((s.commitCode g r n).1 ≠ 0 → ∃ t, exec (.gteCommit value) s = .next t ∧ t.gte = s.gte
        ∧ t.fld Reg.GTE_CFG_STAT 3 0 = (s.commitCode g r n).1)))
  ∧ (∀ (page : Fin 256) (value : Word) (s : State), ∃ t, exec (.gteDpageWrite page value) s = .next t
    ∧ t.rd (Reg.GTE_DPAGE page) = value &&& 0x80001FFF ∧ (∀ x, x ≠ Reg.GTE_DPAGE page → t.rd x = s.rd x) ∧ t = { s with regs := t.regs })
  ∧ (∀ (value : Word) (s : State), s.gte.retag = none → bit value 16 = true →
    let dram := bit value 12
    let first := if dram then s.rd64 Reg.GTE_TAG_ADDR_LO else s.rd64 Reg.GTE_TAG_ADDR_LO / 64
    let n := s.fld Reg.GTE_TAG_LEN 28 0
    let c := bits value 9 0
    let bad := (772 ≤ c ∧ c ≤ 1019) ∨ spaceGranules dram < first + n
    (¬ bad → ∃ t, exec (.tagRetagStart value) s = .next t ∧ t.gte = { s.gte with retag := some ⟨dram, first, n, c⟩ }
      ∧ t.bitOf Reg.GTE_TAG_CTL 16 = true ∧ t.bitOf Reg.GTE_STATUS 1 = true)
    ∧ (bad → ∃ t, exec (.tagRetagStart value) s = .next t ∧ t.gte = s.gte ∧ t.bitOf Reg.GTE_TAG_CTL 17 = true))
  ∧ (∀ (s : State) (r : Retag), s.gte.retag = some r → r.dram = false →
    ∃ t, exec .tagRetagDone s = .next t ∧ t.gte.retag = none ∧ t.bitOf Reg.GTE_TAG_CTL 16 = false ∧ t.bitOf Reg.GTE_STATUS 1 = false
      ∧ t.bitOf Reg.GTE_IRQ_STATUS 3 = true ∧ t.gte.dram = s.gte.dram
      ∧ (∀ g, t.sramTag g = if r.first ≤ g ∧ g < r.first + r.count then r.colour else s.sramTag g)
      ∧ (∀ a, tget (dflt 0) t.gte.sram a = if r.first ≤ a / 64 ∧ a / 64 < r.first + r.count ∧ s.sramTag (a / 64) ≠ r.colour then 0
          else tget (dflt 0) s.gte.sram a))
  ∧ (∀ s : State, ∃ t, exec .gteVioPop s = .next t ∧ t = { s with gte := { s.gte with log := s.gte.log.drop 1 } })

/-- OPEN makes the selected context a new session, keyed by the slot's midstates when HMAC is set, fails it with error SLOT, USAGE or RANGE, and is refused from rings 2 and 3, as IMPORT is; FEED starts a feed only within the declared total; the end of a feed absorbs its bytes, and the last one finishes the digest, which a comparison hides; a refused read leaves the session open as it was, and a feed whose flash read waits goes on waiting; a feed of a host session ends its command; ABORT frees the context, EXPORT writes its blob and frees it, IMPORT restores it. An extension replaces a measurement register by SHA-384 of its contents and the value, for ring 0 and an open range alone; the custody core's read of the first word snapshots the other eleven for it. (R387, R390, R393, R394, R395, R396, R397, R398, 13_digest_and_cipher.md) -/
def Obligations.DigestEngine : Prop :=
  (∀ s : State, s.jobCtx = true → s.core.cring ≤ 1 →
    let i := s.ctxSel
    let x := s.ctx i
    let job := s.rd Reg.DIG_JOB
    let col := s.fld Reg.DIG_JOB_COLOUR 9 0
    let alg := bits job 1 0
    let total := s.rd64 Reg.DIG_TOTAL_LO
    let new : DigSession := ⟨none, col, alg, false, 0, total, 0, algInit alg, [], [], job, 1, 0, [], s.core.cring == 0⟩
    (alg = 3 → ∃ t, exec .digGoOpen s = .next t ∧ t.ctx i = { x with stat := 4, err := 5 } ∧ t.keys = s.keys)
    ∧ (alg ≠ 3 → bit job 2 = false → ∃ t, exec .digGoOpen s = .next t
      ∧ (total ≠ 0 → t.ctx i = new)
      ∧ (total = 0 → t.ctx i = { new with stat := 3, result := if bit job 3 then [] else new.digest })
      ∧ t.dig.evicted = (if x.stat = 1 then s.dig.evicted ++ [x] else s.dig.evicted)
      ∧ (∀ k, k ≠ i → t.ctx k = s.ctx k) ∧ t.dig.feeds = s.dig.feeds ∧ t.keys = s.keys ∧ (bit job 4 = false ∨ total ≠ 0 → t.mrs = s.mrs))
    ∧ (∀ k, alg ≠ 3 → total ≠ 0 → bit job 2 = true → s.mintUp = true → s.macSlot (s.rd Reg.DIG_SLOT).toNat col = .ok k →
      ∃ t, exec .digGoOpen s = .next t
        ∧ (t.ctx i).inner = (midstates alg (s.slot k).keyBytes).1 ∧ (t.ctx i).outer = (midstates alg (s.slot k).keyBytes).2
        ∧ (t.ctx i).hmac = true ∧ (t.ctx i).stat = 1 ∧ t.keys = (chargeStored k s).keys)
    ∧ (∀ e, alg ≠ 3 → bit job 2 = true → s.mintUp = true → s.macSlot (s.rd Reg.DIG_SLOT).toNat col = .error e →
      ∃ t, exec .digGoOpen s = .next t ∧ (e = 3 ∨ e = 4) ∧ t.ctx i = { x with stat := 4, err := e } ∧ t.keys = s.keys
        ∧ t.bitOf Reg.DIG_IRQ_STATUS 8 = true)
    ∧ (alg ≠ 3 → bit job 2 = true → s.mintUp = false → ∃ t, exec .digGoOpen s = .next t ∧ t.ctx i = { x with stat := 4, err := 3 }
      ∧ t.keys = s.keys)
    ∧ (∀ host b u, s.bitOf Reg.DIG_CTL 1 = true → dmaRead 256 col (s.rd64 Reg.DIG_ESC_ADDR_LO) 312 host s = (some b, u) →
      (∀ y, readBlob b u = .ok y → y.colour = col → y.hmac = false → ∃ t, exec (.digGoImport host) s = .next t
        ∧ t.ctx i = { y with job := u.rd Reg.DIG_JOB, ring0 := s.core.cring == 0 } ∧ t.keys = s.keys)
      ∧ (∀ y k, readBlob b u = .ok y → y.colour = col → y.hmac = true → u.macSlot y.handle col = .ok k →
        ∃ t, exec (.digGoImport host) s = .next t
          ∧ t.ctx i = { y with job := u.rd Reg.DIG_JOB, ring0 := s.core.cring == 0 } ∧ t.keys = (chargeStored k u).keys)
      ∧ (∀ y, readBlob b u = .ok y → y.colour ≠ col → ∃ t, exec (.digGoImport host) s = .next t ∧ (t.ctx i).stat = 4 ∧ (t.ctx i).err = 5)
      ∧ (∀ e, readBlob b u = .error e → ∃ t, exec (.digGoImport host) s = .next t ∧ (t.ctx i).stat = 4 ∧ (t.ctx i).err = 5))
    ∧ (∀ host u, s.bitOf Reg.DIG_CTL 1 = true → dmaRead 256 col (s.rd64 Reg.DIG_ESC_ADDR_LO) 312 host s = (none, u) →
      ∃ t, exec (.digGoImport host) s = .next t ∧ (t.ctx i).stat = 4 ∧ (t.ctx i).err = 1))
  ∧ (∀ (host : Bytes) (s : State), 1 < s.core.cring → ∀ i, i = .digGoOpen ∨ i = .digGoImport host →
    ∃ t, exec i s = .next t ∧ t.dig = s.dig ∧ t.keys = s.keys ∧ t.rd Reg.GTE_VIO_COUNT = up (s.rd Reg.GTE_VIO_COUNT) 1)
  ∧ (∀ s : State, s.jobCtx = true →
    let i := s.ctxSel
    let x := s.ctx i
    let col := s.fld Reg.DIG_JOB_COLOUR 9 0
    let n := (s.rd Reg.DIG_LEN).toNat
    let a := s.rd64 Reg.DIG_ESC_ADDR_LO
    (x.stat = 1 → s.sessionLive x = true → n ≠ 0 → x.absorbed + n ≤ x.total → ∃ t, exec .digGoFeed s = .next t
      ∧ t.ctx i = { x with stat := 2, err := 0 } ∧ t.dig.feeds = s.dig.feeds ++ [⟨.context i, s.rd64 Reg.DIG_SRC_LO, n, col, none, none, false⟩]
      ∧ t.regs = s.regs)
    ∧ (x.stat = 1 → s.sessionLive x = false → n ≠ 0 → x.absorbed + n ≤ x.total → ∃ t, exec .digGoFeed s = .next t
      ∧ t.ctx i = { x with stat := 4, err := 3 } ∧ t.dig.feeds = s.dig.feeds)
    ∧ (x.total < x.absorbed + n → exec .digGoFeed s = .next s)
    ∧ (x.stat = 1 → s.bitOf Reg.DIG_CTL 1 = true →
      (s.dmaCheck 256 x.colour true a 312 = none → ∃ t, exec .digGoExport s = .next t ∧ t.ctx i = DigSession.free
        ∧ (a < 0x200000 → t.gte.sram = tputBytes (dflt 0) s.gte.sram a (blobOf x s)) ∧ t.dig.serial = s.dig.serial + 1
        ∧ (∀ k, k ≠ i → t.ctx k = s.ctx k) ∧ t.regs = s.regs)
      ∧ (∀ v, s.dmaCheck 256 x.colour true a 312 = some v → ∃ t, exec .digGoExport s = .next t ∧ t.ctx i = { x with stat := 4, err := 1 })))
  ∧ (∀ s : State, ∃ t, exec .digGoAbort s = .next t ∧ t.ctx s.ctxSel = DigSession.free ∧ (∀ k, k ≠ s.ctxSel → t.ctx k = s.ctx k)
    ∧ (∀ f ∈ t.dig.feeds, f ∈ s.dig.feeds ∧ f.target ≠ .context s.ctxSel) ∧ t.regs = s.regs)
  ∧ (∀ (host : Bytes) (r : EngineResult) (s : State) (f : DigFeed) (fs : List DigFeed), s.dig.feeds = f :: fs → f.cmd = none →
    s.readWaits f.addr = true → ∃ t, exec (.digestFeedDone host r) s = .next t ∧ t = askSuspend s)
  ∧ (∀ (host d : Bytes) (s v : State) (f : DigFeed) (fs : List DigFeed) (i : Nat), s.dig.feeds = f :: fs → f.target = .context i → f.cmd = none →
    s.readWaits f.addr = false → i < 6 →
    let u : State := { s with dig := { s.dig with feeds := fs } }
    let x := s.ctx i
    let y := x.absorb d
    dmaRead 256 f.colour f.addr f.len host u = (some d, v) →
    (v.sessionLive x = false → ∀ r, ∃ t, exec (.digestFeedDone host r) s = .next t ∧ t.ctx i = { x with stat := 4, err := 3 })
    ∧ (v.sessionLive x = true →
      (y.absorbed ≠ x.total → ∃ t, exec (.digestFeedDone host .good) s = .next t ∧ t.ctx i = { y with stat := 1 }
        ∧ t.dig.feeds = v.dig.feeds ∧ t.regs = v.regs)
      ∧ (y.absorbed = x.total → bit x.job 4 = false → ∃ t, exec (.digestFeedDone host .good) s = .next t
        ∧ t.ctx i = { y with stat := 3, result := if bit x.job 3 then [] else y.digest }
        ∧ t.bitOf Reg.DIG_IRQ_STATUS i = true ∧ t.mrs = v.mrs
        ∧ (bit x.job 3 = true → (t.rd Reg.DIG_CMP, t.rd Reg.DIG_CMP_INV) =
          if y.digest = v.digExpected y.digest.length then (0x5AC33CA5, 0xA53CC35A) else (0, 0xFFFFFFFF)))
      ∧ (y.absorbed = x.total → bit x.job 4 = false → bit x.job 3 = true → ∃ t, exec (.digestFeedDone host .disagree) s = .next t
        ∧ t.rd Reg.DIG_CMP = 0 ∧ t.rd Reg.DIG_CMP_INV = 0 ∧ t.bitOf Reg.DIG_IRQ_STATUS 10 = true)
      ∧ (∃ t, exec (.digestFeedDone host .readFail) s = .next t ∧ t.ctx i = { x with stat := 1, err := 1 } ∧ t.bitOf Reg.DIG_IRQ_STATUS 8 = true)
      ∧ (∃ t, exec (.digestFeedDone host .fault) s = .next t ∧ t.ctx i = { x with stat := 1 } ∧ t.bitOf Reg.DIG_IRQ_STATUS 8 = true)))
  ∧ (∀ (host : Bytes) (s : State) (f : DigFeed) (fs : List DigFeed) (n : Nat) (c : CmdRef), s.dig.feeds = f :: fs → f.target = .session n →
    f.cmd = some c →
    let u : State := { s with dig := { s.dig with feeds := fs } }
    let x := s.session n
    let y := x.absorb (fit f.len host)
    let back := if f.oneShot then closeHostSession n u else setSession n { x with stat := 1 } u
    let fin := if f.oneShot then closeHostSession n u else leaveContext n (setSession n { y with stat := 3, result := y.digest } u)
    (s.sessionLive x = false → ∀ r, ∃ t, exec (.digestFeedDone host r) s = .next t ∧ t = finalReply c 0x2701 [] 0 back)
    ∧ (s.sessionLive x = true →
      (∃ t, exec (.digestFeedDone host .readFail) s = .next t ∧ t = finalReply c 0x1703 [] 0 back)
      ∧ (∃ t, exec (.digestFeedDone host .fault) s = .next t ∧ t = finalReply c 0x4701 [] 0 back)
      ∧ (y.absorbed ≠ y.total → ∃ t, exec (.digestFeedDone host .good) s = .next t ∧ t = finalReply c 0 [] 0 (setSession n { y with stat := 1 } u))
      ∧ (y.absorbed = y.total → f.expect = none → ∃ t, exec (.digestFeedDone host .good) s = .next t ∧ t = finalReply c 0 y.digest 0 fin)
      ∧ (∀ e, y.absorbed = y.total → f.expect = some e →
        (∃ t, exec (.digestFeedDone host .good) s = .next t ∧ t = finalReply c (if y.digest = e then 0 else 0x1706) [] 0 fin)
        ∧ (∃ t, exec (.digestFeedDone host .disagree) s = .next t
          ∧ t = finalReply c 0xE701 [] 0 (alarm 0x08 4 (srcMaster 256) true (irq Reg.DIG_IRQ_STATUS 4 10 fin))))))
  ∧ (∀ (ring : Fin 4) (value : Word) (s : State),
    let i := bits value 4 0
    let n := bits value 14 8
    (ring = 0 → s.mrOpen i false = true → s.dig.extend = none → 1 ≤ n → n ≤ 64 → ∃ t, exec (.mrExtendStart ring value) s = .next t
      ∧ t.dig = { s.dig with extend := some (i, ((List.range 16).flatMap (fun k => le 4 (s.rd (Reg.DIG_MR_DATA k)).toNat)).take n) }
      ∧ t.bitOf Reg.DIG_MR_STAT 0 = true ∧ t.mrs = s.mrs)
    ∧ (ring = 0 → s.mrOpen i false = true → s.dig.extend = none → n = 0 ∨ 64 < n → exec (.mrExtendStart ring value) s = .next s)
    ∧ (ring = 0 → s.mrOpen i false = true → s.dig.extend ≠ none → ∃ t, exec (.mrExtendStart ring value) s = .next t ∧ t.dig = s.dig
      ∧ t.bitOf Reg.DIG_MR_STAT 1 = true)
    ∧ (ring ≠ 0 ∨ s.mrOpen i false = false → ∃ t, exec (.mrExtendStart ring value) s = .next t ∧ t.dig = s.dig ∧ t.mrs = s.mrs
      ∧ t.rd Reg.GTE_VIO_COUNT = up (s.rd Reg.GTE_VIO_COUNT) 1))
  ∧ (∀ (s : State) (i : Nat) (v : Bytes), s.dig.extend = some (i, v) → ∃ t, exec .mrExtendDone s = .next t ∧ t.mr i = sha384 (s.mr i ++ v)
    ∧ (∀ k, k ≠ i → t.mr k = s.mr k) ∧ t.dig.extend = none ∧ t.bitOf Reg.DIG_MR_STAT 0 = false ∧ t.bitOf Reg.DIG_IRQ_STATUS 7 = true)
  ∧ (∀ s : State, ∃ t, exec .mrValueSnapshot s = .next t ∧ t.mrs = s.mrs ∧ t.regs = s.regs ∧ t.dig = s.dig
    ∧ ∀ i, 1 ≤ i → i ≤ 11 → tget (dflt none) t.gte.snaps (2048 * Reg.DIG_MR_VAL i)
      = some (BitVec.ofNat 32 (ofLe (slice (s.mr (s.fld Reg.DIG_MR_SEL 4 0)) (4 * i) 4))))

/-- DIGEST, DIGEST_FEED and CMAC are accepted with 0x0107 and queue their work, or wait while the session, every context or the main context runs; DIGEST_OPEN answers the session number, DIGEST_EXPORT the blob, DIGEST_IMPORT a new session, DIGEST_CLOSE closes, each refused with the status of its failing check. The register key is loaded by its sixteenth word and cleared by CPH_WKEY_CLR; a staged job takes its context, an urgent one for ring 0 alone; the end of a job, an urgent one before a main one, shows the CMAC, the KCV or the comparison, or ends its command; one whose slot is gone ends with SLOT_GONE. (R390, R391, R394, R400, R401, R402, R403, R404, R407, 13_digest_and_cipher.md) -/
def Obligations.DigestCommandsAndCipher : Prop :=
  (∀ (c : HostCmd) (s : State), Runs s 0x0701 c → ∃ t, exec (.getDigestSessions c) s = .next t
    ∧ t = finalReply c.ref 0 ((s.sessionsOf c.fn).flatMap (fun e => be 2 e.1 ++ be 1 (e.2.alg + 128 * b2n e.2.hmac) ++ be 1 e.2.stat
      ++ be 4 e.2.handle ++ be 8 e.2.total ++ be 8 e.2.absorbed)) 0 s)
  ∧ (∀ (c : HostCmd) (alg : Fin 3) (addr total : BitVec 64) (handle : Option (BitVec 32)) (expect : Option Bytes) (s : State),
    let one := Instr.digest c alg addr total handle expect
    let opn := Instr.digestOpen c alg total handle
    let h := exHandle c handle
    let made := openSession (some c.fn) c.fn (algOf c alg) total.toNat h.isSome ((h.getD 0).toNat) 0 false s
    let full : Prop := sessionLimit c.fn ≤ (s.sessionsOf c.fn).length
    (2 ^ 48 ≤ total.toNat → (Runs s 0x0710 c → ∃ t, exec one s = .next t ∧ t = finalReply c.ref 0x1702 [] 0 s)
      ∧ (Runs s 0x0711 c → ∃ t, exec opn s = .next t ∧ t = finalReply c.ref 0x1702 [] 0 s))
    ∧ (total.toNat < 2 ^ 48 → full → Runs s 0x0711 c → ∃ t, exec opn s = .next t ∧ t = finalReply c.ref 0x3701 [] 0 s)
    ∧ (∀ e, total.toNat < 2 ^ 48 → made = .error e → (Runs s 0x0710 c → ∃ t, exec one s = .next t ∧ t = finalReply c.ref (slotStatus e) [] 0 s)
      ∧ (Runs s 0x0711 c → ¬ full → ∃ t, exec opn s = .next t ∧ t = finalReply c.ref (slotStatus e) [] 0 s))
    ∧ (∀ x u, total.toNat < 2 ^ 48 → made = .ok (x, u) →
      (seatSession u.freeSession u = none → (Runs s 0x0710 c → ∃ t, exec one s = .next t ∧ t = waitAgain c.ref s)
        ∧ (Runs s 0x0711 c → ¬ full → ∃ t, exec opn s = .next t ∧ t = waitAgain c.ref s))
      ∧ (∀ v, seatSession u.freeSession u = some v →
        (Runs s 0x0710 c → ∃ t w, exec one s = .next t ∧ t = interimReply c.ref 0x0107 w ∧ w.session v.freeSession = { x with stat := 2 }
          ∧ w.keys = u.keys ∧ w.regs = v.regs
          ∧ w.dig.feeds = v.dig.feeds ++ [⟨.session v.freeSession, addr.toNat, total.toNat, c.fn, some c.ref, exExpect c expect, true⟩])
        ∧ (Runs s 0x0711 c → ¬ full → ∃ t, exec opn s = .next t ∧ t = finalReply c.ref 0 [] v.freeSession
          (if x.total = 0 then leaveContext v.freeSession (setSession v.freeSession { x with stat := 3, result := x.digest } v)
           else setSession v.freeSession x v)))))
  ∧ (∀ (c : HostCmd) (n : BitVec 16) (addr : BitVec 64) (len : BitVec 32) (expect : Option Bytes) (s : State), Runs s 0x0712 c →
    (ownSession c n s = none → ∃ t, exec (.digestFeed c n addr len expect) s = .next t ∧ t = finalReply c.ref 0x1701 [] 0 s)
    ∧ ∀ x, ownSession c n s = some x →
      (x.stat = 2 → ∃ t, exec (.digestFeed c n addr len expect) s = .next t ∧ t = waitAgain c.ref s)
      ∧ (x.stat ≠ 2 → len = 0 ∨ x.total < x.absorbed + len.toNat → ∃ t, exec (.digestFeed c n addr len expect) s = .next t
        ∧ t = finalReply c.ref 0x1702 [] 0 s)
      ∧ (x.stat ≠ 2 → len ≠ 0 → x.absorbed + len.toNat ≤ x.total → s.sessionLive x = false →
        ∃ t, exec (.digestFeed c n addr len expect) s = .next t ∧ t = finalReply c.ref 0x2701 [] 0 s)
      ∧ (x.stat ≠ 2 → len ≠ 0 → x.absorbed + len.toNat ≤ x.total → s.sessionLive x = true →
        (seatSession n.toNat s = none → ∃ t, exec (.digestFeed c n addr len expect) s = .next t ∧ t = waitAgain c.ref s)
        ∧ ∀ v, seatSession n.toNat s = some v → ∃ t w, exec (.digestFeed c n addr len expect) s = .next t ∧ t = interimReply c.ref 0x0107 w
          ∧ w.session n.toNat = { v.session n.toNat with stat := 2 } ∧ w.regs = s.regs
          ∧ w.dig.feeds = v.dig.feeds ++ [⟨.session n.toNat, addr.toNat, len.toNat, c.fn, some c.ref, exExpect c expect, false⟩]))
  ∧ (∀ (c : HostCmd) (n : BitVec 16) (s : State), Runs s 0x0713 c →
    (ownSession c n s = none → ∃ t, exec (.digestExport c n) s = .next t ∧ t = finalReply c.ref 0x1701 [] 0 s)
    ∧ ∀ x, ownSession c n s = some x →
      (x.stat = 2 → ∃ t, exec (.digestExport c n) s = .next t ∧ t = waitAgain c.ref s)
      ∧ (x.stat ≠ 2 → s.bitOf Reg.DIG_CTL 1 = false → ∃ t, exec (.digestExport c n) s = .next t ∧ t = finalReply c.ref 0x2702 [] 0 s)
      ∧ (x.stat ≠ 2 → s.bitOf Reg.DIG_CTL 1 = true →
        (c.outLen < 312 → ∃ t, exec (.digestExport c n) s = .next t ∧ t = finalReply c.ref 0x3703 [] 0 s)
        ∧ (312 ≤ c.outLen → let r := restoreSession n.toNat s
          ∃ t, exec (.digestExport c n) s = .next t
            ∧ t = finalReply c.ref 0 (blobOf (r.session n.toNat) r) 0 (closeHostSession n.toNat (nextSerial r)))))
  ∧ (∀ (c : HostCmd) (blob : Bytes) (s : State), Runs s 0x0714 c →
    (s.bitOf Reg.DIG_CTL 1 = false → ∃ t, exec (.digestImport c blob) s = .next t ∧ t = finalReply c.ref 0x2702 [] 0 s)
    ∧ (∀ e, s.bitOf Reg.DIG_CTL 1 = true → readBlob blob s = .error e → ∃ t, exec (.digestImport c blob) s = .next t
      ∧ t = finalReply c.ref e [] 0 s)
    ∧ (∀ x, s.bitOf Reg.DIG_CTL 1 = true → readBlob blob s = .ok x →
      (x.colour ≠ c.fn.val → ∃ t, exec (.digestImport c blob) s = .next t ∧ t = finalReply c.ref 0x2701 [] 0 s)
      ∧ (∀ e, x.colour = c.fn.val → x.hmac = true → s.macSlot x.handle c.fn = .error e → ∃ t, exec (.digestImport c blob) s = .next t
        ∧ t = finalReply c.ref (slotStatus e) [] 0 s)
      ∧ (∀ u, x.colour = c.fn.val → (x.hmac = false ∧ u = s ∨ x.hmac = true ∧ ∃ k, s.macSlot x.handle c.fn = .ok k ∧ u = chargeStored k s) →
        (sessionLimit c.fn ≤ (u.sessionsOf c.fn).length → ∃ t, exec (.digestImport c blob) s = .next t ∧ t = finalReply c.ref 0x3701 [] 0 u)
        ∧ ((u.sessionsOf c.fn).length < sessionLimit c.fn →
          (seatSession u.freeSession u = none → ∃ t, exec (.digestImport c blob) s = .next t ∧ t = waitAgain c.ref s)
          ∧ ∀ v, seatSession u.freeSession u = some v → ∃ t, exec (.digestImport c blob) s = .next t
            ∧ t = finalReply c.ref 0 [] v.freeSession (setSession v.freeSession { x with fn := some c.fn.val } v)))))
  ∧ (∀ (c : HostCmd) (n : BitVec 16) (s : State), Runs s 0x0715 c →
    (∀ x, ownSession c n s = some x → (x.stat ≠ 2 → ∃ t, exec (.digestClose c n) s = .next t
      ∧ t = finalReply c.ref 0 [] 0 (closeHostSession n.toNat s))
      ∧ (x.stat = 2 → ∃ t, exec (.digestClose c n) s = .next t ∧ t = waitAgain c.ref s))
    ∧ (ownSession c n s = none → ∃ t, exec (.digestClose c n) s = .next t ∧ t = finalReply c.ref 0x1701 [] 0 s))
  ∧ (∀ (c : HostCmd) (handle : BitVec 32) (addr : BitVec 64) (len : BitVec 32) (expect : Option Bytes) (s : State), Runs s 0x0716 c →
    (∀ n, s.macSlot handle.toNat c.fn = .ok n →
      (s.cph.main ≠ [] → ∃ t, exec (.cmac c handle addr len expect) s = .next t ∧ t = waitAgain c.ref s)
      ∧ (s.cph.main = [] → ∃ t w, exec (.cmac c handle addr len expect) s = .next t ∧ t = interimReply c.ref 0x0107 w
        ∧ w.cph.main = [⟨false, (s.slot n).keyBytes, some handle.toNat, c.fn, addr.toNat, len.toNat, (exExpect c expect).isSome,
          (exExpect c expect).getD [], some c.ref⟩] ∧ w.cph.urgent = s.cph.urgent ∧ w.keys = (chargeStored n s).keys
        ∧ w.bitOf Reg.CPH_STATUS 0 = true))
    ∧ (∀ e, s.macSlot handle.toNat c.fn = .error e → ∃ t, exec (.cmac c handle addr len expect) s = .next t
      ∧ t = finalReply c.ref (slotStatus e) [] 0 s))
  ∧ (∀ (share : Bool) (word : Fin 8) (value : Word) (s : State),
    (∃ t, exec (.cphWkeyWrite share word value) s = .next t
      ∧ t.rd (if share then Reg.CPH_WKEYB word else Reg.CPH_WKEYA word) = value ∧ (word.val + 8 * b2n share) ∈ t.cph.written
      ∧ t.bitOf Reg.CPH_STATUS 3 = (t.cph.written.length == 16) ∧ t.cph.main = s.cph.main ∧ t.cph.urgent = s.cph.urgent)
    ∧ (∃ t, exec .cphWkeyClear s = .next t ∧ (∀ i : Fin 8, t.rd (Reg.CPH_WKEYA i) = 0 ∧ t.rd (Reg.CPH_WKEYB i) = 0) ∧ t.cph.written = []
      ∧ t.bitOf Reg.CPH_STATUS 3 = false ∧ t.rd Reg.CPH_WKEY_USED = 0 ∧ t.cph.main = s.cph.main ∧ t.cph.urgent = s.cph.urgent))
  ∧ (∀ (ring : Fin 4) (s : State),
    let j := s.rd Reg.CPH_JOB
    let busy : Bool := if bit j 5 then s.cph.urgent != [] else s.cph.main != []
    (ring = 0 ∨ bit j 5 = false → s.bitOf Reg.CPH_CTL 0 = true →
      (∀ job u, busy = false → stageJob s = .ok (job, u) → ∃ t, exec (.cphJobStart ring) s = .next t
        ∧ t.cph.urgent = (if bit j 5 then [job] else s.cph.urgent) ∧ t.cph.main = (if bit j 5 then s.cph.main else [job])
        ∧ t.keys = u.keys ∧ t.bitOf Reg.CPH_STATUS (b2n (bit j 5)) = true)
      ∧ (∀ e, busy = false → stageJob s = .error e → ∃ t, exec (.cphJobStart ring) s = .next t ∧ t.cph = s.cph
        ∧ t.fld Reg.CPH_STATUS 15 8 = e ∧ t.bitOf Reg.CPH_IRQ_STATUS 2 = true)
      ∧ (busy = true → ∃ t, exec (.cphJobStart ring) s = .next t ∧ t.cph = s.cph ∧ t.keys = s.keys))
    ∧ (ring ≠ 0 → bit j 5 = true → ∃ t, exec (.cphJobStart ring) s = .next t ∧ t.cph = s.cph
      ∧ t.rd Reg.GTE_VIO_COUNT = up (s.rd Reg.GTE_VIO_COUNT) 1))
  ∧ (∀ (urgent : Bool) (host : Bytes) (s : State) (j : CphJob) (js : List CphJob),
    (if urgent then s.cph.urgent = j :: js else s.cph.urgent = [] ∧ s.cph.main = j :: js) →
    let u := showCph { s with cph := if urgent then { s.cph with urgent := js } else { s.cph with main := js } }
    let tagAt (i : Nat) : Nat := if urgent then Reg.CPH_UTAG i else Reg.CPH_TAG i
    let shows (t : State) (b : Bytes) : Prop := ∀ i, i < 4 → t.rd (tagAt i) = BitVec.ofNat 32 (ofLe (slice b (4 * i) 4))
    (∀ c, j.cmd = some c →
      (s.jobLive j = false → ∀ r, ∃ t, exec (.cphJobDone host r) s = .next t ∧ t = finalReply c 0x2701 [] 0 (u.bump Reg.CPH_JOBS))
      ∧ (s.jobLive j = true →
        (∃ t, exec (.cphJobDone host .good) s = .next t ∧ t = (if j.compare = false then finalReply c 0 (j.tag (fit j.len host)) 0 (u.bump Reg.CPH_JOBS)
          else finalReply c (if j.tag (fit j.len host) = j.expect then 0 else 0x1706) [] 0 (u.bump Reg.CPH_JOBS)))
        ∧ (∃ t, exec (.cphJobDone host .readFail) s = .next t ∧ t = finalReply c 0x1703 [] 0 (u.bump Reg.CPH_JOBS))
        ∧ (∃ t, exec (.cphJobDone host .fault) s = .next t ∧ t = finalReply c 0x4701 [] 0 (u.bump Reg.CPH_JOBS))))
    ∧ (j.cmd = none → j.kcv = false → s.readWaits j.addr = true → ∀ r, ∃ t, exec (.cphJobDone host r) s = .next t ∧ t = askSuspend s)
    ∧ (j.cmd = none → j.kcv = true ∨ s.readWaits j.addr = false → s.jobLive j = false → ∀ r, ∃ t, exec (.cphJobDone host r) s = .next t
      ∧ t.fld Reg.CPH_STATUS 15 8 = 4 ∧ t.bitOf Reg.CPH_IRQ_STATUS 2 = true)
    ∧ (∀ d v, j.cmd = none → j.kcv = false → s.readWaits j.addr = false → s.jobLive j = true → j.compare = false →
      dmaRead 257 j.colour j.addr j.len host u = (some d, v) → ∃ t, exec (.cphJobDone host .good) s = .next t
        ∧ t.cph = u.cph ∧ shows t (cmac j.key d) ∧ t.rd Reg.CPH_JOBS = up (v.rd Reg.CPH_JOBS) 1 ∧ t.bitOf Reg.CPH_IRQ_STATUS (b2n urgent) = true)
    ∧ (j.cmd = none → j.kcv = true → s.jobLive j = true → j.compare = false → ∃ t, exec (.cphJobDone host .good) s = .next t
      ∧ t.cph = u.cph ∧ shows t (fit 16 (kcvOf j.key)))
    ∧ (∀ d v, j.cmd = none → j.kcv = false → s.readWaits j.addr = false → s.jobLive j = true → j.compare = true →
      dmaRead 257 j.colour j.addr j.len host u = (some d, v) → ∃ t, exec (.cphJobDone host .good) s = .next t ∧ shows t []
        ∧ (t.rd (if urgent then Reg.CPH_UCMP else Reg.CPH_CMP), t.rd (if urgent then Reg.CPH_UCMP_INV else Reg.CPH_CMP_INV)) =
          if (cmac j.key d).take 16 = j.expect.take 16 then (0x5AC33CA5, 0xA53CC35A) else (0, 0xFFFFFFFF)))

/-- A passing block of a source in service adds its credit and gives an output at 320 bits; a failing block is counted and discarded, restarts the source at the second within 10 ms and makes it fatal at the eighth within 1 s. A scheduled reseed is asked for after 100 ms or 2^20 requests; a reseed waits for its entropy input and then completes the commands behind it while the software port is enabled; a reseed that waits 1 s with every source fatal sets FAILED. Cluster DRBGs, the port with its starvation, calibration passes and the commands act as their rules say, and the gate refuses the port to rings 2 and 3. (R409, R411, R412, R414, R415, R416, R417, R419, R420, R421, R424, R425) -/
def Obligations.RandomNumbers : Prop :=
  (∀ (n : Fin 3) (block : BitVec 1024) (dt : BitVec 32) (s : State),
    let u := s.advance dt.toNat
    let x := u.noise n
    let fails := u.blockFails n x (blockBits block)
    let c := x.credit + 1024 * u.fld (Reg.RNG_HCAL n) 15 0 / 65536
    let recent := (x.fails ++ [u.now]).filter (fun t => decide (u.now < t + 1000000000))
    (x.stat = 0 → x.startLeft = 0 → fails = false → ∃ t, exec (.noiseBlock n block dt) s = .next t ∧ (t.noise n).stat = 0
      ∧ (c < 320 → (t.noise n).acc = x.acc ++ be 128 block.toNat ∧ (t.noise n).credit = c ∧ (t.noise n).outs = x.outs)
      ∧ (320 ≤ c → (t.noise n).acc = [] ∧ (t.noise n).credit = 0
        ∧ (x.outs.length < 8 → (t.noise n).outs = x.outs ++ [Config.condition (x.acc ++ be 128 block.toNat)]))
      ∧ (∀ k, k ≠ n.val → t.noise k = s.noise k) ∧ t.rd Reg.RNG_BLK_FAIL = s.rd Reg.RNG_BLK_FAIL)
    ∧ (x.stat = 0 → x.startLeft = 0 → fails = true → ∃ t, exec (.noiseBlock n block dt) s = .next t
      ∧ t.rd Reg.RNG_BLK_FAIL = up (s.rd Reg.RNG_BLK_FAIL) 1 ∧ t.bitOf Reg.RNG_IRQ_STATUS 0 = true ∧ (t.noise n).outs = x.outs
      ∧ (8 ≤ recent.length → (t.noise n).stat = 3 ∧ t.bitOf Reg.RNG_IRQ_STATUS 2 = true)
      ∧ (recent.length < 8 → 2 ≤ (recent.filter (fun t => decide (u.now < t + 10000000))).length → (t.noise n).stat = 2 ∧ (t.noise n).acc = []
        ∧ t.rd Reg.RNG_RESTARTS = up (s.rd Reg.RNG_RESTARTS) 1)
      ∧ (∀ k, k ≠ n.val → t.noise k = s.noise k))
    ∧ (x.stat = 3 → ∃ t, exec (.noiseBlock n block dt) s = .next t ∧ t = u)
    ∧ (x.stat = 2 → ∃ t, exec (.sourceRestart n dt) s = .next t ∧ t.noise n = { x with stat := 1, startLeft := 4, startBad := false }
      ∧ (∀ k, k ≠ n.val → t.noise k = s.noise k)))
  ∧ (∀ (dt : BitVec 32) (s : State),
    let u := s.advance dt.toNat
    (s.rng.reseededAt + 100000000 ≤ u.now ∨ 2 ^ 20 ≤ s.rng.served →
      ∃ t, exec (.drbgScheduledReseed dt) s = .next t ∧ t.bitOf Reg.RNG_STATUS 2 = true ∧ t.rng.sources = s.rng.sources
      ∧ t.rng.requests = s.rng.requests ∧ (s.bitOf Reg.RNG_STATUS 2 = false → t.rng.waitSince = u.now))
    ∧ (u.now < s.rng.reseededAt + 100000000 → s.rng.served < 2 ^ 20 → exec (.drbgScheduledReseed dt) s = .next u)
    ∧ (s.bitOf Reg.RNG_STATUS 2 = true → s.rng.waitSince + 1000000000 ≤ u.now → (∀ n, n < 3 → (s.noise n).stat = 3) → s.rngFailed = false →
      ∃ t, exec (.drbgReseedTimeout dt) s = .next t ∧ t.bitOf Reg.RNG_STATUS 1 = true ∧ t.bitOf Reg.RNG_IRQ_STATUS 3 = true
        ∧ t.rng.requests = [] ∧ t.rng.reseedCmds = [])
    ∧ (∃ t, exec (.portStarved dt) s = .next t ∧ t.rng.sources = s.rng.sources
      ∧ ((∃ q ∈ s.rng.requests, q.since + 1000000 ≤ u.now) ∨ (s.bitOf Reg.RNG_CTL 0 = true ∧ s.rng.port.length < 64) →
        t.bitOf Reg.RNG_IRQ_STATUS 4 = true)
      ∧ ((∀ q ∈ s.rng.requests, u.now < q.since + 1000000) → s.bitOf Reg.RNG_CTL 0 = false ∨ 64 ≤ s.rng.port.length → t.regs = s.regs)
      ∧ (∀ q, q ∈ t.rng.requests ↔ q ∈ s.rng.requests ∧ u.now < q.since + 100000000)))
  ∧ (∀ s : State,
    (∀ u, s.bitOf Reg.RNG_STATUS 2 = true → s.rngReady = true → s.rngFailed = false → takeEntropy s = some u →
      ∃ t, exec .drbgReseed s = .next t ∧ t.bitOf Reg.RNG_STATUS 2 = false ∧ t.rd Reg.RNG_RESEEDS = up (s.rd Reg.RNG_RESEEDS) 1
        ∧ t.rng.extra = [] ∧ t.rng.reseedCmds = [] ∧ t.rng.sources = u.rng.sources ∧ t.rng.served = 0 ∧ t.rng.reseededAt = s.now
        ∧ (s.bitOf Reg.RNG_CTL 0 = true → t.rng.requests = [])
        ∧ (s.bitOf Reg.RNG_CTL 0 = false → t.rng.requests = s.rng.requests.map (fun q => { q with reseed := false })))
    ∧ (takeEntropy s = none → exec .drbgReseed s = .next s)
    ∧ (∀ u, s.rngReady = false → instantiateDrbg s = some u → ∃ t, exec .drbgReinstantiate s = .next t ∧ t.rngReady = true
      ∧ t.rng.sources = u.rng.sources
      ∧ (s.bitOf Reg.RNG_CTL 0 = true → s.rngFailed = false → ∀ q, q ∈ t.rng.requests ↔ q ∈ s.rng.requests ∧ q.reseed = true)
      ∧ (s.bitOf Reg.RNG_CTL 0 = false ∨ s.rngFailed = true → t.rng.requests = s.rng.requests)))
  ∧ (∀ (k : Fin 64) (requests : BitVec 21) (s : State),
    let n := (s.rd (Reg.RNG_CL_SINCE k)).toNat + requests.toNat
    (s.rngReady = true → s.rngFailed = false → ∃ t, exec (.clusterDrbgReseed k requests) s = .next t ∧ t.rd (Reg.RNG_CL_SINCE k) = 0
      ∧ t.bitOf (Reg.RNG_CL_STATUS k) 0 = true ∧ t.bitOf (Reg.RNG_CL_STATUS k) 1 = false
      ∧ t.rd (Reg.RNG_CL_RESEEDS k) = up (s.rd (Reg.RNG_CL_RESEEDS k)) 1 ∧ t.rng = s.rng)
    ∧ (s.rngReady = false ∨ s.rngFailed = true → 2 ^ 20 ≤ n → ∃ t, exec (.clusterDrbgReseed k requests) s = .next t
      ∧ t.bitOf (Reg.RNG_CL_STATUS k) 1 = true ∧ t.rng = s.rng))
  ∧ (∀ (ring : Fin 4) (refill : Fin 65) (value : Word) (s : State),
    (∀ w ws, ring.val ≤ 1 → s.rngFailed = false → (refillPort refill s).rng.port = w :: ws → ∃ t, exec (.rngDataRead ring refill) s = .next t
      ∧ t.rd Reg.RNG_DATA = w ∧ t.rng.port = ws)
    ∧ (ring.val ≤ 1 → (refillPort refill s).rng.port = [] → ∃ t, exec (.rngDataRead ring refill) s = .next t ∧ t.rd Reg.RNG_DATA = 0
      ∧ t.rng.emptyRead = true ∧ t.bitOf Reg.RNG_DATA_STAT 1 = true)
    ∧ (2 ≤ ring.val → (∃ t, exec (.rngDataRead ring refill) s = .next t ∧ t.rng = s.rng ∧ t.rd Reg.RNG_DATA = s.rd Reg.RNG_DATA
        ∧ t.rd Reg.GTE_VIO_COUNT = up (s.rd Reg.GTE_VIO_COUNT) 1)
      ∧ ∃ t, exec (.rngReseedWrite ring value) s = .next t ∧ t.rng = s.rng ∧ t.rd Reg.RNG_STATUS = s.rd Reg.RNG_STATUS
        ∧ t.rd Reg.GTE_VIO_COUNT = up (s.rd Reg.GTE_VIO_COUNT) 1)
    ∧ (ring.val ≤ 1 → bit value 0 = false → exec (.rngReseedWrite ring value) s = .next s)
    ∧ (ring.val ≤ 1 → bit value 0 = true → s.bitOf Reg.RNG_STATUS 2 = false → ∃ t, exec (.rngReseedWrite ring value) s = .next t
      ∧ t.bitOf Reg.RNG_STATUS 2 = true ∧ t.rng.extra = (if bit value 1 then s.rngAdd else []).take 256 ∧ t.rng.waitSince = s.now
      ∧ t.rng.sources = s.rng.sources))
  ∧ (∀ (h0 h1 h2 : BitVec 16) (thermal : Bytes) (dt : BitVec 64) (s : State) (k : CalRun) (ks : List CalRun), s.rng.cals = k :: ks →
    let u := s.advance dt.toNat
    let p : CalPass := ⟨[h0.toNat, h1.toNat, h2.toNat], thermal⟩
    (k.isVoid = true → ∃ t, exec (.calibrationPassDone h0 h1 h2 thermal dt) s = .next t
      ∧ t = finalReply k.cmd 0x4721 [] 0 { u with rng := { u.rng with cals := ks } })
    ∧ (k.isVoid = false → 0x0F00 ≤ (s.rd Reg.THM_INLET).toInt → (s.rd Reg.THM_INLET).toInt ≤ 0x2800 →
      (k.expert = false → k.idle = none → ∃ t, exec (.calibrationPassDone h0 h1 h2 thermal dt) s = .next t
        ∧ t.rng.cals = { k with idle := some p } :: ks ∧ t.rng.calIdle = s.rng.calIdle ∧ t.rng.calBallast = s.rng.calBallast ∧ t.regs = s.regs)
      ∧ (∀ i, k.expert = false → k.idle = some i → ∃ t, exec (.calibrationPassDone h0 h1 h2 thermal dt) s = .next t ∧ t.rng.cals = ks
        ∧ t.rng.calIdle = some i ∧ t.rng.calBallast = some p ∧ t.bitOf Reg.SYS_HOLD 1 = false ∧ t.bitOf Reg.RNG_STATUS 3 = true
        ∧ (∀ n, n < 3 → t.rd (Reg.RNG_HCAL n) = BitVec.ofNat 32 (min (i.h.getD n 0) (p.h.getD n 0))))
      ∧ (k.expert = true → s.rng.calIdle.isSome = true → s.rng.calBallast.isSome = true →
        ∃ t, exec (.calibrationPassDone h0 h1 h2 thermal dt) s = .next t ∧ t = finalReply k.cmd 0 p.out 0 { u with rng := { u.rng with cals := ks } })
      ∧ (k.expert = true → s.rng.calIdle.isNone = true ∨ s.rng.calBallast.isNone = true →
        ∃ t, exec (.calibrationPassDone h0 h1 h2 thermal dt) s = .next t ∧ t.rng.calIdle = some p ∧ t.rng.calBallast = none
          ∧ t.bitOf Reg.SYS_HOLD 1 = true)))
  ∧ (∀ (c : HostCmd) (len : BitVec 32) (extra : Bytes) (predict : Bool) (s : State), Runs s 0x0720 c → (c.expert = true → extra.length ≤ 32) →
    (1 ≤ len.toNat → len.toNat ≤ 65536 → s.rngFailed = false → s.rngReady = true → s.bitOf Reg.RNG_CTL 0 = true → (c.expert && predict) = false →
      ∃ t, exec (.getRandom c len extra predict) s = .next t ∧ t = finalReply c.ref 0 (s.freeBytes len.toNat) 0 (s.drawnBytes len.toNat))
    ∧ (1 ≤ len.toNat → len.toNat ≤ 65536 → s.rngFailed = false → (c.expert && predict) = true →
      ∃ t, exec (.getRandom c len extra predict) s = .next t ∧ t.rng.requests = s.rng.requests ++ [⟨c.ref, len.toNat, s.now, true⟩]
        ∧ t.bitOf Reg.RNG_STATUS 2 = true)
    ∧ (1 ≤ len.toNat → len.toNat ≤ 65536 → s.rngFailed = false → s.rngReady = false ∨ s.bitOf Reg.RNG_CTL 0 = false → (c.expert && predict) = false →
      ∃ t, exec (.getRandom c len extra predict) s = .next t ∧ t.rng.requests = s.rng.requests ++ [⟨c.ref, len.toNat, s.now, false⟩] ∧ t.regs = s.regs)
    ∧ (len = 0 ∨ 65536 < len.toNat → ∃ t, exec (.getRandom c len extra predict) s = .next t ∧ t = finalReply c.ref 0x1720 [] 0 s)
    ∧ (1 ≤ len.toNat → len.toNat ≤ 65536 → s.rngFailed = true → ∃ t, exec (.getRandom c len extra predict) s = .next t
      ∧ t = finalReply c.ref 0x4720 [] 0 s))
  ∧ (∀ (c : HostCmd) (extra : Bytes) (s : State), Runs s 0x0721 c → (c.expert = true → extra.length ≤ 32) →
    (s.rngFailed = false → ∃ t, exec (.reseed c extra) s = .next t ∧ t.rng.reseedCmds = s.rng.reseedCmds ++ [c.ref]
      ∧ t.bitOf Reg.RNG_STATUS 2 = true ∧ t.rng.requests = s.rng.requests ∧ t.rng.sources = s.rng.sources)
    ∧ (s.rngFailed = true → ∃ t, exec (.reseed c extra) s = .next t ∧ t = finalReply c.ref 0x4720 [] 0 s))
  ∧ (∀ (c : HostCmd) (s : State), Runs s 0x0730 c → bit (s.perms c.fn) 6 = true →
    (s.sys.mode = .maintenance → s.sys.maint.whole = true → ∃ t u, exec (.calibrate c) s = .next t ∧ t = interimReply c.ref 0x0108 u
      ∧ u = { s with rng := { s.rng with cals := s.rng.cals ++ [⟨c.ref, c.expert, false, none⟩] } })
    ∧ (s.sys.mode ≠ .maintenance ∨ s.sys.maint.whole = false → ∃ t, exec (.calibrate c) s = .next t ∧ t = finalReply c.ref 0x2720 [] 0 s))

/-- START of an idle, enabled unit copies the staged job, or refuses it with its error and changes no slot; ABORT zeroes the whole memory and ends in ABORTED; a valid layout from ring 0 clears the memory, an invalid one leaves it, and the gate refuses another ring; a VERIFY reports its outcome in the pair, or clears it when its two runs disagree; another operation writes its result slots, a failed check writes zeros and counts a fault; a batch done by a unit that serves writes one result byte per job and one completion entry; a failed known-answer test takes the unit out. (R428, R429, R430, R432, R436, R437, R439, R440, R442, R445, R570) -/
def Obligations.PkeUnits : Prop :=
  (∀ (unit : Fin 8) (s : State),
    let n := unit.val
    let u := s.pkeUnit n
    let r := s.stagedReq n
    let err (t : State) (e : Nat) : Prop := t.fld (Reg.PKE_U_STATUS n) 15 8 = e
    (∀ seed, u.stat = 0 → s.bitOf Reg.PKE_CTL n = true → s.keySeed n r = .ok seed →
      (s.startError n r seed.isSome = none → ∃ t, exec (.pkeStart unit) s = .next t ∧ err t 0 ∧ t.fld (Reg.PKE_U_STATUS n) 1 0 = 1
        ∧ t.pkeUnit n = { u with stat := 1, work := some (.reg r (s.stagedSlots n) (s.fld (Reg.PKE_U_COLOUR n) 9 0)
          (s.rd64 (Reg.PKE_U_DMA_LO n)) (s.dmaLen n) seed) }
        ∧ (∀ k, k ≠ n → t.pkeUnit k = s.pkeUnit k) ∧ t.pke.mem = s.pke.mem ∧ t.keys = s.keys)
      ∧ (∀ e, s.startError n r seed.isSome = some e → ∃ t, exec (.pkeStart unit) s = .next t ∧ err t e ∧ t.pke = s.pke
        ∧ t.bitOf (Reg.PKE_U_IRQ_STATUS n) 1 = true))
    ∧ (∀ e, u.stat = 0 → s.bitOf Reg.PKE_CTL n = true → s.keySeed n r = .error e → ∃ t, exec (.pkeStart unit) s = .next t ∧ err t 5 ∧ t.pke = s.pke)
    ∧ (u.stat = 0 → s.bitOf Reg.PKE_CTL n = false → ∃ t, exec (.pkeStart unit) s = .next t ∧ err t 10 ∧ t.pke = s.pke)
    ∧ (u.stat = 1 ∨ u.stat = 2 → ∃ t, exec (.pkeStart unit) s = .next t ∧ err t 1 ∧ t.pke = s.pke)
    ∧ (u.stat < 2 → ∃ t, exec (.pkeAbort unit) s = .next t ∧ t.pkeUnit n = { u with stat := 2, work := none, after := 11 }
      ∧ (∀ a, tget (dflt 0) t.pke.mem a = if a / 65536 = n then 0 else tget (dflt 0) s.pke.mem a)
      ∧ t.rd (Reg.PKE_U_ABORTS n) = up (s.rd (Reg.PKE_U_ABORTS n)) 1)
    ∧ (u.stat = 2 → exec (.pkeAbort unit) s = .next s)
    ∧ (u.stat = 2 → s.pke.queue = [] → s.nextToSign = none →
      (u.after = 11 → ∃ t, exec (.pkeClearDone unit) s = .next t ∧ t.pkeUnit n = { u with stat := 0, work := none } ∧ err t 11
        ∧ t.bitOf (Reg.PKE_U_IRQ_STATUS n) 1 = true ∧ t.pke.mem = s.pke.mem)
      ∧ (u.after = 0 → ∃ t, exec (.pkeClearDone unit) s = .next t ∧ t.pkeUnit n = { u with stat := 0, work := none } ∧ err t 0
        ∧ t.pke.mem = s.pke.mem))
    ∧ (∀ (ring : Fin 4) (value : Word), let l := (s.wr (Reg.PKE_U_LAYOUT n 7) (value &&& 0x7FFFF)).stagedBands n
      (ring = 0 → u.stat = 0 → bandsOk l = true → ∃ t, exec (.pkeLayoutWrite unit ring value) s = .next t
        ∧ t.pkeUnit n = { u with stat := 2, work := none, after := 0, bands := l }
        ∧ t.rd (Reg.PKE_U_NSLOTS n) = BitVec.ofNat 32 (l.map (·.2)).sum
        ∧ (∀ a, tget (dflt 0) t.pke.mem a = if a / 65536 = n then 0 else tget (dflt 0) s.pke.mem a))
      ∧ (ring = 0 → u.stat = 0 → bandsOk l = false → ∃ t, exec (.pkeLayoutWrite unit ring value) s = .next t ∧ t.pke = s.pke ∧ err t 2)
      ∧ (ring ≠ 0 → ∃ t, exec (.pkeLayoutWrite unit ring value) s = .next t ∧ t.pke = s.pke
        ∧ t.rd (Reg.PKE_U_LAYOUT n 7) = s.rd (Reg.PKE_U_LAYOUT n 7) ∧ t.rd Reg.GTE_VIO_COUNT = up (s.rd Reg.GTE_VIO_COUNT) 1)
      ∧ (ring = 0 → u.stat ≠ 0 → exec (.pkeLayoutWrite unit ring value) s = .next s)))
  ∧ (∀ (unit : Fin 8) (host : Bytes) (s : State), s.pke.queue = [] → s.nextToSign = none →
    let n := unit.val
    let u := s.pkeUnit n
    let v := setPkeUnit n { u with stat := 0, work := none } (s.bump (Reg.PKE_U_OPS n))
    (∀ r sl colour addr len seed, u.work = some (.reg r sl colour addr len seed) →
      let o := s.slotOperands n r seed.isSome sl
      let idle (t : State) : Prop := t.pkeUnit n = { u with stat := 0, work := none }
      (r.op = 3 → ∃ t, exec (.pkeOperationDone unit host .good) s = .next t ∧ idle t ∧ t.pke.mem = s.pke.mem
        ∧ t.bitOf (Reg.PKE_U_IRQ_STATUS n) 0 = true ∧ t.rd (Reg.PKE_U_OPS n) = up (s.rd (Reg.PKE_U_OPS n)) 1
        ∧ (t.rd (Reg.PKE_U_VRES n), t.rd (Reg.PKE_U_VRES_INV n))
          = if pkeVerify r (s.slotOperands n r false sl) then (0x5AC33CA5, 0xA53CC35A) else (0, 0xFFFFFFFF))
      ∧ (∀ d w, r.op = 10 → s.readWaits addr = false → dmaRead (384 + n) colour addr len host v = (some d, w) →
        ∃ t, exec (.pkeOperationDone unit host .good) s = .next t ∧ idle t ∧ t.pke.mem = (putSlots n (sl.getD 0 0) d w).pke.mem)
      ∧ (r.op = 10 → s.readWaits addr = true → ∃ t, exec (.pkeOperationDone unit host .good) s = .next t ∧ t.pke = s.pke)
      ∧ (r.op = 3 → ∃ t, exec (.pkeOperationDone unit host .disagree) s = .next t ∧ idle t ∧ t.pke.mem = s.pke.mem
        ∧ t.rd (Reg.PKE_U_VRES n) = 0 ∧ t.rd (Reg.PKE_U_VRES_INV n) = 0 ∧ t.bitOf (Reg.PKE_U_IRQ_STATUS n) 3 = true)
      ∧ (∀ b, r.op ∉ [0, 3, 10, 11] → pkeResult r o seed (s.freeBytes 64) = some b →
        ∃ t, exec (.pkeOperationDone unit host .good) s = .next t ∧ idle t ∧ t.pke.mem = (putSlots n (sl.getD 7 0) (fit (resultLen r) b) s).pke.mem
          ∧ t.fld (Reg.PKE_U_STATUS n) 15 8 = 0)
      ∧ (r.op ∉ [0, 3, 10, 11] → ∃ t, exec (.pkeOperationDone unit host .iter) s = .next t ∧ idle t ∧ t.pke.mem = s.pke.mem
        ∧ t.fld (Reg.PKE_U_STATUS n) 15 8 = 8)
      ∧ (r.op ∉ [0, 3, 10, 11] → u.faults = [] → ∃ t, exec (.pkeOperationDone unit host .fault) s = .next t
        ∧ t.pke.mem = (if resultLen r = 0 then s else putSlots n (sl.getD 7 0) (zeros (resultLen r)) s).pke.mem
        ∧ t.rd (Reg.PKE_U_FAULTS n) = up (s.rd (Reg.PKE_U_FAULTS n)) 1 ∧ t.fld (Reg.PKE_U_STATUS n) 15 8 = 7))
    ∧ (∀ c r o, u.work = some (.host c r o) →
      (r.op = 3 → ∃ t, exec (.pkeOperationDone unit host .good) s = .next t
        ∧ t = wipeSlots n (finalReply c (if pkeVerify r o then 0 else 0x1606) [] 0 v))
      ∧ (∀ b, r.op ≠ 3 → pkeResult r o none (s.freeBytes 64) = some b → ∃ t, exec (.pkeOperationDone unit host .good) s = .next t
        ∧ t = wipeSlots n (finalReply c 0 (fit (resultLen r) b) 0 (v.drawnBytes 64)))))
  ∧ (∀ (tile : Fin 4) (unit : Fin 17) (s : State),
    (∀ e r, s.fifo (584 + tile.val) = e :: r → (s.exchQ tile).length < s.fld (Reg.PKE_T_VQ_MIN tile 0) 19 0 →
      ∃ t, exec (.verifyBatchStart tile) s = .next t ∧ t.fifo (584 + tile.val) = r ∧ tget (dflt []) t.pke.batches tile
        = tget (dflt []) s.pke.batches tile ++ [(e.toNat % 2 ^ 32, e.toNat / 2 ^ 32 % 2 ^ 16, e.toNat / 2 ^ 48 % 2 ^ 10)])
    ∧ (∀ g n k r, tget (dflt []) s.pke.batches tile = (g, n, k) :: r → s.bound k = true → (s.fifo k).length < 8 → s.unitServes (tileUnitNo tile unit) = true →
      let res (i : Nat) : Byte := batchResult (tbytes (dflt 0) s.gte.dram (64 * g + 168 * i) 168)
      ∃ t, exec (.verifyBatchDone ⟨tile, unit⟩) s = .next t ∧ tget (dflt []) t.pke.batches tile = r
        ∧ (∀ i, i < n → tget (dflt 0) t.gte.dram (64 * g + 168 * i + 161) = res i)
        ∧ (∀ a, (∀ i, i < n → a ≠ 64 * g + 168 * i + 161) → tget (dflt 0) t.gte.dram a = tget (dflt 0) s.gte.dram a)
        ∧ t.fifo k = s.fifo k ++ [BitVec.ofNat 64 (g + 2 ^ 32 * ((List.range n).filter (fun i => res i == 0x5A)).length)]
        ∧ t.rd (Reg.PKE_T_OPS tile unit) = up (s.rd (Reg.PKE_T_OPS tile unit)) n)
    ∧ (tget (dflt []) s.pke.batches tile = [] ∨ s.unitServes (tileUnitNo tile unit) = false → exec (.verifyBatchDone ⟨tile, unit⟩) s = .next s))
  ∧ (∀ (unit : Fin 76) (s : State), exec (.pkeKatWindow unit true) s = .next s
    ∧ (unit.val < 68 → (s.tileUnit unit).out = false → ∃ t, exec (.pkeKatWindow unit false) s = .next t ∧ (t.tileUnit unit).out = true
      ∧ t.bitOf (Reg.RPR_PKE_OUT (unit.val / 32)) (unit.val % 32) = true ∧ (∀ k, k ≠ unit.val → t.tileUnit k = s.tileUnit k))
    ∧ (68 ≤ unit.val → (s.pkeUnit (unit.val - 68)).stat ≠ 3 → ∃ t, exec (.pkeKatWindow unit false) s = .next t
      ∧ (t.pkeUnit (unit.val - 68)).stat = 3 ∧ ∀ a, a / 65536 = unit.val - 68 → tget (dflt 0) t.pke.mem a = 0))
  ∧ (∀ (unit : Fin 64) (s : State),
    ((s.tileUnit unit).out = true → (s.tileUnit (64 + unit.val / 16)).out = false → tget (dflt 0) s.pke.spareFor (unit.val / 16) = 0 →
      ∃ t, exec (.pkeSpareTakeover unit) s = .next t ∧ tget (dflt 0) t.pke.spareFor (unit.val / 16) = unit.val + 1 ∧ t.regs = s.regs
        ∧ t.pke.tiles = s.pke.tiles)
    ∧ ((s.tileUnit unit).out = false → exec (.pkeSpareTakeover unit) s = .next s))

/-- With nothing ahead of it, each public-key command whose request is supported, of the right lengths and with operands that R440 accepts is accepted with 0x0106 and runs on a free custody unit with its operands, or waits in the queue while every unit in service is busy; one that is not supported completes with 0x1601, one with an operand refused with 0x1603 or 0x1604, one that finds every unit out of service with 0x4601. (R434, R440, R444, 15_public_key.md) -/
def Obligations.PkeCommands : Prop :=
  (∀ (c : HostCmd) (s : State), s.pke.queue = [] → s.nextToSign = none →
    let run (i : Instr) (opcode op : Nat) : Prop := Runs s opcode c →
      (pkeRequest op c = none → ∃ t, exec i s = .next t ∧ t = finalReply c.ref 0x1602 [] 0 s)
      ∧ ∀ r b, pkeRequest op c = some (r, b) →
        let ok : Prop := pkeSupported r = true ∧ pkeLengthsOk r = true ∧ b.length = (operandLens r false).sum ∧ resultLen r ≤ c.outLen
        let o := cutOperands (operandLens r false) b
        (pkeSupported r = false → ∃ t, exec i s = .next t ∧ t = finalReply c.ref 0x1601 [] 0 s)
        ∧ (∀ e, ok → pkeEdge r false o = some e → ∃ t, exec i s = .next t ∧ t = finalReply c.ref (if e = 4 then 0x1604 else 0x1603) [] 0 s)
        ∧ (ok → pkeEdge r false o = none → s.bitOf Reg.RNG_STATUS 1 = true → pkeNeedsRng r = true →
          ∃ t, exec i s = .next t ∧ t = finalReply c.ref 0x2601 [] 0 s)
        ∧ (∀ u, ok → pkeEdge r false o = none → s.bitOf Reg.RNG_STATUS 1 = false ∨ pkeNeedsRng r = false → s.freeUnit = some u →
          ∃ t w, exec i s = .next t ∧ t = interimReply c.ref 0x0106 w
            ∧ w.pkeUnit u = { s.pkeUnit u with stat := 1, work := some (.host c.ref r o) } ∧ w.pke.queue = [] ∧ w.pke.mem = s.pke.mem
            ∧ (∀ k, k ≠ u → w.pkeUnit k = s.pkeUnit k) ∧ w.keys = s.keys)
        ∧ (ok → pkeEdge r false o = none → s.bitOf Reg.RNG_STATUS 1 = false ∨ pkeNeedsRng r = false → (∀ n, n < 8 → (s.pkeUnit n).stat = 3) →
          ∃ t, exec i s = .next t ∧ t = finalReply c.ref 0x4601 [] 0 s)
        ∧ (∀ n, ok → pkeEdge r false o = none → s.bitOf Reg.RNG_STATUS 1 = false ∨ pkeNeedsRng r = false → s.freeUnit = none → n < 8 →
          (s.pkeUnit n).stat ≠ 3 → (s.queue (qkey c.fn c.queue)).orphan c.ident.toNat = false →
          ∃ t, exec i s = .next t ∧ t.pke = { s.pke with queue := [.host c.ref r o] } ∧ t.keys = s.keys ∧ t.regs = s.regs)
    run (.keypair c) 0x0610 1 ∧ run (.sign c) 0x0611 2 ∧ run (.verify c) 0x0612 3 ∧ run (.shared c) 0x0613 4 ∧ run (.encaps c) 0x0614 5
    ∧ run (.decaps c) 0x0615 6 ∧ run (.rsaPublic c) 0x0616 7 ∧ run (.rsaPrivate c) 0x0617 8 ∧ run (.modexp c) 0x0618 9)
  ∧ (∀ (c : HostCmd) (s : State), Runs s 0x0601 c → ∃ t, exec (.getPkeStatus c) s = .next t
    ∧ t = finalReply c.ref 0 (be 1 ((List.range 8).map (fun n => if (s.pkeUnit n).stat = 3 then 0 else 2 ^ n)).sum
      ++ be 1 (s.fld Reg.PKE_STATUS 7 0) ++ be 2 s.pke.queue.length) 0 s)

/-- A program or erase that nothing refuses starts, and one refused reports its code and changes no byte; a program that ends leaves its bytes, an erase that ends leaves every byte of its range 0xFF and the others as they were; each granule that fails a verify is replaced while a spare remains, and else its sector is BAD; an erase is suspended only after 2.0 ms and resumes after 5 microseconds without a read; a read of the idle window counts corrected words, and one with a double-bit error changes only that word; a ledger block whose erase fails is retired; the flash commands answer as R464 states in both forms. (R448, R451, R452, R453, R454, R456, R458, R461, R463, R464) -/
def Obligations.CustodyAndLedgerFlash : Prop :=
  (∀ s : State,
    let a := s.fld Reg.FSH_ADDR 24 0
    let d := s.pageData
    let code (t : State) (c k : Nat) : Prop := t.fsh = s.fsh ∧ t.fld Reg.FSH_RESULT 3 0 = c ∧ t.fld Reg.FSH_RESULT 15 8 = k
      ∧ t.bitOf Reg.FSH_IRQ_STATUS 1 = true ∧ t.gte = s.gte ∧ t.keys = s.keys
    let busy : Prop := s.fsh.prog.isSome = true ∨ ∃ e, s.fsh.erase = some e ∧ e.suspended = false
    (s.programCode a d = 0 → ∃ t, exec .flashProgram s = .next t ∧ t.fsh = { s.fsh with prog := some (a, d) } ∧ t.fld Reg.FSH_STATUS 1 0 = 1
      ∧ t.gte = s.gte ∧ t.keys = s.keys)
    ∧ (∀ c, s.programCode a d = c → c ≠ 0 → ∃ t, exec .flashProgram s = .next t ∧ code t c (sectorOf a))
    ∧ (busy → s.programCode a d = 5)
    ∧ (¬ busy → a % (if s.normalView then 256 else 4) ≠ 0 → s.programCode a d = 4)
    ∧ (¬ busy → a % (if s.normalView then 256 else 4) = 0 → s.sectorProtected (sectorOf a) = true → s.programCode a d = 1)
    ∧ (s.programCode a d = 0 → ∀ i, i < (if s.normalView then 256 else 4) → s.flashByte (a + i) = 0xFF)
    ∧ (s.fsh.prog = none → s.fsh.erase = none → s.sectorProtected (sectorOf a) = false → s.fsh.bad.contains (sectorOf a) = false →
      ∃ t, exec .flashErase s = .next t ∧ t.fld Reg.FSH_STATUS 1 0 = 2 ∧ t.fsh.cells = s.fsh.cells ∧ t.gte = s.gte ∧ t.keys = s.keys
        ∧ t.fsh.erase = some ⟨(s.eraseRange a).1, (s.eraseRange a).2, s.now, false, false, false, none⟩)
    ∧ (busy ∨ s.fsh.erase.isSome = true → ∃ t, exec .flashErase s = .next t ∧ code t 5 (sectorOf a))
    ∧ (s.fsh.prog = none → s.fsh.erase = none → s.sectorProtected (sectorOf a) = true → ∃ t, exec .flashErase s = .next t ∧ code t 1 (sectorOf a))
    ∧ (∀ e, s.fsh.erase = some e →
      (∃ t, exec .flashSuspend s = .next t
        ∧ t = { s with fsh := { s.fsh with erase := some { e with pendSuspend := !e.suspended, byRead := false } } })
      ∧ (e.suspended = true → ∃ t, exec .flashResume s = .next t
        ∧ t.fsh = { s.fsh with erase := some { e with suspended := false, byRead := false, since := s.now } }
        ∧ (s.fsh.prog = none → t.fld Reg.FSH_STATUS 1 0 = 2)))
    ∧ ((∀ e, s.fsh.erase = some e → e.suspended = false) → ∃ t, exec .flashResume s = .next t ∧ t.fld Reg.FSH_RESULT 3 0 = 7 ∧ t.fsh = s.fsh))
  ∧ (∀ (addr : BitVec 25) (len : BitVec 7) (corrected : BitVec 5) (uncorrected : Option (BitVec 5)) (dt : BitVec 32) (s : State),
    let v := s.advance dt.toNat
    let read := exec (.flashWindowRead ⟨addr, len⟩ ⟨corrected, uncorrected⟩ dt) s
    (v.flashIdle = true → ∃ t, read = .next t ∧ t.fsh = { s.fsh with lastRead := v.now, cells := t.fsh.cells }
      ∧ t.rd Reg.FSH_ECC_CORR = up (s.rd Reg.FSH_ECC_CORR) corrected.toNat
      ∧ (uncorrected = none → t.fsh.cells = s.fsh.cells ∧ t.rd Reg.FSH_ECC_UNCORR = s.rd Reg.FSH_ECC_UNCORR)
      ∧ (∀ w, uncorrected = some w → t.rd Reg.FSH_ECC_UNCORR = up (s.rd Reg.FSH_ECC_UNCORR) 1 ∧ t.bitOf Reg.FSH_IRQ_STATUS 1 = true
        ∧ ∀ a, a / 4 ≠ addr.toNat / 4 + w.toNat → tget (dflt 0xFF) t.fsh.cells a = tget (dflt 0xFF) s.fsh.cells a)
      ∧ (s.sectorIncomplete (sectorOf addr.toNat) = true → 0 < len.toNat → t.bitOf Reg.FSH_IRQ_STATUS 2 = true
        ∧ (s.bitOf Reg.FSH_IRQ_STATUS 2 = false → (t.rd Reg.FSH_INDET_ADDR).toNat = addr.toNat)))
    ∧ (v.flashIdle = false → ∃ t, read = .next t
      ∧ t.fsh.reads = s.fsh.reads ++ [⟨addr.toNat, len.toNat, corrected.toNat, uncorrected.map (·.toNat)⟩]
      ∧ t.fsh.erase = s.fsh.erase.map (fun e => if s.bitOf Reg.FSH_CTL 1 = true ∧ e.suspended = false ∧ e.pendSuspend = false
          then { e with pendSuspend := true, byRead := true } else e)
      ∧ t.fsh.cells = s.fsh.cells ∧ t.regs = s.regs))
  ∧ (∀ (dt : BitVec 32) (s : State) (e : FlashErase), s.fsh.erase = some e → let v := s.advance dt.toNat
    (e.suspended = false → e.pendSuspend = true → e.since + 2000000 ≤ v.now → s.fsh.prog = none → ∃ t, exec (.eraseSuspendPoint dt) s = .next t
      ∧ t.fsh.erase = some { e with suspended := true, pendSuspend := false } ∧ t.fsh.reads = []
      ∧ ((∀ r ∈ s.fsh.reads, r.uncorrected = none) → t.fsh.cells = s.fsh.cells)
      ∧ t.rd Reg.FSH_SUSPENDS = up (s.rd Reg.FSH_SUSPENDS) 1 ∧ t.fld Reg.FSH_STATUS 1 0 = 3)
    ∧ (v.now < e.since + 2000000 → ∃ t, exec (.eraseSuspendPoint dt) s = .next t ∧ t = v)
    ∧ (e.suspended = true → e.byRead = true → s.fsh.prog = none → s.fsh.lastRead + 5000 ≤ v.now → ∃ t, exec (.flashAutoResume dt) s = .next t
      ∧ t.fsh = { s.fsh with erase := some { e with suspended := false, byRead := false, since := v.now } } ∧ t.fld Reg.FSH_STATUS 1 0 = 2)
    ∧ (v.now < s.fsh.lastRead + 5000 → ∃ t, exec (.flashAutoResume dt) s = .next t ∧ t = v))
  ∧ (∀ (s : State), s.fsh.reads = [] → s.fsh.eraseQ = [] → s.upd.sess = none →
    (∀ a d (fails : List (BitVec 13)), s.fsh.prog = some (a, d) →
      let spared (n : Nat) : List Nat := s.fsh.grown ++ List.replicate n (a / 4096)
      (fails.length ≤ s.sparesLeft → ∃ t, exec (.flashOpDone fails) s = .next t
        ∧ t.fsh = { s.fsh with prog := none, cells := tputBytes (dflt 0xFF) s.fsh.cells a d, grown := spared fails.length }
        ∧ t.fld Reg.FSH_RESULT 3 0 = 0 ∧ t.bitOf Reg.FSH_IRQ_STATUS 0 = true ∧ t.gte = s.gte
        ∧ (fails ≠ [] → t.bitOf Reg.FSH_IRQ_STATUS 3 = true)
        ∧ (fails ≠ [] → s.sparesLeft ≤ 16 + fails.length → t.bitOf Reg.FSH_IRQ_STATUS 4 = true))
      ∧ (s.sparesLeft < fails.length → ∃ t, exec (.flashOpDone fails) s = .next t ∧ t.fsh.bad.contains (sectorOf a) = true
        ∧ t.fsh.grown = spared s.sparesLeft
        ∧ t.fld Reg.FSH_RESULT 3 0 = 6 ∧ t.bitOf Reg.FSH_IRQ_STATUS 1 = true ∧ t.fsh.cells = s.fsh.cells))
    ∧ (∀ e, s.fsh.prog = none → s.fsh.erase = some e → e.suspended = false → e.cmd = none → e.first % 4096 = 0 → e.size % 4096 = 0 →
      let wiped (t : State) : Prop := t.fsh.erase = none
        ∧ (∀ x, t.flashByte x = if e.first ≤ x ∧ x < e.first + e.size then 0xFF else s.flashByte x)
        ∧ (∀ g, t.fsh.marked.contains g = (s.fsh.marked.contains g && !(decide (e.first ≤ g * 4096) && decide (g * 4096 < e.first + e.size))))
        ∧ t.fld Reg.FSH_RESULT 3 0 = 0 ∧ t.bitOf Reg.FSH_IRQ_STATUS 0 = true ∧ t.gte = s.gte
      ∀ fails : List (BitVec 13),
      let hit := (fails.map (·.toNat)).filter (fun g => decide (e.first ≤ g * 4096) && decide (g * 4096 < e.first + e.size))
      (hit.length ≤ s.sparesLeft → ∃ t, exec (.flashOpDone fails) s = .next t ∧ wiped t ∧ t.fsh.grown = s.fsh.grown ++ hit)
      ∧ (s.sparesLeft < hit.length → ∃ t, exec (.flashOpDone fails) s = .next t ∧ t.fsh.bad.contains (sectorOf e.first) = true
        ∧ t.fsh.marked = s.fsh.marked ∧ t.fsh.cells = s.fsh.cells ∧ t.fsh.grown = s.fsh.grown ++ hit.take s.sparesLeft
        ∧ t.fld Reg.FSH_RESULT 3 0 = 6))
    ∧ (s.fsh.prog = none → (∀ e, s.fsh.erase = some e → e.suspended = true) → ∀ f, exec (.flashOpDone f) s = .next s))
  ∧ (∀ (block : BitVec 18) (ok : Bool) (s : State), let n := block.toNat
    (s.lfs.erasing.contains n = false → exec (.lflashBlockEraseDone block ok) s = .next s)
    ∧ (s.lfs.erasing.contains n = true → ((s.lblock n).area = 1 → s.lfs.borrowed = 0 → s.bitOf Reg.LFS_CTL 1 = false → s.lfs.moves = [] →
        ∃ t, exec (.lflashBlockEraseDone block true) s = .next t ∧ (∀ k, t.lblock k = s.lblock k)
          ∧ t.lfs.erasing = s.lfs.erasing.filter (· != n) ∧ t.ldg = s.ldg)
      ∧ ((s.lblock n).area ≠ 1 → s.bitOf Reg.LFS_CTL 1 = false → s.lfs.moves = [] →
        ∃ t, exec (.lflashBlockEraseDone block true) s = .next t ∧ t.lblock n = { s.lblock n with area := 0, tenant := none }
          ∧ t.lfs.erasing = s.lfs.erasing.filter (· != n) ∧ (∀ k, k ≠ n → t.lblock k = s.lblock k) ∧ t.ldg = s.ldg)
      ∧ ∃ t, exec (.lflashBlockEraseDone block false) s = .next t ∧ t.rd Reg.LFS_ERASE_FAIL = up (s.rd Reg.LFS_ERASE_FAIL) 1
        ∧ (t.lblock n).grown = true ∧ (t.lblock n).area = 4 ∧ t.bitOf Reg.LFS_IRQ_STATUS 1 = true ∧ n ∉ t.lfs.erasing))
  ∧ (∀ s : State, ∃ t, exec .eraseCountCheckpoint s = .next t ∧ t = { s with lfs := { s.lfs with checkpoint := t.lfs.checkpoint, eraseLog := [] } }
    ∧ ∀ e ∈ s.lfs.blocks, e.2.erases ≠ 0 → (e.1, e.2.erases) ∈ t.lfs.checkpoint)
  ∧ (∀ (c : HostCmd) (s : State),
    (Runs s 0x0801 c → ∃ t, exec (.getFlashStatus c) s = .next t ∧ t = finalReply c.ref 0
      (be 4 (s.rd Reg.FSH_STATUS).toNat ++ (List.range 5).flatMap (fun n => be 4 (s.rd (Reg.FSH_INCOMP n)).toNat)
        ++ be 4 s.sparesLeft ++ be 4 s.wearMax ++ be 4 s.wearMean ++ be 4 s.wearMin) 0 s)
    ∧ (∀ first count : BitVec 32, Runs s 0x0802 c →
      let range : Prop := Config.lflashFabricated < first.toNat + count.toNat ∨ 4096 < count.toNat
      (range → ∃ t, exec (.getLflashBlocks c first count) s = .next t ∧ t = finalReply c.ref 0x1801 [] 0 s)
      ∧ (¬ range → c.outLen < 8 * count.toNat → ∃ t, exec (.getLflashBlocks c first count) s = .next t ∧ t = finalReply c.ref 0x3801 [] 0 s)
      ∧ (¬ range → 8 * count.toNat ≤ c.outLen → ∃ t, exec (.getLflashBlocks c first count) s = .next t
        ∧ t = finalReply c.ref 0 ((List.range count.toNat).flatMap (fun i =>
          be 4 (s.lblock (first.toNat + i)).erases ++ be 4 (s.blockInfo (first.toNat + i)))) 0 s))
    ∧ (∀ (first : BitVec 16) (count : BitVec 8), Runs s 0x0810 c → c.expert = false →
      let k := first.toNat
      let free : Prop := s.sectorIncomplete k = true ∧ (k = 8 → s.sys.shipFuse = false) ∨ s.imageSectorFree k = true
      (143 < k → ∃ t, exec (.eraseSector c first count) s = .next t ∧ t = finalReply c.ref 0x1801 [] 0 s)
      ∧ (k ≤ 143 → ¬ free → ∃ t, exec (.eraseSector c first count) s = .next t ∧ t = finalReply c.ref 0x2801 [] 0 s)
      ∧ (k ≤ 143 → free → s.fsh.bad.contains k = true → ∃ t, exec (.eraseSector c first count) s = .next t ∧ t = finalReply c.ref 0x4801 [] 0 s)
      ∧ (k ≤ 143 → free → s.fsh.bad.contains k = false → s.fsh.prog = none → s.fsh.erase = none → s.fsh.eraseQ = [] →
        ∃ t w, exec (.eraseSector c first count) s = .next t ∧ t = interimReply c.ref 0x0109 w ∧ w.fsh.cells = s.fsh.cells
          ∧ w.fsh.erase = some ⟨(sectorRange k).1, (sectorRange k).2, s.now, false, false, false, some c.ref⟩ ∧ w.upd = s.upd))
    ∧ (∀ (first : BitVec 16) (count : BitVec 8), Runs s 0x0810 c → c.expert = true →
      let n := count.toNat
      let sector (i : Nat) : Nat := sectorOf ((first.toNat + i) * 4096)
      let range : Prop := 1 ≤ n ∧ n ≤ 64 ∧ first.toNat + n ≤ 8192
      (¬ range → ∃ t, exec (.eraseSector c first count) s = .next t ∧ t = finalReply c.ref 0x1801 [] 0 s)
      ∧ (range → (∃ i, i < n ∧ s.erasable (sector i) = false) → ∃ t, exec (.eraseSector c first count) s = .next t
        ∧ t = finalReply c.ref 0x2801 [] 0 s)
      ∧ (range → (∀ i, i < n → s.erasable (sector i) = true) → (∃ i, i < n ∧ s.fsh.bad.contains (sector i) = true) →
        ∃ t, exec (.eraseSector c first count) s = .next t ∧ t = finalReply c.ref 0x4801 [] 0 s)
      ∧ (range → (∀ i, i < n → s.erasable (sector i) = true ∧ s.fsh.bad.contains (sector i) = false) →
        s.fsh.prog = none → s.fsh.erase = none → s.fsh.eraseQ = [] →
        ∃ t w, exec (.eraseSector c first count) s = .next t ∧ t = interimReply c.ref 0x0109 w ∧ w.fsh.cells = s.fsh.cells
          ∧ w.fsh.erase = some ⟨first.toNat * 4096, 4096, s.now, false, false, false, some c.ref⟩ ∧ w.upd = s.upd
          ∧ w.fsh.eraseQ = (List.range (n - 1)).map (fun i => (c.ref, (first.toNat + (i + 1)) * 4096, 4096)))))

/-- A session opens once and erases the inactive bank; writes are contiguous and header checked first, wait while custody flash runs another operation, and end the session when a granule fails with no spare left; the verification's verdict closes the session as valid or leaves it; ACTIVATE names the staged bank that still stands on trial; CONFIRM clears TRIAL and raises the counters, which no command lowers; keyed writes by ring 0 alone change the bank record and the counters; a job of the engine runs alone and ends with its bytes written or its error. (R467, R472, R473, R474, R475, R477, R478, R479, R481) -/
def Obligations.FirmwareUpdate : Prop :=
  (∀ (ring : Fin 4) (value : Word) (s : State),
    let refused (i : Instr) : Prop := ∃ t, exec i s = .next t ∧ t.rd Reg.UPD_BANK = s.rd Reg.UPD_BANK ∧ (∀ n, n < 3 → t.arb n = s.arb n)
      ∧ t.upd = s.upd ∧ t.rd Reg.GTE_VIO_COUNT = up (s.rd Reg.GTE_VIO_COUNT) 1
    (ring = 0 → bits value 31 16 = 0x6B1E → ∃ t, exec (.updBankSetWrite ring value) s = .next t ∧ t.prefBank = bits value 0 0
      ∧ t.trial = bit value 1 ∧ t.tries = bits value 4 2 ∧ t.runningBank = s.runningBank ∧ (∀ n, n < 3 → t.arb n = s.arb n) ∧ t.upd = s.upd)
    ∧ (ring = 0 → bits value 31 16 ≠ 0x6B1E → exec (.updBankSetWrite ring value) s = .next s)
    ∧ (ring ≠ 0 → refused (.updBankSetWrite ring value) ∧ refused (.updArbBlowWrite ring value))
    ∧ (let n := bits value 1 0
      (ring = 0 → bits value 31 16 = 0x9D42 → s.trial = true → s.runningBank = s.prefBank → n ≤ 2 → ∃ t, exec (.updArbBlowWrite ring value) s = .next t
        ∧ t.arb n = max (s.arb n) (min 64 (bits value 8 2)) ∧ (∀ k, k < 3 → k ≠ n → t.arb k = s.arb k) ∧ t.rd Reg.UPD_BANK = s.rd Reg.UPD_BANK)
      ∧ (ring = 0 → bits value 31 16 ≠ 0x9D42 ∨ s.trial = false ∨ s.runningBank ≠ s.prefBank ∨ n = 3 → exec (.updArbBlowWrite ring value) s = .next s)))
  ∧ (∀ s : State,
    (s.upd.jobs = [] → s.bitOf Reg.UPD_CTL 0 = true → ∃ t, exec .updGoStart s = .next t ∧ t.fld Reg.UPD_JOB_STAT 1 0 = 1 ∧ t.fsh = s.fsh
      ∧ t.upd.jobs = [.reg (s.rd Reg.UPD_JOB).toNat (s.fld Reg.UPD_COLOUR 9 0) (s.rd64 Reg.UPD_SRC_LO) (s.fld Reg.UPD_DST 24 0) (s.fld Reg.UPD_LEN 20 0)])
    ∧ (s.upd.jobs ≠ [] ∨ s.bitOf Reg.UPD_CTL 0 = false → exec .updGoStart s = .next s)
    ∧ (∃ t, exec .updGoAbort s = .next t ∧ (∀ j, j ∈ t.upd.jobs ↔ j ∈ s.upd.jobs ∧ j.isReg = false) ∧ t.upd.sess = s.upd.sess ∧ t.fsh = s.fsh
      ∧ (s.upd.jobs ≠ [] → (∀ j ∈ s.upd.jobs, j.isReg = true) → t.fld Reg.UPD_JOB_STAT 1 0 = 0)))
  ∧ (∀ (host : Bytes) (r : UpdResult) (s : State), (s.upd.jobs = [] → exec (.updJobDone host r) s = .next s)
    ∧ (∀ j js, s.upd.jobs = j :: js → j.waits s = true → ∃ t, exec (.updJobDone host r) s = .next t ∧ t.upd = s.upd ∧ t.fsh.cells = s.fsh.cells)
    ∧ (∀ job colour src dst len d v, s.upd.jobs = [.reg job colour src dst len] → (UpdJob.reg job colour src dst len).waits s = false →
      dmaRead 262 colour src len host ({ s with upd := { s.upd with jobs := [] } }.wr Reg.UPD_JOB_STAT 0) = (some d, v) →
      let ends (t : State) (st code : Nat) : Prop := t.fld Reg.UPD_JOB_STAT 1 0 = st ∧ t.fld Reg.UPD_JOB_STAT 15 8 = code
      let e (code : Nat) : Prop := ∃ t, exec (.updJobDone host r) s = .next t ∧ ends t 3 code ∧ t.bitOf Reg.UPD_IRQ_STATUS 1 = true ∧ t.gte = v.gte
        ∧ t.fsh = v.fsh
      let out := if nbit job 2 then fit d.length (Config.updTransform (job % 4) src dst d) else d
      (r = .readFail → e 1) ∧ (r = .tagFail → e 2)
      ∧ (r = .good ∨ r = .flashFail → job % 4 = 1 → ∃ t, exec (.updJobDone host r) s = .next t ∧ ends t 2 0
        ∧ t.gte.sram = tputBytes (dflt 0) v.gte.sram dst (out.take (0x200000 - dst)) ∧ t.fsh = v.fsh ∧ t.gte.dram = v.gte.dram)
      ∧ (r = .good ∨ r = .flashFail → job % 4 ≠ 1 → v.flashTakes true dst out.length = false → e 3)
      ∧ (r = .good → job % 4 ≠ 1 → v.flashTakes true dst out.length = true → ∃ t, exec (.updJobDone host r) s = .next t ∧ ends t 2 0
        ∧ t.fsh = { v.fsh with cells := tputBytes (dflt 0xFF) v.fsh.cells dst out } ∧ t.gte = v.gte)
      ∧ (r = .flashFail → job % 4 ≠ 1 → v.flashTakes true dst out.length = true → s.sparesLeft ≠ 0 → ∃ t, exec (.updJobDone host r) s = .next t
        ∧ ends t 2 0 ∧ t.gte = v.gte
        ∧ t.fsh = { v.fsh with cells := tputBytes (dflt 0xFF) v.fsh.cells dst out, grown := v.fsh.grown ++ [dst / 4096] })
      ∧ (r = .flashFail → job % 4 ≠ 1 → v.flashTakes true dst out.length = true → s.sparesLeft = 0 → ∃ t, exec (.updJobDone host r) s = .next t
        ∧ ends t 3 3 ∧ t.gte = v.gte ∧ t.fsh.cells = v.fsh.cells ∧ t.fsh.bad.contains (sectorOf dst) = true))
    ∧ (∀ k c x, s.upd.jobs = [.copy k c] → s.upd.sess = some x → s.flashIdle = true →
      let base := imageBase s.stageBank k
      let body := s.imageBody s.runningBank k
      let image := s.imageHeader s.runningBank k ++ if kindEncrypted k then storeGranules (base + 4096) ((body.length + 4095) / 4096) body else body
      let copied (t : State) (grown : List Nat) : Prop := ∃ w, t = finalReply c 0 [] 0 w ∧ w.gte = s.gte
        ∧ w.upd = { s.upd with jobs := [], sess := some { x with kinds := tput (dflt ⟨[], false⟩) x.kinds k ⟨[], true⟩ } }
        ∧ w.fsh = { s.fsh with cells := tputBytes (dflt 0xFF) s.fsh.cells base image, grown := s.fsh.grown ++ grown }
      let takes := s.flashTakes false base image.length
      (takes = true → r ≠ .flashFail → ∃ t, exec (.updJobDone host r) s = .next t ∧ copied t [])
      ∧ (takes = true → r = .flashFail → s.sparesLeft ≠ 0 → ∃ t, exec (.updJobDone host r) s = .next t ∧ copied t [base / 4096])
      ∧ (takes = true → r = .flashFail → s.sparesLeft = 0 → ∃ t w, exec (.updJobDone host r) s = .next t ∧ t = finalReply c 0x4802 [] 0 w
        ∧ w.upd = { s.upd with jobs := [], sess := none } ∧ w.fsh.bad.contains (sectorOf base) = true ∧ w.fsh.cells = s.fsh.cells)
      ∧ (takes = false → ∃ t w, exec (.updJobDone host r) s = .next t ∧ t = finalReply c 0x4802 [] 0 w
        ∧ w.upd = { s.upd with jobs := [], sess := none } ∧ w.fsh = s.fsh))
    ∧ (∀ c x, s.upd.jobs = [.check c] → s.upd.sess = some x → s.flashIdle = true →
      (s.stageVerdict x ≠ 0 → ∃ t w, exec (.updJobDone host r) s = .next t ∧ t = finalReply c (s.stageVerdict x) [] 0 w
        ∧ w.upd = { s.upd with jobs := [] } ∧ w.fsh = s.fsh)
      ∧ (s.stageVerdict x = 0 → ∃ t, exec (.updJobDone host r) s = .next t ∧ t.upd = { s.upd with jobs := [], sess := none, valid := true }
        ∧ t.fsh = s.fsh)))
  ∧ (∀ (c : HostCmd) (s : State),
    (Runs s 0x0803 c → ∃ t, exec (.getImages c) s = .next t ∧ t = finalReply c.ref 0
      ([0, 1].flatMap (fun b => [1, 2, 3, 4, 5].flatMap (fun k => (s.imageHeader b k).take 128))
        ++ be 4 (s.rd Reg.UPD_BANK).toNat ++ be 2 (s.arb 0) ++ be 2 (s.arb 1) ++ be 2 (s.arb 2)) 0 s)
    ∧ (Runs s 0x0820 c →
      let bad : Prop := ∃ i, i < 15 ∧ s.fsh.bad.contains (9 + 32 * s.stageBank + i) = true
      (s.upd.sess ≠ none → ∃ t, exec (.updateBegin c) s = .next t ∧ t = finalReply c.ref 0x2804 [] 0 s)
      ∧ (s.upd.sess = none → bad → ∃ t, exec (.updateBegin c) s = .next t ∧ t = finalReply c.ref 0x4802 [] 0 s)
      ∧ (s.upd.sess = none → ¬ bad → s.fsh.prog = none → s.fsh.erase = none → s.fsh.eraseQ = [] →
        ∃ t w, exec (.updateBegin c) s = .next t ∧ t = interimReply c.ref 0x010A w ∧ w.upd = { s.upd with sess := some ⟨[], true⟩, valid := false }
          ∧ w.fsh.erase.map (fun e => (e.first, e.size, e.cmd)) = some (0x40000 + 0x800000 * s.stageBank, 0x40000, some c.ref)
          ∧ w.fsh.eraseQ = (List.range 14).map (fun i => (c.ref, 0x40000 * (2 + i) + 0x800000 * s.stageBank, 0x40000))))
    ∧ (∀ (kind : Fin 5) (offset : BitVec 32) (data : Bytes), Runs s 0x0821 c →
      let k := kind.val + 1
      let ends (fail : Bool) (st : Nat) : Prop := ∃ t, exec (.updateWrite c kind offset data fail) s = .next t ∧ t = finalReply c.ref st [] 0 s
      (∀ fail, s.upd.sess = none → ends fail 0x2804)
      ∧ (∀ x fail, s.upd.sess = some x → x.erasing = true → ends fail 0x2804)
      ∧ ∀ x, s.upd.sess = some x → x.erasing = false →
        let st := (x.kind k).stream
        let kf := field data 5 1
        ((x.kind k).copied = true ∨ offset.toNat ≠ st.length ∨ 65520 < data.length → ∀ fail, ends fail 0x1804)
        ∧ ((x.kind k).copied = false → offset.toNat = st.length → data.length ≤ 65520 →
          (st = [] → data.length < 4096 → ∀ fail, ends fail 0x1802)
          ∧ (st = [] → 4096 ≤ data.length → kf ≠ k → 1 ≤ kf → kf ≤ 5 → ∀ fail, ends fail 0x1804)
          ∧ (∀ e, st = [] → 4096 ≤ data.length → (kf = k ∨ kf = 0 ∨ 5 < kf) → s.headerCheck k (data.take 4096) = some e → ∀ fail, ends fail e)
          ∧ (st ≠ [] ∨ 4096 ≤ data.length ∧ (kf = k ∨ kf = 0 ∨ 5 < kf) ∧ s.headerCheck k (data.take 4096) = none →
            let b := st ++ data
            let base := imageBase s.stageBank k
            let cells := tputBytes (dflt 0xFF) s.fsh.cells base (s.streamImage k b)
            let stored (t : State) (grown : List Nat) : Prop := ∃ w, t = finalReply c.ref 0 [] 0 w ∧ w.fsh = { s.fsh with cells := cells, grown := s.fsh.grown ++ grown }
              ∧ w.upd = { s.upd with sess := some { x with kinds := tput (dflt ⟨[], false⟩) x.kinds k ⟨b, false⟩ } } ∧ w.gte = s.gte
            (transportLen k b < b.length → ∀ fail, ends fail 0x1804)
            ∧ (b.length ≤ transportLen k b → s.flashIdle = false → ∀ fail, ∃ t, exec (.updateWrite c kind offset data fail) s = .next t
              ∧ t.upd = s.upd ∧ t.fsh = s.fsh)
            ∧ (b.length ≤ transportLen k b → s.flashIdle = true →
              (∃ t, exec (.updateWrite c kind offset data false) s = .next t ∧ stored t [])
              ∧ (s.sparesLeft ≠ 0 → ∃ t, exec (.updateWrite c kind offset data true) s = .next t ∧ stored t [base / 4096])
              ∧ (s.sparesLeft = 0 → ∃ t w, exec (.updateWrite c kind offset data true) s = .next t ∧ t = finalReply c.ref 0x4802 [] 0 w
                ∧ w.upd = { s.upd with sess := none } ∧ w.fsh.cells = s.fsh.cells ∧ w.fsh.bad.contains (sectorOf base) = true)))))
    ∧ (let needsSession (op : Nat) (i : Instr) : Prop := Runs s op c → s.upd.sess = none → ∃ t, exec i s = .next t ∧ t = finalReply c.ref 0x2804 [] 0 s
      (∀ kind, needsSession 0x0822 (.updateCopy c kind)) ∧ needsSession 0x0823 (.updateEnd c) ∧ needsSession 0x0824 (.updateAbort c))
    ∧ (∀ x, s.upd.sess = some x →
      (∀ kind : Fin 5, Runs s 0x0822 c → x.erasing = false → ∃ t w, exec (.updateCopy c kind) s = .next t ∧ t = interimReply c.ref 0x010A w
        ∧ w.upd = { s.upd with jobs := s.upd.jobs ++ [.copy (kind.val + 1) c.ref] } ∧ w.fsh = s.fsh)
      ∧ (Runs s 0x0823 c → x.erasing = false → ∃ t w, exec (.updateEnd c) s = .next t ∧ t = interimReply c.ref 0x010A w
        ∧ w.upd = { s.upd with jobs := s.upd.jobs ++ [.check c.ref] } ∧ w.fsh = s.fsh)
      ∧ (Runs s 0x0824 c → ∃ t, exec (.updateAbort c) s = .next t ∧ t = finalReply c.ref 0 [] 0 { s with upd := { s.upd with sess := none } }))
    ∧ (∀ tries : BitVec 8, Runs s 0x0825 c →
      let n := if c.expert then tries.toNat else 2
      (s.upd.valid = false ∨ s.stageStands = false → ∃ t, exec (.activate c tries) s = .next t ∧ t = finalReply c.ref 0x2805 [] 0 s)
      ∧ (s.upd.valid = true → s.stageStands = true → s.sys.maint.whole = false → ∃ t, exec (.activate c tries) s = .next t ∧ t = finalReply c.ref 0x2806 [] 0 s)
      ∧ (s.upd.valid = true → s.stageStands = true → s.sys.maint.whole = true → n < 1 ∨ 7 < n → ∃ t, exec (.activate c tries) s = .next t
        ∧ t = finalReply c.ref 0x1F02 [] 0 s)
      ∧ (s.upd.valid = true → s.stageStands = true → s.sys.maint.whole = true → 1 ≤ n → n ≤ 7 → ∃ t, exec (.activate c tries) s = .next t
        ∧ t.prefBank = s.stageBank ∧ t.trial = true ∧ t.tries = n ∧ t.upd.sess = none ∧ t.upd.jobs = []
        ∧ (∀ k, k < 3 → t.arb k = s.arb k)))
    ∧ (Runs s 0x0826 c →
      let svn (k : Nat) : Nat := hdrSvn (s.imageHeader s.runningBank k)
      (s.trial = false ∨ s.runningBank ≠ s.prefBank → ∃ t, exec (.confirm c) s = .next t ∧ t = finalReply c.ref 0x2807 [] 0 s)
      ∧ (s.trial = true → s.runningBank = s.prefBank → 64 < svn 1 ∨ 64 < svn 2 ∨ 64 < svn 5 → ∃ t, exec (.confirm c) s = .next t
        ∧ t = finalReply c.ref 0x3802 [] 0 s)
      ∧ (s.trial = true → s.runningBank = s.prefBank → svn 1 ≤ 64 → svn 2 ≤ 64 → svn 5 ≤ 64 → ∃ t, exec (.confirm c) s = .next t
        ∧ t.trial = false ∧ t.prefBank = s.prefBank ∧ t.arb 0 = max (s.arb 0) (svn 1) ∧ t.arb 1 = max (s.arb 1) (svn 2)
        ∧ t.arb 2 = max (s.arb 2) (svn 5))))

/-- An insertion shows the card present; activation begins at the class named and counts; without an answer, or with one that excludes the class, the slot tries the next lower-numbered class and after class A stays off with NO_ATR; the plan of the answer is taken after its PPS is echoed, and the default values after a failed PPS; removal, an expired waiting time and a supply fault deactivate the slot with their cause, and lose the card whose exchange is in progress. (R497, R500, R501, R502, R503, R504, R507, 18_custodians_and_cards.md) -/
def Obligations.CardSlots : Prop :=
  (∀ (slot : Fin 4) (s : State), s.cer.card = none →
    let off (t : State) (err : Nat) : Prop := t.slotState slot = 0 ∧ t.fld (Reg.CRD_S_STATUS slot) 7 4 = err ∧ t.bitOf Reg.CRD_STATUS (4 + slot) = false
      ∧ (t.cardSlot slot).tx = [] ∧ (t.cardSlot slot).rx = [] ∧ ∀ k : Fin 4, k ≠ slot → t.cardSlot k = s.cardSlot k ∧ t.slotState k = s.slotState k
    let starts (t : State) (cls : Nat) : Prop := t.slotState slot = 1 ∧ t.fld (Reg.CRD_S_CTL slot) 3 2 = cls
      ∧ t.rd (Reg.CRD_S_ACTIVATIONS slot) = up (s.rd (Reg.CRD_S_ACTIVATIONS slot)) 1 ∧ t.rd (Reg.CRD_S_PARAM slot) = 0x0012E864
      ∧ t.rd (Reg.CRD_S_WT slot) = 0x2580 ∧ t.rd (Reg.CRD_S_CWT slot) = 0
    let taken (t : State) (p : CardPlan) : Prop := t.slotState slot = 2 ∧ t.bitOf Reg.CRD_STATUS (4 + slot) = true
      ∧ t.rd (Reg.CRD_S_PARAM slot) = BitVec.ofNat 32 (p.div + 2 ^ 9 * p.fi + 2 ^ 20 * p.di) ∧ t.bitOf (Reg.CRD_S_CTL slot) 4 = (p.proto == 1)
      ∧ t.bitOf (Reg.CRD_S_CTL slot) 5 = p.crc ∧ (t.rd (Reg.CRD_S_WT slot)).toNat = sat 0xFFFFFF p.wt ∧ (t.cardSlot slot).plan = none
      ∧ t.bitOf Reg.CRD_IRQ_STATUS (8 + slot) = true
    let next (i : Instr) : Prop := let cls := s.fld (Reg.CRD_S_CTL slot) 3 2
      (cls ≤ 1 → ∃ t, exec i s = .next t ∧ off t 1) ∧ (2 ≤ cls → ∃ t, exec i s = .next t ∧ starts t (cls - 1))
    (∃ t, exec (.cardInsert slot) s = .next t ∧ t.bitOf Reg.CRD_STATUS slot = true ∧ t.bitOf (Reg.CRD_S_STATUS slot) 0 = true
      ∧ t.bitOf Reg.CRD_IRQ_STATUS slot = true ∧ t.cardSlot slot = CardSlot.reset ∧ t.cer.roster = s.cer.roster)
    ∧ (s.slotState slot ≠ 0 → ∃ t, exec (.cardRemove slot) s = .next t ∧ off t 6 ∧ t.bitOf Reg.CRD_STATUS slot = false
      ∧ t.bitOf Reg.CRD_IRQ_STATUS (4 + slot) = true ∧ t.cer.roster = s.cer.roster)
    ∧ (s.slotState slot = 0 → ∃ t, exec (.cardRemove slot) s = .next t ∧ t.slotState slot = 0 ∧ t.bitOf Reg.CRD_STATUS slot = false)
    ∧ (∀ value : Word, (bit value 1 = false → bits value 3 2 ≠ 0 → s.bitOf Reg.CRD_CTL slot = true → s.bitOf Reg.CRD_STATUS slot = true →
        s.slotState slot = 0 → ∃ t, exec (.cardActivate slot value) s = .next t ∧ starts t (bits value 3 2))
      ∧ (bit value 1 = false → bits value 3 2 = 0 ∨ s.bitOf Reg.CRD_CTL slot = false ∨ s.bitOf Reg.CRD_STATUS slot = false ∨ s.slotState slot ≠ 0 →
        ∃ t, exec (.cardActivate slot value) s = .next t ∧ t.slotState slot = s.slotState slot
          ∧ t.rd (Reg.CRD_S_ACTIVATIONS slot) = s.rd (Reg.CRD_S_ACTIVATIONS slot) ∧ t.cer = s.cer)
      ∧ (s.slotState slot ≠ 0 → ∃ t, exec (.cardDeactivate slot value) s = .next t ∧ off t 0)
      ∧ (s.slotState slot = 0 → ∃ t, exec (.cardDeactivate slot value) s = .next t ∧ t.slotState slot = 0 ∧ t.cer = s.cer)
      ∧ (bit value 1 = true → exec (.cardActivate slot value) s = exec (.cardDeactivate slot value) s))
    ∧ (s.slotState slot = 1 → (s.cardSlot slot).plan = none → next (.atrTimeout slot)
      ∧ ∀ atr : Bytes, let cls := s.fld (Reg.CRD_S_CTL slot) 3 2
        let gs := (readAtr atr).1
        let ta1 := ((gs.find? (fun g => g.idx == 1)).bind (·.ta)).getD 0x11
        let ta2 := (gs.find? (fun g => g.idx == 2)).bind (·.ta)
        (admitsClass gs cls = false → next (.cardAtrReceived slot atr))
        ∧ (admitsClass gs cls = true → atrProto (readAtr atr).2 = none → ∃ t, exec (.cardAtrReceived slot atr) s = .next t ∧ off t 1)
        ∧ (∀ p fi dv di, admitsClass gs cls = true → atrProto (readAtr atr).2 = some p → ratesOf ta1 = some (fi, dv, di) →
          (ta2 = none → (s.cardSlot slot).retried = false → ∃ t, exec (.cardAtrReceived slot atr) s = .next t ∧ t.regs = s.regs
            ∧ (t.cardSlot slot).plan = some (cardPlan gs p ta1 fi dv di))
          ∧ (ta2 = none → (s.cardSlot slot).retried = true → ∃ t, exec (.cardAtrReceived slot atr) s = .next t ∧ taken t (cardPlan gs p 0x11 372 100 1))
          ∧ (∀ m, ta2 = some m → nbit m 4 = false → ∃ t, exec (.cardAtrReceived slot atr) s = .next t ∧ taken t (cardPlan gs (m % 16) ta1 fi dv di))))
    ∧ (s.slotState slot ≠ 1 → exec (.atrTimeout slot) s = .next s ∧ ∀ atr, exec (.cardAtrReceived slot atr) s = .next s)
    ∧ (∀ p response, (s.cardSlot slot).plan = some p → s.slotState slot = 1 →
      (response = p.pps → ∃ t, exec (.cardPpsResponse slot response) s = .next t ∧ taken t p)
      ∧ (response ≠ p.pps → ∃ t, exec (.cardPpsResponse slot response) s = .next t ∧ starts t 3 ∧ (t.cardSlot slot).retried = true
        ∧ (t.cardSlot slot).plan = none))
    ∧ (s.slotState slot = 2 → ∀ ch : Bool,
      (∃ t, exec (.cardWaitTimeout slot ch) s = .next t ∧ off t (if s.bitOf (Reg.CRD_S_CTL slot) 4 then (if ch then 4 else 5) else 3)
        ∧ t.rd (Reg.CRD_S_TIMEOUTS slot) = up (s.rd (Reg.CRD_S_TIMEOUTS slot)) 1)
      ∧ ∀ same : Bool, let k := (if same then (s.cardSlot slot).rptCount else 0) + 1
        let most := if s.bitOf (Reg.CRD_S_CTL slot) 4 then 4 else 5
        (most ≤ k → ∃ t, exec (.cardParityError slot same) s = .next t ∧ off t 2)
        ∧ (k < most → ∃ t, exec (.cardParityError slot same) s = .next t ∧ (t.cardSlot slot).rptCount = k ∧ t.slotState slot = 2
          ∧ t.rd (Reg.CRD_S_REPEATS slot) = (if k = 3 ∧ most = 4 then s.rd (Reg.CRD_S_REPEATS slot) else up (s.rd (Reg.CRD_S_REPEATS slot)) 1)))
    ∧ (s.slotState slot ≠ 0 → ∃ t, exec (.cardOvercurrent slot) s = .next t ∧ off t 7 ∧ t.bitOf (Reg.CRD_S_STATUS slot) 3 = true)
    ∧ (s.slotState slot = 0 → exec (.cardOvercurrent slot) s = .next s)
    ∧ (s.slotState slot ≠ 2 → ∀ b, exec (.cardWaitTimeout slot b) s = .next s ∧ exec (.cardParityError slot b) s = .next s)
    ∧ ((s.cardSlot slot).plan = none → ∀ response, exec (.cardPpsResponse slot response) s = .next s)
    ∧ (∀ value : Word, (s.cardSlot slot).tx.length < 32 → ∃ t, exec (.cardTxWrite slot value) s = .next t
      ∧ t.cardSlot slot = { s.cardSlot slot with tx := (s.cardSlot slot).tx ++ [value.setWidth 8] } ∧ t.regs = s.regs)
    ∧ (∀ value : Word, 32 ≤ (s.cardSlot slot).tx.length → exec (.cardTxWrite slot value) s = .next s)
    ∧ (∃ t, exec (.cardRxPop slot) s = .next t ∧ t.cardSlot slot = { s.cardSlot slot with rx := (s.cardSlot slot).rx.drop 1 } ∧ t.regs = s.regs))
  ∧ (∀ (slot : Fin 4) (ch : Bool) (s : State) (x : CardStep), s.cer.card = some x → x.exchange = some slot.val → s.slotState slot = 2 →
    let lost (i : Instr) : Prop := ∃ t w, exec i s = .next t ∧ t = finalReply x.cmd 0x2909 [] 0 w ∧ w.cer.card = none ∧ w.slotState slot = 0
      ∧ (x.inCeremony = true → w.cer.phase = .restoring)
      ∧ (x.inCeremony = false → w.cer.phase = s.cer.phase ∧ w.sys.mode = s.sys.mode
        ∧ w.cer.journal = s.cer.journal ++ [⟨4, s.cer.serial, s.cer.steps.length, x.opcode⟩])
    lost (.cardRemove slot) ∧ lost (.cardWaitTimeout slot ch) ∧ lost (.cardOvercurrent slot))

/-- A nonce belongs to its function, which holds at most eight; OPEN_CEREMONY without the ticket it needs ends with 0x290A, and accepted it opens the ceremony with its record and asks for CEREMONY; CLOSE_CEREMONY needs every policy to be met, and its end makes the working roster, the policies and the permission words effective and commits the mode; ABORT_CEREMONY, the idle limit and restoring put every step back and commit the mode it was opened from. (R33, R482, R484, R487, R488, R489, R490, R491, R494, R495, R498, R506) -/
def Obligations.CeremonyPhases : Prop :=
  (∀ (c : HostCmd) (s : State),
    (Runs s 0x0901 c → ∃ t, exec (.getCeremony c) s = .next t
      ∧ t = finalReply c.ref 0 (be 4 (s.rd Reg.CRD_STATUS).toNat ++ be 8 (s.rd64 Reg.CRD_CER_SERIAL_LO)) 0 s)
    ∧ (Runs s 0x0904 c → ∃ t, exec (.getCards c) s = .next t
      ∧ t = finalReply c.ref 0 ((List.range 4).flatMap (fun n => be 4 (s.rd (Reg.CRD_S_STATUS n)).toNat) ++ be 4 (s.rd Reg.NFR_STATUS).toNat) 0 s)
    ∧ (Runs s 0x0902 c →
      (s.rngFailed = true → ∃ t, exec (.getNonce c) s = .next t ∧ t = finalReply c.ref 0x4720 [] 0 s)
      ∧ (s.rngFailed = false → ∃ t w, exec (.getNonce c) s = .next t ∧ t = finalReply c.ref 0 (s.freeBytes 16) 0 w
        ∧ ⟨c.fn, s.freeBytes 16, s.ms⟩ ∈ w.cer.nonces ∧ (∀ n ∈ liveNonces s, n.fn ≠ c.fn.val → n ∈ w.cer.nonces)
        ∧ ((s.cer.nonces.filter (fun n => n.fn == c.fn.val)).length ≤ 8 → (w.cer.nonces.filter (fun n => n.fn == c.fn.val)).length ≤ 8)))
    ∧ (∀ scope first : BitVec 16, Runs s 0x0903 c →
      let sc := if scope = 0xFFFF then devScope else scope.toNat
      let l := s.cer.roster.filter (fun e => decide (first.toNat ≤ e.1) && e.2.state != 0 && e.2.scope == sc)
      let bad : Prop := (scope ≠ 0xFFFF ∧ 512 ≤ scope.toNat) ∨ 1536 ≤ first.toNat ∨ (c.fn.val ≠ 0 ∧ sc ≠ c.own)
      (bad → ∃ t, exec (.getRoster c scope first) s = .next t ∧ t = finalReply c.ref 0x1902 [] 0 s)
      ∧ (¬ bad → c.outLen < 128 * l.length → ∃ t, exec (.getRoster c scope first) s = .next t ∧ t = finalReply c.ref 0x3401 [] 0 s)
      ∧ (¬ bad → 128 * l.length ≤ c.outLen → ∃ t, exec (.getRoster c scope first) s = .next t
        ∧ t = finalReply c.ref 0 (l.flatMap (fun e => e.2.bytes e.1)) 0 s)))
  ∧ (∀ (fn : Fin 513) (s : State),
    ((∀ n ∈ s.cer.nonces, n.fn ≠ fn.val) → exec (.nonceExpiry fn) s = .next s)
    ∧ (∀ n l r, s.cer.nonces = l ++ n :: r → n.fn = fn.val → (∀ m ∈ l, m.fn ≠ fn.val) → ∃ t, exec (.nonceExpiry fn) s = .next t
      ∧ t = { s with cer := { s.cer with nonces := l ++ r } }))
  ∧ (∀ (c : HostCmd) (s : State), Runs s 0x0910 c →
    let inaugural : Prop := s.sys.mode = .notary ∧ s.noDevice = true
    let opens (v : State) : Prop := v.cer.phase = .idle → v.sys.pend = none → (v.sys.mode = .zeroized → v.rngFailed = false ∧ v.mintUp = true) →
      ∃ t, exec (.openCeremony c true) s = .next t ∧ t.cer.phase = .opened ∧ t.cer.serial = v.cer.serial + 1 ∧ t.cer.fn = c.fn.val
        ∧ t.cer.openedFrom = v.sys.mode ∧ t.cer.journal = [⟨1, v.cer.serial + 1, 0, 0x0910⟩] ∧ t.sys.mode = v.sys.mode
        ∧ t.sys.pend = some ⟨.ceremony, v.sys.maint, some c.ref⟩ ∧ t.cer.roster = v.cer.roster
        ∧ (v.sys.mode ≠ .zeroized → t.cer.work = v.cer.roster ∧ t.cer.tenants = v.cer.tenants ∧ t.keys = v.keys)
        ∧ (v.sys.mode = .zeroized → t.keys.l0gen = v.keys.l0gen + 1 ∧ t.cer.tenants = [] ∧ (t.slot 0).state = 1 ∧ ∀ e ∈ t.cer.work, e.2.scope = devScope)
    let turned (v : State) (st : Nat) : Prop := ∀ j, ∃ t, exec (.openCeremony c j) s = .next t ∧ t = finalReply c.ref st [] 0 v
    (c.ticket = none → ¬ inaugural → turned s 0x290A)
    ∧ (c.ticket = none → inaugural → opens s ∧ (s.cer.phase ≠ .idle → turned s 0x2907) ∧ (s.cer.phase = .idle → s.sys.pend ≠ none → turned s 0x2105)
      ∧ (s.cer.phase = .idle → s.sys.pend = none → ∃ t, exec (.openCeremony c false) s = .next t ∧ t = finalReply c.ref 0x4901 [] 0 s))
    ∧ (∀ tk st v, c.ticket = some tk → ticketCheck 0x0910 c devScope tk s = (some st, v) → turned v st)
    ∧ (∀ tk v, c.ticket = some tk → ticketCheck 0x0910 c devScope tk s = (none, v) → opens v ∧ (v.cer.phase ≠ .idle → turned v 0x2907)
      ∧ (v.cer.phase = .idle → v.sys.pend ≠ none → turned v 0x2105)
      ∧ (v.cer.phase = .idle → v.sys.pend = none → v.sys.mode = .zeroized → v.rngFailed = true → turned v 0x4720)
      ∧ (v.cer.phase = .idle → v.sys.pend = none → v.sys.mode = .zeroized → v.rngFailed = false → v.mintUp = false → turned v 0x4201)))
  ∧ (∀ (c : HostCmd) (s : State),
    let mine : Prop := (s.cer.phase = .opened ∨ s.cer.phase = .step) ∧ s.cer.fn = c.fn.val
    let short : Prop := s.enrolled devScope < (s.workPolicy devScope).m
      ∨ ∃ e ∈ s.cer.workPolicies, e.1 ≠ devScope ∧ e.2.given = true ∧ s.enrolled e.1 < e.2.m
    (Runs s 0x0911 c →
      (¬ mine → ∀ j, ∃ t, exec (.closeCeremony c j) s = .next t ∧ t = finalReply c.ref 0x2907 [] 0 s)
      ∧ (mine → s.cer.phase = .step → ∀ j, ∃ t, exec (.closeCeremony c j) s = .next t ∧ t.cer = s.cer ∧ t.sys = s.sys ∧ t.regs = s.regs)
      ∧ (mine → s.cer.phase = .opened → short → ∀ j, ∃ t, exec (.closeCeremony c j) s = .next t ∧ t = finalReply c.ref 0x2908 [] 0 s)
      ∧ (mine → s.cer.phase = .opened → ¬ short → ∃ t, exec (.closeCeremony c false) s = .next t ∧ t = finalReply c.ref 0x4901 [] 0 s)
      ∧ (mine → s.cer.phase = .opened → ¬ short → ∃ t, exec (.closeCeremony c true) s = .next t ∧ t.cer.phase = .closing ∧ t.cer.endCmd = some c.ref
        ∧ t.cer.journal = s.cer.journal ++ [⟨5, s.cer.serial, s.cer.steps.length, 0x0911⟩] ∧ t.cer.roster = s.cer.roster ∧ t.sys = s.sys))
    ∧ (Runs s 0x0912 c →
      (¬ mine → ∃ t, exec (.abortCeremony c) s = .next t ∧ t = finalReply c.ref 0x2907 [] 0 s)
      ∧ (mine → s.cer.phase = .step → ∃ t, exec (.abortCeremony c) s = .next t ∧ t.cer = s.cer ∧ t.sys = s.sys ∧ t.regs = s.regs)
      ∧ (mine → s.cer.phase = .opened → ∃ t w, exec (.abortCeremony c) s = .next t ∧ t = interimReply c.ref 0x010B w ∧ w.cer.phase = .restoring
        ∧ w.cer.endCmd = some c.ref ∧ w.cer.steps = s.cer.steps ∧ w.sys = s.sys)))
  ∧ (∀ s : State,
    (s.cer.phase = .closing → ∃ t, exec .ceremonyClosed s = .next t ∧ t.cer.phase = .idle ∧ t.cer.roster = s.cer.work ∧ t.cer.policies = s.cer.workPolicies
      ∧ t.cer.steps = [] ∧ t.sys.mode = s.closeMode.1 ∧ t.sys.maint = s.closeMode.2 ∧ t.sys.prevMode = s.sys.mode ∧ t.sys.pend = none
      ∧ (∀ n, n < 512 → tget (dflt 0) t.host.perm (n + 1) = tget permDflt s.cer.perms (n + 1)))
    ∧ (s.cer.phase ≠ .closing → exec .ceremonyClosed s = .next s)
    ∧ (s.anyCharter = false → s.closeMode = (.notary, MaintSet.empty))
    ∧ (s.anyCharter = true → s.held = true → s.closeMode = (.maintenance, MaintSet.all))
    ∧ (s.anyCharter = true → s.held = false → s.cer.openedFrom ≠ .maintenance → s.closeMode = (.service, MaintSet.empty))
    ∧ (s.anyCharter = true → s.held = false → s.cer.openedFrom = .maintenance → s.cer.openedSet.isEmpty = false →
      s.closeMode = (.maintenance, s.cer.openedSet))
    ∧ (s.cer.phase = .restoring → s.sys.mode = .ceremony → ∃ t, exec .ceremonyRestored s = .next t ∧ t.cer.phase = .idle ∧ t.cer.steps = []
      ∧ t.sys.mode = s.cer.openedFrom ∧ t.sys.maint = s.sys.maint ∧ t.cer.roster = s.cer.roster ∧ t.keys.l0gen = s.keys.l0gen
      ∧ (s.cer.openedFrom = .zeroized → (t.slot 0).state = 0)
      ∧ (∀ op n x, s.cer.steps = [⟨op, [.roster n x], true, false⟩] → tget (dflt Custodian.empty) t.cer.work n = x)
      ∧ (∀ op sc p, s.cer.steps = [⟨op, [.policy sc p], true, false⟩] → tget (dflt Policy.dflt) t.cer.workPolicies sc = p))
    ∧ (s.cer.phase = .restoring → s.sys.mode ≠ .ceremony → ∃ t, exec .ceremonyRestored s = .next t ∧ t.cer.phase = .idle ∧ t.cer.steps = []
      ∧ t.sys = { s.sys with pend := none } ∧ t.cer.roster = s.cer.roster)
    ∧ (s.cer.phase ≠ .restoring → exec .ceremonyRestored s = .next s)
    ∧ (s.cer.phase = .opened → ∃ t, exec .ceremonyIdleTimeout s = .next t ∧ t.cer.phase = .restoring ∧ t.cer.steps = s.cer.steps ∧ t.sys = s.sys)
    ∧ (s.cer.phase ≠ .opened → exec .ceremonyIdleTimeout s = .next s))

/-- A step command of another function, or with no ceremony open, ends with 0x2907; each step of the open ceremony changes what R491 and R492 state, with its undo data in the step's record, or waits for a card; a card's answers lead the exchange on to the enrolment or the component, and a refusal or an expired wait fails that step alone. (R243, R483, R490, R491, R492, R493, R496, R497, R505, R559) -/
def Obligations.CeremonySteps : Prop :=
  (∀ (c : HostCmd) (s : State), ((s.cer.phase ≠ .opened ∧ s.cer.phase ≠ .step) ∨ s.cer.fn ≠ c.fn.val) →
    let shut (op : Nat) (i : Instr) : Prop := Runs s op c → ∃ t, exec i s = .next t ∧ t = finalReply c.ref 0x2907 [] 0 s
    (∀ n, shut 0x0914 (.revokeCustodian c n)) ∧ (∀ sc m r, shut 0x0915 (.setPolicy c sc m r)) ∧ (∀ w, shut 0x0919 (.setOwnerPerm c w))
    ∧ (∀ k sc f, shut 0x0913 (.enrolCustodian c k sc f)) ∧ (∀ d p n l k, shut 0x0916 (.createDomain c d p n l k))
    ∧ (∀ t d w m r, shut 0x0917 (.createTenant c t d w m r)) ∧ (∀ t, shut 0x0918 (.destroyTenant c t)))
  ∧ (∀ (c : HostCmd) (s : State), s.cer.phase = .opened → s.cer.fn = c.fn.val →
    let ends (i : Instr) (st : Nat) : Prop := ∃ t w, exec i s = .next t ∧ t = finalReply c.ref st [] 0 w ∧ w.cer.steps = s.cer.steps
    let step (op : Nat) (u : List Undo) (w : State) : Prop := w.cer.phase = .opened ∧ w.cer.steps = s.cer.steps ++ [⟨op, u, true, false⟩]
    let room : Prop := s.cer.steps.length < 128
    let asks (i : Instr) (x : CardStep) (l : List Nat) : Prop := ∃ t, exec i s = .next t ∧ t.cer.phase = .step ∧ t.cer.work = s.cer.work ∧ t.keys = s.keys
      ∧ (l.find? s.cardActive = none → t.cer.card = some { x with interim := none } ∧ ∃ w, t = conclude c (.hold (interimReply c.ref 0x010B w)) s)
      ∧ ∀ k, l.find? s.cardActive = some k → t.cer.card = some (CardStep.send { x with exchange := some k })
    (∀ number : BitVec 16, Runs s 0x0914 c → let n := number.toNat
      let x := tget (dflt Custodian.empty) s.cer.work n
      (1536 ≤ n ∨ x.state ≠ 1 → ∃ t, exec (.revokeCustodian c number) s = .next t ∧ t = finalReply c.ref 0x1902 [] 0 s)
      ∧ (n < 1536 → x.state = 1 → room → ∃ t w, exec (.revokeCustodian c number) s = .next t ∧ t = finalReply c.ref 0 [] 0 w ∧ step 0x0914 [.roster n x] w
        ∧ (∀ k, tget (dflt Custodian.empty) w.cer.work k = if k = n then { x with state := 2 } else tget (dflt Custodian.empty) s.cer.work k)
        ∧ w.cer.roster = s.cer.roster ∧ w.keys = s.keys))
    ∧ (∀ (scope : BitVec 16) (m regMin : BitVec 8), Runs s 0x0915 c →
      let sc := if scope = 0xFFFF then devScope else scope.toNat
      let fits : Prop := (scope = 0xFFFF ∨ scope.toNat < 512 ∧ (s.tenant scope.toNat).present = true) ∧ 2 ≤ m.toNat ∧ m.toNat ≤ 16 ∧ regMin.toNat ≤ m.toNat
      (¬ fits → ∃ t, exec (.setPolicy c scope m regMin) s = .next t ∧ t = finalReply c.ref 0x1902 [] 0 s)
      ∧ (fits → room → ∃ t w, exec (.setPolicy c scope m regMin) s = .next t ∧ t = finalReply c.ref 0 [] 0 w ∧ step 0x0915 [.policy sc (s.workPolicy sc)] w
        ∧ (∀ k, w.workPolicy k = if k = sc then ⟨true, m.toNat, regMin.toNat⟩ else s.workPolicy k) ∧ w.cer.policies = s.cer.policies))
    ∧ (∀ word : Word, Runs s 0x0919 c →
      (word &&& 0xFFFFFF80 ≠ 0 → ∃ t, exec (.setOwnerPerm c word) s = .next t ∧ t = finalReply c.ref 0x1902 [] 0 s)
      ∧ (word &&& 0xFFFFFF80 = 0 → room → ∃ t w, exec (.setOwnerPerm c word) s = .next t ∧ t = finalReply c.ref 0 [] 0 w
        ∧ step 0x0919 [.perm 0 (tget permDflt s.cer.perms 0)] w ∧ tget permDflt w.cer.perms 0 = word
        ∧ (∀ k, k ≠ 0 → tget permDflt w.cer.perms k = tget permDflt s.cer.perms k) ∧ w.host.perm = s.host.perm))
    ∧ (∀ (tenant : BitVec 16) (domain : BitVec 8) (word : Word) (m regMin : BitVec 8), Runs s 0x0917 c →
      let n := tenant.toNat
      let d := domain.toNat
      let mm := if c.expert then m.toNat else 2
      let rr := if c.expert then regMin.toNat else 0
      let fits : Prop := n < 512 ∧ d < 16 ∧ (s.tenant n).present = false ∧ (s.slot (1 + d)).state = 1 ∧ word &&& 0xFFFFFFC0 = 0
        ∧ 2 ≤ mm ∧ mm ≤ 16 ∧ rr ≤ mm
      (¬ fits → ∃ t, exec (.createTenant c tenant domain word m regMin) s = .next t ∧ t = finalReply c.ref 0x1902 [] 0 s)
      ∧ (fits → s.mintUp = false → ends (.createTenant c tenant domain word m regMin) 0x4201)
      ∧ (fits → s.mintUp = true → s.stepLimit (createUndo n s) = true → ends (.createTenant c tenant domain word m regMin) 0x3901)
      ∧ (fits → s.mintUp = true → s.stepLimit (createUndo n s) = false → ∃ t, exec (.createTenant c tenant domain word m regMin) s = .next t
        ∧ step 0x0917 (createUndo n s) t ∧ t.tenant n = ⟨true, d⟩ ∧ (∀ k, k ≠ n → t.tenant k = s.tenant k)
        ∧ t.charter n = { Charter.none with role := 1 } ∧ t.workPolicy n = ⟨true, mm, rr⟩ ∧ tget permDflt t.cer.perms (n + 1) = word
        ∧ (t.slot (l2Slot n)).state = 1 ∧ (t.slot (l2Slot n)).gen = 0 ∧ (t.slot (l2Slot n)).owner = n ∧ (t.slot (l2Slot n)).domain = d
        ∧ (t.slot (signSlot n)).state = 1 ∧ (t.slot (1 + d)).key = (s.slot (1 + d)).key))
    ∧ (∀ tenant : BitVec 16, Runs s 0x0918 c → let n := tenant.toNat
      (512 ≤ n ∨ (s.tenant n).present = false → ∃ t, exec (.destroyTenant c tenant) s = .next t ∧ t = finalReply c.ref 0x1902 [] 0 s)
      ∧ (n < 512 → (s.tenant n).present = true →
        let u := [Undo.tenant n (s.tenant n), .charter n (s.charter n), .policy n (s.workPolicy n), .perm (n + 1) (tget permDflt s.cer.perms (n + 1))]
          ++ (s.tenantCustodians n).map (fun k => Undo.roster k (tget (dflt Custodian.empty) s.cer.work k))
          ++ (s.tenantRegions n).map (fun k => Undo.region k (tget (dflt ⟨false, false, 0⟩) s.keys.regions k))
          ++ (s.tenantSlots n).map (fun k => Undo.record k (tget (dflt noRecord) s.keys.store k))
          ++ (s.tenantSlots n).map (fun k => Undo.slot k (s.slot k))
        (s.stepLimit u = true → ends (.destroyTenant c tenant) 0x3901)
        ∧ (s.stepLimit u = false → s.mintUp = false → ends (.destroyTenant c tenant) 0x4201)
        ∧ (s.stepLimit u = false → s.mintUp = true →
          ∃ t w, exec (.destroyTenant c tenant) s = .next t ∧ t = interimReply c.ref 0x010B w ∧ w.cer.phase = .step ∧ w.cer.tenants = s.cer.tenants
            ∧ w.keys = { s.keys with purges := s.keys.purges ++ [⟨.destroyTenant n, [], some c.ref⟩] } ∧ w.bitOf Reg.MNT_STATUS 6 = true)))
    ∧ (∀ (slot : BitVec 8) (scope : BitVec 16) (flags : BitVec 8), Runs s 0x0913 c →
      let sc := if scope = 0xFFFF then devScope else scope.toNat
      let fits : Prop := slot.toNat < 5 ∧ (scope = 0xFFFF ∨ scope.toNat < 512 ∧ (s.tenant scope.toNat).present = true) ∧ flags.toNat ≤ 1
      (¬ fits → ∃ t w, exec (.enrolCustodian c slot scope flags) s = .next t ∧ t = finalReply c.ref 0x1902 [] 0 w ∧ w.cer = s.cer)
      ∧ (fits → s.freeCustodian = none ∨ 16 ≤ s.enrolled sc → ends (.enrolCustodian c slot scope flags) 0x3902)
      ∧ (fits → s.freeCustodian.isSome = true → s.enrolled sc < 16 → ¬ room → ends (.enrolCustodian c slot scope flags) 0x3901)
      ∧ (∀ n, fits → s.freeCustodian = some n → s.enrolled sc < 16 → room → asks (.enrolCustodian c slot scope flags)
        ⟨c.ref, 0x0913, .enrol n slot.toNat sc (nbit flags.toNat 0) (s.freeBytes 48), none, 0, [], [], [], true, [], some 0x010B, []⟩ [slot.toNat]))
    ∧ (∀ (domain : BitVec 8) (profile : Fin 3) (count : BitVec 8) (slots : List (Fin 5)) (kcv : Bytes), Runs s 0x0916 c →
      let d := domain.toNat
      let p := if c.expert then profile.val else c.profile.toNat
      let n := if c.expert then count.toNat else 2
      let l := if c.expert then slots.map (·.val) else [0, 1, 2, 3, 4]
      let i : Instr := .createDomain c domain profile count slots kcv
      let u := [Undo.record (1 + d) (tget (dflt noRecord) s.keys.store (1 + d)), .slot (1 + d) (s.slot (1 + d))]
      let wrong : Prop := 16 ≤ d ∨ (s.slot (1 + d)).state ≠ 0 ∨ (p ≠ 0 ∧ (n < 2 ∨ 8 < n ∨ l = [])) ∨ (p = 1 ∧ (c.expert = false ∨ kcv.length ≠ 5))
      (wrong → ∃ t w, exec i s = .next t ∧ t = finalReply c.ref 0x1902 [] 0 w ∧ w.cer = s.cer)
      ∧ (¬ wrong → p ≠ 1 → s.rngFailed = true → ends i 0x4720)
      ∧ (¬ wrong → (p ≠ 1 → s.rngFailed = false) → s.stepLimit u = true → ends i 0x3901)
      ∧ (¬ wrong → (p ≠ 1 → s.rngFailed = false) → s.stepLimit u = false →
        (p = 0 → ∃ t, exec i s = .next t ∧ step 0x0916 u t
          ∧ (t.slot (1 + d)).state = 1 ∧ (t.slot (1 + d)).level = 1 ∧ (t.slot (1 + d)).origin = 1 ∧ (t.slot (1 + d)).key = s.freeBytes 32
          ∧ ∀ k, k ≠ 1 + d → t.slot k = s.slot k)
        ∧ (p = 1 → asks i ⟨c.ref, 0x0916, .readDomain d n l kcv [] [], none, 0, [], [], [], true, [], some 0x010B, []⟩ l)
        ∧ (p = 2 → ∃ parts, parts.length = n ∧ combine parts = s.freeBytes 32
          ∧ asks i ⟨c.ref, 0x0916, .writeDomain d l (s.freeBytes 32) parts [], none, 0, [], [], [], true, [], some 0x010B, []⟩ l))))
  ∧ (∀ (c : HostCmd) (cls count : BitVec 8) (kcv : Bytes) (len attr limit : BitVec 8) (s : State), Runs s 0x0211 c →
    let i : Instr := .importComponents c ⟨cls, len, attr, limit⟩ count kcv
    let l := if c.expert then len.toNat else 3
    let a := if c.expert then attr else defaultAttrs cls.toNat
    let e := if c.expert then limit.toNat else 31
    let owner := if c.fn.val = 0 then 0xFFFF else c.own
    let fits : Prop := storedClass cls.toNat = true ∧ 2 ≤ count.toNat ∧ count.toNat ≤ 8 ∧ kcv.length = 5 ∧ 1 ≤ l ∧ l ≤ 3 ∧ a &&& ~~~(classAttrs cls.toNat) = 0
    (c.fn.val = 0 → s.sys.mode ≠ .ceremony → ∃ t, exec i s = .next t ∧ t = finalReply c.ref 0x2F02 [] 0 s)
    ∧ (c.fn.val ≠ 0 ∨ s.sys.mode = .ceremony → c.ticket = none → ∃ t, exec i s = .next t ∧ t = finalReply c.ref 0x2202 [] 0 s)
    ∧ (∀ tk v, c.fn.val ≠ 0 ∨ s.sys.mode = .ceremony → c.ticket = some tk → ticketCheck 0x0211 c c.scope tk s = (none, v) →
      let inCer := s.sys.mode == .ceremony
      let mine : Prop := s.sys.mode = .ceremony → v.cer.phase = .opened ∧ v.cer.fn = c.fn.val
      let x (n : Nat) : CardStep := ⟨c.ref, 0x0211, .importKey n (poolMeta cls.toNat l a 2 owner e) count.toNat c.scope kcv [] [], none, 0, [], [], [], inCer, [],
        some 0x0101, []⟩
      (s.sys.mode = .ceremony → (v.cer.phase ≠ .opened ∧ v.cer.phase ≠ .step) ∨ v.cer.fn ≠ c.fn.val → ∃ t, exec i s = .next t
        ∧ t = finalReply c.ref 0x2907 [] 0 v)
      ∧ (mine → ¬ fits → ∃ t, exec i s = .next t ∧ t = finalReply c.ref 0x1202 [] 0 v)
      ∧ (mine → fits → limitOk e = false → ∃ t, exec i s = .next t ∧ t = finalReply c.ref 0x1206 [] 0 v)
      ∧ (mine → fits → limitOk e = true → v.cer.card.isSome = true → ∃ t, exec i s = .next t ∧ t.cer = s.cer ∧ t.keys = s.keys)
      ∧ (∀ st, mine → fits → limitOk e = true → v.cer.card = none → poolSlot owner v = .error st → ∃ t, exec i s = .next t ∧ t = finalReply c.ref st [] 0 v)
      ∧ (∀ n, mine → fits → limitOk e = true → v.cer.card = none → poolSlot owner v = .ok n →
        s.sys.mode ≠ .ceremony ∨ v.stepLimit [Undo.record n (tget (dflt noRecord) v.keys.store n), .slot n (v.slot n)] = false →
        ∃ t, exec i s = .next t ∧ t.keys = v.keys ∧ t.cer.journal = v.cer.journal ++ [⟨2, v.cer.serial, if inCer then v.cer.steps.length + 1 else v.cer.steps.length, 0x0211⟩]
          ∧ ([0, 1, 2, 3, 4].find? v.cardActive = none → t.cer.card = some { x n with interim := none })
          ∧ ∀ k, [0, 1, 2, 3, 4].find? v.cardActive = some k → t.cer.card = some (CardStep.send { x n with exchange := some k }))))
  ∧ (∀ (slot : Fin 5) (sw : BitVec 16) (data : Bytes) (s : State),
    (s.cardActive slot = false → exec (.cardResponse slot sw data) s = .next s)
    ∧ (s.cardActive slot = true → s.cer.card = none → slot.val < 4 → ∃ t, exec (.cardResponse slot sw data) s = .next t
      ∧ (t.cardSlot slot).rx = ((s.cardSlot slot).rx ++ data ++ be 2 sw.toNat).take 63 ∧ (t.cardSlot slot).tx = [] ∧ t.keys = s.keys)
    ∧ (∀ x, s.cardActive slot = true → s.cer.card = some x → x.exchange = some slot.val →
      let fails (st : Nat) : Prop := ∃ t, exec (.cardResponse slot sw data) s = .next t ∧ t = failCards x st s
      let sends (y : CardStep) : Prop := ∃ t, exec (.cardResponse slot sw data) s = .next t ∧ t.cer = { s.cer with card := some (CardStep.send { y with stage := x.stage + 1 }) }
        ∧ t.keys = s.keys
      let id := data.take 8
      let pub := data.drop 8
      (sw ≠ 0x9000 → fails 0x1904)
      ∧ (sw = 0x9000 → (x.stage = 0 → sends x)
        ∧ (x.stage = 1 → data.length ≠ 105 → fails 0x1904)
        ∧ (∀ n k sc reg ch, x.want = .enrol n k sc reg ch →
          (x.stage = 1 → data.length = 105 → s.cardKnown id pub = true → fails 0x1905)
          ∧ (x.stage = 1 → data.length = 105 → s.cardKnown id pub = false → sends { x with ident := id, pub := pub })
          ∧ (x.stage = 2 → Config.ecdsaVerify x.pub ch data = false → fails 0x1904)
          ∧ (x.stage = 2 → Config.ecdsaVerify x.pub ch data = true → x.inCeremony = true → s.cer.phase = .step → ∃ t w,
            exec (.cardResponse slot sw data) s = .next t ∧ t = finalReply x.cmd 0 [] 0 w ∧ w.cer.phase = .opened ∧ w.cer.card = none
              ∧ ∀ m, tget (dflt Custodian.empty) w.cer.work m = if m = n then ⟨sc, 1, reg, x.ident, x.pub⟩ else tget (dflt Custodian.empty) s.cer.work m))
        ∧ (x.want.isEnrol = false → x.stage = 1 → data.length = 105 → s.cardEnrolled x.want.scope id pub = false ∨ x.want.cards.contains id = true →
          fails 0x1905)
        ∧ (x.want.isEnrol = false → x.stage = 1 → data.length = 105 → s.cardEnrolled x.want.scope id pub = true → x.want.cards.contains id = false →
          sends { x with ident := id, pub := pub, eph := s.freeBytes 48 })
        ∧ (x.want.isEnrol = false → x.stage = 2 → if Config.ecdsaVerify x.pub (sha384 (Config.ecdsaPublic x.eph ++ x.ident)) data then sends x else fails 0x1904)
        ∧ (x.stage = 3 → (∀ d l key left cards, x.want ≠ .writeDomain d l key left cards) → openComponent x data = none → fails 0x1904)
        ∧ (∀ d n l kcv got cards comp, x.stage = 3 → x.want = .readDomain d n l kcv got cards → openComponent x data = some comp → got.length + 1 < n →
          ∃ t y, exec (.cardResponse slot sw data) s = .next t ∧ t.cer.card = some y ∧ y.want = .readDomain d n l kcv (got ++ [comp]) (cards ++ [x.ident])
            ∧ y.used = x.used ++ [slot.val] ∧ t.keys = s.keys)
        ∧ (∀ m v k sc kcv got cards comp, x.stage = 3 → x.want = .importKey m v k sc kcv got cards → openComponent x data = some comp → k ≤ got.length + 1 →
          (kcvOf (combine (got ++ [comp])) ≠ kcv → fails 0x1204)
          ∧ (kcvOf (combine (got ++ [comp])) = kcv → ∃ t, exec (.cardResponse slot sw data) s = .next t ∧ (t.slot m).state = 1
            ∧ (t.slot m).keyBytes = (fit 32 (combine (got ++ [comp]))).take (8 * (v.len + 1)) ∧ t.cer.card = none))
        ∧ (∀ d n l kcv got cards comp, x.stage = 3 → x.want = .readDomain d n l kcv got cards → openComponent x data = some comp → n ≤ got.length + 1 →
          (kcvOf (combine (got ++ [comp])) ≠ kcv → fails 0x1204)
          ∧ (kcvOf (combine (got ++ [comp])) = kcv → ∃ t, exec (.cardResponse slot sw data) s = .next t ∧ (t.slot (1 + d)).state = 1
            ∧ (t.slot (1 + d)).origin = 2 ∧ (t.slot (1 + d)).level = 1 ∧ t.cer.card = none))
        ∧ (∀ d l key left cards, x.stage = 3 → x.want = .writeDomain d l key left cards → left.length ≤ 1 → ∃ t,
          exec (.cardResponse slot sw data) s = .next t ∧ (t.slot (1 + d)).state = 1 ∧ (t.slot (1 + d)).origin = 1 ∧ t.cer.card = none))))
  ∧ (∀ s : State, (s.cer.card = none → exec .cardStepWaitTimeout s = .next s)
    ∧ (∀ x, s.cer.card = some x → x.exchange = none → ∃ t, exec .cardStepWaitTimeout s = .next t ∧ t = failCards x 0x1903 s)
    ∧ (∀ x k, s.cer.card = some x → x.exchange = some k → exec .cardStepWaitTimeout s = .next s))

/-- A token is activated only when none is active and no seal is being read; its removal is counted and loses an exchange in progress; a capacitance change above the threshold wakes the reader, which polls and returns to sensing; a tag's answer to a check is matched under every unmatched key or counted as unknown; the check judges every enrolled seal by the causes in table order, and a failing seal or too few seals set SEAL_FAIL; the seal commands need their tickets and change only their own record. (R509, R510, R511, R512, R513, R514, R515, R516, R517, R518) -/
def Obligations.TokensAndSeals : Prop :=
  (∀ (typeB : Bool) (s : State),
    let ready : Prop := s.bitOf Reg.NFR_CTL 0 = true ∧ s.bitOf Reg.NFR_CTL 1 = true ∧ s.bitOf Reg.NFR_STATUS 2 = false ∧ s.nfr.check = none ∧ s.nfr.enrol = none
    (ready → ∃ t, exec (.tokenActivate typeB) s = .next t ∧ t.bitOf Reg.NFR_STATUS 2 = true ∧ t.bitOf Reg.NFR_STATUS 3 = typeB
      ∧ t.fld Reg.NFR_STATUS 1 0 = 2 ∧ t.bitOf Reg.NFR_IRQ_STATUS 0 = true ∧ t.nfr = s.nfr ∧ t.keys = s.keys)
    ∧ (¬ ready → exec (.tokenActivate typeB) s = .next s))
  ∧ (∀ s : State,
    let gone (t : State) : Prop := t.bitOf Reg.NFR_STATUS 2 = false ∧ t.fld Reg.NFR_STATUS 1 0 = 0 ∧ t.rd Reg.NFR_TOK_LOST = up (s.rd Reg.NFR_TOK_LOST) 1
      ∧ t.bitOf Reg.NFR_IRQ_STATUS 1 = true ∧ t.nfr = s.nfr
    (exec (.tokenPresenceCheck true) s = .next s)
    ∧ (s.tokenBusy = true → exec (.tokenPresenceCheck false) s = .next s)
    ∧ (s.bitOf Reg.NFR_STATUS 2 = true → s.tokenBusy = false → (∃ t, exec (.tokenPresenceCheck false) s = .next t ∧ gone t)
      ∧ ∃ t, exec .tokenFrameWaitTimeout s = .next t ∧ gone t)
    ∧ (s.bitOf Reg.NFR_STATUS 2 = false → exec .tokenFrameWaitTimeout s = .next s)
    ∧ (∀ x, s.bitOf Reg.NFR_STATUS 2 = true → s.cer.card = some x → x.exchange = some 4 → ∃ t w, exec .tokenFrameWaitTimeout s = .next t
      ∧ t = finalReply x.cmd 0x2909 [] 0 w ∧ gone w ∧ w.cer.card = none ∧ (x.inCeremony = true → w.cer.phase = .restoring)))
  ∧ (∀ (value : BitVec 8) (fault : Bool) (s : State), let old := s.fld Reg.NFR_CAP_VAL 7 0
    let far : Prop := s.fld Reg.NFR_CAP_THR 7 0 < value.toNat - old ∨ s.fld Reg.NFR_CAP_THR 7 0 < old - value.toNat
    let senses : Prop := s.bitOf Reg.NFR_STATUS 2 = false ∧ s.bitOf Reg.NFR_CTL 2 = true ∧ s.bitOf Reg.NFR_CTL 0 = true ∧ s.fld Reg.NFR_STATUS 1 0 = 0
    (senses → ∃ t, exec (.capacitiveSense value fault) s = .next t ∧ t.fld Reg.NFR_CAP_VAL 7 0 = value.toNat ∧ t.bitOf Reg.NFR_STATUS 5 = fault
      ∧ (far → t.fld Reg.NFR_STATUS 1 0 = 1 ∧ t.bitOf Reg.NFR_IRQ_STATUS 5 = true) ∧ (¬ far → t.fld Reg.NFR_STATUS 1 0 = 0)
      ∧ (fault = true → s.bitOf Reg.NFR_STATUS 5 = false → t.bitOf Reg.NFR_IRQ_STATUS 4 = true))
    ∧ (¬ senses → exec (.capacitiveSense value fault) s = .next s))
  ∧ (∀ s : State,
    let polls : Prop := s.bitOf Reg.NFR_STATUS 2 = false ∧ s.bitOf Reg.NFR_CTL 0 = true ∧ s.fld Reg.NFR_STATUS 1 0 ≠ 3
      ∧ (s.bitOf Reg.NFR_CTL 2 = false ∨ s.fld Reg.NFR_STATUS 1 0 = 1)
    (polls → ∃ t, exec .nfcPoll s = .next t ∧ t.fld Reg.NFR_STATUS 1 0 = 1 ∧ t.bitOf Reg.NFR_STATUS 4 = true
      ∧ t.bitOf Reg.NFR_STATUS 5 = s.driveFault ∧ (s.driveFault = true → s.bitOf Reg.NFR_STATUS 5 = false → t.bitOf Reg.NFR_IRQ_STATUS 4 = true)
      ∧ t.nfr = s.nfr)
    ∧ (¬ polls → exec .nfcPoll s = .next s)
    ∧ (s.fld Reg.NFR_STATUS 1 0 = 1 → ∃ t, exec .nfcPollTimeout s = .next t ∧ t.fld Reg.NFR_STATUS 1 0 = 0 ∧ t.bitOf Reg.NFR_STATUS 4 = false)
    ∧ (s.fld Reg.NFR_STATUS 1 0 ≠ 1 → exec .nfcPollTimeout s = .next s))
  ∧ (∀ (answer : TagAnswer) (s : State),
    (s.nfr.enrol = none → s.nfr.check = none → exec (.tagResponse answer) s = .next s)
    ∧ (∀ k, s.nfr.enrol = none → s.nfr.check = some k →
      (∀ hs, answer = .inventory hs → k.rounds < bits k.cfg 10 8 → ∃ t, exec (.tagResponse answer) s = .next t
        ∧ t.nfr = { s.nfr with check := some { k with rounds := k.rounds + 1, handles := (hs.map (fit 6)).take 16 }, challenge := s.freeBytes 16 }
        ∧ t.rd Reg.NFR_ROUNDS_RUN = up (s.rd Reg.NFR_ROUNDS_RUN) 1)
      ∧ (∀ hs, answer = .inventory hs → bits k.cfg 10 8 ≤ k.rounds → exec (.tagResponse answer) s = .next s)
      ∧ (∀ x, answer = .releaseKey x → exec (.tagResponse answer) s = .next s)
      ∧ (∀ h b mac, answer = .authRead h b mac → k.handles.contains (fit 6 h) = false → exec (.tagResponse answer) s = .next s)
      ∧ (∀ h b mac, answer = .authRead h b mac → k.handles.contains (fit 6 h) = true →
        let left := k.handles.erase (fit 6 h)
        ((∀ n ∈ s.unmatched k, s.tagPasses n h b mac = false) → ∃ t, exec (.tagResponse answer) s = .next t
          ∧ t.rd Reg.NFR_TAG_UNKNOWN = up (s.rd Reg.NFR_TAG_UNKNOWN) 1 ∧ t.nfr.check = some { k with handles := left } ∧ t.nfr.seals = s.nfr.seals)
        ∧ (∀ n, n ∈ s.unmatched k → s.tagPasses n h b mac = true → (∀ m, m < n → m ∈ s.unmatched k → s.tagPasses m h b mac = false) →
          ∃ t, exec (.tagResponse answer) s = .next t
            ∧ t.nfr.check = some { k with handles := left, matched := k.matched ++ [(n, fit 16 b, k.rounds)] }
            ∧ t.nfr.seals = s.nfr.seals ∧ t.rd Reg.NFR_TAG_UNKNOWN = s.rd Reg.NFR_TAG_UNKNOWN)))
    ∧ (∀ e, s.nfr.enrol = some e →
      let ends (st : Nat) : Prop := ∃ t w, exec (.tagResponse answer) s = .next t ∧ t = finalReply e.cmd st [] 0 w ∧ w.nfr.enrol = none
        ∧ w.nfr.seals = s.nfr.seals
      (∀ hs, answer = .inventory hs → e.handle = none → e.tag = none → hs.length ≠ 1 → ends 0x1A31)
      ∧ (∀ h, answer = .inventory [h] → e.handle = none → e.tag = none → ∃ t, exec (.tagResponse answer) s = .next t
        ∧ t.nfr = { s.nfr with enrol := some { e with tag := some (fit 6 h) } })
      ∧ (answer = .releaseKey none → e.handle = none → e.tag ≠ none → ends 0x1A31)
      ∧ (∀ k x, answer = .releaseKey (some k) → e.handle = none → e.tag ≠ none → poolSlot 0xFFFF s = .error x → ends 0x3A31)
      ∧ (∀ x, answer = .releaseKey x → e.tag = none → exec (.tagResponse answer) s = .next s)
      ∧ (∀ h b mac, answer = .authRead h b mac → e.tag ≠ some (fit 6 h) → exec (.tagResponse answer) s = .next s)
      ∧ (∀ k n, answer = .releaseKey (some k) → e.handle = none → e.tag ≠ none → poolSlot 0xFFFF s = .ok n → ∃ t, exec (.tagResponse answer) s = .next t
        ∧ (t.slot n).state = 1 ∧ (t.slot n).keyBytes = fit 16 k ∧ (t.slot n).owner = 0xFFFF ∧ (t.slot n).origin = 1
        ∧ t.nfr.enrol = some { e with handle := some (t.handle n) } ∧ t.nfr.seals = s.nfr.seals)
      ∧ (∀ h b mac key k, answer = .authRead h b mac → e.handle = some key → e.tag = some (fit 6 h) → s.slotOf (BitVec.ofNat 32 key) = some k → (s.slot k).state = 1 →
        (cmac (s.slot k).keyBytes (s.nfr.challenge ++ fit 6 h ++ fit 16 b) = mac → ∃ t w, exec (.tagResponse answer) s = .next t
          ∧ t = finalReply e.cmd 0 [] 0 w ∧ w.nfr.enrol = none ∧ (∀ j, j ≠ k → w.slot j = s.slot j) ∧ (∀ m, m ≠ e.num → w.sealRec m = s.sealRec m)
          ∧ w.sealRec e.num = ⟨true, key, (blockReads b).1, (blockOpens b).1, blockTmin b, blockTmax b,
            (blockReads b).1, (blockOpens b).1, blockTmin b, blockTmax b, true⟩)
        ∧ (cmac (s.slot k).keyBytes (s.nfr.challenge ++ fit 6 h ++ fit 16 b) ≠ mac → ∃ t w, exec (.tagResponse answer) s = .next t
          ∧ t = finalReply e.cmd 0x4A30 [] 0 w ∧ w.nfr.enrol = none ∧ w.nfr.seals = s.nfr.seals ∧ (w.slot k).state = 0))))
  ∧ (∀ (s : State), (s.nfr.check = none → exec .sealCheckDone s = .next s)
    ∧ ∀ k, s.nfr.check = some k →
      let enrolled := (List.range 16).filter (fun n => (s.sealRec n).enrolled)
      let fail := enrolled.any (fun n => s.sealCause k n != 0) || decide (enrolled.length < bits k.cfg 4 0)
      ∃ t w, exec .sealCheckDone s = .next t ∧ t = finalReply? k.cmd (if !fail then 0 else if k.ant then 0x4A30 else 0x2A31) w
        ∧ w.nfr.check = none ∧ w.bitOf Reg.NFR_IRQ_STATUS 2 = true
        ∧ (fail = true → w.bitOf Reg.SYS_HOLD 2 = true ∧ w.bitOf Reg.NFR_IRQ_STATUS 3 = true) ∧ (fail = false → w.rd Reg.SYS_HOLD = s.rd Reg.SYS_HOLD)
        ∧ (∀ n, n < 16 → w.bitOf Reg.NFR_SEAL_RES n = ((s.sealRec n).enrolled && s.sealCause k n == 0)
          ∧ w.bitOf Reg.NFR_SEAL_RES (16 + n) = ((s.sealRec n).enrolled && s.sealCause k n != 0)
          ∧ ((s.sealRec n).enrolled = false → w.sealRec n = s.sealRec n)
          ∧ ((s.sealRec n).enrolled = true → (w.sealRec n).enrolled = true ∧ w.fld (Reg.NFR_SEAL_STAT n) 3 0 = s.sealCause k n
            ∧ (s.sealCause k n ≠ 0 → (w.sealRec n).reads = (s.sealRec n).reads) ∧ (w.sealRec n).opens = (s.sealRec n).opens))
        ∧ (∀ n b r, n < 16 → (s.sealRec n).enrolled = true → s.sealCause k n = 0 → k.matched.find? (fun m => m.1 == n) = some (n, b, r) →
          (w.sealRec n).reads = (blockReads b).1 ∧ copiesOk (blockReads b) = true ∧ blockOpen b = false ∧ (blockOpens b).1 = (s.sealRec n).opens
            ∧ (s.sealRec n).reads + 1 ≤ (blockReads b).1 ∧ (blockReads b).1 ≤ (s.sealRec n).reads + bits k.cfg 15 12))
  ∧ (∀ (c : HostCmd) (s : State),
    (Runs s 0x0A0C c → ∃ t, exec (.getSeals c) s = .next t ∧ t = finalReply c.ref 0 (be 4 (s.rd Reg.NFR_SEAL_RES).toNat
      ++ (List.range 16).flatMap (fun n => be 1 (b2n (s.sealRec n).enrolled) ++ be 4 (s.rd (Reg.NFR_SEAL_STAT n)).toNat)) 0 s)
    ∧ (Runs s 0x0A33 c →
      (s.bitOf Reg.NFR_CTL 0 = false → ∃ t, exec (.checkSeals c) s = .next t ∧ t = finalReply c.ref 0x4A30 [] 0 s)
      ∧ (s.bitOf Reg.NFR_CTL 0 = true → s.nfr.check = none → s.nfr.enrol = none → s.tokenBusy = false → ∃ t w, exec (.checkSeals c) s = .next t
        ∧ t = interimReply c.ref 0x010C w ∧ w.fld Reg.NFR_STATUS 1 0 = 3
        ∧ w.nfr = { s.nfr with check := some ⟨some c.ref, s.bitOf Reg.NFR_STATUS 5, s.rd Reg.NFR_SEAL_CFG, s.rd Reg.NFR_TEMP_LIM, 0, [], []⟩ })
      ∧ (s.bitOf Reg.NFR_CTL 0 = true → s.nfr.check ≠ none ∨ s.nfr.enrol ≠ none ∨ s.tokenBusy = true → ∃ t, exec (.checkSeals c) s = .next t
        ∧ t.nfr = s.nfr ∧ t.regs = s.regs))
    ∧ (let unticketed (op : Nat) (i : Instr) : Prop := Runs s op c → c.ticket = none → ∃ t, exec i s = .next t ∧ t = finalReply c.ref 0x2A30 [] 0 s
      (∀ n, unticketed 0x0A30 (.enrolSeal c n)) ∧ (∀ n, unticketed 0x0A31 (.retireSeal c n)) ∧ (∀ b, unticketed 0x0A32 (.releaseSealFail c b)))
    ∧ (∀ tk v (num : BitVec 8), c.ticket = some tk → Runs s 0x0A30 c → ticketCheck 0x0A30 c devScope tk s = (none, v) →
      let n := num.toNat
      let full : Prop := ∀ i, i < 16 → (v.sealRec i).enrolled = true
      let ends (st : Nat) : Prop := ∃ t, exec (.enrolSeal c num) s = .next t ∧ t = finalReply c.ref st [] 0 v
      (full → ends 0x3A30) ∧ (¬ full → 16 ≤ n ∨ (v.sealRec n).enrolled = true → ends 0x1A30)
      ∧ (n < 16 → (v.sealRec n).enrolled = false → v.readerOk = false → ends 0x4A30)
      ∧ (∀ k, n < 16 → (v.sealRec n).enrolled = false → v.readerOk = true → v.nfr.check = none → v.nfr.enrol = none → v.tokenBusy = false →
        poolSlot 0xFFFF v = .ok k → ∃ t w, exec (.enrolSeal c num) s = .next t ∧ t = interimReply c.ref 0x010C w
          ∧ w.nfr = { v.nfr with enrol := some ⟨c.ref, n, none, none⟩ } ∧ w.keys = v.keys)
      ∧ (∀ e, n < 16 → (v.sealRec n).enrolled = false → v.readerOk = true → v.nfr.check = none → v.nfr.enrol = none → v.tokenBusy = false →
        poolSlot 0xFFFF v = .error e → ends 0x3A31)
      ∧ (n < 16 → (v.sealRec n).enrolled = false → v.readerOk = true → v.nfr.check ≠ none ∨ v.nfr.enrol ≠ none ∨ v.tokenBusy = true →
        ∃ t, exec (.enrolSeal c num) s = .next t ∧ t.nfr = s.nfr ∧ t.keys = s.keys ∧ t.regs = s.regs))
    ∧ (∀ tk v (num : BitVec 8), c.ticket = some tk → Runs s 0x0A31 c → ticketCheck 0x0A31 c devScope tk s = (none, v) →
      let n := num.toNat
      (16 ≤ n ∨ (v.sealRec n).enrolled = false → ∃ t, exec (.retireSeal c num) s = .next t ∧ t = finalReply c.ref 0x1A30 [] 0 v)
      ∧ (n < 16 → (v.sealRec n).enrolled = true → ∃ t, exec (.retireSeal c num) s = .next t ∧ t.sealRec n = Seal.none
        ∧ (∀ m, m ≠ n → t.sealRec m = v.sealRec m)
        ∧ ∀ k, v.slotOf (BitVec.ofNat 32 (v.sealRec n).handle) = some k → (t.slot k).state = 0))
    ∧ (∀ tk v (rebase : Bool), c.ticket = some tk → Runs s 0x0A32 c → ticketCheck 0x0A32 c devScope tk s = (none, v) →
      ∃ t w, exec (.releaseSealFail c rebase) s = .next t ∧ t = finalReply c.ref 0 [] 0 w ∧ w.bitOf Reg.SYS_HOLD 2 = false
        ∧ (c.expert = false ∨ rebase = false → w.nfr = v.nfr)
        ∧ (c.expert = true → rebase = true → ∀ n, n < 16 → let x := v.sealRec n
          w.sealRec n = if x.enrolled && x.authed then { x with reads := x.lastReads, opens := x.lastOpens, tmin := x.lastTmin, tmax := x.lastTmax } else x)))

/-- A confirmed detection is entered in the log and, when its response is Z, zeroizes: the mode becomes ZEROIZED, every Vault slot EMPTY and SRAM and DRAM empty, or under keeper power the keeper bank alone; comparison words confirm after three in a row or one isolated; a window ends with a detection for every named switch off its armed level; the log is transferred in order; keyed writes by ring 0 alone arm, open windows and zeroize; the zero level is released once its read-backs pass. (R520, R521, R522, R523, R526, R527, R528, R529, R530, R532, R545, R546) -/
def Obligations.TamperAndZeroization : Prop :=
  (∀ s : State,
    let gone (t : State) : Prop := t.sys.mode = .zeroized ∧ (∀ n, (t.slot n).state = 0) ∧ t.gte.sram = [] ∧ t.gte.dram = [] ∧ t.sys.cusInReset = true
      ∧ t.sys.pend = none ∧ t.sys.prevMode = s.sys.mode ∧ t.keys.l0gen = s.keys.l0gen ∧ t.bitOf Reg.TPR_STATUS 0 = true ∧ t.cer.roster = s.cer.roster
    let entry (k i act : Nat) (t : State) : Prop := ∃ r, t.tpr.log = s.tpr.log ++ [⟨s.keeperSecs, k, i, act, false, !s.sys.mainPower, 1, s.sys.mode.code, r⟩]
    let sees (k i : Nat) : Prop := s.watches k i = true ∧ s.armed k i = true
    let alone (t : State) : Prop := t.sys = s.sys ∧ t.keys = s.keys ∧ t.gte = s.gte ∧ t.tpr.zero = s.tpr.zero
    (∀ (kind : Fin 13) (index : BitVec 8), let k := kind.val
      let i := index.toNat
      (k = 0 ∨ ¬ sees k i → exec (.tamperDetection kind index) s = .next s)
      ∧ (k ≠ 0 → sees k i → s.tpr.log.length < 64 →
        (s.respondsZ k i = true → s.tpr.zero = none → s.sys.mainPower = true → ∃ t, exec (.tamperDetection kind index) s = .next t ∧ gone t ∧ entry k i 1 t
          ∧ t.tpr.zero = some ⟨if k = 0xB then 1 else 0, k, i, s.sys.mode.code, s.keeperSecs, s.keys.l0gen, []⟩ ∧ t.bitOf Reg.TPR_CONFIRMED k = true)
        ∧ (s.respondsZ k i = true → s.tpr.zero = none → s.sys.mainPower = false → ∃ t, exec (.tamperDetection kind index) s = .next t ∧ entry k i 1 t
          ∧ t.sys.mode = .zeroized ∧ t.sys.keeperZeroized = true ∧ (∀ n, n < 64 → (t.slot n).state = 0) ∧ (∀ n, 64 ≤ n → t.slot n = s.slot n)
          ∧ t.tpr.zeroEvents.length = s.tpr.zeroEvents.length + 1 ∧ t.bitOf Reg.TPR_STATUS 4 = true)
        ∧ (s.respondsZ k i = false ∨ s.tpr.zero ≠ none → ∃ t, exec (.tamperDetection kind index) s = .next t ∧ entry k i 0 t ∧ alone t
          ∧ t.bitOf Reg.TPR_CONFIRMED k = true ∧ (k = 0xC → t.rd Reg.TPR_GLITCH = up (s.rd Reg.TPR_GLITCH) 1))))
    ∧ (∀ k i, s.respondsZ k i = true ↔ s.sys.mode ≠ .factory ∧ s.sys.mode ≠ .zeroized ∧ k ≠ 0xC ∧ ¬ (k = 1 ∧ s.inWindowOf i = true))
    ∧ (∀ (net : Fin 20) (x : Word) (y : BitVec 64),
      let cmp := exec (.loopWordCompare net x) s
      let burst := exec (.keeperLoopBurst net y) s
      let agrees : Prop := x.toNat = s.netBits net 32
      let agreesB : Prop := y.toNat = s.netBits net 64
      let w := tget (dflt 0) s.tpr.words net
      let b := tget (dflt 0) s.tpr.bursts net
      let to_ (v : Nat) : Prop := ∃ t, cmp = .next t ∧ tget (dflt 0) t.tpr.words net = v ∧ t.tpr.log = s.tpr.log ∧ alone t
        ∧ tget (dflt 0) t.tpr.lfsr net = (lfsrBits 32 (tget (dflt 0) s.tpr.lfsr net)).2
      let toB (v : Nat) : Prop := ∃ t, burst = .next t ∧ tget (dflt 0) t.tpr.bursts net = v ∧ t.tpr.log = s.tpr.log ∧ alone t
        ∧ tget (dflt 0) t.tpr.lfsr net = (lfsrBits 64 (tget (dflt 0) s.tpr.lfsr net)).2
      (s.armed 0xC net = false → cmp = .next s ∧ burst = .next s)
      ∧ (s.armed 0xC net = true → s.tpr.log.length < 64 →
        (s.sys.mainPower = true → burst = .next s
          ∧ (w = 0 ∨ w = 3 → ¬ agrees → to_ 1) ∧ (w = 1 → ¬ agrees → to_ 2) ∧ (w = 1 → agrees → to_ 3) ∧ (w = 0 ∨ w = 2 → agrees → to_ 0)
          ∧ (w = 2 → ¬ agrees → ∃ t, cmp = .next t ∧ tget (dflt 0) t.tpr.words net = 0 ∧ ∃ act, entry (netKind net).1 (netKind net).2 act t)
          ∧ (w = 3 → agrees → ∃ t, cmp = .next t ∧ tget (dflt 0) t.tpr.words net = 0 ∧ entry 0xC net 0 t ∧ alone t))
        ∧ (s.sys.mainPower = false → cmp = .next s
          ∧ (b ≠ 1 → ¬ agreesB → toB 1) ∧ (b ≠ 1 → agreesB → toB 0)
          ∧ (b = 1 → ¬ agreesB → ∃ t, burst = .next t ∧ tget (dflt 0) t.tpr.bursts net = 0 ∧ ∃ act, entry (netKind net).1 (netKind net).2 act t)
          ∧ (b = 1 → agreesB → ∃ t, burst = .next t ∧ tget (dflt 0) t.tpr.bursts net = 0 ∧ entry 0xC net 0 t))))
    ∧ (∀ (ring : Fin 4) (value : Word),
      (ring ≠ 0 → ∃ t, exec (.tprZeroReq ring value) s = .next t ∧ t.sys = s.sys ∧ t.keys = s.keys ∧ t.tpr = s.tpr)
      ∧ (ring = 0 → bits value 31 16 ≠ 0x7A3C ∨ s.zeroizable = false ∨ s.tpr.zero ≠ none → exec (.tprZeroReq ring value) s = .next s)
      ∧ (ring = 0 → bits value 31 16 = 0x7A3C → s.zeroizable = true → s.tpr.zero = none → s.sys.mainPower = true →
        ∃ t, exec (.tprZeroReq ring value) s = .next t ∧ gone t ∧ t.tpr.zero.map (·.cause) = some 2 ∧ t.tpr.log = s.tpr.log))
    ∧ (∀ (c : HostCmd), Runs s 0x0A10 c →
      (c.ticket = none → ∃ t, exec (.zeroize c) s = .next t ∧ t = finalReply c.ref 0x2A01 [] 0 s)
      ∧ (∀ tk st v, c.ticket = some tk → ticketCheck 0x0A10 c devScope tk s = (some st, v) → ∃ t, exec (.zeroize c) s = .next t
        ∧ t = finalReply c.ref st [] 0 v)
      ∧ (∀ tk v, c.ticket = some tk → ticketCheck 0x0A10 c devScope tk s = (none, v) → s.zeroizable = true → s.tpr.zero = none → s.sys.mainPower = true →
        ∃ t, exec (.zeroize c) s = .next t ∧ gone t ∧ t.tpr.zero = some ⟨2, 0, 0, s.sys.mode.code, s.keeperSecs, s.keys.l0gen, (sha384 (tk.take 80)).take 24⟩)))
  ∧ (∀ (failing : Fin 5) (s : State),
    (s.tpr.zero = none → exec (.zeroizationComplete failing) s = .next s)
    ∧ (∀ z, s.tpr.zero = some z → s.sys.mainPower = true → s.bitOf Reg.TPR_STATUS 1 = false →
      (failing = 4 → ∃ t, exec (.zeroizationComplete failing) s = .next t ∧ t.bitOf Reg.TPR_STATUS 1 = true ∧ t.core.stopped = true
        ∧ t.tpr.zero = some z ∧ t.bitOf Reg.TPR_IRQ_STATUS 4 = true ∧ t.sys = s.sys)
      ∧ (failing ≠ 4 → ∃ t, exec (.zeroizationComplete failing) s = .next t ∧ t.tpr.zero = none ∧ t.bitOf Reg.TPR_STATUS 0 = false
        ∧ t.sys.cusInReset = true ∧ t.sys.mode = s.sys.mode)))
  ∧ (∀ (s : State) (levels : BitVec 8),
    (∀ dt w, s.tpr.window = some w →
      ((s.advance dt).now < w.ends ∨ s.sys.mainPower = false → ∃ t, exec (.serviceWindowEnd dt levels) s = .next t ∧ t = s.advance dt)
      ∧ (s.sys.mainPower = true → w.ends ≤ (s.advance dt).now →
        ((∀ k, k < 8 → nbit w.mask k = true → levels.getLsbD k = s.bitOf Reg.TPR_CFG (8 + k)) → ∃ t, exec (.serviceWindowEnd dt levels) s = .next t
          ∧ t.tpr.window = none ∧ t.bitOf Reg.TPR_STATUS 2 = false ∧ t.tpr.log = s.tpr.log ∧ t.fld Reg.TPR_RAW 7 0 = levels.toNat ∧ t.sys = s.sys)
        ∧ (∀ k, k < 8 → nbit w.mask k = true → levels.getLsbD k ≠ s.bitOf Reg.TPR_CFG (8 + k) → s.bitOf Reg.TPR_CFG k = true → s.zeroizable = true →
          s.tpr.zero = none → ∃ t, exec (.serviceWindowEnd dt levels) s = .next t ∧ t.tpr.window = none ∧ t.sys.mode = .zeroized)))
    ∧ (∀ (c : HostCmd) w, Runs s 0x0A13 c → s.tpr.window = some w →
      (∀ k, k < 8 → nbit w.mask k = true → levels.getLsbD k = s.bitOf Reg.TPR_CFG (8 + k)) → ∃ t v, exec (.closeWindow c levels) s = .next t
        ∧ t = finalReply c.ref 0 [] 0 v ∧ v.tpr.window = none ∧ v.tpr.log = s.tpr.log ∧ v.bitOf Reg.TPR_IRQ_STATUS 2 = true))
  ∧ (∀ s : State, s.ldg.started = true → s.quiet →
    ((∀ e ∈ s.tpr.log, e.transferred = true) → exec .tamperLogTransfer s = .next s)
    ∧ ∀ l e r, s.tpr.log = l ++ e :: r → e.transferred = false → (∀ x ∈ l, x.transferred = true) → ∃ t, exec .tamperLogTransfer s = .next t
      ∧ t.tpr = { s.tpr with log := l ++ { e with transferred := true } :: r }
      ∧ t.ldg.evq = [⟨0x0010, eventBody s 0x0010 (srcMaster 1024) 0xFFFF e.eventData, eventProtected 0x0010⟩])
  ∧ (∀ (ring : Fin 4) (value : Word) (matched : BitVec 4) (delays : Vector (BitVec 11) 4) (s : State),
    let stage := s.rd Reg.TPR_STAGE
    let arm : Prop := ring = 0 ∧ bits value 31 16 = 0x2E71 ∧ bit value 0 = true
    let open_ : Prop := ring = 0 ∧ bits value 31 16 = 0x2E71 ∧ bit value 1 = true ∧ 1 ≤ bits value 15 8 ∧ bits value 15 8 ≤ 240
    let d := delays.toList.map (·.toNat)
    let seeded : Prop := (∀ k, k < 4 → bit stage (16 + k) = false) ∨ s.rngFailed = false
    (arm → loopsArm stage matched d = true → seeded → ∃ t w, exec (.tprCommitArm ring value matched delays) s = .next t
      ∧ t = finalReply? (s.tpr.arming.map (·.1)) 0 w ∧ w.rd Reg.TPR_CFG = stage &&& 0xFFFFF ∧ w.tpr.arming = none
      ∧ ∀ k, k < 4 → bit stage (16 + k) = true → (w.rd (Reg.TPR_LOOP_DLY k)).toNat = d.getD k 0)
    ∧ (arm → loopsArm stage matched d = false ∨ ¬ seeded → ∃ t w, exec (.tprCommitArm ring value matched delays) s = .next t
      ∧ t = finalReply? (s.tpr.arming.map (·.1)) 0x2A02 w ∧ w.regs = s.regs ∧ w.tpr = { s.tpr with arming := none })
    ∧ (loopsArm stage matched d = true ↔ ∀ k, k < 4 → bit stage (16 + k) = true → matched.getLsbD k = true ∧ d.getD k 0 ≤ 2000)
    ∧ (¬ arm → ∃ t, exec (.tprCommitArm ring value matched delays) s = .next t ∧ t.tpr = s.tpr ∧ t.rd Reg.TPR_CFG = s.rd Reg.TPR_CFG)
    ∧ (open_ → ∃ t, exec (.tprCommitWindow ring value) s = .next t ∧ t.tpr = { s.tpr with window := some ⟨s.fld Reg.TPR_STAGE 7 0,
      s.now + bits value 15 8 * 60000000000⟩ } ∧ t.bitOf Reg.TPR_STATUS 2 = true)
    ∧ (¬ open_ → ∃ t, exec (.tprCommitWindow ring value) s = .next t ∧ t.tpr = s.tpr)
    ∧ (let i := s.fld Reg.TPR_LOG_SEL 5 0
      (ring = 0 → bit value 0 = true → ∃ t, exec (.tprLogXfer ring value) s = .next t ∧ t.tpr.log.length = s.tpr.log.length
        ∧ (∀ e, s.tpr.log[i]? = some e → t.tpr.log[i]? = some { e with transferred := true }) ∧ (∀ k, k ≠ i → t.tpr.log[k]? = s.tpr.log[k]?) ∧ t.regs = s.regs)
      ∧ (ring ≠ 0 ∨ bit value 0 = false → ∃ t, exec (.tprLogXfer ring value) s = .next t ∧ t.tpr = s.tpr)))
  ∧ (∀ (dt : Nat) (path : BicPath) (beat : BusBeat) (code : BitVec 10) (s : State), let v := s.advance dt
    let good := busIntegrityCode beat.data beat.addr beat.master beat.ring beat.colour
    (s.sys.mainPower = false ∨ code = good → exec (.busIntegrityFailure dt ⟨path, beat, code⟩) s = .next s)
    ∧ (s.sys.mainPower = true → code ≠ good →
      ((∀ m, path ≠ .keyPath m) → ∃ t, exec (.busIntegrityFailure dt ⟨path, beat, code⟩) s = .next t ∧ t.rd Reg.TPR_BIC_FAIL = up (s.rd Reg.TPR_BIC_FAIL) 1
        ∧ t.bitOf Reg.TPR_IRQ_STATUS 3 = true ∧ t.tpr.log = s.tpr.log ∧ t.sys.mode = s.sys.mode
        ∧ ∀ tile b, path = .custodyLink tile b → t.tpr.linksDown.getLsbD tile = true)
      ∧ (∀ m, path = .keyPath m → let recent := s.tpr.keyFails.filter (fun x => decide (v.now < x + 1000000000))
        (recent.length < 3 → ∃ t, exec (.busIntegrityFailure dt ⟨path, beat, code⟩) s = .next t ∧ t.tpr.keyFails = recent ++ [v.now] ∧ t.tpr.log = s.tpr.log
          ∧ t.rd Reg.TPR_BIC_FAIL = up (s.rd Reg.TPR_BIC_FAIL) 1)
        ∧ (3 ≤ recent.length → s.tpr.log.length < 64 → ∃ t e, exec (.busIntegrityFailure dt ⟨path, beat, code⟩) s = .next t ∧ t.tpr.keyFails = []
          ∧ t.tpr.log = s.tpr.log ++ [e] ∧ e.kind = 0xA ∧ (s.zeroizable = true → s.tpr.zero = none → t.sys.mode = .zeroized)))))
  ∧ (∀ (tile : Fin 4) (s : State), ∃ t, exec (.custodyLinkRetrained tile) s = .next t ∧ t.tpr.linksDown.getLsbD tile = false
    ∧ (∀ k : Fin 4, k ≠ tile → t.tpr.linksDown.getLsbD k = s.tpr.linksDown.getLsbD k) ∧ t.regs = s.regs ∧ t.sys = s.sys)
  ∧ (∀ (c : HostCmd) (s : State),
    (∀ cfg : Word, Runs s 0x0A11 c → c.ticket = none → ∃ t, exec (.setTamperCfg c cfg) s = .next t ∧ t = finalReply c.ref 0x2A01 [] 0 s)
    ∧ (∀ tk v (cfg : Word), Runs s 0x0A11 c → c.ticket = some tk → ticketCheck 0x0A11 c devScope tk s = (none, v) →
      (bits cfg 31 20 ≠ 0 → ∃ t, exec (.setTamperCfg c cfg) s = .next t ∧ t = finalReply c.ref 0x1A01 [] 0 v)
      ∧ (bits cfg 31 20 = 0 → v.tpr.arming = none → ∃ t w, exec (.setTamperCfg c cfg) s = .next t ∧ t = interimReply c.ref 0x010D w
        ∧ w.rd Reg.TPR_STAGE = cfg ∧ w.tpr = { v.tpr with arming := some (c.ref, cfg) } ∧ w.rd Reg.TPR_CFG = v.rd Reg.TPR_CFG))
    ∧ (∀ mask minutes, Runs s 0x0A12 c → c.ticket = none → ∃ t, exec (.serviceWindow c mask minutes) s = .next t ∧ t = finalReply c.ref 0x2A01 [] 0 s)
    ∧ (∀ tk v (mask : BitVec 8) (minutes : BitVec 16), Runs s 0x0A12 c → c.ticket = some tk → ticketCheck 0x0A12 c devScope tk s = (none, v) →
      (minutes = 0 ∨ 240 < minutes.toNat → ∃ t, exec (.serviceWindow c mask minutes) s = .next t ∧ t = finalReply c.ref 0x1A01 [] 0 v)
      ∧ (minutes ≠ 0 → minutes.toNat ≤ 240 → ∃ t w, exec (.serviceWindow c mask minutes) s = .next t ∧ t = finalReply c.ref 0 [] 0 w
        ∧ w.tpr = { v.tpr with window := some ⟨mask.toNat, v.now + minutes.toNat * 60000000000⟩ } ∧ w.bitOf Reg.TPR_STATUS 2 = true))
    ∧ (Runs s 0x0A01 c → ∃ t, exec (.getTamper c) s = .next t ∧ t = finalReply c.ref 0
      (regsOut s [Reg.TPR_CFG, Reg.TPR_STATUS, Reg.TPR_RAW, Reg.TPR_CONFIRMED, Reg.TPR_BIC_FAIL, Reg.TPR_GLITCH]
        ++ be 4 (s.tpr.log.filter (fun e => !e.transferred)).length) 0 s)
    ∧ (∀ first count : BitVec 8, Runs s 0x0A02 c →
      let out := ((s.tpr.log.drop first.toNat).take count.toNat).flatMap TamperEntry.bytes
      let fits : Prop := count ≠ 0 ∧ first.toNat + count.toNat ≤ 64
      (¬ fits → ∃ t, exec (.readTamperLog c first count) s = .next t ∧ t = finalReply c.ref 0x1A01 [] 0 s)
      ∧ (fits → c.outLen < out.length → ∃ t, exec (.readTamperLog c first count) s = .next t ∧ t = finalReply c.ref 0x3A01 [] 0 s)
      ∧ (fits → out.length ≤ c.outLen → ∃ t, exec (.readTamperLog c first count) s = .next t ∧ t = finalReply c.ref 0 out 0 s)))

/-- An energy test records its minimum and sets or clears KEEPER_LOW as R534 says; below ZERO under keeper power it zeroizes the keeper bank; a sample sets every reading, condition and the duty; a hot hold, a flow, pump or leak condition shows and is counted or reported once; an identical report folds into the open record and any other opens one; a closed record is counted and queued, dropped or held as R544 says; the commands of the group read and change these alone. (R533, R534, R535, R536, R537, R538, R540, R542, R543, R544, R545, R548) -/
def Obligations.KeeperCoolantAndAlarms : Prop :=
  (∀ (mv : BitVec 16) (s : State),
    let m := mv.toNat
    let z := s.fld Reg.THM_KEEP_ZTHR 15 0
    let judged (t : State) : Prop := t.rd Reg.THM_KEEP_MIN = mv.setWidth 32
      ∧ (m < z → t.bitOf Reg.SYS_HOLD 0 = true ∧ t.bitOf Reg.THM_STATUS 8 = true ∧ t.tpr.goodTests = 0)
      ∧ (z ≤ m → m < z + 50 → t.rd Reg.SYS_HOLD = s.rd Reg.SYS_HOLD ∧ t.tpr.goodTests = 0)
      ∧ (z + 50 ≤ m → s.tpr.goodTests = 0 → t.rd Reg.SYS_HOLD = s.rd Reg.SYS_HOLD ∧ t.tpr.goodTests = 1)
      ∧ (z + 50 ≤ m → s.tpr.goodTests ≠ 0 → t.bitOf Reg.SYS_HOLD 0 = false ∧ t.bitOf Reg.THM_STATUS 8 = false)
    (s.sys.mainPower = true → (∃ t, exec (.keeperEnergyTest mv) s = .next t ∧ judged t ∧ t.sys = s.sys ∧ t.keys = s.keys)
      ∧ exec (.keeperUnpoweredTest mv) s = .next s)
    ∧ (s.sys.mainPower = false → exec (.keeperEnergyTest mv) s = .next s)
    ∧ (s.sys.mainPower = false → s.sys.keeperRecord = true →
      (s.fld Reg.THM_KEEP_ZERO 15 0 ≤ m ∨ s.zeroizable = false → ∃ t, exec (.keeperUnpoweredTest mv) s = .next t ∧ judged t ∧ t.sys = s.sys ∧ t.keys = s.keys)
      ∧ (m < s.fld Reg.THM_KEEP_ZERO 15 0 → s.zeroizable = true → s.tpr.zero = none → s.tpr.log.length < 64 → ∃ t,
        exec (.keeperUnpoweredTest mv) s = .next t ∧ judged t ∧ t.sys.mode = .zeroized ∧ (∀ n, n < 64 → (t.slot n).state = 0)
          ∧ (∀ n, 64 ≤ n → t.slot n = s.slot n) ∧ t.tpr.log = s.tpr.log ++ [⟨s.keeperSecs, 4, 2, 2, false, true, 1, s.sys.mode.code, []⟩]))
    ∧ (let full := s.fld Reg.THM_KEEP_VFULL 15 0
      ∃ t, exec (.keeperVoltageChange mv) s = .next t ∧ t.rd Reg.THM_KEEP_V = mv.setWidth 32 ∧ t.tpr = s.tpr
        ∧ t.bitOf Reg.THM_STATUS 7 = (if s.sys.mainPower = false ∨ full ≤ m then false else if m + 100 ≤ full then true else s.bitOf Reg.THM_STATUS 7)))
  ∧ (∀ (tj : Vector (BitVec 17) 4) (sr coldest inlet outlet : BitVec 17) (tach : BitVec 16) (duty : BitVec 7) (s : State),
    let i : Instr := .thermalSample tj sr coldest inlet outlet tach duty
    let r (k : Fin 4) : Word := (tj.get k).setWidth 32
    let deg (w : BitVec 17) : Int := q88 (w.setWidth 32)
    (s.sys.mainPower = false → exec i s = .next s)
    ∧ (s.sys.mainPower = true → ∃ t, exec i s = .next t ∧ (∀ k : Fin 4, t.rd (Reg.THM_TJ k) = r k
        ∧ t.thermal k = decide (q88 (s.rd Reg.THM_TJ_WARN) ≤ q88 (r k)))
      ∧ t.rd Reg.THM_TJ_SR = sr.setWidth 32 ∧ t.rd Reg.THM_TJ_MIN = coldest.setWidth 32 ∧ t.rd Reg.THM_INLET = inlet.setWidth 32
      ∧ t.rd Reg.THM_OUTLET = outlet.setWidth 32 ∧ t.rd Reg.THM_TACH = tach.setWidth 32
      ∧ t.rd Reg.THM_FLOW = flowWord tach.toNat (s.fld Reg.THM_FLOW_K 15 0)
      ∧ t.thermal 4 = (decide (105 * 256 ≤ deg sr) || (s.thermal 4 && decide (95 * 256 ≤ deg sr)))
      ∧ t.thermal 5 = (decide (deg inlet < 15 * 256) || decide (40 * 256 < deg inlet))
      ∧ t.bitOf Reg.THM_STATUS 5 = (s.bitOf Reg.THM_STATUS 5 && decide (tach = 0))
      ∧ (s.bitOf Reg.THM_CTL 0 = true → deg coldest < 10 * 256 → t.fld Reg.THM_DUTY 6 0 = 20)
      ∧ (s.bitOf Reg.THM_CTL 0 = true → 10 * 256 ≤ deg coldest → 10 * 256 ≤ deg sr → (∀ k, 10 * 256 ≤ q88 (r k)) →
        (∃ k : Fin 4, t.thermal k = true) ∨ s.bitOf Reg.THM_STATUS 4 = true → t.fld Reg.THM_DUTY 6 0 = 100)
      ∧ (s.bitOf Reg.THM_CTL 0 = false → t.fld Reg.THM_DUTY 6 0 = s.fld Reg.THM_DUTY 6 0) ∧ t.sys = s.sys))
  ∧ (∀ (tile : Fin 4) (s : State),
    (s.sys.mainPower = true → s.bitOf Reg.THM_STATUS tile = false → ∃ t, exec (.hotHoldEnter tile) s = .next t ∧ t.bitOf Reg.THM_STATUS tile = true
      ∧ t.rd Reg.THM_HOT_HOLDS = up (s.rd Reg.THM_HOT_HOLDS) 1 ∧ t.bitOf Reg.THM_IRQ_STATUS 1 = true ∧ t.keys = s.keys ∧ t.sys.mode = s.sys.mode)
    ∧ (s.sys.mainPower = false ∨ s.bitOf Reg.THM_STATUS tile = true → exec (.hotHoldEnter tile) s = .next s)
    ∧ (s.bitOf Reg.THM_STATUS tile = true → ∃ t, exec (.hotHoldClear tile) s = .next t ∧ t.bitOf Reg.THM_STATUS tile = false
      ∧ t.rd Reg.THM_HOT_HOLDS = s.rd Reg.THM_HOT_HOLDS)
    ∧ (s.bitOf Reg.THM_STATUS tile = false → exec (.hotHoldClear tile) s = .next s))
  ∧ (∀ s : State,
    let shows (i : Instr) (b : Nat) : Prop := s.sys.mainPower = true → s.bitOf Reg.THM_STATUS b = false → ∃ t, exec i s = .next t
      ∧ t.bitOf Reg.THM_STATUS b = true ∧ t.bitOf Reg.THM_IRQ_STATUS 2 = true ∧ t.sys = s.sys ∧ t.keys = s.keys
    shows (.flowLow true) 4 ∧ shows .leak 6 ∧ (30 ≤ s.fld Reg.THM_DUTY 6 0 → shows .pumpFail 5)
    ∧ (s.fld Reg.THM_DUTY 6 0 < 30 → exec .pumpFail s = .next s)
    ∧ (s.sys.mainPower = true → s.bitOf Reg.THM_CTL 0 = true → 10 * 256 ≤ q88 (s.rd Reg.THM_TJ_MIN) → ∃ t, exec (.flowLow true) s = .next t
      ∧ t.fld Reg.THM_DUTY 6 0 = 100)
    ∧ (∃ t, exec (.flowLow false) s = .next t ∧ t.bitOf Reg.THM_STATUS 4 = false ∧ t.alm = s.alm)
    ∧ (∃ t, exec .leakClear s = .next t ∧ t.bitOf Reg.THM_STATUS 6 = false ∧ t.alm = s.alm ∧ t.fld Reg.THM_DUTY 6 0 = s.fld Reg.THM_DUTY 6 0))
  ∧ (∀ (cls : Fin 12) (detail : BitVec 8) (security : Bool) (src transmitter tenant : BitVec 16) (data : Word) (s : State),
    let i : Instr := .alarmReport cls detail security src transmitter tenant data
    let link : Bool := cls.val == 7 || (cls.val == 2 && (detail == 3 || detail == 4))
    let at_ := (if link then transmitter else src).toNat
    (cls = 0 ∨ s.sys.mainPower = false → exec i s = .next s)
    ∧ (cls ≠ 0 → s.sys.mainPower = true →
      (s.alm.opened = [] → ∃ t, exec i s = .next t ∧ t.alm.opened = [⟨cls.val, detail.toNat, security || securityClass cls.val detail.toNat, at_ != src.toNat, false,
        !tget (dflt false) s.alm.seen cls, [src.toNat], src.toNat, at_, tenant.toNat, 1, s.stamp, s.stamp, s.now, data.toNat⟩] ∧ t.alm.queue = s.alm.queue
        ∧ t.bitOf Reg.ALM_FIRST_VALID cls = (s.bitOf Reg.ALM_FIRST_VALID cls || !tget (dflt false) s.alm.seen cls))
      ∧ (∀ a, s.alm.opened = [a] → a.cls = cls.val → a.detail = detail.toNat → a.attr = at_ → s.now ≤ a.lastAt + 10000 → ∃ t, exec i s = .next t
        ∧ t.regs = s.regs ∧ ∃ b, t.alm = { s.alm with opened := [b] } ∧ b.count = sat 65535 (a.count + 1) ∧ b.lastStamp = s.stamp ∧ b.lastAt = s.now
          ∧ b.firstStamp = a.firstStamp ∧ (src.toNat ∈ a.sources → b.sources = a.sources) ∧ (src.toNat ∉ a.sources → b.sources = a.sources ++ [src.toNat]))))
  ∧ (∀ (dt : Nat) (s : State) (a : Alarm), s.alm.opened = [a] → s.quiet → let v := s.advance dt
    (v.now ≤ a.lastAt + 10000 → ∃ t, exec (.alarmRecordClose dt) s = .next t ∧ t = v)
    ∧ (a.lastAt + 10000 < v.now → ∃ t, exec (.alarmRecordClose dt) s = .next t ∧ t.alm.opened = [] ∧ t.rd Reg.ALM_RECORDS = up (s.rd Reg.ALM_RECORDS) 1
      ∧ (s.alm.queue.length < (if a.security then 256 else 224) → t.alm.queue = s.alm.queue ++ [a] ∧ t.alm.held = s.alm.held ∧ t.rd Reg.ALM_DROP = s.rd Reg.ALM_DROP)
      ∧ (a.security = true → 256 ≤ s.alm.queue.length → t.alm.queue = s.alm.queue ∧ t.alm.held = s.alm.held ++ [a])
      ∧ (a.security = false → 224 ≤ s.alm.queue.length → t.alm.queue = s.alm.queue ∧ t.rd Reg.ALM_DROP = up (s.rd Reg.ALM_DROP) 1)
      ∧ (a.cls ≠ 1 → t.ldg.evq.map (·.code) = [if a.security then 0x0010 else 0x0011])))
  ∧ (∀ (cluster : Fin 64) (s : State),
    let total (p : Nat) : Nat := (dropOffsets.map (fun o => s.dropsSince p o)).sum
    let out (p : Nat) : Nat := tget (dflt 0) s.dp.timeouts p
    ((∀ j, j < 8 → total (8 * cluster + j) = 0 ∧ out (8 * cluster + j) = 0) → ∃ t, exec (.dropSummary cluster) s = .next t ∧ t.alm = s.alm ∧ t.regs = s.regs)
    ∧ (s.alm.queue.length + 16 ≤ 224 → ∃ t, exec (.dropSummary cluster) s = .next t ∧ ∀ j, j < 8 → let p := 8 * cluster.val + j
      (∀ o ∈ dropOffsets, t.dropsSince p o = 0) ∧ tget (dflt 0) t.dp.timeouts p = 0
      ∧ (total p ≠ 0 → ∃ a ∈ t.alm.queue, a.cls = 9 ∧ a.summary = true ∧ a.count = sat 65535 (total p) ∧ a.src = srcPort p)
      ∧ (out p ≠ 0 → ∃ a ∈ t.alm.queue, a.cls = 10 ∧ a.summary = true ∧ a.count = sat 65535 (out p) ∧ a.src = srcPort p)))
  ∧ (∀ (ring : Fin 4) (value : Word) (s : State),
    (ring ≠ 0 → exec (.almHeadPop ring) s = .next s)
    ∧ (ring = 0 → s.alm.held = [] → ∃ t, exec (.almHeadPop ring) s = .next t ∧ t = { s with alm := { s.alm with queue := s.alm.queue.drop 1 } })
    ∧ (∀ a r, ring = 0 → s.alm.held = a :: r → 1 ≤ s.alm.queue.length → s.alm.queue.length ≤ 256 → ∃ t, exec (.almHeadPop ring) s = .next t
      ∧ t = { s with alm := { s.alm with queue := s.alm.queue.drop 1 ++ [a], held := r } })
    ∧ (ring = 0 → ∃ t, exec (.almAck ring value) s = .next t ∧ t.rd Reg.ALM_FIRST_VALID = s.rd Reg.ALM_FIRST_VALID &&& ~~~(value &&& 0xFFE)
      ∧ t.alm.queue = s.alm.queue ∧ ∀ c, tget (dflt none) t.alm.firsts c = if bit (value &&& 0xFFE) c then none else tget (dflt none) s.alm.firsts c)
    ∧ (ring ≠ 0 → ∃ t, exec (.almAck ring value) s = .next t ∧ t.rd Reg.ALM_ACK = s.rd Reg.ALM_ACK ∧ t.alm.queue = s.alm.queue))
  ∧ (∀ (c : HostCmd) (s : State),
    (∀ mask : BitVec 16, Runs s 0x0A15 c → ∃ t w, exec (.ackAlarms c mask) s = .next t ∧ t = finalReply c.ref 0 [] 0 w ∧ w.alm.queue = s.alm.queue
      ∧ w.rd Reg.ALM_FIRST_VALID = s.rd Reg.ALM_FIRST_VALID &&& ~~~(mask.setWidth 32 &&& 0xFFE))
    ∧ (let out := be 4 s.alm.queue.length ++ regsOut s [Reg.ALM_FIRST_VALID, Reg.ALM_RECORDS, Reg.ALM_DROP]
        ++ (if c.expert then (s.alm.queue.take 64).flatMap Alarm.bytes else [])
      Runs s 0x0A03 c → (c.outLen < out.length → ∃ t, exec (.getAlarms c) s = .next t ∧ t = finalReply c.ref 0x3A01 [] 0 s)
        ∧ (out.length ≤ c.outLen → ∃ t, exec (.getAlarms c) s = .next t ∧ t = finalReply c.ref 0 out 0 s))
    ∧ (Runs s 0x0A04 c → ∃ t, exec (.getThermal c) s = .next t ∧ t = finalReply c.ref 0 (regsOut s ([Reg.THM_STATUS] ++ (List.range 4).map Reg.THM_TJ
      ++ [Reg.THM_TJ_SR, Reg.THM_TJ_MIN, Reg.THM_INLET, Reg.THM_OUTLET, Reg.THM_FLOW, Reg.THM_TACH, Reg.THM_DUTY, Reg.THM_TJ_SET, Reg.THM_TJ_WARN,
        Reg.THM_HOT_HOLDS])) 0 s)
    ∧ (Runs s 0x0A05 c → ∃ t, exec (.getKeeper c) s = .next t ∧ t = finalReply c.ref 0 (regsOut s [Reg.THM_KEEP_V, Reg.THM_KEEP_MIN, Reg.THM_KEEP_ZTHR,
      Reg.THM_KEEP_ZERO, Reg.THM_KEEP_VFULL, Reg.THM_STATUS]) 0 s)
    ∧ (∀ (setpoint warn : BitVec 16) (duty : BitVec 8) (flowK : BitVec 16), Runs s 0x0A14 c →
      let fits : Prop := 40 * 256 ≤ setpoint.toNat ∧ setpoint.toNat ≤ 90 * 256 ∧ 80 * 256 ≤ warn.toNat ∧ warn.toNat ≤ 100 * 256
        ∧ (c.expert = true → 20 ≤ duty.toNat ∧ duty.toNat ≤ 100)
      (¬ fits → ∃ t, exec (.setThermal c setpoint warn duty flowK) s = .next t ∧ t = finalReply c.ref 0x1A01 [] 0 s)
      ∧ (fits → ∃ t w, exec (.setThermal c setpoint warn duty flowK) s = .next t ∧ t = finalReply c.ref 0 [] 0 w
        ∧ w.rd Reg.THM_TJ_SET = setpoint.setWidth 32 ∧ w.rd Reg.THM_TJ_WARN = warn.setWidth 32
        ∧ w.rd Reg.THM_FLOW_K = (if c.expert then flowK.setWidth 32 else s.rd Reg.THM_FLOW_K)
        ∧ w.fld Reg.THM_DUTY 6 0 = (if c.expert = true ∧ s.bitOf Reg.THM_CTL 0 = false then duty.toNat else s.fld Reg.THM_DUTY 6 0)))
    ∧ (∀ (zthr low vfull : BitVec 16), Runs s 0x0A16 c →
      let falls : Prop := zthr.toNat < s.fld Reg.THM_KEEP_ZTHR 15 0 ∨ low.toNat < s.fld Reg.THM_KEEP_ZERO 15 0
      let order : Prop := 2330 ≤ low.toNat ∧ low.toNat ≤ 2500 ∧ low.toNat + 50 ≤ zthr.toNat
      let set (v : State) : Prop :=
        (¬ order → ∃ t, exec (.setKeeper c zthr low vfull) s = .next t ∧ t = finalReply c.ref 0x1A02 [] 0 v)
        ∧ (order → ∃ t w, exec (.setKeeper c zthr low vfull) s = .next t ∧ t = finalReply c.ref 0 [] 0 w ∧ w.rd Reg.THM_KEEP_ZTHR = zthr.setWidth 32
          ∧ w.rd Reg.THM_KEEP_ZERO = low.setWidth 32 ∧ w.rd Reg.THM_KEEP_VFULL = vfull.setWidth 32 ∧ w.tpr = v.tpr ∧ w.keys = v.keys)
      (falls → c.ticket = none → ∃ t, exec (.setKeeper c zthr low vfull) s = .next t ∧ t = finalReply c.ref 0x2A01 [] 0 s)
      ∧ (¬ falls → c.ticket = none → set s)
      ∧ (∀ tk v, c.ticket = some tk → ticketCheck 0x0A16 c devScope tk s = (none, v) → set v)))

/-- The link comes up with four lanes and sends the backlog, and goes down with fewer or after 100 ms without a message; a stale side becomes DORMANT; leases of 200 ms capped at the cut go out for the tenants a side grants them for; a take request makes the holder RELEASING with a cut at least 100 ms ahead, an acknowledgement within 100 ms makes the taker TAKING, and it becomes HOLDER at its start stamp; the RELEASING side becomes STANDBY once FINAL and the LAST root are sent; a forced take fences the tenant's terminals; roots, lines, pages and configuration of the partner are kept; PAIR_JOIN, the handshake, SHARE_DOMAIN and PAIR_DISSOLVE form and end a pair; each failure has its status. (R549, R550, R551, R552, R553, R554, R555, R556, R557, R559, R560, R561) -/
def Obligations.PairsAndCharters : Prop :=
  let noted (v : State) (action k before : Nat) (c : Charter) (e : Nat) (t : State) : Prop :=
    t.ldg.evq = [⟨0x0050, eventBody v 0x0050 (srcMaster 0) k (be 1 action ++ be 2 k ++ be 1 (before + 16 * c.role) ++ be 8 e ++ be 4 c.gen
      ++ be 8 v.pair.partner ++ (fit 32 (tget (dflt []) v.ldg.prev k)).take 16), true⟩]
  (∀ (lanes : BitVec 8) (s : State),
    let up4 : Prop := s.sys.mainPower = true ∧ s.bitOf Reg.PAI_CTL 0 = true ∧ s.pair.linkUp = false ∧ 4 ≤ laneCount lanes
    (¬ up4 → exec (.mirrorLinkUp lanes) s = .next s)
    ∧ (up4 → ∃ t, exec (.mirrorLinkUp lanes) s = .next t ∧ t.pair.linkUp = true ∧ t.pair.lanes = lanes.toNat ∧ t.bitOf Reg.PAI_IRQ_STATUS 1 = true
      ∧ (s.pair.paired = false → t.pair.sent = s.pair.sent ++ s.pair.backlog ∧ t.pair.backlog = [] ∧ t.pair.charters = s.pair.charters)
      ∧ (s.pair.paired = true → (∀ e ∈ s.pair.charters, (s.charter e.1).role ≠ 3) → t.pair.backlog = [] ∧ t.pair.charters = s.pair.charters
        ∧ t.pair.sent = s.pair.sent ++ s.pair.backlog ++ [⟨.charter, 0xFFFF, s.generations⟩])))
  ∧ (∀ (k : Nat) (c : Charter) (s : State), s.pair.charters = [(k, c)] →
    let resumed : Charter := let r := { c with role := c.prior, prior := 0 }
      match c.prior, c.cut, c.start with
      | 4, some e, none => { r with start := some (State.cutNs e + s.guardNs) }
      | _, _, _ => r
    ((s.pair.linkUp = false → exec .mirrorLinkDown s = .next s)
      ∧ (s.pair.linkUp = true → ∃ t, exec .mirrorLinkDown s = .next t ∧ t.pair.linkUp = false
        ∧ (s.pair.lastMsg + 100000000 ≤ s.now → t.pair.lanes = s.pair.lanes)
        ∧ (s.now < s.pair.lastMsg + 100000000 → ∃ m : BitVec 8, t.pair.lanes = m.toNat ∧ laneCount m < 4) ∧ t.bitOf Reg.PAI_IRQ_STATUS 0 = true
        ∧ t.rd Reg.PAI_LINK_DOWNS = up (s.rd Reg.PAI_LINK_DOWNS) 1 ∧ (t.charter k).role = c.role
        ∧ (∀ x, c.role = 4 → c.cut = some x → c.start = none → t.charter k = { c with start := some (State.cutNs x + s.guardNs) })
        ∧ (c.role ≠ 4 ∨ c.cut = none ∨ c.start ≠ none → t.charter k = c ∧ t.flow = s.flow)))
    ∧ (∀ gens : List (Fin 512 × BitVec 32 × BitVec 64),
      let p := ((gens.find? (fun x => x.1.val == k)).map (fun x => (x.2.1.toNat, x.2.2.toNat))).getD (0, 0)
      let own := if c.role = 5 then c.prior else c.role
      let stale : Prop := (own = 1 ∨ own = 3) ∧ c.gen < p.1
      let c' : Charter := { c with role := 5, prior := 0, gen := p.1, cut := none, granted := 0, leaseHeld := 0, start := none, final := false }
      (s.pair.linkUp = false ∨ s.pair.paired = false → exec (.generationExchange gens) s = .next s)
      ∧ (s.pair.linkUp = true → s.pair.paired = true →
        (stale → ∃ t, exec (.generationExchange gens) s = .next t ∧ t.charter k = c' ∧ t.bitOf Reg.PAI_IRQ_STATUS 3 = true ∧ (s.quiet → noted s 7 k own c' p.2 t))
        ∧ (¬ stale → c.role = 5 → c.prior ≠ 0 → ∃ t, exec (.generationExchange gens) s = .next t ∧ t.charter k = resumed
          ∧ (c.prior ≠ 4 ∨ c.cut = none ∨ c.start ≠ none → t.regs = s.regs ∧ t.ldg = s.ldg))
        ∧ (¬ stale → c.role ≠ 5 ∨ c.prior = 0 → ∃ t, exec (.generationExchange gens) s = .next t ∧ t.charter k = c ∧ t.regs = s.regs ∧ t.ldg = s.ldg)))
    ∧ (∀ dt : Nat, let v := s.advance dt
      let grants : Prop := c.role = 2 ∨ (c.role = 4 ∧ ∃ e, c.cut = some e ∧ v.tim.now < State.cutNs e)
      let x := (c.cut.map (fun e => min (v.tim.now + 200000000) (State.cutNs e))).getD (v.tim.now + 200000000)
      (s.pair.linkUp = false ∨ s.pair.paired = false ∨ ¬ grants → ∃ t, exec (.leaseTimer dt) s = .next t ∧ t = v)
      ∧ (s.pair.linkUp = true → s.pair.paired = true → grants → ∃ t, exec (.leaseTimer dt) s = .next t ∧ t.charter k = { c with granted := x }
        ∧ t.pair.sent = s.pair.sent ++ [⟨.lease, 0xFFFF, (List.range 64).map (fun j => ((1#512 <<< k) >>> (8 * j)).setWidth 8) ++ be 8 (State.packStamp x).toNat⟩]
        ∧ t.rd Reg.PAI_LEASES_SENT = up (s.rd Reg.PAI_LEASES_SENT) 1)
      ∧ ∀ (map : BitVec 512) (expiry : BitVec 64),
        (s.pair.paired = false → ∃ t, exec (.leaseReceived dt map expiry) s = .next t ∧ t = v)
        ∧ (s.pair.paired = true → ∃ t, exec (.leaseReceived dt map expiry) s = .next t ∧ t.regs = v.regs ∧ t.pair.sent = s.pair.sent
          ∧ t.charter k = (if map.getLsbD k = true ∧ (c.role = 1 ∨ c.role = 3) then { c with leaseHeld := State.stampNs expiry } else c)))
    ∧ (∀ (h : HostCmd) (tk : Bytes) (v : State), Runs s 0x0B13 h → s.pair.paired = true → h.ticket = some tk →
      ticketCheck 0x0B13 h devScope tk s = (none, v) → ∃ t w, exec (.resumeSolo h) s = .next t ∧ t = finalReply h.ref 0 [] 0 w
        ∧ w.charter k = (if c.role = 5 ∧ c.prior ≠ 0 then resumed else c))
    ∧ (∀ (h : HostCmd) (n : Nat), Runs s 0x0B15 h → s.cer.phase = .opened → s.cer.fn = h.fn.val →
      (c.role = 3 ∨ c.role = 4 → ∃ t, exec (.pairDissolve h) s = .next t ∧ t = finalReply h.ref 0x2B04 [] 0 s)
      ∧ (c.role ≠ 3 → c.role ≠ 4 → s.pair.pairSlot = some n → s.cer.steps.length < 128 → (tget (dflt noRecord) s.keys.store n).block.length ≤ 1000 →
        ∃ t, exec (.pairDissolve h) s = .next t ∧ t.pair.paired = false ∧ t.pair.partner = 0 ∧ t.pair.pairSlot = none ∧ (t.slot n).state = 0
          ∧ t.cer.phase = .opened ∧ t.charter k = (if c.role = 0 ∨ c.role = 1 then c else Charter.none))))
  ∧ (∀ (dt : Nat) (tenant : Fin 512) (s : State), let v := s.advance dt
    let k := tenant.val
    let c := s.charter tenant
    let linked : Prop := s.pair.linkUp = true ∧ s.pair.paired = true
    let taken (role e : Nat) : Charter :=
      { c with role := role, gen := (c.gen + 1) % 2 ^ 32, cut := some e, final := false, start := none, await := if role = 4 then some 0 else none }
    let idle (i : Instr) : Prop := ∃ t, exec i s = .next t ∧ t = v
    (c.role = 3 → c.leaseHeld ≤ v.tim.now → ∃ t, exec (.leaseExpiry dt tenant) s = .next t ∧ t = v.setCharter k { c with leaseHeld := 0 })
    ∧ (c.role ≠ 3 ∨ v.tim.now < c.leaseHeld → idle (.leaseExpiry dt tenant))
    ∧ (¬ linked ∨ c.role ≠ 1 → idle (.takeRequestReceived dt tenant))
    ∧ (linked → c.role = 1 → ∃ t e, exec (.takeRequestReceived dt tenant) s = .next t ∧ e = v.cutAfter (v.tim.now + 100000000)
      ∧ t.charter k = taken 3 e ∧ t.pair.sent = s.pair.sent ++ [⟨.takeAck, k, be 8 e⟩] ∧ (s.quiet → noted v 2 k 1 (taken 3 e) e t))
    ∧ (∀ cut : BitVec 64,
      let asked : Prop := s.pair.linkUp = true ∧ (∃ x ∈ s.pair.takes, x.tenant = k ∧ x.force = false ∧ v.ms ≤ x.sent + 100) ∧ (c.role = 2 ∨ c.role = 5)
      (¬ asked → idle (.takeAckReceived dt tenant cut))
      ∧ (asked → ∃ t, exec (.takeAckReceived dt tenant cut) s = .next t ∧ t.charter k = taken 4 cut.toNat ∧ t.pair.takes = s.pair.takes
        ∧ (s.quiet → noted v 2 k c.role (taken 4 cut.toNat) cut.toNat t)))
    ∧ (∀ x : Take, s.pair.takes = [x] → x.tenant = k →
      (x.force = true ∨ v.ms < x.sent + 100 ∨ c.role = 4 → idle (.takeAckTimeout dt tenant))
      ∧ (x.force = false → x.sent + 100 ≤ v.ms → c.role ≠ 4 → ∃ t, exec (.takeAckTimeout dt tenant) s = .next t
        ∧ t = finalReply x.cmd 0x2B03 [] 0 { v with pair := { v.pair with takes := [] } }))
    ∧ (c.role ≠ 3 ∨ s.pair.linkUp = false ∨ c.cut = none → idle (.handoverCut dt tenant))
    ∧ (∀ e, c.role = 3 → s.pair.linkUp = true → c.cut = some e →
      let standby : Charter := { c with role := 2, cut := none, granted := 0, leaseHeld := 0, final := false }
      (c.final = true → s.lastRootSent k e = false → idle (.handoverCut dt tenant))
      ∧ (c.final = true → s.lastRootSent k e = true → ∃ t, exec (.handoverCut dt tenant) s = .next t ∧ t.charter tenant = standby ∧ t.pair.sent = s.pair.sent
        ∧ (s.quiet → noted v 3 k 3 standby e t))
      ∧ (c.final = false → v.epoch < e ∨ s.framesLeft k = true → idle (.handoverCut dt tenant))
      ∧ (c.final = false → e ≤ v.epoch → s.framesLeft k = false → ∃ t, exec (.handoverCut dt tenant) s = .next t
        ∧ t.pair.sent.getLast? = some ⟨.final, k, be 8 e⟩
        ∧ t.charter k = (if s.lastRootSent k e = true then standby else { c with final := true })))
    ∧ (s.pair.linkUp = false ∨ c.role ≠ 4 ∨ c.cut = none ∨ c.start ≠ none → idle (.finalReceived dt tenant))
    ∧ (∀ e, s.pair.linkUp = true → c.role = 4 → c.cut = some e → c.start = none → ∃ t, exec (.finalReceived dt tenant) s = .next t
      ∧ t.charter k = { c with final := true, start := some (max (State.cutNs e + s.guardNs) v.tim.now) })
    ∧ (c.start = none ∨ c.role ≠ 4 → idle (.takingGuardEnd dt tenant))
    ∧ (∀ x (y : Take), c.start = some x → c.role = 4 → s.pair.takes = [y] → y.tenant = k →
      (v.tim.now < x → idle (.takingGuardEnd dt tenant))
      ∧ (x ≤ v.tim.now → ∃ t w, exec (.takingGuardEnd dt tenant) s = .next t ∧ t = finalReply y.cmd 0 [] 0 w ∧ (w.charter k).role = 1
        ∧ (w.charter k).gen = c.gen ∧ (w.charter k).cut = none ∧ w.pair.takes = [] ∧ w.bitOf Reg.PAI_IRQ_STATUS 2 = true
        ∧ (w.charter k).await = (if s.pair.roots.any (fun r => r.1 == k && r.2.1 + 1 == c.cut.getD 0) then none else c.await)))
    ∧ (∀ epoch : BitVec 64,
      let w (k' e' : Nat) : Bool := k' == k && e' == epoch.toNat
      let left := s.pair.ackWait.filter (fun a => !w a.1 a.2.1)
      s.quiet → (∃ t, exec (.rootAck tenant epoch) s = .next t ∧ t = { s with pair := { s.pair with ackWait := left } })
        ∧ ((∃ a ∈ s.pair.ackWait, w a.1 a.2.1 = true ∧ a.2.2 + 1000 ≤ v.ms) → ∃ t, exec (.rootAckTimeout dt tenant epoch) s = .next t
          ∧ t = { v with pair := { v.pair with ackWait := left } })
        ∧ ((∀ a ∈ s.pair.ackWait, w a.1 a.2.1 = true → v.ms < a.2.2 + 1000) → idle (.rootAckTimeout dt tenant epoch))))
  ∧ (∀ (tenant : Fin 512) (seq : BitVec 64) (bytes : Bytes) (slot : Fin 8388608) (change : PairConfig) (domain : Fin 16) (s : State),
    let linked : Prop := s.pair.linkUp = true ∧ s.pair.paired = true
    let c := s.charter tenant
    (¬ linked → exec (.rootMessage tenant seq bytes) s = .next s ∧ exec (.lineMessage slot bytes) s = .next s ∧ exec (.pageMessage tenant seq bytes) s = .next s
      ∧ exec (.configMessage change) s = .next s ∧ exec (.domainMessage domain bytes) s = .next s)
    ∧ (linked →
      (∃ t, exec (.rootMessage tenant seq bytes) s = .next t ∧ t.pair.roots = s.pair.roots ++ [(tenant.val, seq.toNat, bytes)]
        ∧ t.pair.sent = s.pair.sent ++ [⟨.rootAck, tenant, be 8 seq.toNat⟩]
        ∧ (c.role ≠ 1 ∨ c.await ≠ none → tget (dflt []) t.ldg.prev tenant = sha256 (bytes.take 128) ∧ t.charter tenant = { c with await := none })
        ∧ (c.role = 1 → c.await = none → t.ldg = s.ldg ∧ t.charter tenant = c))
      ∧ (∃ t, exec (.pageMessage tenant seq bytes) s = .next t ∧ t = { s with pair := { s.pair with pages := s.pair.pages ++ [(tenant.val, seq.toNat, bytes)] } })
      ∧ (s.slotTenant slot = none → exec (.lineMessage slot bytes) s = .next s)
      ∧ (∀ k, s.slotTenant slot = some k →
        ((s.charter k).role = 1 → exec (.lineMessage slot bytes) s = .next s)
        ∧ ((s.charter k).role ≠ 1 → ∃ t, exec (.lineMessage slot bytes) s = .next t ∧ t.term slot = { readEntry bytes with home0 := none, home1 := none }
          ∧ t.pair = s.pair))
      ∧ (∀ (r : Fin 4096) (p : Bool) (g : BitVec 8), ∃ t, exec (.configMessage (.region tenant r p g)) s = .next t
        ∧ tget (dflt ⟨false, false, 0⟩) t.keys.regions (4096 * tenant.val + r.val) = ⟨true, p, g.toNat⟩ 
        ∧ ((s.region tenant r).gen = g.toNat → t.keys.slots = s.keys.slots ∧ t.pair = s.pair))
      ∧ (∀ lo hi : Word, ∃ t, exec (.configMessage (.retention tenant lo hi)) s = .next t ∧ t.rd (Reg.LDG_RET_LO tenant) = lo
        ∧ t.rd (Reg.LDG_RET_HI tenant) = hi ∧ t.pair = s.pair ∧ t.keys = s.keys)
      ∧ (∀ base quota : BitVec 11, ∃ t, exec (.configMessage (.quota tenant base quota)) s = .next t
        ∧ (∀ k, k < 4 → t.range k tenant = (base.toNat, quota.toNat)) ∧ t.pair = s.pair ∧ t.keys = s.keys)
      ∧ (∀ (n : Fin 16) (cl : BitVec 16) (a : BitVec 7) (e : Fin 512) (z : List (BitVec 8 × BitVec 8)) (b : Bool),
        ∃ t, exec (.configMessage (.profile tenant n cl a e z b)) s = .next t ∧ t.regs = s.regs ∧ t.pair = s.pair
          ∧ t.profile tenant n = ⟨cl, a, e, z.map (fun y => (y.1.toNat, y.2.toNat)), b⟩)
      ∧ (∃ t, exec (.configMessage (.destroy tenant)) s = .next t ∧ (t.tenant tenant).present = false ∧ (t.charter tenant).role = 0
        ∧ (t.slot (l2Slot tenant)).state = 0)
      ∧ (∀ g : BitVec 8, ∃ t, exec (.configMessage (.roll tenant g)) s = .next t ∧ (t.slot (l2Slot tenant)).gen = g.toNat)
      ∧ (∀ (g : Word) (valid : Bool) (close : BitVec 64) (margin : BitVec 16), 
        let i : Instr := .configMessage (.game tenant g valid close margin)
        let entry : Game := if valid then ⟨true, g.toNat, tenant, margin.toNat, close⟩ else Game.none
        (s.findGame tenant g.toNat = none → valid = false → exec i s = .next s)
        ∧ ∀ j, s.findGame tenant g.toNat = some j →
          exec i s = .next { s with tim := { s.tim with games := tput (dflt Game.none) s.tim.games j entry } })
      ∧ (∀ (d : Fin 16) (word : Word) (m reg : BitVec 8),
        let fresh : Prop := (s.tenant tenant).present = false ∧ (s.slot (1 + d.val)).state = 1 ∧ s.cer.phase = .opened ∧ s.stepLimit (createUndo tenant s) = false
        (¬ fresh → exec (.configMessage (.create tenant d word m reg)) s = .next s)
        ∧ (fresh → ∃ t, exec (.configMessage (.create tenant d word m reg)) s = .next t ∧ t.tenant tenant = ⟨true, d.val⟩ ∧ (t.charter tenant).role = 2
          ∧ t.cer.phase = .opened))
      ∧ (let n := 1 + domain.val
        ∀ kek, s.pairKey = some kek →
          (kwUnwrap kek (bytes.drop 16) = none → exec (.domainMessage domain bytes) s = .next s)
          ∧ ∀ p, kwUnwrap kek (bytes.drop 16) = some p →
            let whole : Prop := p.take 16 = bytes.take 16 ∧ kcvOf (slice p 16 32) = slice bytes 8 5 ∧ field bytes 1 1 = 2 ∧ field bytes 6 1 = domain.val
            (¬ whole ∨ (s.slot n).state ≠ 0 ∨ s.cer.phase ≠ .opened → exec (.domainMessage domain bytes) s = .next s)
            ∧ (whole → (s.slot n).state = 0 → s.cer.phase = .opened → s.cer.steps.length < 128 → (tget (dflt noRecord) s.keys.store n).block.length ≤ 1000 →
              ∃ t, exec (.domainMessage domain bytes) s = .next t ∧ (t.slot n).state = 1 ∧ (t.slot n).kcv = kcvOf ((slice p 16 32).take 32)
                ∧ (t.slot n).cls = 2 ∧ t.cer.phase = .opened))))
  ∧ (∀ (c : HostCmd) (s : State),
    (Runs s 0x0B01 c → ∃ t, exec (.getPair c) s = .next t ∧ t = finalReply c.ref 0 (be 4 s.paiStatus.toNat ++ be 8 s.pair.partner ++ fit 48 s.pair.partnerDigest
      ++ be 4 s.paiBacklog.toNat ++ regsOut s [Reg.PAI_GUARD, Reg.PAI_LEASES_SENT, Reg.PAI_LINK_DOWNS, Reg.PAI_REPL_DROP]) 0 s)
    ∧ (∀ first count : BitVec 16, Runs s 0x0B02 c →
      let out := (List.range count.toNat).flatMap (fun i => let x := s.charter (first.toNat + i)
        be 4 (s.paiTnt (first.toNat + i)).toNat ++ be 4 x.gen ++ be 8 (x.cut.getD 0))
      let fits : Prop := first.toNat < 512 ∧ first.toNat + count.toNat ≤ 512
      (¬ fits → ∃ t, exec (.getCharters c first count) s = .next t ∧ t = finalReply c.ref 0x1B01 [] 0 s)
      ∧ (fits → c.outLen < out.length → ∃ t, exec (.getCharters c first count) s = .next t ∧ t = finalReply c.ref 0x3401 [] 0 s)
      ∧ (fits → out.length ≤ c.outLen → ∃ t, exec (.getCharters c first count) s = .next t ∧ t = finalReply c.ref 0 out 0 s))
    ∧ (∀ (tenant : BitVec 16) (on force : Bool), let k := tenant.toNat
      let known : Prop := k < 512 ∧ (s.charter k).role ≠ 0
      (Runs s 0x0B14 c →
        (s.pair.paired = false ∨ ¬ known → ∃ t, exec (.setReplication c tenant on) s = .next t ∧ t = finalReply c.ref 0x1B01 [] 0 s)
        ∧ (s.pair.paired = true → known → ∃ t, exec (.setReplication c tenant on) s = .next t
          ∧ t = finalReply c.ref 0 [] 0 (s.setCharter k { s.charter k with replicate := on })))
      ∧ (Runs s 0x0B12 c →
        let turned (st : Nat) (v : State) : Prop := ∃ t, exec (.takeCharter c tenant force) s = .next t ∧ t = finalReply c.ref st [] 0 v
        (c.ticket = none → turned 0x2B05 s) ∧ (c.ticket ≠ none → s.pair.paired = false → turned 0x2B02 s)
        ∧ (c.ticket ≠ none → s.pair.paired = true → ¬ known → turned 0x1B01 s)
        ∧ ∀ tk, c.ticket = some tk → s.pair.paired = true → known →
          (∀ st v, ticketCheck 0x0B12 c k tk s = (some st, v) → turned st v)
          ∧ ∀ v, ticketCheck 0x0B12 c k tk s = (none, v) →
            let f : Prop := c.expert = true ∧ force = true
            let x := v.charter k
            (f → v.pair.linkUp = true → turned 0x2B05 v) ∧ (¬ f → v.pair.linkUp = false → turned 0x2B02 v)
            ∧ (¬ f → v.pair.linkUp = true → x.role ≠ 2 → x.role ≠ 5 → turned 0x2B03 v) ∧ (f → v.pair.linkUp = false → x.role ≠ 2 → turned 0x2B03 v)
            ∧ ((∀ y ∈ v.pair.takes, y.tenant ≠ k) →
              (¬ f → v.pair.linkUp = true → x.role = 2 ∨ x.role = 5 → ∃ t w, exec (.takeCharter c tenant force) s = .next t ∧ t = interimReply c.ref 0x010E w
                ∧ w.pair = { v.pair with takes := v.pair.takes ++ [⟨k, c.ref, false, v.ms⟩], sent := v.pair.sent ++ [⟨.takeRequest, k, []⟩] } ∧ w.regs = v.regs)
              ∧ (f → v.pair.linkUp = false → x.role = 2 → ∃ t w e, exec (.takeCharter c tenant force) s = .next t ∧ t = interimReply c.ref 0x010E w
                ∧ e = v.cutAfter (if x.granted = 0 then v.tim.now + 1 else x.granted + 1) ∧ w.pair.takes = v.pair.takes ++ [⟨k, c.ref, true, v.ms⟩]
                ∧ w.charter k = { x with role := 4, gen := (x.gen + 1) % 2 ^ 32, cut := some e, final := false, await := none
                                         start := some (State.cutNs e + v.guardNs) }
                ∧ ∀ n y, v.flow.allLoaded = true → v.flow.terms = [(n, y)] → y.state ≠ 0 → (v.range 0 k).1 ≤ n / 4096 →
                  n / 4096 < (v.range 0 k).1 + (v.range 0 k).2 → w.term n = y.fenced))))
    ∧ (Runs s 0x0B13 c →
      (c.ticket = none → ∃ t, exec (.resumeSolo c) s = .next t ∧ t = finalReply c.ref 0x2B05 [] 0 s)
      ∧ (c.ticket ≠ none → s.pair.paired = false → ∃ t, exec (.resumeSolo c) s = .next t ∧ t = finalReply c.ref 0x2B02 [] 0 s))
    ∧ (let mine : Prop := (s.cer.phase = .opened ∨ s.cer.phase = .step) ∧ s.cer.fn = c.fn.val
      let opened : Prop := s.cer.phase = .opened ∧ s.cer.fn = c.fn.val
      let ends (i : Instr) (st : Nat) : Prop := ∃ t, exec i s = .next t ∧ t = finalReply c.ref st [] 0 s
      (∀ (serial : BitVec 64) (digest : Bytes), Runs s 0x0B10 c →
        (¬ mine → ends (.pairJoin c serial digest) 0x2907) ∧ (opened → s.pair.paired = true → ends (.pairJoin c serial digest) 0x2B01)
        ∧ (opened → s.pair.paired = false → s.pair.linkUp = false → ends (.pairJoin c serial digest) 0x2B02)
        ∧ (opened → s.pair.paired = false → s.pair.linkUp = true → let eph := s.freeBytes 112
          ∃ t w, exec (.pairJoin c serial digest) s = .next t ∧ t = interimReply c.ref 0x010E w ∧ w.cer.phase = .step
            ∧ w.pair = { s.pair with joinCmd := some ⟨c.ref, serial.toNat, fit 48 digest, eph, none⟩
                                     sent := s.pair.sent ++ [⟨.handshake, 0xFFFF, Config.ecdsaPublic (eph.take 48) ++ Config.mlkemPublic (slice eph 48 32) (slice eph 80 32)⟩] }))
      ∧ (∀ domain : BitVec 8, let n := 1 + domain.toNat
        let only : Prop := domain.toNat < 16 ∧ (s.slot n).state = 1 ∧ (s.slot n).attr.getLsbD 6 = true
        let linked : Prop := s.pair.paired = true ∧ s.pair.linkUp = true
        Runs s 0x0B11 c → (¬ mine → ends (.shareDomain c domain) 0x2907) ∧ (opened → ¬ linked → ends (.shareDomain c domain) 0x2B02)
          ∧ (opened → linked → ¬ only → ends (.shareDomain c domain) 0x1B01) ∧ (opened → linked → only → s.pairKey = none → ends (.shareDomain c domain) 0x4B01)
          ∧ (∀ kek, opened → linked → only → s.pairKey = some kek → s.cer.steps.length < 128 → ∃ t, exec (.shareDomain c domain) s = .next t
            ∧ t.cer.phase = .opened
            ∧ t.pair = { s.pair with sent := s.pair.sent ++ [⟨.domain, 0xFFFF, be 1 domain.toNat ++ keyBlock kek (s.slot n)⟩] }))
      ∧ (Runs s 0x0B15 c → ¬ mine → ends (.pairDissolve c) 0x2907)))
  ∧ (∀ (msg : PairShake) (s : State),
    (s.pair.joinCmd = none → exec (.pairHandshakeReceived msg) s = .next s)
    ∧ (∀ j, s.pair.joinCmd = some j → s.pair.linkUp = true →
      (∀ e k, msg = .keys e k → j.keys = none →
        let own := Config.ecdsaPublic (j.eph.take 48) ++ Config.mlkemPublic (slice j.eph 48 32) (slice j.eph 80 32)
        let tr := sha256 (if Config.serial.toNat < j.serial then own ++ (e ++ k) else (e ++ k) ++ own)
        let key := Config.pairKey (Config.ecdhP384 (j.eph.take 48) e ++ Config.pairSecret (j.eph.drop 48) k)
        ∃ t sig, exec (.pairHandshakeReceived msg) s = .next t ∧ t.pair.joinCmd = some { j with keys := some (key, tr) }
          ∧ t.pair.sent = s.pair.sent ++ [⟨.handshake, 0xFFFF, idPublic ++ identityStatement tr s ++ sig⟩] ∧ t.pair.paired = s.pair.paired)
      ∧ (∀ ids st sE sM key tr, msg = .statement ids st sE sM → j.keys = some (key, tr) →
        let named : Prop := sha384 ids = j.digest ∧ field st 4 8 = j.serial
        let true_ : Prop := slice st 24 32 = tr ∧ Config.ecdsaVerify (ids.take 96) (sha384 st) sE = true ∧ Config.mldsaVerify (ids.drop 96) ctxID st sM = true
        (¬ named → ∃ t w, exec (.pairHandshakeReceived msg) s = .next t ∧ t = finalReply j.cmd 0x1B02 [] 0 w ∧ w.pair.joinCmd = none)
        ∧ (named → ¬ true_ → ∃ t w, exec (.pairHandshakeReceived msg) s = .next t ∧ t = finalReply j.cmd 0x4B01 [] 0 w ∧ w.pair.joinCmd = none)
        ∧ (∀ n, named → true_ → poolSlot 0xFFFF s = .ok n → ∃ t w, exec (.pairHandshakeReceived msg) s = .next t ∧ t = finalReply j.cmd 0 [] 0 w
          ∧ w.pair.paired = true ∧ w.pair.partner = j.serial ∧ w.pair.partnerDigest = j.digest ∧ w.pair.pairSlot = some n ∧ w.pair.joinCmd = none
          ∧ w.pair.member = (if j.serial < Config.serial.toNat then 1 else 0) ∧ (w.slot n).state = 1 ∧ (w.slot n).cls = 9 ∧ (w.slot n).attr = 0x06
          ∧ (w.slot n).kcv = kcvOf (key.take 32)))))

/-- A lend request of ring 0 is served alone and ends with its result code, and an OK one gives the port the lender's spare; a retest that passes removes the grown-map entry; a resource disabled by command is out with cause 5, and an engine's port moves to the free spare of its cluster or is left without the engine; RESET_PORT waits for a takeover, trains a port that is not OFF and clears DISABLED of the lanes with both engines; SET_TALLY, the clears, RUN and STOP and a counter read act as stated, a counter wraps into its chained partner or its OVF bit; a ring that may not write LEND_REQ or the Tally registers is refused with a violation record. (R565, R566, R567, R568, R570, R571, R572, R573, R576, R577, R578, R580) -/
def Obligations.RepairAndTally : Prop :=
  (∀ (ring : Fin 4) (value : Word) (s : State),
    (ring ≠ 0 → ∃ t, exec (.lendRequest ring value) s = .next t ∧ t.rpr = s.rpr ∧ t.rd Reg.RPR_LEND_STAT = s.rd Reg.RPR_LEND_STAT
      ∧ t.rd Reg.GTE_VIO_COUNT = up (s.rd Reg.GTE_VIO_COUNT) 1)
    ∧ (ring = 0 → bit value 31 = false → exec (.lendRequest ring value) s = .next s)
    ∧ (ring = 0 → bit value 31 = true →
      (s.rpr.lend ≠ none → ∃ t, exec (.lendRequest ring value) s = .next t ∧ t.rpr = s.rpr ∧ t.bitOf Reg.RPR_IRQ_STATUS 1 = true
        ∧ t.rd Reg.RPR_LEND_STAT = s.rd Reg.RPR_LEND_STAT)
      ∧ (s.rpr.lend = none → ∃ t, exec (.lendRequest ring value) s = .next t ∧ t.bitOf Reg.RPR_LEND_STAT 0 = true
        ∧ t.rpr = { s.rpr with lend := some (bits value 8 0, bit value 9, bits value 21 16) })))
  ∧ (∀ (fail : Bool) (s : State),
    (s.rpr.lend = none → exec (.lendDone fail) s = .next s)
    ∧ (∀ p k l, s.rpr.lend = some (p, k, l) → p < 512 → l < 64 →
      let n := if k then 1 else 0
      let free : Prop := s.spareFree l k = true
      let route : Prop := s.routeUp (p / 128) (l / 16) = true
      let lacks : Prop := s.engineOf p k = 0x7FF
      let ends (r : Nat) : Prop := ∃ t, exec (.lendDone fail) s = .next t ∧ t.rpr.lend = none ∧ t.rd Reg.RPR_LEND_STAT = BitVec.ofNat 32 (2 * r)
        ∧ t.bitOf Reg.RPR_IRQ_STATUS 0 = true ∧ t.engineOf p k = s.engineOf p k ∧ t.rd Reg.RPR_BORROWS = s.rd Reg.RPR_BORROWS
      (¬ free → ends 1) ∧ (free → ¬ route → ends 2) ∧ (free → route → ¬ lacks → ends 3) ∧ (free → route → lacks → fail = true → ends 4)
      ∧ (free → route → lacks → fail = false → ∃ t, exec (.lendDone fail) s = .next t ∧ t.rpr.lend = none ∧ t.rd Reg.RPR_LEND_STAT = 0
        ∧ t.bitOf Reg.RPR_IRQ_STATUS 0 = true ∧ t.engineOf p k = spareOf l k ∧ t.bitOf (Reg.PRT_STATUS p) (7 + n) = true
        ∧ t.bitOf (Reg.DPL_SPARE l) (4 + n) = true ∧ t.fld (Reg.DPL_SPARE l) (21 + 8 * n) (16 + 8 * n) = p / 8
        ∧ t.rd Reg.RPR_BORROWS = up (s.rd Reg.RPR_BORROWS) 1)))
  ∧ (∀ (c : HostCmd) (kind : BitVec 8) (res port : BitVec 16) (pass : Bool) (s : State),
    let k := kind.toNat
    let r := res.toNat
    let p := port.toNat
    let there : Prop := (k = 1 ∧ r < 1152) ∨ (k = 2 ∧ r < 68) ∨ (k = 3 ∧ r < 8)
    let entered (t : State) : Prop := s.rpr.grown.length < 512 → (∀ g ∈ s.rpr.grown, g.kind ≠ k ∨ g.res ≠ r) →
      ∃ g ∈ t.rpr.grown, g.kind = k ∧ g.cause = 5 ∧ g.res = r ∧ g.secs = s.keeperSecs
    (Runs s 0x0C01 c →
      let o := be 4 (s.rd Reg.RPR_STATUS).toNat ++ (List.range 16).flatMap (fun n => be 4 (s.rd (Reg.RPR_PORT_DIS n)).toNat)
        ++ (List.range 3).flatMap (fun n => be 4 (s.rd (Reg.RPR_PKE_OUT n)).toNat) ++ be 4 s.rpr.grown.length
        ++ (if c.expert then s.rpr.grown.flatMap Grown.bytes else [])
      (c.outLen < o.length → ∃ t, exec (.getRepair c) s = .next t ∧ t = finalReply c.ref 0x3C01 [] 0 s)
      ∧ (o.length ≤ c.outLen → ∃ t, exec (.getRepair c) s = .next t ∧ t = finalReply c.ref 0 o 0 s))
    ∧ (Runs s 0x0C10 c →
      (¬ there → ∃ t, exec (.retest c kind res pass) s = .next t ∧ t = finalReply c.ref 0x1C01 [] 0 s)
      ∧ (there → Config.factoryFailed k r = true ∨ s.resourceOut k r = false → ∃ t, exec (.retest c kind res pass) s = .next t
        ∧ t = finalReply c.ref 0x2C01 [] 0 s)
      ∧ (there → Config.factoryFailed k r = false → s.resourceOut k r = true →
        (pass = false → ∃ t, exec (.retest c kind res pass) s = .next t ∧ t = finalReply c.ref 0x4C01 [] 0 (interimReply c.ref 0x010F s))
        ∧ (pass = true → ∃ t w, exec (.retest c kind res pass) s = .next t ∧ t = finalReply c.ref 0 [] 0 (interimReply c.ref 0x010F w)
          ∧ w.rpr.grown = s.rpr.grown.filter (fun g => !(g.kind == k && g.res == r))
          ∧ (k = 1 → w.bitOf (Reg.DPL_KAT_STATUS (engineCluster r)) (engineBit r) = false ∧ (r < 1024 → r ∈ w.rpr.regained)
            ∧ (1024 ≤ r → w.bitOf (Reg.DPL_SPARE (engineCluster r)) (2 + r % 2) = false))
          ∧ (k = 2 → (w.tileUnit r).out = false ∧ w.bitOf (Reg.RPR_PKE_OUT (r / 32)) (r % 32) = false) ∧ (k = 3 → (w.pkeUnit r).stat ≠ 3))))
    ∧ (Runs s 0x0C11 c →
      (¬ there → ∃ t, exec (.disableResource c kind res) s = .next t ∧ t = finalReply c.ref 0x1C01 [] 0 s)
      ∧ (there → k = 2 → s.resourceOut k r = false → ∃ t w, exec (.disableResource c kind res) s = .next t ∧ t = finalReply c.ref 0 [] 0 w ∧ entered w
        ∧ w.tileUnit r = ⟨true, [], []⟩ ∧ w.bitOf (Reg.RPR_PKE_OUT (r / 32)) (r % 32) = true ∧ w.bitOf Reg.RPR_IRQ_STATUS 3 = true)
      ∧ (there → k = 3 → s.resourceOut k r = false → ∃ t w, exec (.disableResource c kind res) s = .next t ∧ t = finalReply c.ref 0 [] 0 w ∧ entered w
        ∧ (w.pkeUnit r).stat = 3 ∧ w.bitOf Reg.PKE_STATUS (8 + r) = true)
      ∧ (there → k = 1 → ∃ t, exec (.disableResource c kind res) s = .next t ∧ entered t
        ∧ t.bitOf (Reg.DPL_KAT_STATUS (engineCluster r)) (engineBit r) = true
        ∧ ∀ q, s.portOf r = some q →
          let sl := isSealEngine r
          let moves : Prop := (s.port q).takeover.any (fun b => nbit b (if sl then 1 else 0)) = true
          let spare : Prop := r < 1024 ∧ s.spareFree (engineCluster r) sl = true ∧ s.spareClaimed (engineCluster r) sl = false
          (moves → t.engineOf q sl = s.engineOf q sl)
          ∧ (¬ moves → spare → (t.port q).takeover.any (fun b => nbit b (if sl then 1 else 0)) = true)
          ∧ (¬ moves → ¬ spare → t.engineOf q sl = 0x7FF ∧ t.bitOf (Reg.DPL_IRQ_STATUS (q / 8)) 2 = true)))
    ∧ (Runs s 0x0C12 c →
      (512 ≤ p → ∃ t, exec (.resetPort c port) s = .next t ∧ t = finalReply c.ref 0x1C01 [] 0 s)
      ∧ (p < 512 →
        let d := s.leadOf p
        (s.takingOver d = true → ∃ t w, exec (.resetPort c port) s = .next t ∧ t = finalReply c.ref 0 [] 0 w ∧ (w.port d).resetPending = true)
        ∧ (s.takingOver d = false → s.portState d ≠ 0 → ∃ t w, exec (.resetPort c port) s = .next t ∧ t = finalReply c.ref 0 [] 0 w ∧ w.portState d = 1)
        ∧ (s.takingOver d = false → s.rpr.regained = [] → s.portState d = 0 → (∀ q ∈ s.lanes d, q < 512) →
          let out (q : Nat) : Prop := s.bitOf (Reg.PRT_STATUS q) 4 = true
          let whole (q : Nat) : Prop := s.engineOf q false ≠ 0x7FF ∧ s.engineOf q true ≠ 0x7FF
          ∃ t w, exec (.resetPort c port) s = .next t ∧ t = finalReply c.ref 0 [] 0 w
          ∧ (∀ q ∈ s.lanes d, (w.bitOf (Reg.PRT_STATUS q) 4 = true ↔ out q ∧ ¬ whole q)
            ∧ (out q → whole q → w.bitOf (Reg.RPR_PORT_DIS (q / 32)) (q % 32) = false))
          ∧ (s.bitOf (Reg.PRT_CTL d) 0 = false ∨ (∀ q ∈ s.lanes d, ¬ out q) → w.portState d = 0)
          ∧ (s.bitOf (Reg.PRT_CTL d) 0 = true → s.member d = false → s.plane ≠ .zeroized → (∃ q ∈ s.lanes d, out q) →
            (∀ q ∈ s.lanes d, out q → whole q) → w.portState d = 1)))))
  ∧ (∀ (c : HostCmd) (block counter : BitVec 8) (event : BitVec 16) (selector : BitVec 8) (chain : Bool) (mask : BitVec 16) (s : State),
    let b := block.toNat
    let n := counter.toNat
    let sel := if c.expert then selector.toNat else 0
    let ch := c.expert && chain
    let cleared (t : State) : Prop := ∀ j, j < tallyCount b → t.rd (tallyCnt b j) = if nbit mask.toNat j then 0 else s.rd (tallyCnt b j)
    (Runs s 0x0C02 c →
      (64 < b → ∃ t, exec (.getTally c block) s = .next t ∧ t = finalReply c.ref 0x1C01 [] 0 s)
      ∧ (b ≤ 64 → ∃ t, exec (.getTally c block) s = .next t
        ∧ t = finalReply c.ref 0 ((List.range (if b < 64 then 16 else 8)).flatMap (fun j => be 4 (s.rd (tallyCnt b j)).toNat)) 0 s))
    ∧ (Runs s 0x0C13 c →
      (64 < b ∨ (if b < 64 then 16 else 8) ≤ n → ∃ t, exec (.setTally c block counter event selector chain) s = .next t ∧ t = finalReply c.ref 0x1C01 [] 0 s)
      ∧ (b ≤ 64 → n < (if b < 64 then 16 else 8) →
        (tallyEvent b event.toNat = none → ∃ t, exec (.setTally c block counter event selector chain) s = .next t ∧ t = finalReply c.ref 0x1C02 [] 0 s)
        ∧ (∀ k, tallyEvent b event.toNat = some k →
          (k ≤ sel ∨ (ch = true ∧ n % 2 = 0) → ∃ t, exec (.setTally c block counter event selector chain) s = .next t ∧ t = finalReply c.ref 0x1C02 [] 0 s)
          ∧ (sel < k → ch = false ∨ n % 2 = 1 → ∃ t w, exec (.setTally c block counter event selector chain) s = .next t ∧ t = finalReply c.ref 0 [] 0 w
            ∧ w.rd (tallySel b n) = BitVec.ofNat 32 (event.toNat + 2 ^ 16 * sel + 2 ^ 24 * (if ch then 1 else 0))
            ∧ ∀ j, j < tallyCount b → w.rd (tallyCnt b j) = s.rd (tallyCnt b j) ∧ (j ≠ n → w.rd (tallySel b j) = s.rd (tallySel b j))))))
    ∧ (Runs s 0x0C14 c →
      (64 < b → ∃ t, exec (.clearTally c block mask) s = .next t ∧ t = finalReply c.ref 0x1C01 [] 0 s)
      ∧ (b ≤ 64 → ∃ t w, exec (.clearTally c block mask) s = .next t ∧ t = finalReply c.ref 0 [] 0 w ∧ cleared w)))
  ∧ (∀ (ring : Fin 4) (block : Fin 65) (mask : BitVec 16) (s : State),
    let turned (i : Instr) : Prop := ∃ t, exec i s = .next t ∧ t.rpr = s.rpr ∧ t.rd Reg.GTE_VIO_COUNT = up (s.rd Reg.GTE_VIO_COUNT) 1
      ∧ ∀ b j, b < 65 → j < tallyCount b → t.rd (tallyCnt b j) = s.rd (tallyCnt b j)
    (2 ≤ ring.val → turned (.tallyRun ring) ∧ turned (.tallyStop ring) ∧ turned (.tallyClear ring block mask))
    ∧ (ring.val < 2 →
      (∃ t x, exec (.tallyRun ring) s = .next t ∧ t = { s with rpr := { s.rpr with gctl := some (true, x) } } ∧ x % 1000 = 0 ∧ s.tim.now + 2000 ≤ x
        ∧ x < s.tim.now + 3000)
      ∧ (∃ t x, exec (.tallyStop ring) s = .next t ∧ t = { s with rpr := { s.rpr with gctl := some (false, x) } } ∧ x % 1000 = 0 ∧ s.tim.now + 2000 ≤ x
        ∧ x < s.tim.now + 3000)
      ∧ (∃ t, exec (.tallyClear ring block mask) s = .next t
        ∧ ∀ j, j < tallyCount block → t.rd (tallyCnt block j) = if nbit mask.toNat j then 0 else s.rd (tallyCnt block j))))
  ∧ (∀ (dt : BitVec 32) (s : State), let v := s.advance dt.toNat
    (s.rpr.gctl = none → ∃ t, exec (.tallyGctlApply dt) s = .next t ∧ t = v)
    ∧ (∀ run x, s.rpr.gctl = some (run, x) →
      (v.tim.now < x → ∃ t, exec (.tallyGctlApply dt) s = .next t ∧ t = v)
      ∧ (x ≤ v.tim.now → ∃ t, exec (.tallyGctlApply dt) s = .next t ∧ t.rpr.gctl = none ∧ ∀ b, b < 65 → t.bitOf (tallyStatus b) 0 = run)))
  ∧ (∀ (block : Fin 65) (counter : Fin 16) (master : BitVec 11) (counted : Word) (s : State),
    let b := block.val
    let n := counter.val
    let i : Instr := .tallyCounterRead block counter master counted
    let w := s.rd (tallyCnt b n)
    let wraps : Prop := 2 ^ 32 ≤ w.toNat + counted.toNat
    (tallyCount b ≤ n → exec i s = .next s)
    ∧ (n < tallyCount b →
      (s.tallyCounts b n = false → ∃ t, exec i s = .next t ∧ t.regs = s.regs)
      ∧ (s.tallyCounts b n = true → ∃ t, exec i s = .next t ∧ t.rd (tallyCnt b n) = w + counted
        ∧ (wraps → n % 2 = 0 → s.bitOf (tallySel b (n + 1)) 24 = true → t.rd (tallyCnt b (n + 1)) = s.rd (tallyCnt b (n + 1)) + 1)
        ∧ (wraps → n % 2 = 1 ∨ s.bitOf (tallySel b (n + 1)) 24 = false → t.bitOf (tallyOvf b) n = true
          ∧ t.bitOf Reg.TLY_IRQ_STATUS (if b < 64 then 1 else 0) = true)
        ∧ (¬ wraps → t.rd (tallyOvf b) = s.rd (tallyOvf b)))
      ∧ (n % 2 = 0 → ∃ t, exec i s = .next t
        ∧ tget (dflt none) t.gte.snaps (2048 * tallyCnt b (n + 1) + master.toNat) = some (t.rd (tallyCnt b (n + 1))))))

/-- A poll keeps the readings of the regulators that acknowledge; from 5 ms after power a Block Read answers a count of 4, the register in little-endian order and, when asked for, its CRC-8; an undefined code has no answer, and the alert response answers the target's address while the alert is low; each test instruction selects its register, EXTEST, CLAMP and HIGHZ act only under SYS_RESET_N and are replaced by BYPASS otherwise; nothing else of the device changes. (R588, R597, R598, R608, R609, R610, R611, R612, R613) -/
def Obligations.PinsAndTestPort : Prop :=
  (∀ (silent : BitVec 4) (vout iout : Vector (BitVec 16) 4) (s : State),
    (s.sys.mainPower = false → exec (.pmbusPoll silent vout iout) s = .next s)
    ∧ (s.sys.mainPower = true → ∃ t, exec (.pmbusPoll silent vout iout) s = .next t ∧ t = { s with pin := { s.pin with regReads := t.pin.regReads } }
      ∧ ∀ k : Fin 4, let r (x : State) (j : Nat) : Nat := tget (dflt 0) x.pin.regReads j
        (r t (2 * k), r t (2 * k + 1)) = if silent.getLsbD k then (r s (2 * k), r s (2 * k + 1)) else ((vout.get k).toNat, (iout.get k).toNat)))
  ∧ (∀ (pec : Bool) (s : State),
    let served : Prop := s.sys.mainPower = true ∧ 5000000 ≤ s.now
    let a := 2 * (0x58 + s.pin.smbAddr % 4)
    let answers (i : Instr) (r : Option Bytes) : Prop := ∃ t, exec i s = .next t ∧ t = { s with pin := { s.pin with smbReply := r } }
    let block (code : Nat) (b : Bytes) : Bytes :=
      if pec then 4 :: b ++ [crc8 ([BitVec.ofNat 8 a, BitVec.ofNat 8 code, BitVec.ofNat 8 (a + 1)] ++ 4 :: b)] else 4 :: b
    let reads (i : Instr) (code : Nat) (b : Bytes) : Prop := (served → answers i (some (block code b))) ∧ (¬ served → answers i none)
    let word (reg : Nat) : Bytes := le 4 (s.live32 reg).toNat
    let low : Prop := s.rd Reg.SYS_HOLD ≠ 0 ∨ s.bitOf Reg.SYS_BOOT_STAGE 4 = true ∨ s.bitOf Reg.TPR_STATUS 1 = true ∨ s.sys.mode = .zeroized
    reads (.smbReadSysMode pec) 0x01 (word Reg.SYS_MODE) ∧ reads (.smbReadSysStatus pec) 0x02 (word Reg.SYS_STATUS)
    ∧ reads (.smbReadSysHold pec) 0x03 (word Reg.SYS_HOLD) ∧ reads (.smbReadSysBootStage pec) 0x04 (word Reg.SYS_BOOT_STAGE)
    ∧ reads (.smbReadSysResetCause pec) 0x05 (word Reg.SYS_RESET_CAUSE) ∧ reads (.smbReadTprStatus pec) 0x06 (word Reg.TPR_STATUS)
    ∧ reads (.smbReadThmStatus pec) 0x07 (word Reg.THM_STATUS) ∧ reads (.smbReadThmTjSr pec) 0x09 (word Reg.THM_TJ_SR)
    ∧ reads (.smbReadThmInlet pec) 0x0A (word Reg.THM_INLET) ∧ reads (.smbReadThmFlow pec) 0x0B (word Reg.THM_FLOW)
    ∧ reads (.smbReadThmKeepV pec) 0x0C (word Reg.THM_KEEP_V) ∧ reads (.smbReadTimStatus pec) 0x0D (word Reg.TIM_STATUS)
    ∧ reads (.smbReadAlmStatus pec) 0x0E (word Reg.ALM_STATUS) ∧ reads (.smbReadSysSerialLo pec) 0x10 (word Reg.SYS_SERIAL_LO)
    ∧ reads (.smbReadSysSerialHi pec) 0x11 (word Reg.SYS_SERIAL_HI) ∧ reads (.smbReadSysOrder pec) 0x12 (word Reg.SYS_ORDER)
    ∧ reads (.smbReadTileVoltages pec) 0x13 [s.voltageByte 0, s.voltageByte 1, s.voltageByte 2, s.voltageByte 3]
    ∧ (∃ k : Fin 4, (∀ j : Fin 4, ((s.live32 (Reg.THM_TJ j)).setWidth 16).toInt ≤ ((s.live32 (Reg.THM_TJ k)).setWidth 16).toInt)
      ∧ reads (.smbReadHottestTile pec) 0x08 (word (Reg.THM_TJ k)))
    ∧ answers .smbUndefinedCommand none
    ∧ (served → low → answers .smbAlertResponse (some [BitVec.ofNat 8 a])) ∧ (¬ served ∨ ¬ low → answers .smbAlertResponse none))
  ∧ (∀ (sample values : BitVec 81) (s : State),
    let capture := 1 + (if s.sys.shipFuse then 4 else 0) + (if s.pin.tapReplaced then 8 else 0)
    let gives (i : Instr) (p : PinState) : Prop := (s.sys.mainPower = false → exec i s = .next s)
      ∧ (s.sys.mainPower = true → ∃ t, exec i s = .next t ∧ t = { s with pin := { p with tapIrOut := capture } })
    let loads (code : Nat) (out : BitVec 81) : PinState := { s.pin with tapIr := code, tapReplaced := false, tapOut := out }
    let bypassed : PinState := { s.pin with tapIr := 0xFF, tapReplaced := true, tapOut := 0 }
    (s.sys.mainPower = false → exec .tapReset s = .next s)
    ∧ (s.sys.mainPower = true → ∃ t, exec .tapReset s = .next t ∧ t = { s with pin := { s.pin with tapIr := 1 } })
    ∧ gives (.extest sample values) (if s.pin.resetLow then { loads 0 sample with boundary := values } else bypassed)
    ∧ gives .idcode (loads 1 0xB512546B)
    ∧ gives (.samplePreload sample values) { loads 2 sample with boundary := values }
    ∧ gives .clamp (if s.pin.resetLow then loads 3 0 else bypassed)
    ∧ gives .highz (if s.pin.resetLow then loads 4 0 else bypassed)
    ∧ gives .testlock (loads 0x10 (BitVec.ofNat 81 (0xA5C30000 + (if s.sys.shipFuse then 0x1F else 0) + (if s.sys.keeperInit then 0x20 else 0)
      + (if s.bitOf Reg.TPR_STATUS 3 then 0x40 else 0))))
    ∧ gives .bypass (loads 0xFF 0)
    ∧ (∀ cell, s.drivenPin cell = if s.pin.resetLow = true ∧ (s.pin.tapIr = 0 ∨ s.pin.tapIr = 3) ∧ s.pin.boundary.getLsbD (cell + 1) = true
      then some (s.pin.boundary.getLsbD cell) else none))

/-- In every state whose ship fuse is blown, whose mode is not FACTORY, and in which neither an accepted transition nor the mode a ceremony was opened from is FACTORY, every step whatever its command leads to a state of which all this holds again. (R38) -/
def Obligations.NoEventReturnsToFactory : Prop := ∀ s t : State, s.shipped = true → step s = .next t → t.shipped = true

/-- Boundary scan, the management target and the regulator bus reach neither the custody cores nor any register block, memory or fuse: over any number of steps that run only their commands, the state stays that of the device d in everything but the pins and the queue. (R608, R612, R597, R588) -/
def Obligations.TestAccessReachesPinsOnly : Prop := ∀ d s t : State, TestOnly d s → step s = .next t → TestOnly d t

/-- State.reset is in FACTORY with its fuse intact, its tables in canonical form and its queue empty, and is the device of TestOnly; SHIP_FUSE_BLOW from it blows the fuse with no transition pending; the first start with the fuse blown and KEEPER_INIT intact makes the device shipped, in NOTARY. (R33, R38, R587, 02_modes_and_startup.md) -/
def Obligations.InvariantsAtTheStart : Prop :=
  State.reset.sys.mode = .factory ∧ State.reset.sys.shipFuse = false ∧ State.reset.canonical = true ∧ State.reset.queueOk = true
  ∧ TestOnly State.reset State.reset
  ∧ (∃ t, exec .shipFuseBlow State.reset = .next t ∧ t.sys.shipFuse = true ∧ t.sys.keeperInit = false ∧ t.sys.pend = none ∧ t.cer.openedFrom ≠ .factory)
  ∧ ∀ s : State, s.sys.shipFuse = true → s.sys.keeperInit = false → s.sys.pend = none → s.cer.openedFrom ≠ .factory →
    (firstStart s).shipped = true ∧ (firstStart s).sys.mode = .notary
end

