-- ==== Sys2Proof/Laws/Exec.lean ====
section
/-! SUPPORT. Each arm of exec, as a rewriting rule, so that no proof unfolds the whole dispatch. -/

namespace Sys2Proof.Machine

@[simp] theorem exec_shipFuseBlow (s : State) :
    exec (.shipFuseBlow) s = execShipFuseBlow s := rfl

@[simp] theorem exec_powerOn (off : Nat) (smbAddr : Fin 4) (s : State) :
    exec (.powerOn off smbAddr) s = execPowerOn off smbAddr s := rfl

@[simp] theorem exec_powerFail (levels : BitVec 8) (s : State) :
    exec (.powerFail levels) s = execPowerFail levels s := rfl

@[simp] theorem exec_warmResetPin (low : Bool) (s : State) :
    exec (.warmResetPin low) s = execWarmResetPin low s := rfl

@[simp] theorem exec_sysResetCtlWarm (ring : Fin 4) (value : Word) (s : State) :
    exec (.sysResetCtlWarm ring value) s = execSysResetCtlWarm ring value s := rfl

@[simp] theorem exec_sysResetCtlCustody (ring : Fin 4) (value : Word) (s : State) :
    exec (.sysResetCtlCustody ring value) s = execSysResetCtlCustody ring value s := rfl

@[simp] theorem exec_sysResetCtlTile (ring : Fin 4) (value : Word) (s : State) :
    exec (.sysResetCtlTile ring value) s = execSysResetCtlTile ring value s := rfl

@[simp] theorem exec_custodyResetDone (detected : BitVec 5) (s : State) :
    exec (.custodyResetDone detected) s = execCustodyResetDone detected s := rfl

@[simp] theorem exec_uncorrectableTileFault (tile : Fin 4) (ledger : Bool) (s : State) :
    exec (.uncorrectableTileFault tile ledger) s = execUncorrectableTileFault tile ledger s := rfl

@[simp] theorem exec_tileRelease (tile : Fin 4) (pass : Bool) (badEngines : List (Fin 1152)) (badUnits : List (Fin 68)) (s : State) :
    exec (.tileRelease tile pass badEngines badUnits) s = execTileRelease tile pass badEngines badUnits s := rfl

@[simp] theorem exec_pcieFlr (fn : Fin 513) (s : State) :
    exec (.pcieFlr fn) s = execPcieFlr fn s := rfl

@[simp] theorem exec_perstNAssert (s : State) :
    exec (.perstNAssert) s = execPerstNAssert s := rfl

@[simp] theorem exec_pcieConfigRequest (request : CfgRequest) (s : State) :
    exec (.pcieConfigRequest request) s = execPcieConfigRequest request s := rfl

@[simp] theorem exec_bootStage0 (detected : BitVec 5) (mv : BitVec 16) (s : State) :
    exec (.bootStage0 detected mv) s = execBootStage0 detected mv s := rfl

@[simp] theorem exec_bootStage1 (s : State) :
    exec (.bootStage1) s = execBootStage1 s := rfl

@[simp] theorem exec_bootStage2 (pass : Bool) (s : State) :
    exec (.bootStage2 pass) s = execBootStage2 pass s := rfl

@[simp] theorem exec_bootStage3 (acks : BitVec 4) (loaded : BitVec 4) (s : State) :
    exec (.bootStage3 acks loaded) s = execBootStage3 acks loaded s := rfl

@[simp] theorem exec_bootStage4 (badEngines : List (Fin 1152)) (badUnits : List (Fin 68)) (badCustody : List (Fin 8)) (mint : Bool) (badLeaf : List (Fin 64)) (s : State) :
    exec (.bootStage4 badEngines badUnits badCustody mint badLeaf) s = execBootStage4 badEngines badUnits badCustody mint badLeaf s := rfl

@[simp] theorem exec_bootStage5 (pass : Bool) (s : State) :
    exec (.bootStage5 pass) s = execBootStage5 pass s := rfl

@[simp] theorem exec_bootStage6 (s : State) :
    exec (.bootStage6) s = execBootStage6 s := rfl

@[simp] theorem exec_bootStage7 (s : State) :
    exec (.bootStage7) s = execBootStage7 s := rfl

@[simp] theorem exec_modeCommit (s : State) :
    exec (.modeCommit) s = execModeCommit s := rfl

@[simp] theorem exec_sysModeReqWrite (value : BitVec 32) (s : State) :
    exec (.sysModeReqWrite value) s = execSysModeReqWrite value s := rfl

@[simp] theorem exec_getStatus (c : HostCmd) (selector : BitVec 8) (s : State) :
    exec (.getStatus c selector) s = execGetStatus c selector s := rfl

@[simp] theorem exec_getIdentity (c : HostCmd) (nonce : Bytes) (s : State) :
    exec (.getIdentity c nonce) s = execGetIdentity c nonce s := rfl

@[simp] theorem exec_enterMaintenance (c : HostCmd) (map : BitVec 512) (s : State) :
    exec (.enterMaintenance c map) s = execEnterMaintenance c map s := rfl

@[simp] theorem exec_exitMaintenance (c : HostCmd) (map : BitVec 512) (s : State) :
    exec (.exitMaintenance c map) s = execExitMaintenance c map s := rfl

@[simp] theorem exec_reset (c : HostCmd) (kind tile : BitVec 8) (s : State) :
    exec (.reset c kind tile) s = execReset c kind tile s := rfl

@[simp] theorem exec_sqTailDoorbell (fn : Fin 513) (queue : Fin 8) (value : BitVec 16) (stream : Option (Fin 8)) (s : State) :
    exec (.sqTailDoorbell fn queue value stream) s = execSqTailDoorbell fn queue value stream s := rfl

@[simp] theorem exec_cqHeadDoorbell (fn : Fin 513) (queue : Fin 8) (value : BitVec 16) (stream : Option (Fin 8)) (s : State) :
    exec (.cqHeadDoorbell fn queue value stream) s = execCqHeadDoorbell fn queue value stream s := rfl

@[simp] theorem exec_queueEnable (fn : Fin 513) (queue : Fin 8) (ctl : CtlWrite) (s : State) :
    exec (.queueEnable fn queue ctl) s = execQueueEnable fn queue ctl s := rfl

@[simp] theorem exec_queueDisable (fn : Fin 513) (queue : Fin 8) (ctl : CtlWrite) (s : State) :
    exec (.queueDisable fn queue ctl) s = execQueueDisable fn queue ctl s := rfl

@[simp] theorem exec_hostRegisterAccess (fn : Fin 513) (write : Bool) (offset : BarOffset) (value : BitVec 32) (dws : Nat) (stream : Option (Fin 8)) (s : State) :
    exec (.hostRegisterAccess fn write offset value dws stream) s = execHostRegisterAccess fn write offset value dws stream s := rfl

@[simp] theorem exec_commandFetch (fn : Fin 513) (queue : Fin 8) (entry : Bytes) (dmaOk : Bool) (params : Option Bytes) (named : List Nat) (s : State) :
    exec (.commandFetch fn queue entry dmaOk params named) s = execCommandFetch fn queue entry dmaOk params named s := rfl

@[simp] theorem exec_commandReserve (fn : Fin 513) (queue : Fin 8) (ident : BitVec 16) (free : Bool) (s : State) :
    exec (.commandReserve fn queue ident free) s = execCommandReserve fn queue ident free s := rfl

@[simp] theorem exec_commandWatchdog (dt : Nat) (s : State) :
    exec (.commandWatchdog dt) s = execCommandWatchdog dt s := rfl

@[simp] theorem exec_replyWrite (fn : Fin 513) (queue : Fin 8) (ok : Bool) (s : State) :
    exec (.replyWrite fn queue ok) s = execReplyWrite fn queue ok s := rfl

@[simp] theorem exec_interruptCoalesceTimeout (fn : Fin 513) (queue : Fin 8) (s : State) :
    exec (.interruptCoalesceTimeout fn queue) s = execInterruptCoalesceTimeout fn queue s := rfl

@[simp] theorem exec_mbxSendCommit (sender : BusSender) (hi : BitVec 32) (s : State) :
    exec (.mbxSendCommit sender hi) s = execMbxSendCommit sender hi s := rfl

@[simp] theorem exec_mbxRecvPop (s : State) :
    exec (.mbxRecvPop) s = execMbxRecvPop s := rfl

@[simp] theorem exec_registerWrite (ring : Fin 4) (master : BitVec 11) (colour : BitVec 10) (size : Fin 5) (addr value : Word) (env : BusEnv) (s : State) :
    exec (.registerWrite ring master colour size addr value env) s = execRegisterWrite ring master colour size addr value env s := rfl

@[simp] theorem exec_frameStart (dt : Nat) (start : PortStart) (s : State) :
    exec (.frameStart dt start) s = execFrameStart dt start s := rfl

@[simp] theorem exec_frameBeat (port : Fin 512) (bytes : Bytes) (s : State) :
    exec (.frameBeat port bytes) s = execFrameBeat port bytes s := rfl

@[simp] theorem exec_headerBeat (port : Fin 512) (bytes : Bytes) (s : State) :
    exec (.headerBeat port bytes) s = execHeaderBeat port bytes s := rfl

@[simp] theorem exec_frameTail (port : Fin 512) (bytes : Bytes) (s : State) :
    exec (.frameTail port bytes) s = execFrameTail port bytes s := rfl

@[simp] theorem exec_fabricTransfer (cluster : Fin 64) (dst : Fin 512) (s : State) :
    exec (.fabricTransfer cluster dst) s = execFabricTransfer cluster dst s := rfl

@[simp] theorem exec_egressFrameStart (port : Fin 512) (s : State) :
    exec (.egressFrameStart port) s = execEgressFrameStart port s := rfl

@[simp] theorem exec_egressUnderrun (port : Fin 512) (sent : Nat) (s : State) :
    exec (.egressUnderrun port sent) s = execEgressUnderrun port sent s := rfl

@[simp] theorem exec_stallTimerExpiry (port : Fin 512) (sent : Nat) (s : State) :
    exec (.stallTimerExpiry port sent) s = execStallTimerExpiry port sent s := rfl

@[simp] theorem exec_pauseFrame (port : Fin 512) (quanta : BitVec 16) (s : State) :
    exec (.pauseFrame port quanta) s = execPauseFrame port quanta s := rfl

@[simp] theorem exec_pauseExpiry (port : Fin 512) (s : State) :
    exec (.pauseExpiry port) s = execPauseExpiry port s := rfl

@[simp] theorem exec_portLinkUp (port : Fin 512) (s : State) :
    exec (.portLinkUp port) s = execPortLinkUp port s := rfl

@[simp] theorem exec_portLinkLost (port : Fin 512) (s : State) :
    exec (.portLinkLost port) s = execPortLinkLost port s := rfl

@[simp] theorem exec_portReset (port : Fin 512) (value : BitVec 32) (s : State) :
    exec (.portReset port value) s = execPortReset port value s := rfl

@[simp] theorem exec_portEnable (port : Fin 512) (s : State) :
    exec (.portEnable port) s = execPortEnable port s := rfl

@[simp] theorem exec_portDisable (port : Fin 512) (s : State) :
    exec (.portDisable port) s = execPortDisable port s := rfl

@[simp] theorem exec_portRelease (port : Fin 512) (s : State) :
    exec (.portRelease port) s = execPortRelease port s := rfl

@[simp] theorem exec_portHold (port : Fin 512) (s : State) :
    exec (.portHold port) s = execPortHold port s := rfl

@[simp] theorem exec_portCounterClear (port : Fin 512) (s : State) :
    exec (.portCounterClear port) s = execPortCounterClear port s := rfl

@[simp] theorem exec_portGroupWrite (port : Fin 512) (value : BitVec 32) (s : State) :
    exec (.portGroupWrite port value) s = execPortGroupWrite port value s := rfl

@[simp] theorem exec_engineKatWindow (cluster : Fin 64) (s : State) :
    exec (.engineKatWindow cluster) s = execEngineKatWindow cluster s := rfl

@[simp] theorem exec_engineFailure (engine : Fin 1152) (cause : Fin 3) (s : State) :
    exec (.engineFailure engine cause) s = execEngineFailure engine cause s := rfl

@[simp] theorem exec_spareTakeover (port : Fin 512) (s : State) :
    exec (.spareTakeover port) s = execSpareTakeover port s := rfl

@[simp] theorem exec_tileLinkFault (a b : Fin 4) (s : State) :
    exec (.tileLinkFault a b) s = execTileLinkFault a b s := rfl

@[simp] theorem exec_tileLinkRetrained (a b : Fin 4) (s : State) :
    exec (.tileLinkRetrained a b) s = execTileLinkRetrained a b s := rfl

@[simp] theorem exec_tileLinkRetrainTimeout (a b : Fin 4) (s : State) :
    exec (.tileLinkRetrainTimeout a b) s = execTileLinkRetrainTimeout a b s := rfl

@[simp] theorem exec_egressKeyDelivered (cluster : Fin 64) (tenant : Fin 512) (terminal : BitVec 24) (s : State) :
    exec (.egressKeyDelivered cluster tenant terminal) s = execEgressKeyDelivered cluster tenant terminal s := rfl

@[simp] theorem exec_leafPipeOutput (cluster : Fin 64) (s : State) :
    exec (.leafPipeOutput cluster) s = execLeafPipeOutput cluster s := rfl

@[simp] theorem exec_chunkRootDelivered (cluster : Fin 64) (s : State) :
    exec (.chunkRootDelivered cluster) s = execChunkRootDelivered cluster s := rfl

@[simp] theorem exec_flowSetupStart (cluster : Fin 64) (tenant : Fin 512) (terminal : BitVec 24) (dir : Fin 2) (macOk : Bool) (s : State) :
    exec (.flowSetupStart cluster tenant terminal dir macOk) s = execFlowSetupStart cluster tenant terminal dir macOk s := rfl

@[simp] theorem exec_flowSetupDone (cluster : Fin 64) (tenant : Fin 512) (terminal : BitVec 24) (dir : Fin 2) (s : State) :
    exec (.flowSetupDone cluster tenant terminal dir) s = execFlowSetupDone cluster tenant terminal dir s := rfl

@[simp] theorem exec_flowSetupTimeout (dt : Nat) (cluster : Fin 64) (tenant : Fin 512) (terminal : BitVec 24) (dir : Fin 2) (s : State) :
    exec (.flowSetupTimeout dt cluster tenant terminal dir) s = execFlowSetupTimeout dt cluster tenant terminal dir s := rfl

@[simp] theorem exec_migrationRequest (cluster : Fin 64) (tenant : Fin 512) (terminal : BitVec 24) (dir : Fin 2) (s : State) :
    exec (.migrationRequest cluster tenant terminal dir) s = execMigrationRequest cluster tenant terminal dir s := rfl

@[simp] theorem exec_migrationDrained (cluster : Fin 64) (tenant : Fin 512) (terminal : BitVec 24) (dir : Fin 2) (s : State) :
    exec (.migrationDrained cluster tenant terminal dir) s = execMigrationDrained cluster tenant terminal dir s := rfl

@[simp] theorem exec_flowWayDrained (cluster : Fin 64) (tenant : Fin 512) (terminal : BitVec 24) (dir : Fin 2) (s : State) :
    exec (.flowWayDrained cluster tenant terminal dir) s = execFlowWayDrained cluster tenant terminal dir s := rfl

@[simp] theorem exec_imagePageReadDone (s : State) :
    exec (.imagePageReadDone) s = execImagePageReadDone s := rfl

@[simp] theorem exec_imageBackgroundLoad (page : Fin 32768) (s : State) :
    exec (.imageBackgroundLoad page) s = execImageBackgroundLoad page s := rfl

@[simp] theorem exec_flowIdleSweep (cluster : Fin 64) (s : State) :
    exec (.flowIdleSweep cluster) s = execFlowIdleSweep cluster s := rfl

@[simp] theorem exec_graceExpiry (cluster : Fin 64) (tenant : Fin 512) (terminal : BitVec 24) (s : State) :
    exec (.graceExpiry cluster tenant terminal) s = execGraceExpiry cluster tenant terminal s := rfl

@[simp] theorem exec_flowNotice (cluster : Fin 64) (tenant : Fin 512) (terminal : BitVec 24) (s : State) :
    exec (.flowNotice cluster tenant terminal) s = execFlowNotice cluster tenant terminal s := rfl

@[simp] theorem exec_exchangeDone (tile : Fin 4) (unit : Fin 17) (fault : Bool) (s : State) :
    exec (.exchangeDone tile unit fault) s = execExchangeDone tile unit fault s := rfl

@[simp] theorem exec_exchangeWaitTimeout (dt : Nat) (tile : Fin 4) (s : State) :
    exec (.exchangeWaitTimeout dt tile) s = execExchangeWaitTimeout dt tile s := rfl

@[simp] theorem exec_registerWriteback (slot : Fin 8388608) (s : State) :
    exec (.registerWriteback slot) s = execRegisterWriteback slot s := rfl

@[simp] theorem exec_flushDone (s : State) :
    exec (.flushDone) s = execFlushDone s := rfl

@[simp] theorem exec_getFlow (c : HostCmd) (tenant : Fin 512) (terminal : BitVec 24) (dir : Fin 2) (cluster : Fin 64) (s : State) :
    exec (.getFlow c tenant terminal dir cluster) s = execGetFlow c tenant terminal dir cluster s := rfl

@[simp] theorem exec_getTerminal (c : HostCmd) (tenant : Fin 512) (terminal : BitVec 24) (s : State) :
    exec (.getTerminal c tenant terminal) s = execGetTerminal c tenant terminal s := rfl

@[simp] theorem exec_getQuota (c : HostCmd) (tenant : Fin 512) (s : State) :
    exec (.getQuota c tenant) s = execGetQuota c tenant s := rfl

@[simp] theorem exec_getSetupStats (c : HostCmd) (tile : Fin 4) (s : State) :
    exec (.getSetupStats c tile) s = execGetSetupStats c tile s := rfl

@[simp] theorem exec_allocTerminals (c : HostCmd) (first : BitVec 24) (count : BitVec 24) (hybrid : Bool) (profile : Fin 16) (region : Fin 4096) (l4ver : BitVec 16) (s : State) :
    exec (.allocTerminals c first count hybrid profile region l4ver) s = execAllocTerminals c first count hybrid profile region l4ver s := rfl

@[simp] theorem exec_freeTerminals (c : HostCmd) (first : BitVec 24) (count : BitVec 24) (s : State) :
    exec (.freeTerminals c first count) s = execFreeTerminals c first count s := rfl

@[simp] theorem exec_setProfile (c : HostCmd) (number : Fin 16) (classes : BitVec 16) (actions : BitVec 8) (egress : BitVec 16) (zones : List (BitVec 8 × BitVec 8)) (notice : Bool) (s : State) :
    exec (.setProfile c number classes actions egress zones notice) s = execSetProfile c number classes actions egress zones notice s := rfl

@[simp] theorem exec_quarantine (c : HostCmd) (tenant : Fin 512) (terminal : BitVec 24) (s : State) :
    exec (.quarantine c tenant terminal) s = execQuarantine c tenant terminal s := rfl

@[simp] theorem exec_release (c : HostCmd) (tenant : Fin 512) (terminal : BitVec 24) (s : State) :
    exec (.release c tenant terminal) s = execRelease c tenant terminal s := rfl

@[simp] theorem exec_evictFlow (c : HostCmd) (terminal : BitVec 24) (dir : Fin 2) (s : State) :
    exec (.evictFlow c terminal dir) s = execEvictFlow c terminal dir s := rfl

@[simp] theorem exec_setVerdict (c : HostCmd) (setting : BitVec 8) (port : BitVec 16) (enable : Bool) (template : Bytes) (s : State) :
    exec (.setVerdict c setting port enable template) s = execSetVerdict c setting port enable template s := rfl

@[simp] theorem exec_setQuota (c : HostCmd) (tenant : Fin 512) (base quota : BitVec 16) (s : State) :
    exec (.setQuota c tenant base quota) s = execSetQuota c tenant base quota s := rfl

@[simp] theorem exec_rekey (c : HostCmd) (terminal : BitVec 24) (egress : Bool) (s : State) :
    exec (.rekey c terminal egress) s = execRekey c terminal egress s := rfl

@[simp] theorem exec_reenrol (c : HostCmd) (terminal : BitVec 24) (l4ver : BitVec 16) (s : State) :
    exec (.reenrol c terminal l4ver) s = execReenrol c terminal l4ver s := rfl

@[simp] theorem exec_flushRegister (c : HostCmd) (s : State) :
    exec (.flushRegister c) s = execFlushRegister c s := rfl

@[simp] theorem exec_setFlowTimers (c : HostCmd) (timeout grace : BitVec 16) (tagCount tagWindow replayCount replayWindow : BitVec 8) (s : State) :
    exec (.setFlowTimers c timeout grace tagCount tagWindow replayCount replayWindow) s = execSetFlowTimers c timeout grace tagCount tagWindow replayCount replayWindow s := rfl

@[simp] theorem exec_vaultRefreshRound (s : State) :
    exec (.vaultRefreshRound) s = execVaultRefreshRound s := rfl

@[simp] theorem exec_vaultRefreshLate (s : State) :
    exec (.vaultRefreshLate) s = execVaultRefreshLate s := rfl

@[simp] theorem exec_mintDerivation (s : State) :
    exec (.mintDerivation) s = execMintDerivation s := rfl

@[simp] theorem exec_l3Delivery (cluster : Fin 64) (s : State) :
    exec (.l3Delivery cluster) s = execL3Delivery cluster s := rfl

@[simp] theorem exec_leafMintDerivation (cluster : Fin 64) (tenant : Fin 512) (terminal : BitVec 24) (dir : Fin 2) (s : State) :
    exec (.leafMintDerivation cluster tenant terminal dir) s = execLeafMintDerivation cluster tenant terminal dir s := rfl

@[simp] theorem exec_mintKat (unit : Option (Fin 64)) (pass : Bool) (s : State) :
    exec (.mintKat unit pass) s = execMintKat unit pass s := rfl

@[simp] theorem exec_purgeAck (tile : Fin 4) (s : State) :
    exec (.purgeAck tile) s = execPurgeAck tile s := rfl

@[simp] theorem exec_grantIssue (cluster : Fin 64) (s : State) :
    exec (.grantIssue cluster) s = execGrantIssue cluster s := rfl

@[simp] theorem exec_fingerprintKeyDelivery (s : State) :
    exec (.fingerprintKeyDelivery) s = execFingerprintKeyDelivery s := rfl

@[simp] theorem exec_getSlot (c : HostCmd) (handle : BitVec 32) (s : State) :
    exec (.getSlot c handle) s = execGetSlot c handle s := rfl

@[simp] theorem exec_getKcv (c : HostCmd) (handle : BitVec 32) (s : State) :
    exec (.getKcv c handle) s = execGetKcv c handle s := rfl

@[simp] theorem exec_getPubkeys (c : HostCmd) (tenant : Fin 512) (which : Fin 3) (s : State) :
    exec (.getPubkeys c tenant which) s = execGetPubkeys c tenant which s := rfl

@[simp] theorem exec_getRegions (c : HostCmd) (first count : BitVec 16) (s : State) :
    exec (.getRegions c first count) s = execGetRegions c first count s := rfl

@[simp] theorem exec_attest (c : HostCmd) (handle : BitVec 32) (challenge : Bytes) (s : State) :
    exec (.attest c handle challenge) s = execAttest c handle challenge s := rfl

@[simp] theorem exec_generateKey (c : HostCmd) (cls len : BitVec 8) (attr : BitVec 8) (limit : BitVec 8) (s : State) :
    exec (.generateKey c cls len attr limit) s = execGenerateKey c cls len attr limit s := rfl

@[simp] theorem exec_importComponents (c : HostCmd) (key : CompKey) (count : BitVec 8) (kcv : Bytes) (s : State) :
    exec (.importComponents c key count kcv) s = execImportComponents c key count kcv s := rfl

@[simp] theorem exec_importWrapped (c : HostCmd) (kek : BitVec 32) (block : Bytes) (s : State) :
    exec (.importWrapped c kek block) s = execImportWrapped c kek block s := rfl

@[simp] theorem exec_exportWrapped (c : HostCmd) (handle kek : BitVec 32) (s : State) :
    exec (.exportWrapped c handle kek) s = execExportWrapped c handle kek s := rfl

@[simp] theorem exec_destroyKey (c : HostCmd) (handle : BitVec 32) (s : State) :
    exec (.destroyKey c handle) s = execDestroyKey c handle s := rfl

@[simp] theorem exec_bindZone (c : HostCmd) (zone : BitVec 16) (handle : BitVec 32) (s : State) :
    exec (.bindZone c zone handle) s = execBindZone c zone handle s := rfl

@[simp] theorem exec_createRegion (c : HostCmd) (region : BitVec 16) (preload : Bool) (s : State) :
    exec (.createRegion c region preload) s = execCreateRegion c region preload s := rfl

@[simp] theorem exec_setUsageLimit (c : HostCmd) (childExp : BitVec 8) (handle : BitVec 32) (limit : BitVec 8) (s : State) :
    exec (.setUsageLimit c childExp handle limit) s = execSetUsageLimit c childExp handle limit s := rfl

@[simp] theorem exec_rollPurpose (c : HostCmd) (which : Fin 3) (s : State) :
    exec (.rollPurpose c which) s = execRollPurpose c which s := rfl

@[simp] theorem exec_rollHierarchy (c : HostCmd) (region : Option (BitVec 16)) (s : State) :
    exec (.rollHierarchy c region) s = execRollHierarchy c region s := rfl

@[simp] theorem exec_epochCut (dt : Nat) (s : State) :
    exec (.epochCut dt) s = execEpochCut dt s := rfl

@[simp] theorem exec_epochClose (dt : Nat) (s : State) :
    exec (.epochClose dt) s = execEpochClose dt s := rfl

@[simp] theorem exec_tileRootForm (tile : Fin 4) (s : State) :
    exec (.tileRootForm tile) s = execTileRootForm tile s := rfl

@[simp] theorem exec_rootsFormed (s : State) :
    exec (.rootsFormed) s = execRootsFormed s := rfl

@[simp] theorem exec_rootSignDone (s : State) :
    exec (.rootSignDone) s = execRootSignDone s := rfl

@[simp] theorem exec_eventEnqueue (code src tenant : BitVec 16) (data : Bytes) (s : State) :
    exec (.eventEnqueue code src tenant data) s = execEventEnqueue code src tenant data s := rfl

@[simp] theorem exec_journalPageTimer (s : State) :
    exec (.journalPageTimer) s = execJournalPageTimer s := rfl

@[simp] theorem exec_journalPageProgramDone (ok : Bool) (s : State) :
    exec (.journalPageProgramDone ok) s = execJournalPageProgramDone ok s := rfl

@[simp] theorem exec_receiptPageProgramDone (ok : Bool) (s : State) :
    exec (.receiptPageProgramDone ok) s = execReceiptPageProgramDone ok s := rfl

@[simp] theorem exec_journalScanDone (torn : Option (BitVec 64 × BitVec 32)) (s : State) :
    exec (.journalScanDone torn) s = execJournalScanDone torn s := rfl

@[simp] theorem exec_lflashBlockEraseDone (block : BitVec 18) (ok : Bool) (s : State) :
    exec (.lflashBlockEraseDone block ok) s = execLflashBlockEraseDone block ok s := rfl

@[simp] theorem exec_eraseCountCheckpoint (s : State) :
    exec (.eraseCountCheckpoint) s = execEraseCountCheckpoint s := rfl

@[simp] theorem exec_getLedgerStatus (c : HostCmd) (tenant : Fin 512) (s : State) :
    exec (.getLedgerStatus c tenant) s = execGetLedgerStatus c tenant s := rfl

@[simp] theorem exec_readJournal (c : HostCmd) (first : BitVec 64) (limit : BitVec 32) (typeMask : BitVec 32) (s : State) :
    exec (.readJournal c first limit typeMask) s = execReadJournal c first limit typeMask s := rfl

@[simp] theorem exec_readReceipts (c : HostCmd) (tenant : Fin 512) (first : BitVec 64) (count : Nat) (s : State) :
    exec (.readReceipts c tenant first count) s = execReadReceipts c tenant first count s := rfl

@[simp] theorem exec_getRoot (c : HostCmd) (tenant : Fin 512) (epoch : BitVec 64) (s : State) :
    exec (.getRoot c tenant epoch) s = execGetRoot c tenant epoch s := rfl

@[simp] theorem exec_getProof (c : HostCmd) (epoch : BitVec 64) (cluster : BitVec 8) (seq : BitVec 24) (position : BitVec 8) (s : State) :
    exec (.getProof c epoch cluster seq position) s = execGetProof c epoch cluster seq position s := rfl

@[simp] theorem exec_getRetention (c : HostCmd) (tenant : Fin 512) (s : State) :
    exec (.getRetention c tenant) s = execGetRetention c tenant s := rfl

@[simp] theorem exec_ackJournal (c : HostCmd) (seq : BitVec 64) (s : State) :
    exec (.ackJournal c seq) s = execAckJournal c seq s := rfl

@[simp] theorem exec_ackReceipts (c : HostCmd) (tenant : Fin 512) (seq : BitVec 64) (s : State) :
    exec (.ackReceipts c tenant seq) s = execAckReceipts c tenant seq s := rfl

@[simp] theorem exec_setRetention (c : HostCmd) (retain : BitVec 32) (full : BitVec 8) (s : State) :
    exec (.setRetention c retain full) s = execSetRetention c retain full s := rfl

@[simp] theorem exec_setReceiptQuota (c : HostCmd) (tenant : BitVec 16) (blocks : BitVec 32) (s : State) :
    exec (.setReceiptQuota c tenant blocks) s = execSetReceiptQuota c tenant blocks s := rfl

@[simp] theorem exec_appendNote (c : HostCmd) (note : Bytes) (s : State) :
    exec (.appendNote c note) s = execAppendNote c note s := rfl

@[simp] theorem exec_secondPulse (dt width : Nat) (s : State) :
    exec (.secondPulse dt width) s = execSecondPulse dt width s := rfl

@[simp] theorem exec_holdoverTimeout (dt : Nat) (s : State) :
    exec (.holdoverTimeout dt) s = execHoldoverTimeout dt s := rfl

@[simp] theorem exec_uncertaintyUpdate (dt : Nat) (s : State) :
    exec (.uncertaintyUpdate dt) s = execUncertaintyUpdate dt s := rfl

@[simp] theorem exec_timeRequestTimeout (dt : Nat) (s : State) :
    exec (.timeRequestTimeout dt) s = execTimeRequestTimeout dt s := rfl

@[simp] theorem exec_gameChangeActivate (dt : Nat) (s : State) :
    exec (.gameChangeActivate dt) s = execGameChangeActivate dt s := rfl

@[simp] theorem exec_gameChangeAck (cluster : Fin 64) (s : State) :
    exec (.gameChangeAck cluster) s = execGameChangeAck cluster s := rfl

@[simp] theorem exec_gameChangeTimeout (dt : Nat) (s : State) :
    exec (.gameChangeTimeout dt) s = execGameChangeTimeout dt s := rfl

@[simp] theorem exec_getTime (c : HostCmd) (s : State) :
    exec (.getTime c) s = execGetTime c s := rfl

@[simp] theorem exec_getGame (c : HostCmd) (tenant : Fin 512) (game : BitVec 32) (s : State) :
    exec (.getGame c tenant game) s = execGetGame c tenant game s := rfl

@[simp] theorem exec_listGames (c : HostCmd) (tenant : Fin 512) (first count : Nat) (s : State) :
    exec (.listGames c tenant first count) s = execListGames c tenant first count s := rfl

@[simp] theorem exec_setTime (c : HostCmd) (seconds : BitVec 64) (s : State) :
    exec (.setTime c seconds) s = execSetTime c seconds s := rfl

@[simp] theorem exec_setTimeParams (c : HostCmd) (drift base maxUnc : Nat) (s : State) :
    exec (.setTimeParams c drift base maxUnc) s = execSetTimeParams c drift base maxUnc s := rfl

@[simp] theorem exec_realign (c : HostCmd) (s : State) :
    exec (.realign c) s = execRealign c s := rfl

@[simp] theorem exec_addGame (c : HostCmd) (game : BitVec 32) (close : BitVec 64) (margin : BitVec 16) (s : State) :
    exec (.addGame c game close margin) s = execAddGame c game close margin s := rfl

@[simp] theorem exec_setClose (c : HostCmd) (game : BitVec 32) (close : BitVec 64) (margin : BitVec 16) (s : State) :
    exec (.setClose c game close margin) s = execSetClose c game close margin s := rfl

@[simp] theorem exec_closeNow (c : HostCmd) (game : BitVec 32) (s : State) :
    exec (.closeNow c game) s = execCloseNow c game s := rfl

@[simp] theorem exec_deleteGame (c : HostCmd) (game : BitVec 32) (s : State) :
    exec (.deleteGame c game) s = execDeleteGame c game s := rfl

@[simp] theorem exec_add (rd ra rb : Fin 16) (s : State) :
    exec (.add rd ra rb) s = execAdd rd ra rb s := rfl

@[simp] theorem exec_sub (rd ra rb : Fin 16) (s : State) :
    exec (.sub rd ra rb) s = execSub rd ra rb s := rfl

@[simp] theorem exec_and (rd ra rb : Fin 16) (s : State) :
    exec (.and rd ra rb) s = execAnd rd ra rb s := rfl

@[simp] theorem exec_or (rd ra rb : Fin 16) (s : State) :
    exec (.or rd ra rb) s = execOr rd ra rb s := rfl

@[simp] theorem exec_xor (rd ra rb : Fin 16) (s : State) :
    exec (.xor rd ra rb) s = execXor rd ra rb s := rfl

@[simp] theorem exec_andn (rd ra rb : Fin 16) (s : State) :
    exec (.andn rd ra rb) s = execAndn rd ra rb s := rfl

@[simp] theorem exec_mov (rd ra : Fin 16) (s : State) :
    exec (.mov rd ra) s = execMov rd ra s := rfl

@[simp] theorem exec_cmp (ra rb : Fin 16) (s : State) :
    exec (.cmp ra rb) s = execCmp ra rb s := rfl

@[simp] theorem exec_tst (ra rb : Fin 16) (s : State) :
    exec (.tst ra rb) s = execTst ra rb s := rfl

@[simp] theorem exec_neg (rd ra : Fin 16) (s : State) :
    exec (.neg rd ra) s = execNeg rd ra s := rfl

@[simp] theorem exec_not (rd ra : Fin 16) (s : State) :
    exec (.not rd ra) s = execNot rd ra s := rfl

@[simp] theorem exec_shl (rd ra rb : Fin 16) (s : State) :
    exec (.shl rd ra rb) s = execShl rd ra rb s := rfl

@[simp] theorem exec_shr (rd ra rb : Fin 16) (s : State) :
    exec (.shr rd ra rb) s = execShr rd ra rb s := rfl

@[simp] theorem exec_sar (rd ra rb : Fin 16) (s : State) :
    exec (.sar rd ra rb) s = execSar rd ra rb s := rfl

@[simp] theorem exec_ror (rd ra rb : Fin 16) (s : State) :
    exec (.ror rd ra rb) s = execRor rd ra rb s := rfl

@[simp] theorem exec_shlByAux (rd ra : Fin 16) (aux : BitVec 8) (s : State) :
    exec (.shlByAux rd ra aux) s = execShlByAux rd ra aux s := rfl

@[simp] theorem exec_shrByAux (rd ra : Fin 16) (aux : BitVec 8) (s : State) :
    exec (.shrByAux rd ra aux) s = execShrByAux rd ra aux s := rfl

@[simp] theorem exec_sarByAux (rd ra : Fin 16) (aux : BitVec 8) (s : State) :
    exec (.sarByAux rd ra aux) s = execSarByAux rd ra aux s := rfl

@[simp] theorem exec_rorByAux (rd ra : Fin 16) (aux : BitVec 8) (s : State) :
    exec (.rorByAux rd ra aux) s = execRorByAux rd ra aux s := rfl

@[simp] theorem exec_addi (rd ra : Fin 16) (imm : BitVec 16) (s : State) :
    exec (.addi rd ra imm) s = execAddi rd ra imm s := rfl

@[simp] theorem exec_andi (rd ra : Fin 16) (imm : BitVec 16) (s : State) :
    exec (.andi rd ra imm) s = execAndi rd ra imm s := rfl

@[simp] theorem exec_ori (rd ra : Fin 16) (imm : BitVec 16) (s : State) :
    exec (.ori rd ra imm) s = execOri rd ra imm s := rfl

@[simp] theorem exec_xori (rd ra : Fin 16) (imm : BitVec 16) (s : State) :
    exec (.xori rd ra imm) s = execXori rd ra imm s := rfl

@[simp] theorem exec_lui (rd : Fin 16) (imm : BitVec 16) (s : State) :
    exec (.lui rd imm) s = execLui rd imm s := rfl

@[simp] theorem exec_cmpi (ra : Fin 16) (imm : BitVec 16) (s : State) :
    exec (.cmpi ra imm) s = execCmpi ra imm s := rfl

@[simp] theorem exec_mul (rd ra rb : Fin 16) (s : State) :
    exec (.mul rd ra rb) s = execMul rd ra rb s := rfl

@[simp] theorem exec_mulhs (rd ra rb : Fin 16) (s : State) :
    exec (.mulhs rd ra rb) s = execMulhs rd ra rb s := rfl

@[simp] theorem exec_mulhu (rd ra rb : Fin 16) (s : State) :
    exec (.mulhu rd ra rb) s = execMulhu rd ra rb s := rfl

@[simp] theorem exec_divs (rd ra rb : Fin 16) (s : State) :
    exec (.divs rd ra rb) s = execDivs rd ra rb s := rfl

@[simp] theorem exec_divu (rd ra rb : Fin 16) (s : State) :
    exec (.divu rd ra rb) s = execDivu rd ra rb s := rfl

@[simp] theorem exec_rems (rd ra rb : Fin 16) (s : State) :
    exec (.rems rd ra rb) s = execRems rd ra rb s := rfl

@[simp] theorem exec_remu (rd ra rb : Fin 16) (s : State) :
    exec (.remu rd ra rb) s = execRemu rd ra rb s := rfl

@[simp] theorem exec_sadd (rd ra rb : Fin 16) (s : State) :
    exec (.sadd rd ra rb) s = execSadd rd ra rb s := rfl

@[simp] theorem exec_ssub (rd ra rb : Fin 16) (s : State) :
    exec (.ssub rd ra rb) s = execSsub rd ra rb s := rfl

@[simp] theorem exec_uadds (rd ra rb : Fin 16) (s : State) :
    exec (.uadds rd ra rb) s = execUadds rd ra rb s := rfl

@[simp] theorem exec_usubs (rd ra rb : Fin 16) (s : State) :
    exec (.usubs rd ra rb) s = execUsubs rd ra rb s := rfl

@[simp] theorem exec_smulqs (rd ra rb : Fin 16) (aux : BitVec 8) (s : State) :
    exec (.smulqs rd ra rb aux) s = execSmulqs rd ra rb aux s := rfl

@[simp] theorem exec_sshl (rd ra : Fin 16) (aux : BitVec 8) (s : State) :
    exec (.sshl rd ra aux) s = execSshl rd ra aux s := rfl

@[simp] theorem exec_sneg (rd ra : Fin 16) (s : State) :
    exec (.sneg rd ra) s = execSneg rd ra s := rfl

@[simp] theorem exec_sabs (rd ra : Fin 16) (s : State) :
    exec (.sabs rd ra) s = execSabs rd ra s := rfl

@[simp] theorem exec_snarrow (rd ra : Fin 16) (aux : BitVec 8) (s : State) :
    exec (.snarrow rd ra aux) s = execSnarrow rd ra aux s := rfl

@[simp] theorem exec_ld (rd base : Fin 16) (size : Fin 4) (off : BitVec 16) (env : BusEnv) (s : State) :
    exec (.ld rd base size off env) s = execLd rd base size off env s := rfl

@[simp] theorem exec_lds (rd base : Fin 16) (size : Fin 4) (off : BitVec 16) (env : BusEnv) (s : State) :
    exec (.lds rd base size off env) s = execLds rd base size off env s := rfl

@[simp] theorem exec_st (rs base : Fin 16) (size : Fin 4) (off : BitVec 16) (env : BusEnv) (s : State) :
    exec (.st rs base size off env) s = execSt rs base size off env s := rfl

@[simp] theorem exec_busResponse (env : BusEnv) (s : State) :
    exec (.busResponse env) s = execBusResponse env s := rfl

@[simp] theorem exec_b (cond : Fin 16) (off : BitVec 22) (s : State) :
    exec (.b cond off) s = execB cond off s := rfl

@[simp] theorem exec_call (off : BitVec 26) (env : BusEnv) (s : State) :
    exec (.call off env) s = execCall off env s := rfl

@[simp] theorem exec_jmp (off : BitVec 26) (s : State) :
    exec (.jmp off) s = execJmp off s := rfl

@[simp] theorem exec_callr (ra : Fin 16) (env : BusEnv) (s : State) :
    exec (.callr ra env) s = execCallr ra env s := rfl

@[simp] theorem exec_jmpr (ra : Fin 16) (s : State) :
    exec (.jmpr ra) s = execJmpr ra s := rfl

@[simp] theorem exec_ret (n : BitVec 8) (env : BusEnv) (s : State) :
    exec (.ret n env) s = execRet n env s := rfl

@[simp] theorem exec_push (ra : Fin 16) (env : BusEnv) (s : State) :
    exec (.push ra env) s = execPush ra env s := rfl

@[simp] theorem exec_pop (rd : Fin 16) (env : BusEnv) (s : State) :
    exec (.pop rd env) s = execPop rd env s := rfl

@[simp] theorem exec_bcopy (rpt : Bool) (size : Fin 4) (upto : Nat) (env : BusEnv) (s : State) :
    exec (.bcopy rpt size upto env) s = execBcopy rpt size upto env s := rfl

@[simp] theorem exec_bfill (rpt : Bool) (size : Fin 4) (ra : Fin 16) (upto : Nat) (env : BusEnv) (s : State) :
    exec (.bfill rpt size ra upto env) s = execBfill rpt size ra upto env s := rfl

@[simp] theorem exec_bcmp (rpt : Bool) (size : Fin 4) (upto : Nat) (env : BusEnv) (s : State) :
    exec (.bcmp rpt size upto env) s = execBcmp rpt size upto env s := rfl

@[simp] theorem exec_bseek (rpt : Bool) (size : Fin 4) (ra : Fin 16) (upto : Nat) (env : BusEnv) (s : State) :
    exec (.bseek rpt size ra upto env) s = execBseek rpt size ra upto env s := rfl

@[simp] theorem exec_bcmpc (rpt : Bool) (size : Fin 4) (upto : Nat) (env : BusEnv) (s : State) :
    exec (.bcmpc rpt size upto env) s = execBcmpc rpt size upto env s := rfl

@[simp] theorem exec_bgcopy (rpt : Bool) (size : Fin 4) (upto : Nat) (env : BusEnv) (s : State) :
    exec (.bgcopy rpt size upto env) s = execBgcopy rpt size upto env s := rfl

@[simp] theorem exec_nop (s : State) :
    exec (.nop) s = execNop s := rfl

@[simp] theorem exec_mfs (rd : Fin 16) (index : BitVec 12) (s : State) :
    exec (.mfs rd index) s = execMfs rd index s := rfl

@[simp] theorem exec_mts (index : BitVec 12) (ra : Fin 16) (s : State) :
    exec (.mts index ra) s = execMts index ra s := rfl

@[simp] theorem exec_rdfeat (rd : Fin 16) (imm : BitVec 12) (s : State) :
    exec (.rdfeat rd imm) s = execRdfeat rd imm s := rfl

@[simp] theorem exec_wait (s : State) :
    exec (.wait) s = execWait s := rfl

@[simp] theorem exec_waitWake (s : State) :
    exec (.waitWake) s = execWaitWake s := rfl

@[simp] theorem exec_fence (s : State) :
    exec (.fence) s = execFence s := rfl

@[simp] theorem exec_gate (imm : BitVec 12) (s : State) :
    exec (.gate imm) s = execGate imm s := rfl

@[simp] theorem exec_gret (imm : BitVec 12) (s : State) :
    exec (.gret imm) s = execGret imm s := rfl

@[simp] theorem exec_undefinedInstruction (word : Word) (s : State) :
    exec (.undefinedInstruction word) s = execUndefinedInstruction word s := rfl

@[simp] theorem exec_interruptEntry (s : State) :
    exec (.interruptEntry) s = execInterruptEntry s := rfl

@[simp] theorem exec_lockstepMismatch (groups : BitVec 5) (found : Mismatch) (s : State) :
    exec (.lockstepMismatch groups found) s = execLockstepMismatch groups found s := rfl

@[simp] theorem exec_lockstepTestInject (rom : Bool) (ring : Fin 4) (value : Word) (s : State) :
    exec (.lockstepTestInject rom ring value) s = execLockstepTestInject rom ring value s := rfl

@[simp] theorem exec_romDisable (ring : Fin 4) (s : State) :
    exec (.romDisable ring) s = execRomDisable ring s := rfl

@[simp] theorem exec_gteSelLoad (value : BitVec 32) (s : State) :
    exec (.gteSelLoad value) s = execGteSelLoad value s := rfl

@[simp] theorem exec_gteCommit (value : BitVec 32) (s : State) :
    exec (.gteCommit value) s = execGteCommit value s := rfl

@[simp] theorem exec_gteDpageWrite (page : Fin 256) (value : BitVec 32) (s : State) :
    exec (.gteDpageWrite page value) s = execGteDpageWrite page value s := rfl

@[simp] theorem exec_tagRetagStart (value : BitVec 32) (s : State) :
    exec (.tagRetagStart value) s = execTagRetagStart value s := rfl

@[simp] theorem exec_tagRetagDone (s : State) :
    exec (.tagRetagDone) s = execTagRetagDone s := rfl

@[simp] theorem exec_gteVioPop (s : State) :
    exec (.gteVioPop) s = execGteVioPop s := rfl

@[simp] theorem exec_digGoOpen (s : State) :
    exec (.digGoOpen) s = execDigGoOpen s := rfl

@[simp] theorem exec_digGoFeed (s : State) :
    exec (.digGoFeed) s = execDigGoFeed s := rfl

@[simp] theorem exec_digGoAbort (s : State) :
    exec (.digGoAbort) s = execDigGoAbort s := rfl

@[simp] theorem exec_digGoExport (s : State) :
    exec (.digGoExport) s = execDigGoExport s := rfl

@[simp] theorem exec_digGoImport (host : Bytes) (s : State) :
    exec (.digGoImport host) s = execDigGoImport host s := rfl

@[simp] theorem exec_digestFeedDone (host : Bytes) (r : EngineResult) (s : State) :
    exec (.digestFeedDone host r) s = execDigestFeedDone host r s := rfl

@[simp] theorem exec_flashWindowRead (span : FlashSpan) (ecc : FlashEcc) (dt : BitVec 32) (s : State) :
    exec (.flashWindowRead span ecc dt) s = execFlashWindowRead span ecc dt s := rfl

@[simp] theorem exec_mrExtendStart (ring : Fin 4) (value : Word) (s : State) :
    exec (.mrExtendStart ring value) s = execMrExtendStart ring value s := rfl

@[simp] theorem exec_mrExtendDone (s : State) :
    exec (.mrExtendDone) s = execMrExtendDone s := rfl

@[simp] theorem exec_mrValueSnapshot (s : State) :
    exec (.mrValueSnapshot) s = execMrValueSnapshot s := rfl

@[simp] theorem exec_cphJobStart (ring : Fin 4) (s : State) :
    exec (.cphJobStart ring) s = execCphJobStart ring s := rfl

@[simp] theorem exec_cphJobDone (host : Bytes) (r : EngineResult) (s : State) :
    exec (.cphJobDone host r) s = execCphJobDone host r s := rfl

@[simp] theorem exec_cphWkeyWrite (share : Bool) (word : Fin 8) (value : Word) (s : State) :
    exec (.cphWkeyWrite share word value) s = execCphWkeyWrite share word value s := rfl

@[simp] theorem exec_cphWkeyClear (s : State) :
    exec (.cphWkeyClear) s = execCphWkeyClear s := rfl

@[simp] theorem exec_getDigestSessions (c : HostCmd) (s : State) :
    exec (.getDigestSessions c) s = execGetDigestSessions c s := rfl

@[simp] theorem exec_digest (c : HostCmd) (alg : Fin 3) (addr len : BitVec 64) (handle : Option (BitVec 32)) (expect : Option Bytes) (s : State) :
    exec (.digest c alg addr len handle expect) s = execDigest c alg addr len handle expect s := rfl

@[simp] theorem exec_digestOpen (c : HostCmd) (alg : Fin 3) (total : BitVec 64) (handle : Option (BitVec 32)) (s : State) :
    exec (.digestOpen c alg total handle) s = execDigestOpen c alg total handle s := rfl

@[simp] theorem exec_digestFeed (c : HostCmd) (session : BitVec 16) (addr : BitVec 64) (len : BitVec 32) (expect : Option Bytes) (s : State) :
    exec (.digestFeed c session addr len expect) s = execDigestFeed c session addr len expect s := rfl

@[simp] theorem exec_digestExport (c : HostCmd) (session : BitVec 16) (s : State) :
    exec (.digestExport c session) s = execDigestExport c session s := rfl

@[simp] theorem exec_digestImport (c : HostCmd) (blob : Bytes) (s : State) :
    exec (.digestImport c blob) s = execDigestImport c blob s := rfl

@[simp] theorem exec_digestClose (c : HostCmd) (session : BitVec 16) (s : State) :
    exec (.digestClose c session) s = execDigestClose c session s := rfl

@[simp] theorem exec_cmac (c : HostCmd) (handle : BitVec 32) (addr : BitVec 64) (len : BitVec 32) (expect : Option Bytes) (s : State) :
    exec (.cmac c handle addr len expect) s = execCmac c handle addr len expect s := rfl

@[simp] theorem exec_noiseBlock (source : Fin 3) (block : BitVec 1024) (dt : BitVec 32) (s : State) :
    exec (.noiseBlock source block dt) s = execNoiseBlock source block dt s := rfl

@[simp] theorem exec_sourceRestart (source : Fin 3) (dt : BitVec 32) (s : State) :
    exec (.sourceRestart source dt) s = execSourceRestart source dt s := rfl

@[simp] theorem exec_drbgScheduledReseed (dt : BitVec 32) (s : State) :
    exec (.drbgScheduledReseed dt) s = execDrbgScheduledReseed dt s := rfl

@[simp] theorem exec_drbgReseed (s : State) :
    exec (.drbgReseed) s = execDrbgReseed s := rfl

@[simp] theorem exec_drbgReseedTimeout (dt : BitVec 32) (s : State) :
    exec (.drbgReseedTimeout dt) s = execDrbgReseedTimeout dt s := rfl

@[simp] theorem exec_clusterDrbgReseed (cluster : Fin 64) (requests : BitVec 21) (s : State) :
    exec (.clusterDrbgReseed cluster requests) s = execClusterDrbgReseed cluster requests s := rfl

@[simp] theorem exec_rngDataRead (ring : Fin 4) (refill : Fin 65) (s : State) :
    exec (.rngDataRead ring refill) s = execRngDataRead ring refill s := rfl

@[simp] theorem exec_rngReseedWrite (ring : Fin 4) (value : Word) (s : State) :
    exec (.rngReseedWrite ring value) s = execRngReseedWrite ring value s := rfl

@[simp] theorem exec_portStarved (dt : BitVec 32) (s : State) :
    exec (.portStarved dt) s = execPortStarved dt s := rfl

@[simp] theorem exec_drbgReinstantiate (s : State) :
    exec (.drbgReinstantiate) s = execDrbgReinstantiate s := rfl

@[simp] theorem exec_calibrationPassDone (h0 h1 h2 : BitVec 16) (thermal : Bytes) (dt : BitVec 64) (s : State) :
    exec (.calibrationPassDone h0 h1 h2 thermal dt) s = execCalibrationPassDone h0 h1 h2 thermal dt s := rfl

@[simp] theorem exec_getRandom (c : HostCmd) (len : BitVec 32) (extra : Bytes) (predict : Bool) (s : State) :
    exec (.getRandom c len extra predict) s = execGetRandom c len extra predict s := rfl

@[simp] theorem exec_reseed (c : HostCmd) (extra : Bytes) (s : State) :
    exec (.reseed c extra) s = execReseed c extra s := rfl

@[simp] theorem exec_calibrate (c : HostCmd) (s : State) :
    exec (.calibrate c) s = execCalibrate c s := rfl

@[simp] theorem exec_pkeStart (unit : Fin 8) (s : State) :
    exec (.pkeStart unit) s = execPkeStart unit s := rfl

@[simp] theorem exec_pkeAbort (unit : Fin 8) (s : State) :
    exec (.pkeAbort unit) s = execPkeAbort unit s := rfl

@[simp] theorem exec_pkeOperationDone (unit : Fin 8) (host : Bytes) (r : PkeResult) (s : State) :
    exec (.pkeOperationDone unit host r) s = execPkeOperationDone unit host r s := rfl

@[simp] theorem exec_pkeClearDone (unit : Fin 8) (s : State) :
    exec (.pkeClearDone unit) s = execPkeClearDone unit s := rfl

@[simp] theorem exec_pkeLayoutWrite (unit : Fin 8) (ring : Fin 4) (value : Word) (s : State) :
    exec (.pkeLayoutWrite unit ring value) s = execPkeLayoutWrite unit ring value s := rfl

@[simp] theorem exec_verifyBatchStart (tile : Fin 4) (s : State) :
    exec (.verifyBatchStart tile) s = execVerifyBatchStart tile s := rfl

@[simp] theorem exec_verifyBatchDone (unit : TileUnitId) (s : State) :
    exec (.verifyBatchDone unit) s = execVerifyBatchDone unit s := rfl

@[simp] theorem exec_pkeKatWindow (unit : Fin 76) (pass : Bool) (s : State) :
    exec (.pkeKatWindow unit pass) s = execPkeKatWindow unit pass s := rfl

@[simp] theorem exec_pkeSpareTakeover (unit : Fin 64) (s : State) :
    exec (.pkeSpareTakeover unit) s = execPkeSpareTakeover unit s := rfl

@[simp] theorem exec_getPkeStatus (c : HostCmd) (s : State) :
    exec (.getPkeStatus c) s = execGetPkeStatus c s := rfl

@[simp] theorem exec_keypair (c : HostCmd) (s : State) :
    exec (.keypair c) s = execKeypair c s := rfl

@[simp] theorem exec_sign (c : HostCmd) (s : State) :
    exec (.sign c) s = execSign c s := rfl

@[simp] theorem exec_verify (c : HostCmd) (s : State) :
    exec (.verify c) s = execVerify c s := rfl

@[simp] theorem exec_shared (c : HostCmd) (s : State) :
    exec (.shared c) s = execShared c s := rfl

@[simp] theorem exec_encaps (c : HostCmd) (s : State) :
    exec (.encaps c) s = execEncaps c s := rfl

@[simp] theorem exec_decaps (c : HostCmd) (s : State) :
    exec (.decaps c) s = execDecaps c s := rfl

@[simp] theorem exec_rsaPublic (c : HostCmd) (s : State) :
    exec (.rsaPublic c) s = execRsaPublic c s := rfl

@[simp] theorem exec_rsaPrivate (c : HostCmd) (s : State) :
    exec (.rsaPrivate c) s = execRsaPrivate c s := rfl

@[simp] theorem exec_modexp (c : HostCmd) (s : State) :
    exec (.modexp c) s = execModexp c s := rfl

@[simp] theorem exec_flashProgram (s : State) :
    exec (.flashProgram) s = execFlashProgram s := rfl

@[simp] theorem exec_flashErase (s : State) :
    exec (.flashErase) s = execFlashErase s := rfl

@[simp] theorem exec_flashSuspend (s : State) :
    exec (.flashSuspend) s = execFlashSuspend s := rfl

@[simp] theorem exec_flashResume (s : State) :
    exec (.flashResume) s = execFlashResume s := rfl

@[simp] theorem exec_flashOpDone (fails : List (BitVec 13)) (s : State) :
    exec (.flashOpDone fails) s = execFlashOpDone fails s := rfl

@[simp] theorem exec_flashAutoResume (dt : BitVec 32) (s : State) :
    exec (.flashAutoResume dt) s = execFlashAutoResume dt s := rfl

@[simp] theorem exec_getFlashStatus (c : HostCmd) (s : State) :
    exec (.getFlashStatus c) s = execGetFlashStatus c s := rfl

@[simp] theorem exec_getLflashBlocks (c : HostCmd) (first count : BitVec 32) (s : State) :
    exec (.getLflashBlocks c first count) s = execGetLflashBlocks c first count s := rfl

@[simp] theorem exec_eraseSector (c : HostCmd) (first : BitVec 16) (count : BitVec 8) (s : State) :
    exec (.eraseSector c first count) s = execEraseSector c first count s := rfl

@[simp] theorem exec_updGoStart (s : State) :
    exec (.updGoStart) s = execUpdGoStart s := rfl

@[simp] theorem exec_updGoAbort (s : State) :
    exec (.updGoAbort) s = execUpdGoAbort s := rfl

@[simp] theorem exec_updJobDone (host : Bytes) (r : UpdResult) (s : State) :
    exec (.updJobDone host r) s = execUpdJobDone host r s := rfl

@[simp] theorem exec_updBankSetWrite (ring : Fin 4) (value : Word) (s : State) :
    exec (.updBankSetWrite ring value) s = execUpdBankSetWrite ring value s := rfl

@[simp] theorem exec_updArbBlowWrite (ring : Fin 4) (value : Word) (s : State) :
    exec (.updArbBlowWrite ring value) s = execUpdArbBlowWrite ring value s := rfl

@[simp] theorem exec_getImages (c : HostCmd) (s : State) :
    exec (.getImages c) s = execGetImages c s := rfl

@[simp] theorem exec_updateBegin (c : HostCmd) (s : State) :
    exec (.updateBegin c) s = execUpdateBegin c s := rfl

@[simp] theorem exec_updateWrite (c : HostCmd) (kind : Fin 5) (offset : BitVec 32) (data : Bytes) (fail : Bool) (s : State) :
    exec (.updateWrite c kind offset data fail) s = execUpdateWrite c kind offset data fail s := rfl

@[simp] theorem exec_updateCopy (c : HostCmd) (kind : Fin 5) (s : State) :
    exec (.updateCopy c kind) s = execUpdateCopy c kind s := rfl

@[simp] theorem exec_updateEnd (c : HostCmd) (s : State) :
    exec (.updateEnd c) s = execUpdateEnd c s := rfl

@[simp] theorem exec_updateAbort (c : HostCmd) (s : State) :
    exec (.updateAbort c) s = execUpdateAbort c s := rfl

@[simp] theorem exec_activate (c : HostCmd) (tries : BitVec 8) (s : State) :
    exec (.activate c tries) s = execActivate c tries s := rfl

@[simp] theorem exec_confirm (c : HostCmd) (s : State) :
    exec (.confirm c) s = execConfirm c s := rfl

@[simp] theorem exec_getCeremony (c : HostCmd) (s : State) :
    exec (.getCeremony c) s = execGetCeremony c s := rfl

@[simp] theorem exec_getNonce (c : HostCmd) (s : State) :
    exec (.getNonce c) s = execGetNonce c s := rfl

@[simp] theorem exec_getRoster (c : HostCmd) (scope : BitVec 16) (first : BitVec 16) (s : State) :
    exec (.getRoster c scope first) s = execGetRoster c scope first s := rfl

@[simp] theorem exec_getCards (c : HostCmd) (s : State) :
    exec (.getCards c) s = execGetCards c s := rfl

@[simp] theorem exec_openCeremony (c : HostCmd) (journalOk : Bool) (s : State) :
    exec (.openCeremony c journalOk) s = execOpenCeremony c journalOk s := rfl

@[simp] theorem exec_closeCeremony (c : HostCmd) (journalOk : Bool) (s : State) :
    exec (.closeCeremony c journalOk) s = execCloseCeremony c journalOk s := rfl

@[simp] theorem exec_abortCeremony (c : HostCmd) (s : State) :
    exec (.abortCeremony c) s = execAbortCeremony c s := rfl

@[simp] theorem exec_enrolCustodian (c : HostCmd) (slot : BitVec 8) (scope : BitVec 16) (flags : BitVec 8) (s : State) :
    exec (.enrolCustodian c slot scope flags) s = execEnrolCustodian c slot scope flags s := rfl

@[simp] theorem exec_revokeCustodian (c : HostCmd) (number : BitVec 16) (s : State) :
    exec (.revokeCustodian c number) s = execRevokeCustodian c number s := rfl

@[simp] theorem exec_setPolicy (c : HostCmd) (scope : BitVec 16) (m regMin : BitVec 8) (s : State) :
    exec (.setPolicy c scope m regMin) s = execSetPolicy c scope m regMin s := rfl

@[simp] theorem exec_createDomain (c : HostCmd) (domain : BitVec 8) (profile : Fin 3) (count : BitVec 8) (slots : List (Fin 5)) (kcv : Bytes) (s : State) :
    exec (.createDomain c domain profile count slots kcv) s = execCreateDomain c domain profile count slots kcv s := rfl

@[simp] theorem exec_createTenant (c : HostCmd) (tenant : BitVec 16) (domain : BitVec 8) (word : BitVec 32) (m regMin : BitVec 8) (s : State) :
    exec (.createTenant c tenant domain word m regMin) s = execCreateTenant c tenant domain word m regMin s := rfl

@[simp] theorem exec_destroyTenant (c : HostCmd) (tenant : BitVec 16) (s : State) :
    exec (.destroyTenant c tenant) s = execDestroyTenant c tenant s := rfl

@[simp] theorem exec_setOwnerPerm (c : HostCmd) (word : BitVec 32) (s : State) :
    exec (.setOwnerPerm c word) s = execSetOwnerPerm c word s := rfl

@[simp] theorem exec_ceremonyClosed (s : State) :
    exec (.ceremonyClosed) s = execCeremonyClosed s := rfl

@[simp] theorem exec_ceremonyRestored (s : State) :
    exec (.ceremonyRestored) s = execCeremonyRestored s := rfl

@[simp] theorem exec_ceremonyIdleTimeout (s : State) :
    exec (.ceremonyIdleTimeout) s = execCeremonyIdleTimeout s := rfl

@[simp] theorem exec_cardStepWaitTimeout (s : State) :
    exec (.cardStepWaitTimeout) s = execCardStepWaitTimeout s := rfl

@[simp] theorem exec_nonceExpiry (fn : Fin 513) (s : State) :
    exec (.nonceExpiry fn) s = execNonceExpiry fn s := rfl

@[simp] theorem exec_cardInsert (slot : Fin 4) (s : State) :
    exec (.cardInsert slot) s = execCardInsert slot s := rfl

@[simp] theorem exec_cardRemove (slot : Fin 4) (s : State) :
    exec (.cardRemove slot) s = execCardRemove slot s := rfl

@[simp] theorem exec_cardActivate (slot : Fin 4) (value : BitVec 32) (s : State) :
    exec (.cardActivate slot value) s = execCardActivate slot value s := rfl

@[simp] theorem exec_cardDeactivate (slot : Fin 4) (value : BitVec 32) (s : State) :
    exec (.cardDeactivate slot value) s = execCardDeactivate slot value s := rfl

@[simp] theorem exec_atrTimeout (slot : Fin 4) (s : State) :
    exec (.atrTimeout slot) s = execAtrTimeout slot s := rfl

@[simp] theorem exec_cardWaitTimeout (slot : Fin 4) (character : Bool) (s : State) :
    exec (.cardWaitTimeout slot character) s = execCardWaitTimeout slot character s := rfl

@[simp] theorem exec_cardResponse (slot : Fin 5) (sw : BitVec 16) (data : Bytes) (s : State) :
    exec (.cardResponse slot sw data) s = execCardResponse slot sw data s := rfl

@[simp] theorem exec_cardTxWrite (slot : Fin 4) (value : BitVec 32) (s : State) :
    exec (.cardTxWrite slot value) s = execCardTxWrite slot value s := rfl

@[simp] theorem exec_cardRxPop (slot : Fin 4) (s : State) :
    exec (.cardRxPop slot) s = execCardRxPop slot s := rfl

@[simp] theorem exec_cardOvercurrent (slot : Fin 4) (s : State) :
    exec (.cardOvercurrent slot) s = execCardOvercurrent slot s := rfl

@[simp] theorem exec_getSeals (c : HostCmd) (s : State) :
    exec (.getSeals c) s = execGetSeals c s := rfl

@[simp] theorem exec_enrolSeal (c : HostCmd) (num : BitVec 8) (s : State) :
    exec (.enrolSeal c num) s = execEnrolSeal c num s := rfl

@[simp] theorem exec_retireSeal (c : HostCmd) (num : BitVec 8) (s : State) :
    exec (.retireSeal c num) s = execRetireSeal c num s := rfl

@[simp] theorem exec_releaseSealFail (c : HostCmd) (rebase : Bool) (s : State) :
    exec (.releaseSealFail c rebase) s = execReleaseSealFail c rebase s := rfl

@[simp] theorem exec_checkSeals (c : HostCmd) (s : State) :
    exec (.checkSeals c) s = execCheckSeals c s := rfl

@[simp] theorem exec_sealCheckDone (s : State) :
    exec (.sealCheckDone) s = execSealCheckDone s := rfl

@[simp] theorem exec_tagResponse (answer : TagAnswer) (s : State) :
    exec (.tagResponse answer) s = execTagResponse answer s := rfl

@[simp] theorem exec_tokenActivate (typeB : Bool) (s : State) :
    exec (.tokenActivate typeB) s = execTokenActivate typeB s := rfl

@[simp] theorem exec_tokenPresenceCheck (answered : Bool) (s : State) :
    exec (.tokenPresenceCheck answered) s = execTokenPresenceCheck answered s := rfl

@[simp] theorem exec_capacitiveSense (value : BitVec 8) (antennaFault : Bool) (s : State) :
    exec (.capacitiveSense value antennaFault) s = execCapacitiveSense value antennaFault s := rfl

@[simp] theorem exec_nfcPoll (s : State) :
    exec (.nfcPoll) s = execNfcPoll s := rfl

@[simp] theorem exec_nfcPollTimeout (s : State) :
    exec (.nfcPollTimeout) s = execNfcPollTimeout s := rfl

@[simp] theorem exec_tamperDetection (kind : Fin 13) (index : BitVec 8) (s : State) :
    exec (.tamperDetection kind index) s = execTamperDetection kind index s := rfl

@[simp] theorem exec_zeroizationComplete (failing : Fin 5) (s : State) :
    exec (.zeroizationComplete failing) s = execZeroizationComplete failing s := rfl

@[simp] theorem exec_loopWordCompare (net : Fin 20) (word : Word) (s : State) :
    exec (.loopWordCompare net word) s = execLoopWordCompare net word s := rfl

@[simp] theorem exec_keeperLoopBurst (net : Fin 20) (burst : BitVec 64) (s : State) :
    exec (.keeperLoopBurst net burst) s = execKeeperLoopBurst net burst s := rfl

@[simp] theorem exec_serviceWindowEnd (dt : Nat) (levels : BitVec 8) (s : State) :
    exec (.serviceWindowEnd dt levels) s = execServiceWindowEnd dt levels s := rfl

@[simp] theorem exec_keeperEnergyTest (mv : BitVec 16) (s : State) :
    exec (.keeperEnergyTest mv) s = execKeeperEnergyTest mv s := rfl

@[simp] theorem exec_keeperUnpoweredTest (mv : BitVec 16) (s : State) :
    exec (.keeperUnpoweredTest mv) s = execKeeperUnpoweredTest mv s := rfl

@[simp] theorem exec_keeperVoltageChange (mv : BitVec 16) (s : State) :
    exec (.keeperVoltageChange mv) s = execKeeperVoltageChange mv s := rfl

@[simp] theorem exec_thermalSample (tj : Vector (BitVec 17) 4) (sr coldest inlet outlet : BitVec 17) (tach : BitVec 16) (duty : BitVec 7) (s : State) :
    exec (.thermalSample tj sr coldest inlet outlet tach duty) s = execThermalSample tj sr coldest inlet outlet tach duty s := rfl

@[simp] theorem exec_hotHoldEnter (tile : Fin 4) (s : State) :
    exec (.hotHoldEnter tile) s = execHotHoldEnter tile s := rfl

@[simp] theorem exec_hotHoldClear (tile : Fin 4) (s : State) :
    exec (.hotHoldClear tile) s = execHotHoldClear tile s := rfl

@[simp] theorem exec_flowLow (low : Bool) (s : State) :
    exec (.flowLow low) s = execFlowLow low s := rfl

@[simp] theorem exec_pumpFail (s : State) :
    exec (.pumpFail) s = execPumpFail s := rfl

@[simp] theorem exec_leak (s : State) :
    exec (.leak) s = execLeak s := rfl

@[simp] theorem exec_busIntegrityFailure (dt : Nat) (failed : BadBeat) (s : State) :
    exec (.busIntegrityFailure dt failed) s = execBusIntegrityFailure dt failed s := rfl

@[simp] theorem exec_alarmReport (cls : Fin 12) (detail : BitVec 8) (security : Bool) (src transmitter tenant : BitVec 16) (data : Word) (s : State) :
    exec (.alarmReport cls detail security src transmitter tenant data) s = execAlarmReport cls detail security src transmitter tenant data s := rfl

@[simp] theorem exec_alarmRecordClose (dt : Nat) (s : State) :
    exec (.alarmRecordClose dt) s = execAlarmRecordClose dt s := rfl

@[simp] theorem exec_dropSummary (cluster : Fin 64) (s : State) :
    exec (.dropSummary cluster) s = execDropSummary cluster s := rfl

@[simp] theorem exec_tamperLogTransfer (s : State) :
    exec (.tamperLogTransfer) s = execTamperLogTransfer s := rfl

@[simp] theorem exec_tprCommitArm (ring : Fin 4) (value : Word) (matched : BitVec 4) (delays : Vector (BitVec 11) 4) (s : State) :
    exec (.tprCommitArm ring value matched delays) s = execTprCommitArm ring value matched delays s := rfl

@[simp] theorem exec_tprCommitWindow (ring : Fin 4) (value : Word) (s : State) :
    exec (.tprCommitWindow ring value) s = execTprCommitWindow ring value s := rfl

@[simp] theorem exec_tprZeroReq (ring : Fin 4) (value : Word) (s : State) :
    exec (.tprZeroReq ring value) s = execTprZeroReq ring value s := rfl

@[simp] theorem exec_tprLogXfer (ring : Fin 4) (value : Word) (s : State) :
    exec (.tprLogXfer ring value) s = execTprLogXfer ring value s := rfl

@[simp] theorem exec_almHeadPop (ring : Fin 4) (s : State) :
    exec (.almHeadPop ring) s = execAlmHeadPop ring s := rfl

@[simp] theorem exec_almAck (ring : Fin 4) (value : Word) (s : State) :
    exec (.almAck ring value) s = execAlmAck ring value s := rfl

@[simp] theorem exec_getTamper (c : HostCmd) (s : State) :
    exec (.getTamper c) s = execGetTamper c s := rfl

@[simp] theorem exec_readTamperLog (c : HostCmd) (first count : BitVec 8) (s : State) :
    exec (.readTamperLog c first count) s = execReadTamperLog c first count s := rfl

@[simp] theorem exec_getAlarms (c : HostCmd) (s : State) :
    exec (.getAlarms c) s = execGetAlarms c s := rfl

@[simp] theorem exec_getThermal (c : HostCmd) (s : State) :
    exec (.getThermal c) s = execGetThermal c s := rfl

@[simp] theorem exec_getKeeper (c : HostCmd) (s : State) :
    exec (.getKeeper c) s = execGetKeeper c s := rfl

@[simp] theorem exec_zeroize (c : HostCmd) (s : State) :
    exec (.zeroize c) s = execZeroize c s := rfl

@[simp] theorem exec_setTamperCfg (c : HostCmd) (cfg : Word) (s : State) :
    exec (.setTamperCfg c cfg) s = execSetTamperCfg c cfg s := rfl

@[simp] theorem exec_serviceWindow (c : HostCmd) (mask : BitVec 8) (minutes : BitVec 16) (s : State) :
    exec (.serviceWindow c mask minutes) s = execServiceWindow c mask minutes s := rfl

@[simp] theorem exec_closeWindow (c : HostCmd) (levels : BitVec 8) (s : State) :
    exec (.closeWindow c levels) s = execCloseWindow c levels s := rfl

@[simp] theorem exec_setThermal (c : HostCmd) (setpoint warn : BitVec 16) (duty : BitVec 8) (flowK : BitVec 16) (s : State) :
    exec (.setThermal c setpoint warn duty flowK) s = execSetThermal c setpoint warn duty flowK s := rfl

@[simp] theorem exec_ackAlarms (c : HostCmd) (mask : BitVec 16) (s : State) :
    exec (.ackAlarms c mask) s = execAckAlarms c mask s := rfl

@[simp] theorem exec_setKeeper (c : HostCmd) (zthr low vfull : BitVec 16) (s : State) :
    exec (.setKeeper c zthr low vfull) s = execSetKeeper c zthr low vfull s := rfl

@[simp] theorem exec_mirrorLinkUp (lanes : BitVec 8) (s : State) :
    exec (.mirrorLinkUp lanes) s = execMirrorLinkUp lanes s := rfl

@[simp] theorem exec_mirrorLinkDown (s : State) :
    exec (.mirrorLinkDown) s = execMirrorLinkDown s := rfl

@[simp] theorem exec_generationExchange (gens : List (Fin 512 × BitVec 32 × BitVec 64)) (s : State) :
    exec (.generationExchange gens) s = execGenerationExchange gens s := rfl

@[simp] theorem exec_leaseTimer (dt : Nat) (s : State) :
    exec (.leaseTimer dt) s = execLeaseTimer dt s := rfl

@[simp] theorem exec_leaseReceived (dt : Nat) (map : BitVec 512) (expiry : BitVec 64) (s : State) :
    exec (.leaseReceived dt map expiry) s = execLeaseReceived dt map expiry s := rfl

@[simp] theorem exec_leaseExpiry (dt : Nat) (tenant : Fin 512) (s : State) :
    exec (.leaseExpiry dt tenant) s = execLeaseExpiry dt tenant s := rfl

@[simp] theorem exec_takeRequestReceived (dt : Nat) (tenant : Fin 512) (s : State) :
    exec (.takeRequestReceived dt tenant) s = execTakeRequestReceived dt tenant s := rfl

@[simp] theorem exec_takeAckReceived (dt : Nat) (tenant : Fin 512) (cut : BitVec 64) (s : State) :
    exec (.takeAckReceived dt tenant cut) s = execTakeAckReceived dt tenant cut s := rfl

@[simp] theorem exec_takeAckTimeout (dt : Nat) (tenant : Fin 512) (s : State) :
    exec (.takeAckTimeout dt tenant) s = execTakeAckTimeout dt tenant s := rfl

@[simp] theorem exec_handoverCut (dt : Nat) (tenant : Fin 512) (s : State) :
    exec (.handoverCut dt tenant) s = execHandoverCut dt tenant s := rfl

@[simp] theorem exec_finalReceived (dt : Nat) (tenant : Fin 512) (s : State) :
    exec (.finalReceived dt tenant) s = execFinalReceived dt tenant s := rfl

@[simp] theorem exec_rootMessage (tenant : Fin 512) (epoch : BitVec 64) (record : Bytes) (s : State) :
    exec (.rootMessage tenant epoch record) s = execRootMessage tenant epoch record s := rfl

@[simp] theorem exec_rootAck (tenant : Fin 512) (epoch : BitVec 64) (s : State) :
    exec (.rootAck tenant epoch) s = execRootAck tenant epoch s := rfl

@[simp] theorem exec_rootAckTimeout (dt : Nat) (tenant : Fin 512) (epoch : BitVec 64) (s : State) :
    exec (.rootAckTimeout dt tenant epoch) s = execRootAckTimeout dt tenant epoch s := rfl

@[simp] theorem exec_lineMessage (slot : Fin 8388608) (entry : Bytes) (s : State) :
    exec (.lineMessage slot entry) s = execLineMessage slot entry s := rfl

@[simp] theorem exec_pageMessage (tenant : Fin 512) (seq : BitVec 64) (page : Bytes) (s : State) :
    exec (.pageMessage tenant seq page) s = execPageMessage tenant seq page s := rfl

@[simp] theorem exec_configMessage (change : PairConfig) (s : State) :
    exec (.configMessage change) s = execConfigMessage change s := rfl

@[simp] theorem exec_domainMessage (domain : Fin 16) (block : Bytes) (s : State) :
    exec (.domainMessage domain block) s = execDomainMessage domain block s := rfl

@[simp] theorem exec_getPair (c : HostCmd) (s : State) :
    exec (.getPair c) s = execGetPair c s := rfl

@[simp] theorem exec_getCharters (c : HostCmd) (first count : BitVec 16) (s : State) :
    exec (.getCharters c first count) s = execGetCharters c first count s := rfl

@[simp] theorem exec_pairJoin (c : HostCmd) (serial : BitVec 64) (digest : Bytes) (s : State) :
    exec (.pairJoin c serial digest) s = execPairJoin c serial digest s := rfl

@[simp] theorem exec_shareDomain (c : HostCmd) (domain : BitVec 8) (s : State) :
    exec (.shareDomain c domain) s = execShareDomain c domain s := rfl

@[simp] theorem exec_takeCharter (c : HostCmd) (tenant : BitVec 16) (force : Bool) (s : State) :
    exec (.takeCharter c tenant force) s = execTakeCharter c tenant force s := rfl

@[simp] theorem exec_resumeSolo (c : HostCmd) (s : State) :
    exec (.resumeSolo c) s = execResumeSolo c s := rfl

@[simp] theorem exec_setReplication (c : HostCmd) (tenant : BitVec 16) (on : Bool) (s : State) :
    exec (.setReplication c tenant on) s = execSetReplication c tenant on s := rfl

@[simp] theorem exec_pairDissolve (c : HostCmd) (s : State) :
    exec (.pairDissolve c) s = execPairDissolve c s := rfl

@[simp] theorem exec_lendRequest (ring : Fin 4) (value : Word) (s : State) :
    exec (.lendRequest ring value) s = execLendRequest ring value s := rfl

@[simp] theorem exec_lendDone (fail : Bool) (s : State) :
    exec (.lendDone fail) s = execLendDone fail s := rfl

@[simp] theorem exec_getRepair (c : HostCmd) (s : State) :
    exec (.getRepair c) s = execGetRepair c s := rfl

@[simp] theorem exec_getTally (c : HostCmd) (block : BitVec 8) (s : State) :
    exec (.getTally c block) s = execGetTally c block s := rfl

@[simp] theorem exec_retest (c : HostCmd) (kind : BitVec 8) (res : BitVec 16) (pass : Bool) (s : State) :
    exec (.retest c kind res pass) s = execRetest c kind res pass s := rfl

@[simp] theorem exec_disableResource (c : HostCmd) (kind : BitVec 8) (res : BitVec 16) (s : State) :
    exec (.disableResource c kind res) s = execDisableResource c kind res s := rfl

@[simp] theorem exec_resetPort (c : HostCmd) (port : BitVec 16) (s : State) :
    exec (.resetPort c port) s = execResetPort c port s := rfl

@[simp] theorem exec_setTally (c : HostCmd) (block counter : BitVec 8) (event : BitVec 16) (selector : BitVec 8) (chain : Bool) (s : State) :
    exec (.setTally c block counter event selector chain) s = execSetTally c block counter event selector chain s := rfl

@[simp] theorem exec_clearTally (c : HostCmd) (block : BitVec 8) (mask : BitVec 16) (s : State) :
    exec (.clearTally c block mask) s = execClearTally c block mask s := rfl

@[simp] theorem exec_tallyRun (ring : Fin 4) (s : State) :
    exec (.tallyRun ring) s = execTallyRun ring s := rfl

@[simp] theorem exec_tallyStop (ring : Fin 4) (s : State) :
    exec (.tallyStop ring) s = execTallyStop ring s := rfl

@[simp] theorem exec_tallyGctlApply (dt : BitVec 32) (s : State) :
    exec (.tallyGctlApply dt) s = execTallyGctlApply dt s := rfl

@[simp] theorem exec_tallyClear (ring : Fin 4) (block : Fin 65) (mask : BitVec 16) (s : State) :
    exec (.tallyClear ring block mask) s = execTallyClear ring block mask s := rfl

@[simp] theorem exec_tallyCounterRead (block : Fin 65) (counter : Fin 16) (master : BitVec 11) (counted : Word) (s : State) :
    exec (.tallyCounterRead block counter master counted) s = execTallyCounterRead block counter master counted s := rfl

@[simp] theorem exec_pmbusPoll (silent : BitVec 4) (vout iout : Vector (BitVec 16) 4) (s : State) :
    exec (.pmbusPoll silent vout iout) s = execPmbusPoll silent vout iout s := rfl

@[simp] theorem exec_smbAlertResponse (s : State) :
    exec (.smbAlertResponse) s = execSmbAlertResponse s := rfl

@[simp] theorem exec_smbReadSysMode (pec : Bool) (s : State) :
    exec (.smbReadSysMode pec) s = execSmbReadSysMode pec s := rfl

@[simp] theorem exec_smbReadSysStatus (pec : Bool) (s : State) :
    exec (.smbReadSysStatus pec) s = execSmbReadSysStatus pec s := rfl

@[simp] theorem exec_smbReadSysHold (pec : Bool) (s : State) :
    exec (.smbReadSysHold pec) s = execSmbReadSysHold pec s := rfl

@[simp] theorem exec_smbReadSysBootStage (pec : Bool) (s : State) :
    exec (.smbReadSysBootStage pec) s = execSmbReadSysBootStage pec s := rfl

@[simp] theorem exec_smbReadSysResetCause (pec : Bool) (s : State) :
    exec (.smbReadSysResetCause pec) s = execSmbReadSysResetCause pec s := rfl

@[simp] theorem exec_smbReadTprStatus (pec : Bool) (s : State) :
    exec (.smbReadTprStatus pec) s = execSmbReadTprStatus pec s := rfl

@[simp] theorem exec_smbReadThmStatus (pec : Bool) (s : State) :
    exec (.smbReadThmStatus pec) s = execSmbReadThmStatus pec s := rfl

@[simp] theorem exec_smbReadHottestTile (pec : Bool) (s : State) :
    exec (.smbReadHottestTile pec) s = execSmbReadHottestTile pec s := rfl

@[simp] theorem exec_smbReadThmTjSr (pec : Bool) (s : State) :
    exec (.smbReadThmTjSr pec) s = execSmbReadThmTjSr pec s := rfl

@[simp] theorem exec_smbReadThmInlet (pec : Bool) (s : State) :
    exec (.smbReadThmInlet pec) s = execSmbReadThmInlet pec s := rfl

@[simp] theorem exec_smbReadThmFlow (pec : Bool) (s : State) :
    exec (.smbReadThmFlow pec) s = execSmbReadThmFlow pec s := rfl

@[simp] theorem exec_smbReadThmKeepV (pec : Bool) (s : State) :
    exec (.smbReadThmKeepV pec) s = execSmbReadThmKeepV pec s := rfl

@[simp] theorem exec_smbReadTimStatus (pec : Bool) (s : State) :
    exec (.smbReadTimStatus pec) s = execSmbReadTimStatus pec s := rfl

@[simp] theorem exec_smbReadAlmStatus (pec : Bool) (s : State) :
    exec (.smbReadAlmStatus pec) s = execSmbReadAlmStatus pec s := rfl

@[simp] theorem exec_smbReadSysSerialLo (pec : Bool) (s : State) :
    exec (.smbReadSysSerialLo pec) s = execSmbReadSysSerialLo pec s := rfl

@[simp] theorem exec_smbReadSysSerialHi (pec : Bool) (s : State) :
    exec (.smbReadSysSerialHi pec) s = execSmbReadSysSerialHi pec s := rfl

@[simp] theorem exec_smbReadSysOrder (pec : Bool) (s : State) :
    exec (.smbReadSysOrder pec) s = execSmbReadSysOrder pec s := rfl

@[simp] theorem exec_smbReadTileVoltages (pec : Bool) (s : State) :
    exec (.smbReadTileVoltages pec) s = execSmbReadTileVoltages pec s := rfl

@[simp] theorem exec_smbUndefinedCommand (s : State) :
    exec (.smbUndefinedCommand) s = execSmbUndefinedCommand s := rfl

@[simp] theorem exec_tapReset (s : State) :
    exec (.tapReset) s = execTapReset s := rfl

@[simp] theorem exec_extest (sample values : BitVec 81) (s : State) :
    exec (.extest sample values) s = execExtest sample values s := rfl

@[simp] theorem exec_idcode (s : State) :
    exec (.idcode) s = execIdcode s := rfl

@[simp] theorem exec_samplePreload (sample values : BitVec 81) (s : State) :
    exec (.samplePreload sample values) s = execSamplePreload sample values s := rfl

@[simp] theorem exec_clamp (s : State) :
    exec (.clamp) s = execClamp s := rfl

@[simp] theorem exec_highz (s : State) :
    exec (.highz) s = execHighz s := rfl

@[simp] theorem exec_testlock (s : State) :
    exec (.testlock) s = execTestlock s := rfl

@[simp] theorem exec_bypass (s : State) :
    exec (.bypass) s = execBypass s := rfl

@[simp] theorem exec_keeperPowerLoss (s : State) :
    exec (.keeperPowerLoss) s = execKeeperPowerLoss s := rfl

@[simp] theorem exec_perstNDeassert (s : State) :
    exec (.perstNDeassert) s = execPerstNDeassert s := rfl

@[simp] theorem exec_spdmDoeRequest (measure : Option (Fin 16)) (auth : Bool) (ide : Option (Fin 8 × Bool × Bool)) (s : State) :
    exec (.spdmDoeRequest measure auth ide) s = execSpdmDoeRequest measure auth ide s := rfl

@[simp] theorem exec_verdictTokenRefill (port : Fin 512) (n : Nat) (s : State) :
    exec (.verdictTokenRefill port n) s = execVerdictTokenRefill port n s := rfl

@[simp] theorem exec_fabricAcknowledgement (src : Fin 4) (dst : Fin 512) (s : State) :
    exec (.fabricAcknowledgement src dst) s = execFabricAcknowledgement src dst s := rfl

@[simp] theorem exec_eraseSuspendPoint (dt : BitVec 32) (s : State) :
    exec (.eraseSuspendPoint dt) s = execEraseSuspendPoint dt s := rfl

@[simp] theorem exec_lflashReadDone (read : BlockRead) (corrected : Nat) (ok : Bool) (s : State) :
    exec (.lflashReadDone read corrected ok) s = execLflashReadDone read corrected ok s := rfl

@[simp] theorem exec_storeAcknowledgement (gate : Fin 33) (env : BusEnv) (s : State) :
    exec (.storeAcknowledgement gate env) s = execStoreAcknowledgement gate env s := rfl

@[simp] theorem exec_custodyLinkRetrained (tile : Fin 4) (s : State) :
    exec (.custodyLinkRetrained tile) s = execCustodyLinkRetrained tile s := rfl

@[simp] theorem exec_cardAtrReceived (slot : Fin 4) (atr : Bytes) (s : State) :
    exec (.cardAtrReceived slot atr) s = execCardAtrReceived slot atr s := rfl

@[simp] theorem exec_cardPpsResponse (slot : Fin 4) (response : Bytes) (s : State) :
    exec (.cardPpsResponse slot response) s = execCardPpsResponse slot response s := rfl

@[simp] theorem exec_cardParityError (slot : Fin 4) (same : Bool) (s : State) :
    exec (.cardParityError slot same) s = execCardParityError slot same s := rfl

@[simp] theorem exec_tokenFrameWaitTimeout (s : State) :
    exec (.tokenFrameWaitTimeout) s = execTokenFrameWaitTimeout s := rfl

@[simp] theorem exec_leakClear (s : State) :
    exec (.leakClear) s = execLeakClear s := rfl

@[simp] theorem exec_takingGuardEnd (dt : Nat) (tenant : Fin 512) (s : State) :
    exec (.takingGuardEnd dt tenant) s = execTakingGuardEnd dt tenant s := rfl

@[simp] theorem exec_pairHandshakeReceived (msg : PairShake) (s : State) :
    exec (.pairHandshakeReceived msg) s = execPairHandshakeReceived msg s := rfl

@[simp] theorem exec_lockstepMismatchAgeout (dt : Nat) (s : State) :
    exec (.lockstepMismatchAgeout dt) s = execLockstepMismatchAgeout dt s := rfl

end Sys2Proof.Machine
end

