-- ==== Sys2Proof/Laws/Tab.lean ====
section
/-! SUPPORT. What reading a sparse table gives after each write, and that every write keeps the canonical form. -/

namespace Sys2Proof.Machine

variable {α : Type}

@[simp] theorem tget_nil (d : Nat → α) (k : Nat) : tget d [] k = d k := rfl

theorem tget_tdel_same (d : Nat → α) (t : Tab α) (k : Nat) : tget d (tdel t k) k = d k := by
  induction t with
  | nil => rfl
  | cons p r ih =>
    by_cases h : p.1 = k
    · simpa [tdel, h] using ih
    · obtain ⟨k', v⟩ := p
      have h' : ¬ k = k' := fun e => h e.symm
      simpa [tdel, h, tget, h'] using ih

theorem tget_tdel_ne (d : Nat → α) (t : Tab α) (k j : Nat) (h : j ≠ k) : tget d (tdel t k) j = tget d t j := by
  induction t with
  | nil => rfl
  | cons p r ih =>
    obtain ⟨k', v⟩ := p
    by_cases hk : k' = k
    · have : ¬ j = k' := fun e => h (e.trans hk)
      simpa [tdel, hk, tget, h] using ih
    · by_cases hj : j = k' <;> simp_all [tdel, tget]

theorem tget_tins_same (d : Nat → α) (t : Tab α) (k : Nat) (v : α) (h : ∀ p ∈ t, p.1 ≠ k) : tget d (tins k v t) k = v := by
  induction t with
  | nil => simp [tins, tget]
  | cons p r ih =>
    obtain ⟨k', w⟩ := p
    have h1 : k' ≠ k := h (k', w) (by simp)
    have h2 : ¬ k = k' := fun e => h1 e.symm
    by_cases hk : k < k'
    · simp [tins, hk, tget]
    · simp only [tins, hk, if_false, tget, h2]
      exact ih (fun p hp => h p (by simp [hp]))

theorem tget_tins_ne (d : Nat → α) (t : Tab α) (k j : Nat) (v : α) (h : j ≠ k) : tget d (tins k v t) j = tget d t j := by
  induction t with
  | nil => simp [tins, tget, h]
  | cons p r ih =>
    obtain ⟨k', w⟩ := p
    by_cases hk : k < k'
    · simp [tins, hk, tget, h]
    · simp only [tins, hk, if_false, tget]
      split <;> simp_all

variable [DecidableEq α]

@[simp] theorem tget_tput_same (d : Nat → α) (t : Tab α) (k : Nat) (v : α) : tget d (tput d t k v) k = v := by
  unfold tput
  split
  · rename_i h; rw [h]; exact tget_tdel_same d t k
  · exact tget_tins_same d _ k v (fun p hp => by simp [tdel] at hp; exact hp.2)

theorem tget_tput_ne (d : Nat → α) (t : Tab α) (k j : Nat) (v : α) (h : j ≠ k) : tget d (tput d t k v) j = tget d t j := by
  unfold tput
  split
  · exact tget_tdel_ne d t k j h
  · rw [tget_tins_ne d _ k j v h]; exact tget_tdel_ne d t k j h

/-- Reading after a write, at any key. -/
theorem tget_tput (d : Nat → α) (t : Tab α) (k j : Nat) (v : α) :
    tget d (tput d t k v) j = if j = k then v else tget d t j := by
  by_cases h : j = k
  · subst h; simp
  · simp [h, tget_tput_ne]

/-- A cleared key reads as its default, every other key as before. -/
theorem tget_tclear (d : Nat → α) (t : Tab α) (p : Nat → Bool) (j : Nat) :
    tget d (tclear t p) j = if p j then d j else tget d t j := by
  induction t with
  | nil => simp [tclear, tget]
  | cons e r ih =>
    obtain ⟨k, v⟩ := e
    unfold tclear at ih
    by_cases hp : p k <;> by_cases hj : j = k <;> simp_all [tclear, tget]

/-! ### The canonical form -/

/-- Every key of a table is at least `n`. -/
theorem twf_tail (d : Nat → α) (p : Nat × α) (r : Tab α) (h : twf d (p :: r) = true) : twf d r = true := by
  cases r with
  | nil => rfl
  | cons q r => simp [twf] at h; exact h.2

theorem twf_above (d : Nat → α) (p : Nat × α) (r : Tab α) (h : twf d (p :: r) = true) : ∀ q ∈ r, p.1 < q.1 := by
  induction r generalizing p with
  | nil => simp
  | cons q r ih =>
    intro x hx
    simp [twf] at h
    rcases List.mem_cons.1 hx with rfl | hx
    · exact h.1.1
    · exact Nat.lt_trans h.1.1 (ih q h.2 x hx)

theorem twf_head (d : Nat → α) (p : Nat × α) (r : Tab α) (h : twf d (p :: r) = true) : p.2 ≠ d p.1 := by
  cases r with
  | nil => simpa [twf] using h
  | cons q r => simp [twf] at h; exact h.1.2

theorem twf_cons (d : Nat → α) (p : Nat × α) (r : Tab α) (hd : p.2 ≠ d p.1) (ha : ∀ q ∈ r, p.1 < q.1) (hr : twf d r = true) :
    twf d (p :: r) = true := by
  cases r with
  | nil => simpa [twf] using hd
  | cons q r => simp [twf, hd, hr, ha q (by simp)]

/-- Removing pairs keeps the canonical form. -/
theorem twf_filter (d : Nat → α) (t : Tab α) (p : Nat × α → Bool) (h : twf d t = true) : twf d (t.filter p) = true := by
  induction t with
  | nil => rfl
  | cons e r ih =>
    have hr := ih (twf_tail d e r h)
    by_cases he : p e
    · simp only [List.filter_cons, he, if_true]
      exact twf_cons d e _ (twf_head d e r h) (fun q hq => twf_above d e r h q (List.mem_filter.1 hq).1) hr
    · simpa [List.filter_cons, he] using hr

theorem twf_tdel (d : Nat → α) (t : Tab α) (k : Nat) (h : twf d t = true) : twf d (tdel t k) = true := twf_filter d t _ h

theorem twf_tclear (d : Nat → α) (t : Tab α) (p : Nat → Bool) (h : twf d t = true) : twf d (tclear t p) = true := twf_filter d t _ h

theorem mem_tins (k : Nat) (v : α) (t : Tab α) (q : Nat × α) (h : q ∈ tins k v t) : q = (k, v) ∨ q ∈ t := by
  induction t with
  | nil => simpa [tins] using h
  | cons p r ih =>
    unfold tins at h
    split at h
    · simpa using h
    · rcases List.mem_cons.1 h with rfl | h
      · simp
      · rcases ih h with h | h <;> simp [h]

theorem twf_tins (d : Nat → α) (t : Tab α) (k : Nat) (v : α) (hv : v ≠ d k) (hk : ∀ p ∈ t, p.1 ≠ k) (h : twf d t = true) :
    twf d (tins k v t) = true := by
  induction t with
  | nil => simpa [tins, twf] using hv
  | cons p r ih =>
    unfold tins
    split
    · rename_i hlt
      refine twf_cons d (k, v) _ hv ?_ h
      intro q hq
      rcases List.mem_cons.1 hq with rfl | hq
      · exact hlt
      · exact Nat.lt_trans hlt (twf_above d p r h q hq)
    · rename_i hge
      have hne := hk p (by simp)
      refine twf_cons d p _ (twf_head d p r h) ?_ (ih (fun q hq => hk q (by simp [hq])) (twf_tail d p r h))
      intro q hq
      rcases mem_tins k v r q hq with rfl | hq
      · show p.1 < k; omega
      · exact twf_above d p r h q hq

/-- A write keeps the canonical form. -/
theorem twf_tput (d : Nat → α) (t : Tab α) (k : Nat) (v : α) (h : twf d t = true) : twf d (tput d t k v) = true := by
  unfold tput
  split
  · exact twf_tdel d t k h
  · rename_i hv
    exact twf_tins d _ k v hv (fun p hp => by simp [tdel] at hp; exact hp.2) (twf_tdel d t k h)

/-- Writing bytes keeps the canonical form of a memory. -/
theorem twf_tputBytes (d : Nat → BitVec 8) (b : Bytes) : ∀ (t : Tab (BitVec 8)) (a : Nat), twf d t = true →
    twf d (tputBytes d t a b) = true := by
  induction b with
  | nil => intro t a h; exact h
  | cons x r ih => intro t a h; exact ih _ _ (twf_tput d t a x h)

/-- Reading a byte after bytes are written from address `a`. -/
theorem tget_tputBytes (d : Nat → BitVec 8) (b : Bytes) : ∀ (t : Tab (BitVec 8)) (a j : Nat), (j < a ∨ a + b.length ≤ j) →
    tget d (tputBytes d t a b) j = tget d t j := by
  induction b with
  | nil => intro t a j _; rfl
  | cons x r ih =>
    intro t a j h
    simp only [List.length_cons] at h
    show tget d (tputBytes d (tput d t a x) (a + 1) r) j = _
    rw [ih _ _ _ (by omega), tget_tput_ne _ _ _ _ _ (by omega)]

end Sys2Proof.Machine
end

