-- ==== Sys2Proof/Laws/State.lean ====
section
/-! SUPPORT. One lemma for each field and each elementary update of the state, and what reading a register or a table gives after a write. -/

namespace Sys2Proof.Machine.State

/-! #### wr -/

@[simp] theorem wr_now (s : State) (a : Nat) (v : Word) : (s.wr a v).now = s.now := rfl
@[simp] theorem wr_free (s : State) (a : Nat) (v : Word) : (s.wr a v).free = s.free := rfl
@[simp] theorem wr_sys (s : State) (a : Nat) (v : Word) : (s.wr a v).sys = s.sys := rfl
@[simp] theorem wr_host (s : State) (a : Nat) (v : Word) : (s.wr a v).host = s.host := rfl
@[simp] theorem wr_dp (s : State) (a : Nat) (v : Word) : (s.wr a v).dp = s.dp := rfl
@[simp] theorem wr_flow (s : State) (a : Nat) (v : Word) : (s.wr a v).flow = s.flow := rfl
@[simp] theorem wr_keys (s : State) (a : Nat) (v : Word) : (s.wr a v).keys = s.keys := rfl
@[simp] theorem wr_ldg (s : State) (a : Nat) (v : Word) : (s.wr a v).ldg = s.ldg := rfl
@[simp] theorem wr_lfs (s : State) (a : Nat) (v : Word) : (s.wr a v).lfs = s.lfs := rfl
@[simp] theorem wr_tim (s : State) (a : Nat) (v : Word) : (s.wr a v).tim = s.tim := rfl
@[simp] theorem wr_cer (s : State) (a : Nat) (v : Word) : (s.wr a v).cer = s.cer := rfl
@[simp] theorem wr_alm (s : State) (a : Nat) (v : Word) : (s.wr a v).alm = s.alm := rfl
@[simp] theorem wr_pair (s : State) (a : Nat) (v : Word) : (s.wr a v).pair = s.pair := rfl
@[simp] theorem wr_mrs (s : State) (a : Nat) (v : Word) : (s.wr a v).mrs = s.mrs := rfl
@[simp] theorem wr_core (s : State) (a : Nat) (v : Word) : (s.wr a v).core = s.core := rfl
@[simp] theorem wr_gte (s : State) (a : Nat) (v : Word) : (s.wr a v).gte = s.gte := rfl
@[simp] theorem wr_fsh (s : State) (a : Nat) (v : Word) : (s.wr a v).fsh = s.fsh := rfl
@[simp] theorem wr_dig (s : State) (a : Nat) (v : Word) : (s.wr a v).dig = s.dig := rfl
@[simp] theorem wr_cph (s : State) (a : Nat) (v : Word) : (s.wr a v).cph = s.cph := rfl
@[simp] theorem wr_rng (s : State) (a : Nat) (v : Word) : (s.wr a v).rng = s.rng := rfl
@[simp] theorem wr_upd (s : State) (a : Nat) (v : Word) : (s.wr a v).upd = s.upd := rfl
@[simp] theorem wr_pke (s : State) (a : Nat) (v : Word) : (s.wr a v).pke = s.pke := rfl
@[simp] theorem wr_rpr (s : State) (a : Nat) (v : Word) : (s.wr a v).rpr = s.rpr := rfl
@[simp] theorem wr_nfr (s : State) (a : Nat) (v : Word) : (s.wr a v).nfr = s.nfr := rfl
@[simp] theorem wr_tpr (s : State) (a : Nat) (v : Word) : (s.wr a v).tpr = s.tpr := rfl
@[simp] theorem wr_conf (s : State) (a : Nat) (v : Word) : (s.wr a v).conf = s.conf := rfl
@[simp] theorem wr_pin (s : State) (a : Nat) (v : Word) : (s.wr a v).pin = s.pin := rfl
@[simp] theorem wr_pending (s : State) (a : Nat) (v : Word) : (s.wr a v).pending = s.pending := rfl

/-! #### wrF -/

@[simp] theorem wrF_now (s : State) (a : Nat) (hi : Nat) (lo : Nat) (v : Nat) : (s.wrF a hi lo v).now = s.now := rfl
@[simp] theorem wrF_free (s : State) (a : Nat) (hi : Nat) (lo : Nat) (v : Nat) : (s.wrF a hi lo v).free = s.free := rfl
@[simp] theorem wrF_sys (s : State) (a : Nat) (hi : Nat) (lo : Nat) (v : Nat) : (s.wrF a hi lo v).sys = s.sys := rfl
@[simp] theorem wrF_host (s : State) (a : Nat) (hi : Nat) (lo : Nat) (v : Nat) : (s.wrF a hi lo v).host = s.host := rfl
@[simp] theorem wrF_dp (s : State) (a : Nat) (hi : Nat) (lo : Nat) (v : Nat) : (s.wrF a hi lo v).dp = s.dp := rfl
@[simp] theorem wrF_flow (s : State) (a : Nat) (hi : Nat) (lo : Nat) (v : Nat) : (s.wrF a hi lo v).flow = s.flow := rfl
@[simp] theorem wrF_keys (s : State) (a : Nat) (hi : Nat) (lo : Nat) (v : Nat) : (s.wrF a hi lo v).keys = s.keys := rfl
@[simp] theorem wrF_ldg (s : State) (a : Nat) (hi : Nat) (lo : Nat) (v : Nat) : (s.wrF a hi lo v).ldg = s.ldg := rfl
@[simp] theorem wrF_lfs (s : State) (a : Nat) (hi : Nat) (lo : Nat) (v : Nat) : (s.wrF a hi lo v).lfs = s.lfs := rfl
@[simp] theorem wrF_tim (s : State) (a : Nat) (hi : Nat) (lo : Nat) (v : Nat) : (s.wrF a hi lo v).tim = s.tim := rfl
@[simp] theorem wrF_cer (s : State) (a : Nat) (hi : Nat) (lo : Nat) (v : Nat) : (s.wrF a hi lo v).cer = s.cer := rfl
@[simp] theorem wrF_alm (s : State) (a : Nat) (hi : Nat) (lo : Nat) (v : Nat) : (s.wrF a hi lo v).alm = s.alm := rfl
@[simp] theorem wrF_pair (s : State) (a : Nat) (hi : Nat) (lo : Nat) (v : Nat) : (s.wrF a hi lo v).pair = s.pair := rfl
@[simp] theorem wrF_mrs (s : State) (a : Nat) (hi : Nat) (lo : Nat) (v : Nat) : (s.wrF a hi lo v).mrs = s.mrs := rfl
@[simp] theorem wrF_core (s : State) (a : Nat) (hi : Nat) (lo : Nat) (v : Nat) : (s.wrF a hi lo v).core = s.core := rfl
@[simp] theorem wrF_gte (s : State) (a : Nat) (hi : Nat) (lo : Nat) (v : Nat) : (s.wrF a hi lo v).gte = s.gte := rfl
@[simp] theorem wrF_fsh (s : State) (a : Nat) (hi : Nat) (lo : Nat) (v : Nat) : (s.wrF a hi lo v).fsh = s.fsh := rfl
@[simp] theorem wrF_dig (s : State) (a : Nat) (hi : Nat) (lo : Nat) (v : Nat) : (s.wrF a hi lo v).dig = s.dig := rfl
@[simp] theorem wrF_cph (s : State) (a : Nat) (hi : Nat) (lo : Nat) (v : Nat) : (s.wrF a hi lo v).cph = s.cph := rfl
@[simp] theorem wrF_rng (s : State) (a : Nat) (hi : Nat) (lo : Nat) (v : Nat) : (s.wrF a hi lo v).rng = s.rng := rfl
@[simp] theorem wrF_upd (s : State) (a : Nat) (hi : Nat) (lo : Nat) (v : Nat) : (s.wrF a hi lo v).upd = s.upd := rfl
@[simp] theorem wrF_pke (s : State) (a : Nat) (hi : Nat) (lo : Nat) (v : Nat) : (s.wrF a hi lo v).pke = s.pke := rfl
@[simp] theorem wrF_rpr (s : State) (a : Nat) (hi : Nat) (lo : Nat) (v : Nat) : (s.wrF a hi lo v).rpr = s.rpr := rfl
@[simp] theorem wrF_nfr (s : State) (a : Nat) (hi : Nat) (lo : Nat) (v : Nat) : (s.wrF a hi lo v).nfr = s.nfr := rfl
@[simp] theorem wrF_tpr (s : State) (a : Nat) (hi : Nat) (lo : Nat) (v : Nat) : (s.wrF a hi lo v).tpr = s.tpr := rfl
@[simp] theorem wrF_conf (s : State) (a : Nat) (hi : Nat) (lo : Nat) (v : Nat) : (s.wrF a hi lo v).conf = s.conf := rfl
@[simp] theorem wrF_pin (s : State) (a : Nat) (hi : Nat) (lo : Nat) (v : Nat) : (s.wrF a hi lo v).pin = s.pin := rfl
@[simp] theorem wrF_pending (s : State) (a : Nat) (hi : Nat) (lo : Nat) (v : Nat) : (s.wrF a hi lo v).pending = s.pending := rfl

/-! #### wrB -/

@[simp] theorem wrB_now (s : State) (a : Nat) (i : Nat) (b : Bool) : (s.wrB a i b).now = s.now := rfl
@[simp] theorem wrB_free (s : State) (a : Nat) (i : Nat) (b : Bool) : (s.wrB a i b).free = s.free := rfl
@[simp] theorem wrB_sys (s : State) (a : Nat) (i : Nat) (b : Bool) : (s.wrB a i b).sys = s.sys := rfl
@[simp] theorem wrB_host (s : State) (a : Nat) (i : Nat) (b : Bool) : (s.wrB a i b).host = s.host := rfl
@[simp] theorem wrB_dp (s : State) (a : Nat) (i : Nat) (b : Bool) : (s.wrB a i b).dp = s.dp := rfl
@[simp] theorem wrB_flow (s : State) (a : Nat) (i : Nat) (b : Bool) : (s.wrB a i b).flow = s.flow := rfl
@[simp] theorem wrB_keys (s : State) (a : Nat) (i : Nat) (b : Bool) : (s.wrB a i b).keys = s.keys := rfl
@[simp] theorem wrB_ldg (s : State) (a : Nat) (i : Nat) (b : Bool) : (s.wrB a i b).ldg = s.ldg := rfl
@[simp] theorem wrB_lfs (s : State) (a : Nat) (i : Nat) (b : Bool) : (s.wrB a i b).lfs = s.lfs := rfl
@[simp] theorem wrB_tim (s : State) (a : Nat) (i : Nat) (b : Bool) : (s.wrB a i b).tim = s.tim := rfl
@[simp] theorem wrB_cer (s : State) (a : Nat) (i : Nat) (b : Bool) : (s.wrB a i b).cer = s.cer := rfl
@[simp] theorem wrB_alm (s : State) (a : Nat) (i : Nat) (b : Bool) : (s.wrB a i b).alm = s.alm := rfl
@[simp] theorem wrB_pair (s : State) (a : Nat) (i : Nat) (b : Bool) : (s.wrB a i b).pair = s.pair := rfl
@[simp] theorem wrB_mrs (s : State) (a : Nat) (i : Nat) (b : Bool) : (s.wrB a i b).mrs = s.mrs := rfl
@[simp] theorem wrB_core (s : State) (a : Nat) (i : Nat) (b : Bool) : (s.wrB a i b).core = s.core := rfl
@[simp] theorem wrB_gte (s : State) (a : Nat) (i : Nat) (b : Bool) : (s.wrB a i b).gte = s.gte := rfl
@[simp] theorem wrB_fsh (s : State) (a : Nat) (i : Nat) (b : Bool) : (s.wrB a i b).fsh = s.fsh := rfl
@[simp] theorem wrB_dig (s : State) (a : Nat) (i : Nat) (b : Bool) : (s.wrB a i b).dig = s.dig := rfl
@[simp] theorem wrB_cph (s : State) (a : Nat) (i : Nat) (b : Bool) : (s.wrB a i b).cph = s.cph := rfl
@[simp] theorem wrB_rng (s : State) (a : Nat) (i : Nat) (b : Bool) : (s.wrB a i b).rng = s.rng := rfl
@[simp] theorem wrB_upd (s : State) (a : Nat) (i : Nat) (b : Bool) : (s.wrB a i b).upd = s.upd := rfl
@[simp] theorem wrB_pke (s : State) (a : Nat) (i : Nat) (b : Bool) : (s.wrB a i b).pke = s.pke := rfl
@[simp] theorem wrB_rpr (s : State) (a : Nat) (i : Nat) (b : Bool) : (s.wrB a i b).rpr = s.rpr := rfl
@[simp] theorem wrB_nfr (s : State) (a : Nat) (i : Nat) (b : Bool) : (s.wrB a i b).nfr = s.nfr := rfl
@[simp] theorem wrB_tpr (s : State) (a : Nat) (i : Nat) (b : Bool) : (s.wrB a i b).tpr = s.tpr := rfl
@[simp] theorem wrB_conf (s : State) (a : Nat) (i : Nat) (b : Bool) : (s.wrB a i b).conf = s.conf := rfl
@[simp] theorem wrB_pin (s : State) (a : Nat) (i : Nat) (b : Bool) : (s.wrB a i b).pin = s.pin := rfl
@[simp] theorem wrB_pending (s : State) (a : Nat) (i : Nat) (b : Bool) : (s.wrB a i b).pending = s.pending := rfl

/-! #### bumpBy -/

@[simp] theorem bumpBy_now (s : State) (a : Nat) (n : Nat) : (s.bumpBy a n).now = s.now := rfl
@[simp] theorem bumpBy_free (s : State) (a : Nat) (n : Nat) : (s.bumpBy a n).free = s.free := rfl
@[simp] theorem bumpBy_sys (s : State) (a : Nat) (n : Nat) : (s.bumpBy a n).sys = s.sys := rfl
@[simp] theorem bumpBy_host (s : State) (a : Nat) (n : Nat) : (s.bumpBy a n).host = s.host := rfl
@[simp] theorem bumpBy_dp (s : State) (a : Nat) (n : Nat) : (s.bumpBy a n).dp = s.dp := rfl
@[simp] theorem bumpBy_flow (s : State) (a : Nat) (n : Nat) : (s.bumpBy a n).flow = s.flow := rfl
@[simp] theorem bumpBy_keys (s : State) (a : Nat) (n : Nat) : (s.bumpBy a n).keys = s.keys := rfl
@[simp] theorem bumpBy_ldg (s : State) (a : Nat) (n : Nat) : (s.bumpBy a n).ldg = s.ldg := rfl
@[simp] theorem bumpBy_lfs (s : State) (a : Nat) (n : Nat) : (s.bumpBy a n).lfs = s.lfs := rfl
@[simp] theorem bumpBy_tim (s : State) (a : Nat) (n : Nat) : (s.bumpBy a n).tim = s.tim := rfl
@[simp] theorem bumpBy_cer (s : State) (a : Nat) (n : Nat) : (s.bumpBy a n).cer = s.cer := rfl
@[simp] theorem bumpBy_alm (s : State) (a : Nat) (n : Nat) : (s.bumpBy a n).alm = s.alm := rfl
@[simp] theorem bumpBy_pair (s : State) (a : Nat) (n : Nat) : (s.bumpBy a n).pair = s.pair := rfl
@[simp] theorem bumpBy_mrs (s : State) (a : Nat) (n : Nat) : (s.bumpBy a n).mrs = s.mrs := rfl
@[simp] theorem bumpBy_core (s : State) (a : Nat) (n : Nat) : (s.bumpBy a n).core = s.core := rfl
@[simp] theorem bumpBy_gte (s : State) (a : Nat) (n : Nat) : (s.bumpBy a n).gte = s.gte := rfl
@[simp] theorem bumpBy_fsh (s : State) (a : Nat) (n : Nat) : (s.bumpBy a n).fsh = s.fsh := rfl
@[simp] theorem bumpBy_dig (s : State) (a : Nat) (n : Nat) : (s.bumpBy a n).dig = s.dig := rfl
@[simp] theorem bumpBy_cph (s : State) (a : Nat) (n : Nat) : (s.bumpBy a n).cph = s.cph := rfl
@[simp] theorem bumpBy_rng (s : State) (a : Nat) (n : Nat) : (s.bumpBy a n).rng = s.rng := rfl
@[simp] theorem bumpBy_upd (s : State) (a : Nat) (n : Nat) : (s.bumpBy a n).upd = s.upd := rfl
@[simp] theorem bumpBy_pke (s : State) (a : Nat) (n : Nat) : (s.bumpBy a n).pke = s.pke := rfl
@[simp] theorem bumpBy_rpr (s : State) (a : Nat) (n : Nat) : (s.bumpBy a n).rpr = s.rpr := rfl
@[simp] theorem bumpBy_nfr (s : State) (a : Nat) (n : Nat) : (s.bumpBy a n).nfr = s.nfr := rfl
@[simp] theorem bumpBy_tpr (s : State) (a : Nat) (n : Nat) : (s.bumpBy a n).tpr = s.tpr := rfl
@[simp] theorem bumpBy_conf (s : State) (a : Nat) (n : Nat) : (s.bumpBy a n).conf = s.conf := rfl
@[simp] theorem bumpBy_pin (s : State) (a : Nat) (n : Nat) : (s.bumpBy a n).pin = s.pin := rfl
@[simp] theorem bumpBy_pending (s : State) (a : Nat) (n : Nat) : (s.bumpBy a n).pending = s.pending := rfl

/-! #### bump -/

@[simp] theorem bump_now (s : State) (a : Nat) : (s.bump a).now = s.now := rfl
@[simp] theorem bump_free (s : State) (a : Nat) : (s.bump a).free = s.free := rfl
@[simp] theorem bump_sys (s : State) (a : Nat) : (s.bump a).sys = s.sys := rfl
@[simp] theorem bump_host (s : State) (a : Nat) : (s.bump a).host = s.host := rfl
@[simp] theorem bump_dp (s : State) (a : Nat) : (s.bump a).dp = s.dp := rfl
@[simp] theorem bump_flow (s : State) (a : Nat) : (s.bump a).flow = s.flow := rfl
@[simp] theorem bump_keys (s : State) (a : Nat) : (s.bump a).keys = s.keys := rfl
@[simp] theorem bump_ldg (s : State) (a : Nat) : (s.bump a).ldg = s.ldg := rfl
@[simp] theorem bump_lfs (s : State) (a : Nat) : (s.bump a).lfs = s.lfs := rfl
@[simp] theorem bump_tim (s : State) (a : Nat) : (s.bump a).tim = s.tim := rfl
@[simp] theorem bump_cer (s : State) (a : Nat) : (s.bump a).cer = s.cer := rfl
@[simp] theorem bump_alm (s : State) (a : Nat) : (s.bump a).alm = s.alm := rfl
@[simp] theorem bump_pair (s : State) (a : Nat) : (s.bump a).pair = s.pair := rfl
@[simp] theorem bump_mrs (s : State) (a : Nat) : (s.bump a).mrs = s.mrs := rfl
@[simp] theorem bump_core (s : State) (a : Nat) : (s.bump a).core = s.core := rfl
@[simp] theorem bump_gte (s : State) (a : Nat) : (s.bump a).gte = s.gte := rfl
@[simp] theorem bump_fsh (s : State) (a : Nat) : (s.bump a).fsh = s.fsh := rfl
@[simp] theorem bump_dig (s : State) (a : Nat) : (s.bump a).dig = s.dig := rfl
@[simp] theorem bump_cph (s : State) (a : Nat) : (s.bump a).cph = s.cph := rfl
@[simp] theorem bump_rng (s : State) (a : Nat) : (s.bump a).rng = s.rng := rfl
@[simp] theorem bump_upd (s : State) (a : Nat) : (s.bump a).upd = s.upd := rfl
@[simp] theorem bump_pke (s : State) (a : Nat) : (s.bump a).pke = s.pke := rfl
@[simp] theorem bump_rpr (s : State) (a : Nat) : (s.bump a).rpr = s.rpr := rfl
@[simp] theorem bump_nfr (s : State) (a : Nat) : (s.bump a).nfr = s.nfr := rfl
@[simp] theorem bump_tpr (s : State) (a : Nat) : (s.bump a).tpr = s.tpr := rfl
@[simp] theorem bump_conf (s : State) (a : Nat) : (s.bump a).conf = s.conf := rfl
@[simp] theorem bump_pin (s : State) (a : Nat) : (s.bump a).pin = s.pin := rfl
@[simp] theorem bump_pending (s : State) (a : Nat) : (s.bump a).pending = s.pending := rfl

/-! #### wr64 -/

@[simp] theorem wr64_now (s : State) (a : Nat) (v : Nat) : (s.wr64 a v).now = s.now := rfl
@[simp] theorem wr64_free (s : State) (a : Nat) (v : Nat) : (s.wr64 a v).free = s.free := rfl
@[simp] theorem wr64_sys (s : State) (a : Nat) (v : Nat) : (s.wr64 a v).sys = s.sys := rfl
@[simp] theorem wr64_host (s : State) (a : Nat) (v : Nat) : (s.wr64 a v).host = s.host := rfl
@[simp] theorem wr64_dp (s : State) (a : Nat) (v : Nat) : (s.wr64 a v).dp = s.dp := rfl
@[simp] theorem wr64_flow (s : State) (a : Nat) (v : Nat) : (s.wr64 a v).flow = s.flow := rfl
@[simp] theorem wr64_keys (s : State) (a : Nat) (v : Nat) : (s.wr64 a v).keys = s.keys := rfl
@[simp] theorem wr64_ldg (s : State) (a : Nat) (v : Nat) : (s.wr64 a v).ldg = s.ldg := rfl
@[simp] theorem wr64_lfs (s : State) (a : Nat) (v : Nat) : (s.wr64 a v).lfs = s.lfs := rfl
@[simp] theorem wr64_tim (s : State) (a : Nat) (v : Nat) : (s.wr64 a v).tim = s.tim := rfl
@[simp] theorem wr64_cer (s : State) (a : Nat) (v : Nat) : (s.wr64 a v).cer = s.cer := rfl
@[simp] theorem wr64_alm (s : State) (a : Nat) (v : Nat) : (s.wr64 a v).alm = s.alm := rfl
@[simp] theorem wr64_pair (s : State) (a : Nat) (v : Nat) : (s.wr64 a v).pair = s.pair := rfl
@[simp] theorem wr64_mrs (s : State) (a : Nat) (v : Nat) : (s.wr64 a v).mrs = s.mrs := rfl
@[simp] theorem wr64_core (s : State) (a : Nat) (v : Nat) : (s.wr64 a v).core = s.core := rfl
@[simp] theorem wr64_gte (s : State) (a : Nat) (v : Nat) : (s.wr64 a v).gte = s.gte := rfl
@[simp] theorem wr64_fsh (s : State) (a : Nat) (v : Nat) : (s.wr64 a v).fsh = s.fsh := rfl
@[simp] theorem wr64_dig (s : State) (a : Nat) (v : Nat) : (s.wr64 a v).dig = s.dig := rfl
@[simp] theorem wr64_cph (s : State) (a : Nat) (v : Nat) : (s.wr64 a v).cph = s.cph := rfl
@[simp] theorem wr64_rng (s : State) (a : Nat) (v : Nat) : (s.wr64 a v).rng = s.rng := rfl
@[simp] theorem wr64_upd (s : State) (a : Nat) (v : Nat) : (s.wr64 a v).upd = s.upd := rfl
@[simp] theorem wr64_pke (s : State) (a : Nat) (v : Nat) : (s.wr64 a v).pke = s.pke := rfl
@[simp] theorem wr64_rpr (s : State) (a : Nat) (v : Nat) : (s.wr64 a v).rpr = s.rpr := rfl
@[simp] theorem wr64_nfr (s : State) (a : Nat) (v : Nat) : (s.wr64 a v).nfr = s.nfr := rfl
@[simp] theorem wr64_tpr (s : State) (a : Nat) (v : Nat) : (s.wr64 a v).tpr = s.tpr := rfl
@[simp] theorem wr64_conf (s : State) (a : Nat) (v : Nat) : (s.wr64 a v).conf = s.conf := rfl
@[simp] theorem wr64_pin (s : State) (a : Nat) (v : Nat) : (s.wr64 a v).pin = s.pin := rfl
@[simp] theorem wr64_pending (s : State) (a : Nat) (v : Nat) : (s.wr64 a v).pending = s.pending := rfl

/-! #### bump64By -/

@[simp] theorem bump64By_now (s : State) (a : Nat) (n : Nat) : (s.bump64By a n).now = s.now := rfl
@[simp] theorem bump64By_free (s : State) (a : Nat) (n : Nat) : (s.bump64By a n).free = s.free := rfl
@[simp] theorem bump64By_sys (s : State) (a : Nat) (n : Nat) : (s.bump64By a n).sys = s.sys := rfl
@[simp] theorem bump64By_host (s : State) (a : Nat) (n : Nat) : (s.bump64By a n).host = s.host := rfl
@[simp] theorem bump64By_dp (s : State) (a : Nat) (n : Nat) : (s.bump64By a n).dp = s.dp := rfl
@[simp] theorem bump64By_flow (s : State) (a : Nat) (n : Nat) : (s.bump64By a n).flow = s.flow := rfl
@[simp] theorem bump64By_keys (s : State) (a : Nat) (n : Nat) : (s.bump64By a n).keys = s.keys := rfl
@[simp] theorem bump64By_ldg (s : State) (a : Nat) (n : Nat) : (s.bump64By a n).ldg = s.ldg := rfl
@[simp] theorem bump64By_lfs (s : State) (a : Nat) (n : Nat) : (s.bump64By a n).lfs = s.lfs := rfl
@[simp] theorem bump64By_tim (s : State) (a : Nat) (n : Nat) : (s.bump64By a n).tim = s.tim := rfl
@[simp] theorem bump64By_cer (s : State) (a : Nat) (n : Nat) : (s.bump64By a n).cer = s.cer := rfl
@[simp] theorem bump64By_alm (s : State) (a : Nat) (n : Nat) : (s.bump64By a n).alm = s.alm := rfl
@[simp] theorem bump64By_pair (s : State) (a : Nat) (n : Nat) : (s.bump64By a n).pair = s.pair := rfl
@[simp] theorem bump64By_mrs (s : State) (a : Nat) (n : Nat) : (s.bump64By a n).mrs = s.mrs := rfl
@[simp] theorem bump64By_core (s : State) (a : Nat) (n : Nat) : (s.bump64By a n).core = s.core := rfl
@[simp] theorem bump64By_gte (s : State) (a : Nat) (n : Nat) : (s.bump64By a n).gte = s.gte := rfl
@[simp] theorem bump64By_fsh (s : State) (a : Nat) (n : Nat) : (s.bump64By a n).fsh = s.fsh := rfl
@[simp] theorem bump64By_dig (s : State) (a : Nat) (n : Nat) : (s.bump64By a n).dig = s.dig := rfl
@[simp] theorem bump64By_cph (s : State) (a : Nat) (n : Nat) : (s.bump64By a n).cph = s.cph := rfl
@[simp] theorem bump64By_rng (s : State) (a : Nat) (n : Nat) : (s.bump64By a n).rng = s.rng := rfl
@[simp] theorem bump64By_upd (s : State) (a : Nat) (n : Nat) : (s.bump64By a n).upd = s.upd := rfl
@[simp] theorem bump64By_pke (s : State) (a : Nat) (n : Nat) : (s.bump64By a n).pke = s.pke := rfl
@[simp] theorem bump64By_rpr (s : State) (a : Nat) (n : Nat) : (s.bump64By a n).rpr = s.rpr := rfl
@[simp] theorem bump64By_nfr (s : State) (a : Nat) (n : Nat) : (s.bump64By a n).nfr = s.nfr := rfl
@[simp] theorem bump64By_tpr (s : State) (a : Nat) (n : Nat) : (s.bump64By a n).tpr = s.tpr := rfl
@[simp] theorem bump64By_conf (s : State) (a : Nat) (n : Nat) : (s.bump64By a n).conf = s.conf := rfl
@[simp] theorem bump64By_pin (s : State) (a : Nat) (n : Nat) : (s.bump64By a n).pin = s.pin := rfl
@[simp] theorem bump64By_pending (s : State) (a : Nat) (n : Nat) : (s.bump64By a n).pending = s.pending := rfl

/-! #### bump64 -/

@[simp] theorem bump64_now (s : State) (a : Nat) : (s.bump64 a).now = s.now := rfl
@[simp] theorem bump64_free (s : State) (a : Nat) : (s.bump64 a).free = s.free := rfl
@[simp] theorem bump64_sys (s : State) (a : Nat) : (s.bump64 a).sys = s.sys := rfl
@[simp] theorem bump64_host (s : State) (a : Nat) : (s.bump64 a).host = s.host := rfl
@[simp] theorem bump64_dp (s : State) (a : Nat) : (s.bump64 a).dp = s.dp := rfl
@[simp] theorem bump64_flow (s : State) (a : Nat) : (s.bump64 a).flow = s.flow := rfl
@[simp] theorem bump64_keys (s : State) (a : Nat) : (s.bump64 a).keys = s.keys := rfl
@[simp] theorem bump64_ldg (s : State) (a : Nat) : (s.bump64 a).ldg = s.ldg := rfl
@[simp] theorem bump64_lfs (s : State) (a : Nat) : (s.bump64 a).lfs = s.lfs := rfl
@[simp] theorem bump64_tim (s : State) (a : Nat) : (s.bump64 a).tim = s.tim := rfl
@[simp] theorem bump64_cer (s : State) (a : Nat) : (s.bump64 a).cer = s.cer := rfl
@[simp] theorem bump64_alm (s : State) (a : Nat) : (s.bump64 a).alm = s.alm := rfl
@[simp] theorem bump64_pair (s : State) (a : Nat) : (s.bump64 a).pair = s.pair := rfl
@[simp] theorem bump64_mrs (s : State) (a : Nat) : (s.bump64 a).mrs = s.mrs := rfl
@[simp] theorem bump64_core (s : State) (a : Nat) : (s.bump64 a).core = s.core := rfl
@[simp] theorem bump64_gte (s : State) (a : Nat) : (s.bump64 a).gte = s.gte := rfl
@[simp] theorem bump64_fsh (s : State) (a : Nat) : (s.bump64 a).fsh = s.fsh := rfl
@[simp] theorem bump64_dig (s : State) (a : Nat) : (s.bump64 a).dig = s.dig := rfl
@[simp] theorem bump64_cph (s : State) (a : Nat) : (s.bump64 a).cph = s.cph := rfl
@[simp] theorem bump64_rng (s : State) (a : Nat) : (s.bump64 a).rng = s.rng := rfl
@[simp] theorem bump64_upd (s : State) (a : Nat) : (s.bump64 a).upd = s.upd := rfl
@[simp] theorem bump64_pke (s : State) (a : Nat) : (s.bump64 a).pke = s.pke := rfl
@[simp] theorem bump64_rpr (s : State) (a : Nat) : (s.bump64 a).rpr = s.rpr := rfl
@[simp] theorem bump64_nfr (s : State) (a : Nat) : (s.bump64 a).nfr = s.nfr := rfl
@[simp] theorem bump64_tpr (s : State) (a : Nat) : (s.bump64 a).tpr = s.tpr := rfl
@[simp] theorem bump64_conf (s : State) (a : Nat) : (s.bump64 a).conf = s.conf := rfl
@[simp] theorem bump64_pin (s : State) (a : Nat) : (s.bump64 a).pin = s.pin := rfl
@[simp] theorem bump64_pending (s : State) (a : Nat) : (s.bump64 a).pending = s.pending := rfl

/-! #### clearRegs -/

@[simp] theorem clearRegs_now (s : State) (p : Nat → Bool) : (s.clearRegs p).now = s.now := rfl
@[simp] theorem clearRegs_free (s : State) (p : Nat → Bool) : (s.clearRegs p).free = s.free := rfl
@[simp] theorem clearRegs_sys (s : State) (p : Nat → Bool) : (s.clearRegs p).sys = s.sys := rfl
@[simp] theorem clearRegs_host (s : State) (p : Nat → Bool) : (s.clearRegs p).host = s.host := rfl
@[simp] theorem clearRegs_dp (s : State) (p : Nat → Bool) : (s.clearRegs p).dp = s.dp := rfl
@[simp] theorem clearRegs_flow (s : State) (p : Nat → Bool) : (s.clearRegs p).flow = s.flow := rfl
@[simp] theorem clearRegs_keys (s : State) (p : Nat → Bool) : (s.clearRegs p).keys = s.keys := rfl
@[simp] theorem clearRegs_ldg (s : State) (p : Nat → Bool) : (s.clearRegs p).ldg = s.ldg := rfl
@[simp] theorem clearRegs_lfs (s : State) (p : Nat → Bool) : (s.clearRegs p).lfs = s.lfs := rfl
@[simp] theorem clearRegs_tim (s : State) (p : Nat → Bool) : (s.clearRegs p).tim = s.tim := rfl
@[simp] theorem clearRegs_cer (s : State) (p : Nat → Bool) : (s.clearRegs p).cer = s.cer := rfl
@[simp] theorem clearRegs_alm (s : State) (p : Nat → Bool) : (s.clearRegs p).alm = s.alm := rfl
@[simp] theorem clearRegs_pair (s : State) (p : Nat → Bool) : (s.clearRegs p).pair = s.pair := rfl
@[simp] theorem clearRegs_mrs (s : State) (p : Nat → Bool) : (s.clearRegs p).mrs = s.mrs := rfl
@[simp] theorem clearRegs_core (s : State) (p : Nat → Bool) : (s.clearRegs p).core = s.core := rfl
@[simp] theorem clearRegs_gte (s : State) (p : Nat → Bool) : (s.clearRegs p).gte = s.gte := rfl
@[simp] theorem clearRegs_fsh (s : State) (p : Nat → Bool) : (s.clearRegs p).fsh = s.fsh := rfl
@[simp] theorem clearRegs_dig (s : State) (p : Nat → Bool) : (s.clearRegs p).dig = s.dig := rfl
@[simp] theorem clearRegs_cph (s : State) (p : Nat → Bool) : (s.clearRegs p).cph = s.cph := rfl
@[simp] theorem clearRegs_rng (s : State) (p : Nat → Bool) : (s.clearRegs p).rng = s.rng := rfl
@[simp] theorem clearRegs_upd (s : State) (p : Nat → Bool) : (s.clearRegs p).upd = s.upd := rfl
@[simp] theorem clearRegs_pke (s : State) (p : Nat → Bool) : (s.clearRegs p).pke = s.pke := rfl
@[simp] theorem clearRegs_rpr (s : State) (p : Nat → Bool) : (s.clearRegs p).rpr = s.rpr := rfl
@[simp] theorem clearRegs_nfr (s : State) (p : Nat → Bool) : (s.clearRegs p).nfr = s.nfr := rfl
@[simp] theorem clearRegs_tpr (s : State) (p : Nat → Bool) : (s.clearRegs p).tpr = s.tpr := rfl
@[simp] theorem clearRegs_conf (s : State) (p : Nat → Bool) : (s.clearRegs p).conf = s.conf := rfl
@[simp] theorem clearRegs_pin (s : State) (p : Nat → Bool) : (s.clearRegs p).pin = s.pin := rfl
@[simp] theorem clearRegs_pending (s : State) (p : Nat → Bool) : (s.clearRegs p).pending = s.pending := rfl

/-! #### drawn -/

@[simp] theorem drawn_regs (s : State) : (s.drawn).regs = s.regs := rfl
@[simp] theorem drawn_now (s : State) : (s.drawn).now = s.now := rfl
@[simp] theorem drawn_sys (s : State) : (s.drawn).sys = s.sys := rfl
@[simp] theorem drawn_host (s : State) : (s.drawn).host = s.host := rfl
@[simp] theorem drawn_dp (s : State) : (s.drawn).dp = s.dp := rfl
@[simp] theorem drawn_flow (s : State) : (s.drawn).flow = s.flow := rfl
@[simp] theorem drawn_keys (s : State) : (s.drawn).keys = s.keys := rfl
@[simp] theorem drawn_ldg (s : State) : (s.drawn).ldg = s.ldg := rfl
@[simp] theorem drawn_lfs (s : State) : (s.drawn).lfs = s.lfs := rfl
@[simp] theorem drawn_tim (s : State) : (s.drawn).tim = s.tim := rfl
@[simp] theorem drawn_cer (s : State) : (s.drawn).cer = s.cer := rfl
@[simp] theorem drawn_alm (s : State) : (s.drawn).alm = s.alm := rfl
@[simp] theorem drawn_pair (s : State) : (s.drawn).pair = s.pair := rfl
@[simp] theorem drawn_mrs (s : State) : (s.drawn).mrs = s.mrs := rfl
@[simp] theorem drawn_core (s : State) : (s.drawn).core = s.core := rfl
@[simp] theorem drawn_gte (s : State) : (s.drawn).gte = s.gte := rfl
@[simp] theorem drawn_fsh (s : State) : (s.drawn).fsh = s.fsh := rfl
@[simp] theorem drawn_dig (s : State) : (s.drawn).dig = s.dig := rfl
@[simp] theorem drawn_cph (s : State) : (s.drawn).cph = s.cph := rfl
@[simp] theorem drawn_rng (s : State) : (s.drawn).rng = s.rng := rfl
@[simp] theorem drawn_upd (s : State) : (s.drawn).upd = s.upd := rfl
@[simp] theorem drawn_pke (s : State) : (s.drawn).pke = s.pke := rfl
@[simp] theorem drawn_rpr (s : State) : (s.drawn).rpr = s.rpr := rfl
@[simp] theorem drawn_nfr (s : State) : (s.drawn).nfr = s.nfr := rfl
@[simp] theorem drawn_tpr (s : State) : (s.drawn).tpr = s.tpr := rfl
@[simp] theorem drawn_conf (s : State) : (s.drawn).conf = s.conf := rfl
@[simp] theorem drawn_pin (s : State) : (s.drawn).pin = s.pin := rfl
@[simp] theorem drawn_pending (s : State) : (s.drawn).pending = s.pending := rfl
@[simp] theorem drawn_rd (s : State) (x : Nat) : (s.drawn).rd x = s.rd x := rfl
@[simp] theorem drawn_fld (s : State) (x h l : Nat) : (s.drawn).fld x h l = s.fld x h l := rfl
@[simp] theorem drawn_bitOf (s : State) (x i : Nat) : (s.drawn).bitOf x i = s.bitOf x i := rfl
@[simp] theorem drawn_rd64 (s : State) (x : Nat) : (s.drawn).rd64 x = s.rd64 x := rfl

/-! #### drawnBytes -/

@[simp] theorem drawnBytes_regs (s : State) (n : Nat) : (s.drawnBytes n).regs = s.regs := rfl
@[simp] theorem drawnBytes_now (s : State) (n : Nat) : (s.drawnBytes n).now = s.now := rfl
@[simp] theorem drawnBytes_sys (s : State) (n : Nat) : (s.drawnBytes n).sys = s.sys := rfl
@[simp] theorem drawnBytes_host (s : State) (n : Nat) : (s.drawnBytes n).host = s.host := rfl
@[simp] theorem drawnBytes_dp (s : State) (n : Nat) : (s.drawnBytes n).dp = s.dp := rfl
@[simp] theorem drawnBytes_flow (s : State) (n : Nat) : (s.drawnBytes n).flow = s.flow := rfl
@[simp] theorem drawnBytes_keys (s : State) (n : Nat) : (s.drawnBytes n).keys = s.keys := rfl
@[simp] theorem drawnBytes_ldg (s : State) (n : Nat) : (s.drawnBytes n).ldg = s.ldg := rfl
@[simp] theorem drawnBytes_lfs (s : State) (n : Nat) : (s.drawnBytes n).lfs = s.lfs := rfl
@[simp] theorem drawnBytes_tim (s : State) (n : Nat) : (s.drawnBytes n).tim = s.tim := rfl
@[simp] theorem drawnBytes_cer (s : State) (n : Nat) : (s.drawnBytes n).cer = s.cer := rfl
@[simp] theorem drawnBytes_alm (s : State) (n : Nat) : (s.drawnBytes n).alm = s.alm := rfl
@[simp] theorem drawnBytes_pair (s : State) (n : Nat) : (s.drawnBytes n).pair = s.pair := rfl
@[simp] theorem drawnBytes_mrs (s : State) (n : Nat) : (s.drawnBytes n).mrs = s.mrs := rfl
@[simp] theorem drawnBytes_core (s : State) (n : Nat) : (s.drawnBytes n).core = s.core := rfl
@[simp] theorem drawnBytes_gte (s : State) (n : Nat) : (s.drawnBytes n).gte = s.gte := rfl
@[simp] theorem drawnBytes_fsh (s : State) (n : Nat) : (s.drawnBytes n).fsh = s.fsh := rfl
@[simp] theorem drawnBytes_dig (s : State) (n : Nat) : (s.drawnBytes n).dig = s.dig := rfl
@[simp] theorem drawnBytes_cph (s : State) (n : Nat) : (s.drawnBytes n).cph = s.cph := rfl
@[simp] theorem drawnBytes_upd (s : State) (n : Nat) : (s.drawnBytes n).upd = s.upd := rfl
@[simp] theorem drawnBytes_pke (s : State) (n : Nat) : (s.drawnBytes n).pke = s.pke := rfl
@[simp] theorem drawnBytes_rpr (s : State) (n : Nat) : (s.drawnBytes n).rpr = s.rpr := rfl
@[simp] theorem drawnBytes_nfr (s : State) (n : Nat) : (s.drawnBytes n).nfr = s.nfr := rfl
@[simp] theorem drawnBytes_tpr (s : State) (n : Nat) : (s.drawnBytes n).tpr = s.tpr := rfl
@[simp] theorem drawnBytes_conf (s : State) (n : Nat) : (s.drawnBytes n).conf = s.conf := rfl
@[simp] theorem drawnBytes_pin (s : State) (n : Nat) : (s.drawnBytes n).pin = s.pin := rfl
@[simp] theorem drawnBytes_pending (s : State) (n : Nat) : (s.drawnBytes n).pending = s.pending := rfl
@[simp] theorem drawnBytes_rd (s : State) (n : Nat) (x : Nat) : (s.drawnBytes n).rd x = s.rd x := rfl
@[simp] theorem drawnBytes_fld (s : State) (n : Nat) (x h l : Nat) : (s.drawnBytes n).fld x h l = s.fld x h l := rfl
@[simp] theorem drawnBytes_bitOf (s : State) (n : Nat) (x i : Nat) : (s.drawnBytes n).bitOf x i = s.bitOf x i := rfl
@[simp] theorem drawnBytes_rd64 (s : State) (n : Nat) (x : Nat) : (s.drawnBytes n).rd64 x = s.rd64 x := rfl

/-! #### advance -/

@[simp] theorem advance_regs (s : State) (dt : Nat) : (s.advance dt).regs = s.regs := rfl
@[simp] theorem advance_free (s : State) (dt : Nat) : (s.advance dt).free = s.free := rfl
@[simp] theorem advance_sys (s : State) (dt : Nat) : (s.advance dt).sys = s.sys := rfl
@[simp] theorem advance_host (s : State) (dt : Nat) : (s.advance dt).host = s.host := rfl
@[simp] theorem advance_dp (s : State) (dt : Nat) : (s.advance dt).dp = s.dp := rfl
@[simp] theorem advance_flow (s : State) (dt : Nat) : (s.advance dt).flow = s.flow := rfl
@[simp] theorem advance_keys (s : State) (dt : Nat) : (s.advance dt).keys = s.keys := rfl
@[simp] theorem advance_ldg (s : State) (dt : Nat) : (s.advance dt).ldg = s.ldg := rfl
@[simp] theorem advance_lfs (s : State) (dt : Nat) : (s.advance dt).lfs = s.lfs := rfl
@[simp] theorem advance_cer (s : State) (dt : Nat) : (s.advance dt).cer = s.cer := rfl
@[simp] theorem advance_alm (s : State) (dt : Nat) : (s.advance dt).alm = s.alm := rfl
@[simp] theorem advance_pair (s : State) (dt : Nat) : (s.advance dt).pair = s.pair := rfl
@[simp] theorem advance_mrs (s : State) (dt : Nat) : (s.advance dt).mrs = s.mrs := rfl
@[simp] theorem advance_gte (s : State) (dt : Nat) : (s.advance dt).gte = s.gte := rfl
@[simp] theorem advance_fsh (s : State) (dt : Nat) : (s.advance dt).fsh = s.fsh := rfl
@[simp] theorem advance_dig (s : State) (dt : Nat) : (s.advance dt).dig = s.dig := rfl
@[simp] theorem advance_cph (s : State) (dt : Nat) : (s.advance dt).cph = s.cph := rfl
@[simp] theorem advance_rng (s : State) (dt : Nat) : (s.advance dt).rng = s.rng := rfl
@[simp] theorem advance_upd (s : State) (dt : Nat) : (s.advance dt).upd = s.upd := rfl
@[simp] theorem advance_pke (s : State) (dt : Nat) : (s.advance dt).pke = s.pke := rfl
@[simp] theorem advance_rpr (s : State) (dt : Nat) : (s.advance dt).rpr = s.rpr := rfl
@[simp] theorem advance_nfr (s : State) (dt : Nat) : (s.advance dt).nfr = s.nfr := rfl
@[simp] theorem advance_tpr (s : State) (dt : Nat) : (s.advance dt).tpr = s.tpr := rfl
@[simp] theorem advance_conf (s : State) (dt : Nat) : (s.advance dt).conf = s.conf := rfl
@[simp] theorem advance_pin (s : State) (dt : Nat) : (s.advance dt).pin = s.pin := rfl
@[simp] theorem advance_pending (s : State) (dt : Nat) : (s.advance dt).pending = s.pending := rfl
@[simp] theorem advance_rd (s : State) (dt : Nat) (x : Nat) : (s.advance dt).rd x = s.rd x := rfl
@[simp] theorem advance_fld (s : State) (dt : Nat) (x h l : Nat) : (s.advance dt).fld x h l = s.fld x h l := rfl
@[simp] theorem advance_bitOf (s : State) (dt : Nat) (x i : Nat) : (s.advance dt).bitOf x i = s.bitOf x i := rfl
@[simp] theorem advance_rd64 (s : State) (dt : Nat) (x : Nat) : (s.advance dt).rd64 x = s.rd64 x := rfl

/-! #### setPort -/

@[simp] theorem setPort_regs (s : State) (p : Nat) (d : PortDyn) : (s.setPort p d).regs = s.regs := rfl
@[simp] theorem setPort_now (s : State) (p : Nat) (d : PortDyn) : (s.setPort p d).now = s.now := rfl
@[simp] theorem setPort_free (s : State) (p : Nat) (d : PortDyn) : (s.setPort p d).free = s.free := rfl
@[simp] theorem setPort_sys (s : State) (p : Nat) (d : PortDyn) : (s.setPort p d).sys = s.sys := rfl
@[simp] theorem setPort_host (s : State) (p : Nat) (d : PortDyn) : (s.setPort p d).host = s.host := rfl
@[simp] theorem setPort_flow (s : State) (p : Nat) (d : PortDyn) : (s.setPort p d).flow = s.flow := rfl
@[simp] theorem setPort_keys (s : State) (p : Nat) (d : PortDyn) : (s.setPort p d).keys = s.keys := rfl
@[simp] theorem setPort_ldg (s : State) (p : Nat) (d : PortDyn) : (s.setPort p d).ldg = s.ldg := rfl
@[simp] theorem setPort_lfs (s : State) (p : Nat) (d : PortDyn) : (s.setPort p d).lfs = s.lfs := rfl
@[simp] theorem setPort_tim (s : State) (p : Nat) (d : PortDyn) : (s.setPort p d).tim = s.tim := rfl
@[simp] theorem setPort_cer (s : State) (p : Nat) (d : PortDyn) : (s.setPort p d).cer = s.cer := rfl
@[simp] theorem setPort_alm (s : State) (p : Nat) (d : PortDyn) : (s.setPort p d).alm = s.alm := rfl
@[simp] theorem setPort_pair (s : State) (p : Nat) (d : PortDyn) : (s.setPort p d).pair = s.pair := rfl
@[simp] theorem setPort_mrs (s : State) (p : Nat) (d : PortDyn) : (s.setPort p d).mrs = s.mrs := rfl
@[simp] theorem setPort_core (s : State) (p : Nat) (d : PortDyn) : (s.setPort p d).core = s.core := rfl
@[simp] theorem setPort_gte (s : State) (p : Nat) (d : PortDyn) : (s.setPort p d).gte = s.gte := rfl
@[simp] theorem setPort_fsh (s : State) (p : Nat) (d : PortDyn) : (s.setPort p d).fsh = s.fsh := rfl
@[simp] theorem setPort_dig (s : State) (p : Nat) (d : PortDyn) : (s.setPort p d).dig = s.dig := rfl
@[simp] theorem setPort_cph (s : State) (p : Nat) (d : PortDyn) : (s.setPort p d).cph = s.cph := rfl
@[simp] theorem setPort_rng (s : State) (p : Nat) (d : PortDyn) : (s.setPort p d).rng = s.rng := rfl
@[simp] theorem setPort_upd (s : State) (p : Nat) (d : PortDyn) : (s.setPort p d).upd = s.upd := rfl
@[simp] theorem setPort_pke (s : State) (p : Nat) (d : PortDyn) : (s.setPort p d).pke = s.pke := rfl
@[simp] theorem setPort_rpr (s : State) (p : Nat) (d : PortDyn) : (s.setPort p d).rpr = s.rpr := rfl
@[simp] theorem setPort_nfr (s : State) (p : Nat) (d : PortDyn) : (s.setPort p d).nfr = s.nfr := rfl
@[simp] theorem setPort_tpr (s : State) (p : Nat) (d : PortDyn) : (s.setPort p d).tpr = s.tpr := rfl
@[simp] theorem setPort_conf (s : State) (p : Nat) (d : PortDyn) : (s.setPort p d).conf = s.conf := rfl
@[simp] theorem setPort_pin (s : State) (p : Nat) (d : PortDyn) : (s.setPort p d).pin = s.pin := rfl
@[simp] theorem setPort_pending (s : State) (p : Nat) (d : PortDyn) : (s.setPort p d).pending = s.pending := rfl
@[simp] theorem setPort_rd (s : State) (p : Nat) (d : PortDyn) (x : Nat) : (s.setPort p d).rd x = s.rd x := rfl
@[simp] theorem setPort_fld (s : State) (p : Nat) (d : PortDyn) (x h l : Nat) : (s.setPort p d).fld x h l = s.fld x h l := rfl
@[simp] theorem setPort_bitOf (s : State) (p : Nat) (d : PortDyn) (x i : Nat) : (s.setPort p d).bitOf x i = s.bitOf x i := rfl
@[simp] theorem setPort_rd64 (s : State) (p : Nat) (d : PortDyn) (x : Nat) : (s.setPort p d).rd64 x = s.rd64 x := rfl

/-! #### setQueue -/

@[simp] theorem setQueue_regs (s : State) (k : Nat) (q : Queue) : (s.setQueue k q).regs = s.regs := rfl
@[simp] theorem setQueue_now (s : State) (k : Nat) (q : Queue) : (s.setQueue k q).now = s.now := rfl
@[simp] theorem setQueue_free (s : State) (k : Nat) (q : Queue) : (s.setQueue k q).free = s.free := rfl
@[simp] theorem setQueue_sys (s : State) (k : Nat) (q : Queue) : (s.setQueue k q).sys = s.sys := rfl
@[simp] theorem setQueue_dp (s : State) (k : Nat) (q : Queue) : (s.setQueue k q).dp = s.dp := rfl
@[simp] theorem setQueue_flow (s : State) (k : Nat) (q : Queue) : (s.setQueue k q).flow = s.flow := rfl
@[simp] theorem setQueue_keys (s : State) (k : Nat) (q : Queue) : (s.setQueue k q).keys = s.keys := rfl
@[simp] theorem setQueue_ldg (s : State) (k : Nat) (q : Queue) : (s.setQueue k q).ldg = s.ldg := rfl
@[simp] theorem setQueue_lfs (s : State) (k : Nat) (q : Queue) : (s.setQueue k q).lfs = s.lfs := rfl
@[simp] theorem setQueue_tim (s : State) (k : Nat) (q : Queue) : (s.setQueue k q).tim = s.tim := rfl
@[simp] theorem setQueue_cer (s : State) (k : Nat) (q : Queue) : (s.setQueue k q).cer = s.cer := rfl
@[simp] theorem setQueue_alm (s : State) (k : Nat) (q : Queue) : (s.setQueue k q).alm = s.alm := rfl
@[simp] theorem setQueue_pair (s : State) (k : Nat) (q : Queue) : (s.setQueue k q).pair = s.pair := rfl
@[simp] theorem setQueue_mrs (s : State) (k : Nat) (q : Queue) : (s.setQueue k q).mrs = s.mrs := rfl
@[simp] theorem setQueue_core (s : State) (k : Nat) (q : Queue) : (s.setQueue k q).core = s.core := rfl
@[simp] theorem setQueue_gte (s : State) (k : Nat) (q : Queue) : (s.setQueue k q).gte = s.gte := rfl
@[simp] theorem setQueue_fsh (s : State) (k : Nat) (q : Queue) : (s.setQueue k q).fsh = s.fsh := rfl
@[simp] theorem setQueue_dig (s : State) (k : Nat) (q : Queue) : (s.setQueue k q).dig = s.dig := rfl
@[simp] theorem setQueue_cph (s : State) (k : Nat) (q : Queue) : (s.setQueue k q).cph = s.cph := rfl
@[simp] theorem setQueue_rng (s : State) (k : Nat) (q : Queue) : (s.setQueue k q).rng = s.rng := rfl
@[simp] theorem setQueue_upd (s : State) (k : Nat) (q : Queue) : (s.setQueue k q).upd = s.upd := rfl
@[simp] theorem setQueue_pke (s : State) (k : Nat) (q : Queue) : (s.setQueue k q).pke = s.pke := rfl
@[simp] theorem setQueue_rpr (s : State) (k : Nat) (q : Queue) : (s.setQueue k q).rpr = s.rpr := rfl
@[simp] theorem setQueue_nfr (s : State) (k : Nat) (q : Queue) : (s.setQueue k q).nfr = s.nfr := rfl
@[simp] theorem setQueue_tpr (s : State) (k : Nat) (q : Queue) : (s.setQueue k q).tpr = s.tpr := rfl
@[simp] theorem setQueue_conf (s : State) (k : Nat) (q : Queue) : (s.setQueue k q).conf = s.conf := rfl
@[simp] theorem setQueue_pin (s : State) (k : Nat) (q : Queue) : (s.setQueue k q).pin = s.pin := rfl
@[simp] theorem setQueue_pending (s : State) (k : Nat) (q : Queue) : (s.setQueue k q).pending = s.pending := rfl
@[simp] theorem setQueue_rd (s : State) (k : Nat) (q : Queue) (x : Nat) : (s.setQueue k q).rd x = s.rd x := rfl
@[simp] theorem setQueue_fld (s : State) (k : Nat) (q : Queue) (x h l : Nat) : (s.setQueue k q).fld x h l = s.fld x h l := rfl
@[simp] theorem setQueue_bitOf (s : State) (k : Nat) (q : Queue) (x i : Nat) : (s.setQueue k q).bitOf x i = s.bitOf x i := rfl
@[simp] theorem setQueue_rd64 (s : State) (k : Nat) (q : Queue) (x : Nat) : (s.setQueue k q).rd64 x = s.rd64 x := rfl

/-! #### setSlot -/

@[simp] theorem setSlot_regs (s : State) (n : Nat) (v : Slot) : (s.setSlot n v).regs = s.regs := rfl
@[simp] theorem setSlot_now (s : State) (n : Nat) (v : Slot) : (s.setSlot n v).now = s.now := rfl
@[simp] theorem setSlot_free (s : State) (n : Nat) (v : Slot) : (s.setSlot n v).free = s.free := rfl
@[simp] theorem setSlot_sys (s : State) (n : Nat) (v : Slot) : (s.setSlot n v).sys = s.sys := rfl
@[simp] theorem setSlot_host (s : State) (n : Nat) (v : Slot) : (s.setSlot n v).host = s.host := rfl
@[simp] theorem setSlot_dp (s : State) (n : Nat) (v : Slot) : (s.setSlot n v).dp = s.dp := rfl
@[simp] theorem setSlot_flow (s : State) (n : Nat) (v : Slot) : (s.setSlot n v).flow = s.flow := rfl
@[simp] theorem setSlot_ldg (s : State) (n : Nat) (v : Slot) : (s.setSlot n v).ldg = s.ldg := rfl
@[simp] theorem setSlot_lfs (s : State) (n : Nat) (v : Slot) : (s.setSlot n v).lfs = s.lfs := rfl
@[simp] theorem setSlot_tim (s : State) (n : Nat) (v : Slot) : (s.setSlot n v).tim = s.tim := rfl
@[simp] theorem setSlot_cer (s : State) (n : Nat) (v : Slot) : (s.setSlot n v).cer = s.cer := rfl
@[simp] theorem setSlot_alm (s : State) (n : Nat) (v : Slot) : (s.setSlot n v).alm = s.alm := rfl
@[simp] theorem setSlot_pair (s : State) (n : Nat) (v : Slot) : (s.setSlot n v).pair = s.pair := rfl
@[simp] theorem setSlot_mrs (s : State) (n : Nat) (v : Slot) : (s.setSlot n v).mrs = s.mrs := rfl
@[simp] theorem setSlot_core (s : State) (n : Nat) (v : Slot) : (s.setSlot n v).core = s.core := rfl
@[simp] theorem setSlot_gte (s : State) (n : Nat) (v : Slot) : (s.setSlot n v).gte = s.gte := rfl
@[simp] theorem setSlot_fsh (s : State) (n : Nat) (v : Slot) : (s.setSlot n v).fsh = s.fsh := rfl
@[simp] theorem setSlot_dig (s : State) (n : Nat) (v : Slot) : (s.setSlot n v).dig = s.dig := rfl
@[simp] theorem setSlot_cph (s : State) (n : Nat) (v : Slot) : (s.setSlot n v).cph = s.cph := rfl
@[simp] theorem setSlot_rng (s : State) (n : Nat) (v : Slot) : (s.setSlot n v).rng = s.rng := rfl
@[simp] theorem setSlot_upd (s : State) (n : Nat) (v : Slot) : (s.setSlot n v).upd = s.upd := rfl
@[simp] theorem setSlot_pke (s : State) (n : Nat) (v : Slot) : (s.setSlot n v).pke = s.pke := rfl
@[simp] theorem setSlot_rpr (s : State) (n : Nat) (v : Slot) : (s.setSlot n v).rpr = s.rpr := rfl
@[simp] theorem setSlot_nfr (s : State) (n : Nat) (v : Slot) : (s.setSlot n v).nfr = s.nfr := rfl
@[simp] theorem setSlot_tpr (s : State) (n : Nat) (v : Slot) : (s.setSlot n v).tpr = s.tpr := rfl
@[simp] theorem setSlot_conf (s : State) (n : Nat) (v : Slot) : (s.setSlot n v).conf = s.conf := rfl
@[simp] theorem setSlot_pin (s : State) (n : Nat) (v : Slot) : (s.setSlot n v).pin = s.pin := rfl
@[simp] theorem setSlot_pending (s : State) (n : Nat) (v : Slot) : (s.setSlot n v).pending = s.pending := rfl
@[simp] theorem setSlot_rd (s : State) (n : Nat) (v : Slot) (x : Nat) : (s.setSlot n v).rd x = s.rd x := rfl
@[simp] theorem setSlot_fld (s : State) (n : Nat) (v : Slot) (x h l : Nat) : (s.setSlot n v).fld x h l = s.fld x h l := rfl
@[simp] theorem setSlot_bitOf (s : State) (n : Nat) (v : Slot) (x i : Nat) : (s.setSlot n v).bitOf x i = s.bitOf x i := rfl
@[simp] theorem setSlot_rd64 (s : State) (n : Nat) (v : Slot) (x : Nat) : (s.setSlot n v).rd64 x = s.rd64 x := rfl

/-! #### setCharter -/

@[simp] theorem setCharter_regs (s : State) (t : Nat) (c : Charter) : (s.setCharter t c).regs = s.regs := rfl
@[simp] theorem setCharter_now (s : State) (t : Nat) (c : Charter) : (s.setCharter t c).now = s.now := rfl
@[simp] theorem setCharter_free (s : State) (t : Nat) (c : Charter) : (s.setCharter t c).free = s.free := rfl
@[simp] theorem setCharter_sys (s : State) (t : Nat) (c : Charter) : (s.setCharter t c).sys = s.sys := rfl
@[simp] theorem setCharter_host (s : State) (t : Nat) (c : Charter) : (s.setCharter t c).host = s.host := rfl
@[simp] theorem setCharter_dp (s : State) (t : Nat) (c : Charter) : (s.setCharter t c).dp = s.dp := rfl
@[simp] theorem setCharter_flow (s : State) (t : Nat) (c : Charter) : (s.setCharter t c).flow = s.flow := rfl
@[simp] theorem setCharter_keys (s : State) (t : Nat) (c : Charter) : (s.setCharter t c).keys = s.keys := rfl
@[simp] theorem setCharter_ldg (s : State) (t : Nat) (c : Charter) : (s.setCharter t c).ldg = s.ldg := rfl
@[simp] theorem setCharter_lfs (s : State) (t : Nat) (c : Charter) : (s.setCharter t c).lfs = s.lfs := rfl
@[simp] theorem setCharter_tim (s : State) (t : Nat) (c : Charter) : (s.setCharter t c).tim = s.tim := rfl
@[simp] theorem setCharter_cer (s : State) (t : Nat) (c : Charter) : (s.setCharter t c).cer = s.cer := rfl
@[simp] theorem setCharter_alm (s : State) (t : Nat) (c : Charter) : (s.setCharter t c).alm = s.alm := rfl
@[simp] theorem setCharter_mrs (s : State) (t : Nat) (c : Charter) : (s.setCharter t c).mrs = s.mrs := rfl
@[simp] theorem setCharter_core (s : State) (t : Nat) (c : Charter) : (s.setCharter t c).core = s.core := rfl
@[simp] theorem setCharter_gte (s : State) (t : Nat) (c : Charter) : (s.setCharter t c).gte = s.gte := rfl
@[simp] theorem setCharter_fsh (s : State) (t : Nat) (c : Charter) : (s.setCharter t c).fsh = s.fsh := rfl
@[simp] theorem setCharter_dig (s : State) (t : Nat) (c : Charter) : (s.setCharter t c).dig = s.dig := rfl
@[simp] theorem setCharter_cph (s : State) (t : Nat) (c : Charter) : (s.setCharter t c).cph = s.cph := rfl
@[simp] theorem setCharter_rng (s : State) (t : Nat) (c : Charter) : (s.setCharter t c).rng = s.rng := rfl
@[simp] theorem setCharter_upd (s : State) (t : Nat) (c : Charter) : (s.setCharter t c).upd = s.upd := rfl
@[simp] theorem setCharter_pke (s : State) (t : Nat) (c : Charter) : (s.setCharter t c).pke = s.pke := rfl
@[simp] theorem setCharter_rpr (s : State) (t : Nat) (c : Charter) : (s.setCharter t c).rpr = s.rpr := rfl
@[simp] theorem setCharter_nfr (s : State) (t : Nat) (c : Charter) : (s.setCharter t c).nfr = s.nfr := rfl
@[simp] theorem setCharter_tpr (s : State) (t : Nat) (c : Charter) : (s.setCharter t c).tpr = s.tpr := rfl
@[simp] theorem setCharter_conf (s : State) (t : Nat) (c : Charter) : (s.setCharter t c).conf = s.conf := rfl
@[simp] theorem setCharter_pin (s : State) (t : Nat) (c : Charter) : (s.setCharter t c).pin = s.pin := rfl
@[simp] theorem setCharter_pending (s : State) (t : Nat) (c : Charter) : (s.setCharter t c).pending = s.pending := rfl
@[simp] theorem setCharter_rd (s : State) (t : Nat) (c : Charter) (x : Nat) : (s.setCharter t c).rd x = s.rd x := rfl
@[simp] theorem setCharter_fld (s : State) (t : Nat) (c : Charter) (x h l : Nat) : (s.setCharter t c).fld x h l = s.fld x h l := rfl
@[simp] theorem setCharter_bitOf (s : State) (t : Nat) (c : Charter) (x i : Nat) : (s.setCharter t c).bitOf x i = s.bitOf x i := rfl
@[simp] theorem setCharter_rd64 (s : State) (t : Nat) (c : Charter) (x : Nat) : (s.setCharter t c).rd64 x = s.rd64 x := rfl

/-! #### Registers -/

theorem rd_wr (s : State) (a b : Nat) (v : Word) : (s.wr a v).rd b = if b = a then v else s.rd b := tget_tput _ _ _ _ _

@[simp] theorem rd_wr_same (s : State) (a : Nat) (v : Word) : (s.wr a v).rd a = v := tget_tput_same _ _ _ _

@[simp] theorem rd_wr_ne (s : State) (a b : Nat) (v : Word) (h : b ≠ a) : (s.wr a v).rd b = s.rd b := tget_tput_ne _ _ _ _ _ h

@[simp] theorem rd_wrF_ne (s : State) (a b hi lo v : Nat) (h : b ≠ a) : (s.wrF a hi lo v).rd b = s.rd b := rd_wr_ne s a b _ h

@[simp] theorem rd_wrB_ne (s : State) (a b i : Nat) (x : Bool) (h : b ≠ a) : (s.wrB a i x).rd b = s.rd b := rd_wr_ne s a b _ h

@[simp] theorem rd_wrF_same (s : State) (a hi lo v : Nat) : (s.wrF a hi lo v).rd a = setBits (s.rd a) hi lo v := rd_wr_same s a _

@[simp] theorem rd_wrB_same (s : State) (a i : Nat) (x : Bool) : (s.wrB a i x).rd a = setBit (s.rd a) i x := rd_wr_same s a _

@[simp] theorem rd_bumpBy_ne (s : State) (a b n : Nat) (h : b ≠ a) : (s.bumpBy a n).rd b = s.rd b := rd_wr_ne s a b _ h

@[simp] theorem rd_bump_ne (s : State) (a b : Nat) (h : b ≠ a) : (s.bump a).rd b = s.rd b := rd_wr_ne s a b _ h

@[simp] theorem rd_bumpBy_same (s : State) (a n : Nat) :
    (s.bumpBy a n).rd a = BitVec.ofNat 32 (sat 0xFFFFFFFF ((s.rd a).toNat + n)) := rd_wr_same s a _

@[simp] theorem rd_bump_same (s : State) (a : Nat) :
    (s.bump a).rd a = BitVec.ofNat 32 (sat 0xFFFFFFFF ((s.rd a).toNat + 1)) := rd_wr_same s a _

/-- A 64-bit pair changes its two words only. -/
@[simp] theorem rd_bump64By_ne (s : State) (a b n : Nat) (h : b ≠ a) (h' : b ≠ a + 4) : (s.bump64By a n).rd b = s.rd b := by
  simp [bump64By, wr64, h, h']

@[simp] theorem rd_bump64_ne (s : State) (a b : Nat) (h : b ≠ a) (h' : b ≠ a + 4) : (s.bump64 a).rd b = s.rd b :=
  rd_bump64By_ne s a b 1 h h'

theorem rd_clearRegs (s : State) (p : Nat → Bool) (b : Nat) : (s.clearRegs p).rd b = if p b then regDefault b else s.rd b :=
  tget_tclear _ _ _ _

/-! #### Tables -/

@[simp] theorem port_setPort_same (s : State) (p : Nat) (d : PortDyn) : (s.setPort p d).port p = d := tget_tput_same _ _ _ _

@[simp] theorem port_setPort_ne (s : State) (p q : Nat) (d : PortDyn) (h : q ≠ p) : (s.setPort p d).port q = s.port q :=
  tget_tput_ne _ _ _ _ _ h

@[simp] theorem queue_setQueue_same (s : State) (k : Nat) (q : Queue) : (s.setQueue k q).queue k = q := tget_tput_same _ _ _ _

@[simp] theorem queue_setQueue_ne (s : State) (k j : Nat) (q : Queue) (h : j ≠ k) : (s.setQueue k q).queue j = s.queue j :=
  tget_tput_ne _ _ _ _ _ h

@[simp] theorem slot_setSlot_same (s : State) (n : Nat) (v : Slot) : (s.setSlot n v).slot n = v := tget_tput_same _ _ _ _

@[simp] theorem slot_setSlot_ne (s : State) (n j : Nat) (v : Slot) (h : j ≠ n) : (s.setSlot n v).slot j = s.slot j :=
  tget_tput_ne _ _ _ _ _ h

@[simp] theorem charter_setCharter_same (s : State) (t : Nat) (c : Charter) : (s.setCharter t c).charter t = c := tget_tput_same _ _ _ _

@[simp] theorem charter_setCharter_ne (s : State) (t j : Nat) (c : Charter) (h : j ≠ t) : (s.setCharter t c).charter j = s.charter j :=
  tget_tput_ne _ _ _ _ _ h

@[simp] theorem port_wr (s : State) (a : Nat) (v : Word) (p : Nat) : (s.wr a v).port p = s.port p := rfl
@[simp] theorem port_wrF (s : State) (a hi lo v p : Nat) : (s.wrF a hi lo v).port p = s.port p := rfl
@[simp] theorem port_wrB (s : State) (a i : Nat) (b : Bool) (p : Nat) : (s.wrB a i b).port p = s.port p := rfl
@[simp] theorem port_bump (s : State) (a p : Nat) : (s.bump a).port p = s.port p := rfl
@[simp] theorem queue_wr (s : State) (a : Nat) (v : Word) (k : Nat) : (s.wr a v).queue k = s.queue k := rfl
@[simp] theorem queue_wrF (s : State) (a hi lo v k : Nat) : (s.wrF a hi lo v).queue k = s.queue k := rfl
@[simp] theorem queue_wrB (s : State) (a i : Nat) (b : Bool) (k : Nat) : (s.wrB a i b).queue k = s.queue k := rfl
@[simp] theorem slot_wr (s : State) (a : Nat) (v : Word) (n : Nat) : (s.wr a v).slot n = s.slot n := rfl
@[simp] theorem slot_wrB (s : State) (a i : Nat) (b : Bool) (n : Nat) : (s.wrB a i b).slot n = s.slot n := rfl

end Sys2Proof.Machine.State

namespace Sys2Proof.Machine

/-! ### Bit fields -/

theorem bits_lt (w : Word) (hi lo : Nat) : bits w hi lo < 2 ^ (hi - lo + 1) := Nat.mod_lt _ (Nat.two_pow_pos _)

theorem bits_eq (w : Word) (hi lo : Nat) : bits w hi lo = (w.extractLsb' lo (hi - lo + 1)).toNat := by
  simp [bits, Nat.shiftRight_eq_div_pow]

theorem setBits_getLsbD (w : Word) (hi lo v i : Nat) (hl : lo ≤ hi) (hi' : hi < 32) :
    (setBits w hi lo v).getLsbD i = if lo ≤ i ∧ i ≤ hi then v.testBit (i - lo) else w.getLsbD i := by
  unfold setBits mask
  by_cases h32 : i < 32
  · simp only [BitVec.getLsbD_or, BitVec.getLsbD_and, BitVec.getLsbD_not, BitVec.getLsbD_ofNat, h32, decide_true, Bool.true_and,
      Nat.testBit_mul_two_pow, Nat.testBit_two_pow_sub_one, Nat.testBit_mod_two_pow]
    by_cases h1 : lo ≤ i <;> by_cases h2 : i ≤ hi
    · have h3 : i - lo < hi - lo + 1 := by omega
      simp [h1, h2, h3]
    · have h3 : ¬ i - lo < hi - lo + 1 := by omega
      simp [h1, h2, h3]
    · simp [h1]
    · simp [h1]
  · have : ¬ i ≤ hi := by omega
    simp [this, BitVec.getLsbD_of_ge _ _ (Nat.le_of_not_lt h32)]

/-- The field written reads back. -/
theorem bits_setBits_same (w : Word) (hi lo v : Nat) (hl : lo ≤ hi) (hi' : hi < 32) :
    bits (setBits w hi lo v) hi lo = v % 2 ^ (hi - lo + 1) := by
  rw [bits_eq]
  apply Nat.eq_of_testBit_eq
  intro i
  rw [BitVec.testBit_toNat, BitVec.getLsbD_extractLsb', setBits_getLsbD _ _ _ _ _ hl hi', Nat.testBit_mod_two_pow]
  by_cases h : i < hi - lo + 1
  · have h1 : lo + i ≤ hi := by omega
    simp [h, h1]
  · simp [h]

/-- A field apart from the one written reads as before. -/
theorem bits_setBits_ne (w : Word) (hi lo v h l : Nat) (hl : lo ≤ hi) (hi' : hi < 32) (hs : h < lo ∨ hi < l) (hh : l ≤ h) :
    bits (setBits w hi lo v) h l = bits w h l := by
  rw [bits_eq, bits_eq]
  apply Nat.eq_of_testBit_eq
  intro i
  simp only [BitVec.testBit_toNat, BitVec.getLsbD_extractLsb', setBits_getLsbD _ _ _ _ _ hl hi']
  by_cases h1 : i < h - l + 1
  · have h2 : ¬ (lo ≤ l + i ∧ l + i ≤ hi) := by omega
    simp [h1, h2]
  · simp [h1]

@[simp] theorem bit_setBit_same (w : Word) (i : Nat) (b : Bool) (h : i < 32) : bit (setBit w i b) i = b := by
  unfold bit setBit
  rw [setBits_getLsbD _ _ _ _ _ (Nat.le_refl i) h]
  cases b <;> simp

@[simp] theorem bit_setBit_ne (w : Word) (i j : Nat) (b : Bool) (h : i < 32) (hj : j ≠ i) : bit (setBit w i b) j = bit w j := by
  unfold bit setBit
  rw [setBits_getLsbD _ _ _ _ _ (Nat.le_refl i) h]
  have : ¬ (i ≤ j ∧ j ≤ i) := by omega
  simp [this]

namespace State

@[simp] theorem bitOf_wrB_same (s : State) (a i : Nat) (b : Bool) (h : i < 32) : (s.wrB a i b).bitOf a i = b := by
  simp [bitOf, h]

@[simp] theorem bitOf_wrB_ne (s : State) (a c i j : Nat) (b : Bool) (h : c ≠ a) : (s.wrB a i b).bitOf c j = s.bitOf c j := by
  simp [bitOf, h]

@[simp] theorem fld_wrF_same (s : State) (a hi lo v : Nat) (hl : lo ≤ hi) (hi' : hi < 32) :
    (s.wrF a hi lo v).fld a hi lo = v % 2 ^ (hi - lo + 1) := by
  simp [fld, bits_setBits_same, hl, hi']

@[simp] theorem fld_wrF_ne (s : State) (a c hi lo v h l : Nat) (hc : c ≠ a) : (s.wrF a hi lo v).fld c h l = s.fld c h l := by
  simp [fld, hc]

@[simp] theorem fld_wrB_ne (s : State) (a c i : Nat) (b : Bool) (h l : Nat) (hc : c ≠ a) : (s.wrB a i b).fld c h l = s.fld c h l := by
  simp [fld, hc]

@[simp] theorem fld_wr_same (s : State) (a : Nat) (v : Word) (h l : Nat) : (s.wr a v).fld a h l = bits v h l := by simp [fld]

@[simp] theorem bitOf_wr_same (s : State) (a : Nat) (v : Word) (i : Nat) : (s.wr a v).bitOf a i = bit v i := by simp [bitOf]

@[simp] theorem fld_wr_ne (s : State) (a c : Nat) (v : Word) (h l : Nat) (hc : c ≠ a) : (s.wr a v).fld c h l = s.fld c h l := by
  simp [fld, hc]

@[simp] theorem bitOf_wr_ne (s : State) (a c : Nat) (v : Word) (i : Nat) (hc : c ≠ a) : (s.wr a v).bitOf c i = s.bitOf c i := by
  simp [bitOf, hc]

end State

end Sys2Proof.Machine
end

