-- ==== Sys2Proof/Laws/Ops.lean ====
section
/-! SUPPORT. What each shared operation changes, said once: alarms and interrupts, events, replies, measurement extension, the mirror link, and
the running of a host command. -/

namespace Sys2Proof.Machine

@[simp] theorem report_now (r : Report) (s : State) : (report r s).now = s.now := by
  unfold report; split
  · rfl
  · dsimp only; split <;> rfl
@[simp] theorem report_free (r : Report) (s : State) : (report r s).free = s.free := by
  unfold report; split
  · rfl
  · dsimp only; split <;> rfl
@[simp] theorem report_sys (r : Report) (s : State) : (report r s).sys = s.sys := by
  unfold report; split
  · rfl
  · dsimp only; split <;> rfl
@[simp] theorem report_host (r : Report) (s : State) : (report r s).host = s.host := by
  unfold report; split
  · rfl
  · dsimp only; split <;> rfl
@[simp] theorem report_dp (r : Report) (s : State) : (report r s).dp = s.dp := by
  unfold report; split
  · rfl
  · dsimp only; split <;> rfl
@[simp] theorem report_flow (r : Report) (s : State) : (report r s).flow = s.flow := by
  unfold report; split
  · rfl
  · dsimp only; split <;> rfl
@[simp] theorem report_keys (r : Report) (s : State) : (report r s).keys = s.keys := by
  unfold report; split
  · rfl
  · dsimp only; split <;> rfl
@[simp] theorem report_ldg (r : Report) (s : State) : (report r s).ldg = s.ldg := by
  unfold report; split
  · rfl
  · dsimp only; split <;> rfl
@[simp] theorem report_lfs (r : Report) (s : State) : (report r s).lfs = s.lfs := by
  unfold report; split
  · rfl
  · dsimp only; split <;> rfl
@[simp] theorem report_tim (r : Report) (s : State) : (report r s).tim = s.tim := by
  unfold report; split
  · rfl
  · dsimp only; split <;> rfl
@[simp] theorem report_cer (r : Report) (s : State) : (report r s).cer = s.cer := by
  unfold report; split
  · rfl
  · dsimp only; split <;> rfl
@[simp] theorem report_pair (r : Report) (s : State) : (report r s).pair = s.pair := by
  unfold report; split
  · rfl
  · dsimp only; split <;> rfl
@[simp] theorem report_mrs (r : Report) (s : State) : (report r s).mrs = s.mrs := by
  unfold report; split
  · rfl
  · dsimp only; split <;> rfl
@[simp] theorem report_core (r : Report) (s : State) : (report r s).core = s.core := by
  unfold report; split
  · rfl
  · dsimp only; split <;> rfl
@[simp] theorem report_gte (r : Report) (s : State) : (report r s).gte = s.gte := by
  unfold report; split
  · rfl
  · dsimp only; split <;> rfl
@[simp] theorem report_fsh (r : Report) (s : State) : (report r s).fsh = s.fsh := by
  unfold report; split
  · rfl
  · dsimp only; split <;> rfl
@[simp] theorem report_dig (r : Report) (s : State) : (report r s).dig = s.dig := by
  unfold report; split
  · rfl
  · dsimp only; split <;> rfl
@[simp] theorem report_cph (r : Report) (s : State) : (report r s).cph = s.cph := by
  unfold report; split
  · rfl
  · dsimp only; split <;> rfl
@[simp] theorem report_rng (r : Report) (s : State) : (report r s).rng = s.rng := by
  unfold report; split
  · rfl
  · dsimp only; split <;> rfl
@[simp] theorem report_upd (r : Report) (s : State) : (report r s).upd = s.upd := by
  unfold report; split
  · rfl
  · dsimp only; split <;> rfl
@[simp] theorem report_pke (r : Report) (s : State) : (report r s).pke = s.pke := by
  unfold report; split
  · rfl
  · dsimp only; split <;> rfl
@[simp] theorem report_rpr (r : Report) (s : State) : (report r s).rpr = s.rpr := by
  unfold report; split
  · rfl
  · dsimp only; split <;> rfl
@[simp] theorem report_nfr (r : Report) (s : State) : (report r s).nfr = s.nfr := by
  unfold report; split
  · rfl
  · dsimp only; split <;> rfl
@[simp] theorem report_tpr (r : Report) (s : State) : (report r s).tpr = s.tpr := by
  unfold report; split
  · rfl
  · dsimp only; split <;> rfl
@[simp] theorem report_conf (r : Report) (s : State) : (report r s).conf = s.conf := by
  unfold report; split
  · rfl
  · dsimp only; split <;> rfl
@[simp] theorem report_pin (r : Report) (s : State) : (report r s).pin = s.pin := by
  unfold report; split
  · rfl
  · dsimp only; split <;> rfl
@[simp] theorem report_pending (r : Report) (s : State) : (report r s).pending = s.pending := by
  unfold report; split
  · rfl
  · dsimp only; split <;> rfl

@[simp] theorem alarm_now (c d n : Nat) (b : Bool) (s : State) : (alarm c d n b s).now = s.now := by
  simp [alarm]
@[simp] theorem alarm_free (c d n : Nat) (b : Bool) (s : State) : (alarm c d n b s).free = s.free := by
  simp [alarm]
@[simp] theorem alarm_sys (c d n : Nat) (b : Bool) (s : State) : (alarm c d n b s).sys = s.sys := by
  simp [alarm]
@[simp] theorem alarm_host (c d n : Nat) (b : Bool) (s : State) : (alarm c d n b s).host = s.host := by
  simp [alarm]
@[simp] theorem alarm_dp (c d n : Nat) (b : Bool) (s : State) : (alarm c d n b s).dp = s.dp := by
  simp [alarm]
@[simp] theorem alarm_flow (c d n : Nat) (b : Bool) (s : State) : (alarm c d n b s).flow = s.flow := by
  simp [alarm]
@[simp] theorem alarm_keys (c d n : Nat) (b : Bool) (s : State) : (alarm c d n b s).keys = s.keys := by
  simp [alarm]
@[simp] theorem alarm_ldg (c d n : Nat) (b : Bool) (s : State) : (alarm c d n b s).ldg = s.ldg := by
  simp [alarm]
@[simp] theorem alarm_lfs (c d n : Nat) (b : Bool) (s : State) : (alarm c d n b s).lfs = s.lfs := by
  simp [alarm]
@[simp] theorem alarm_tim (c d n : Nat) (b : Bool) (s : State) : (alarm c d n b s).tim = s.tim := by
  simp [alarm]
@[simp] theorem alarm_cer (c d n : Nat) (b : Bool) (s : State) : (alarm c d n b s).cer = s.cer := by
  simp [alarm]
@[simp] theorem alarm_pair (c d n : Nat) (b : Bool) (s : State) : (alarm c d n b s).pair = s.pair := by
  simp [alarm]
@[simp] theorem alarm_mrs (c d n : Nat) (b : Bool) (s : State) : (alarm c d n b s).mrs = s.mrs := by
  simp [alarm]
@[simp] theorem alarm_core (c d n : Nat) (b : Bool) (s : State) : (alarm c d n b s).core = s.core := by
  simp [alarm]
@[simp] theorem alarm_gte (c d n : Nat) (b : Bool) (s : State) : (alarm c d n b s).gte = s.gte := by
  simp [alarm]
@[simp] theorem alarm_fsh (c d n : Nat) (b : Bool) (s : State) : (alarm c d n b s).fsh = s.fsh := by
  simp [alarm]
@[simp] theorem alarm_dig (c d n : Nat) (b : Bool) (s : State) : (alarm c d n b s).dig = s.dig := by
  simp [alarm]
@[simp] theorem alarm_cph (c d n : Nat) (b : Bool) (s : State) : (alarm c d n b s).cph = s.cph := by
  simp [alarm]
@[simp] theorem alarm_rng (c d n : Nat) (b : Bool) (s : State) : (alarm c d n b s).rng = s.rng := by
  simp [alarm]
@[simp] theorem alarm_upd (c d n : Nat) (b : Bool) (s : State) : (alarm c d n b s).upd = s.upd := by
  simp [alarm]
@[simp] theorem alarm_pke (c d n : Nat) (b : Bool) (s : State) : (alarm c d n b s).pke = s.pke := by
  simp [alarm]
@[simp] theorem alarm_rpr (c d n : Nat) (b : Bool) (s : State) : (alarm c d n b s).rpr = s.rpr := by
  simp [alarm]
@[simp] theorem alarm_nfr (c d n : Nat) (b : Bool) (s : State) : (alarm c d n b s).nfr = s.nfr := by
  simp [alarm]
@[simp] theorem alarm_tpr (c d n : Nat) (b : Bool) (s : State) : (alarm c d n b s).tpr = s.tpr := by
  simp [alarm]
@[simp] theorem alarm_conf (c d n : Nat) (b : Bool) (s : State) : (alarm c d n b s).conf = s.conf := by
  simp [alarm]
@[simp] theorem alarm_pin (c d n : Nat) (b : Bool) (s : State) : (alarm c d n b s).pin = s.pin := by
  simp [alarm]
@[simp] theorem alarm_pending (c d n : Nat) (b : Bool) (s : State) : (alarm c d n b s).pending = s.pending := by
  simp [alarm]

@[simp] theorem irq_now (r n b : Nat) (s : State) : (irq r n b s).now = s.now := by
  simp [irq]
@[simp] theorem irq_free (r n b : Nat) (s : State) : (irq r n b s).free = s.free := by
  simp [irq]
@[simp] theorem irq_sys (r n b : Nat) (s : State) : (irq r n b s).sys = s.sys := by
  simp [irq]
@[simp] theorem irq_host (r n b : Nat) (s : State) : (irq r n b s).host = s.host := by
  simp [irq]
@[simp] theorem irq_dp (r n b : Nat) (s : State) : (irq r n b s).dp = s.dp := by
  simp [irq]
@[simp] theorem irq_flow (r n b : Nat) (s : State) : (irq r n b s).flow = s.flow := by
  simp [irq]
@[simp] theorem irq_keys (r n b : Nat) (s : State) : (irq r n b s).keys = s.keys := by
  simp [irq]
@[simp] theorem irq_ldg (r n b : Nat) (s : State) : (irq r n b s).ldg = s.ldg := by
  simp [irq]
@[simp] theorem irq_lfs (r n b : Nat) (s : State) : (irq r n b s).lfs = s.lfs := by
  simp [irq]
@[simp] theorem irq_tim (r n b : Nat) (s : State) : (irq r n b s).tim = s.tim := by
  simp [irq]
@[simp] theorem irq_cer (r n b : Nat) (s : State) : (irq r n b s).cer = s.cer := by
  simp [irq]
@[simp] theorem irq_pair (r n b : Nat) (s : State) : (irq r n b s).pair = s.pair := by
  simp [irq]
@[simp] theorem irq_mrs (r n b : Nat) (s : State) : (irq r n b s).mrs = s.mrs := by
  simp [irq]
@[simp] theorem irq_core (r n b : Nat) (s : State) : (irq r n b s).core = s.core := by
  simp [irq]
@[simp] theorem irq_gte (r n b : Nat) (s : State) : (irq r n b s).gte = s.gte := by
  simp [irq]
@[simp] theorem irq_fsh (r n b : Nat) (s : State) : (irq r n b s).fsh = s.fsh := by
  simp [irq]
@[simp] theorem irq_dig (r n b : Nat) (s : State) : (irq r n b s).dig = s.dig := by
  simp [irq]
@[simp] theorem irq_cph (r n b : Nat) (s : State) : (irq r n b s).cph = s.cph := by
  simp [irq]
@[simp] theorem irq_rng (r n b : Nat) (s : State) : (irq r n b s).rng = s.rng := by
  simp [irq]
@[simp] theorem irq_upd (r n b : Nat) (s : State) : (irq r n b s).upd = s.upd := by
  simp [irq]
@[simp] theorem irq_pke (r n b : Nat) (s : State) : (irq r n b s).pke = s.pke := by
  simp [irq]
@[simp] theorem irq_rpr (r n b : Nat) (s : State) : (irq r n b s).rpr = s.rpr := by
  simp [irq]
@[simp] theorem irq_nfr (r n b : Nat) (s : State) : (irq r n b s).nfr = s.nfr := by
  simp [irq]
@[simp] theorem irq_tpr (r n b : Nat) (s : State) : (irq r n b s).tpr = s.tpr := by
  simp [irq]
@[simp] theorem irq_conf (r n b : Nat) (s : State) : (irq r n b s).conf = s.conf := by
  simp [irq]
@[simp] theorem irq_pin (r n b : Nat) (s : State) : (irq r n b s).pin = s.pin := by
  simp [irq]
@[simp] theorem irq_pending (r n b : Nat) (s : State) : (irq r n b s).pending = s.pending := by
  simp [irq]

/-- A report changes no register but the marks of first records. -/
@[simp] theorem report_rd (r : Report) (s : State) (a : Nat) (h : a ≠ Reg.ALM_FIRST_VALID) : (report r s).rd a = s.rd a := by
  unfold report
  split
  · rfl
  · dsimp only
    split
    · rw [State.rd_wrB_ne _ _ _ _ _ h]; rfl
    · rfl

@[simp] theorem alarm_rd (c d n : Nat) (b : Bool) (s : State) (a : Nat) (h : a ≠ Reg.ALM_FIRST_VALID) : (alarm c d n b s).rd a = s.rd a := by
  simp [alarm, h]

/-- An interrupt changes its status register and the marks of first records only. -/
@[simp] theorem irq_rd (r n b : Nat) (s : State) (a : Nat) (h : a ≠ Reg.ALM_FIRST_VALID) (h' : a ≠ r) : (irq r n b s).rd a = s.rd a := by
  simp [irq, h, h']

/-- An interrupt sets its flag. -/
theorem irq_bit (r n b : Nat) (s : State) (hb : b < 32) (h : r ≠ Reg.ALM_FIRST_VALID) : (irq r n b s).bitOf r b = true := by
  unfold irq State.bitOf
  rw [report_rd _ _ _ h]
  simp [hb]

@[simp] theorem enqueueEvent_now (e : Event) (s : State) : (enqueueEvent e s).now = s.now := by
  unfold enqueueEvent; split
  · split <;> rfl
  · split
    · rfl
    · simp
@[simp] theorem enqueueEvent_free (e : Event) (s : State) : (enqueueEvent e s).free = s.free := by
  unfold enqueueEvent; split
  · split <;> rfl
  · split
    · rfl
    · simp
@[simp] theorem enqueueEvent_sys (e : Event) (s : State) : (enqueueEvent e s).sys = s.sys := by
  unfold enqueueEvent; split
  · split <;> rfl
  · split
    · rfl
    · simp
@[simp] theorem enqueueEvent_host (e : Event) (s : State) : (enqueueEvent e s).host = s.host := by
  unfold enqueueEvent; split
  · split <;> rfl
  · split
    · rfl
    · simp
@[simp] theorem enqueueEvent_dp (e : Event) (s : State) : (enqueueEvent e s).dp = s.dp := by
  unfold enqueueEvent; split
  · split <;> rfl
  · split
    · rfl
    · simp
@[simp] theorem enqueueEvent_flow (e : Event) (s : State) : (enqueueEvent e s).flow = s.flow := by
  unfold enqueueEvent; split
  · split <;> rfl
  · split
    · rfl
    · simp
@[simp] theorem enqueueEvent_keys (e : Event) (s : State) : (enqueueEvent e s).keys = s.keys := by
  unfold enqueueEvent; split
  · split <;> rfl
  · split
    · rfl
    · simp
@[simp] theorem enqueueEvent_lfs (e : Event) (s : State) : (enqueueEvent e s).lfs = s.lfs := by
  unfold enqueueEvent; split
  · split <;> rfl
  · split
    · rfl
    · simp
@[simp] theorem enqueueEvent_tim (e : Event) (s : State) : (enqueueEvent e s).tim = s.tim := by
  unfold enqueueEvent; split
  · split <;> rfl
  · split
    · rfl
    · simp
@[simp] theorem enqueueEvent_cer (e : Event) (s : State) : (enqueueEvent e s).cer = s.cer := by
  unfold enqueueEvent; split
  · split <;> rfl
  · split
    · rfl
    · simp
@[simp] theorem enqueueEvent_pair (e : Event) (s : State) : (enqueueEvent e s).pair = s.pair := by
  unfold enqueueEvent; split
  · split <;> rfl
  · split
    · rfl
    · simp
@[simp] theorem enqueueEvent_mrs (e : Event) (s : State) : (enqueueEvent e s).mrs = s.mrs := by
  unfold enqueueEvent; split
  · split <;> rfl
  · split
    · rfl
    · simp
@[simp] theorem enqueueEvent_core (e : Event) (s : State) : (enqueueEvent e s).core = s.core := by
  unfold enqueueEvent; split
  · split <;> rfl
  · split
    · rfl
    · simp
@[simp] theorem enqueueEvent_gte (e : Event) (s : State) : (enqueueEvent e s).gte = s.gte := by
  unfold enqueueEvent; split
  · split <;> rfl
  · split
    · rfl
    · simp
@[simp] theorem enqueueEvent_fsh (e : Event) (s : State) : (enqueueEvent e s).fsh = s.fsh := by
  unfold enqueueEvent; split
  · split <;> rfl
  · split
    · rfl
    · simp
@[simp] theorem enqueueEvent_dig (e : Event) (s : State) : (enqueueEvent e s).dig = s.dig := by
  unfold enqueueEvent; split
  · split <;> rfl
  · split
    · rfl
    · simp
@[simp] theorem enqueueEvent_cph (e : Event) (s : State) : (enqueueEvent e s).cph = s.cph := by
  unfold enqueueEvent; split
  · split <;> rfl
  · split
    · rfl
    · simp
@[simp] theorem enqueueEvent_rng (e : Event) (s : State) : (enqueueEvent e s).rng = s.rng := by
  unfold enqueueEvent; split
  · split <;> rfl
  · split
    · rfl
    · simp
@[simp] theorem enqueueEvent_upd (e : Event) (s : State) : (enqueueEvent e s).upd = s.upd := by
  unfold enqueueEvent; split
  · split <;> rfl
  · split
    · rfl
    · simp
@[simp] theorem enqueueEvent_pke (e : Event) (s : State) : (enqueueEvent e s).pke = s.pke := by
  unfold enqueueEvent; split
  · split <;> rfl
  · split
    · rfl
    · simp
@[simp] theorem enqueueEvent_rpr (e : Event) (s : State) : (enqueueEvent e s).rpr = s.rpr := by
  unfold enqueueEvent; split
  · split <;> rfl
  · split
    · rfl
    · simp
@[simp] theorem enqueueEvent_nfr (e : Event) (s : State) : (enqueueEvent e s).nfr = s.nfr := by
  unfold enqueueEvent; split
  · split <;> rfl
  · split
    · rfl
    · simp
@[simp] theorem enqueueEvent_tpr (e : Event) (s : State) : (enqueueEvent e s).tpr = s.tpr := by
  unfold enqueueEvent; split
  · split <;> rfl
  · split
    · rfl
    · simp
@[simp] theorem enqueueEvent_conf (e : Event) (s : State) : (enqueueEvent e s).conf = s.conf := by
  unfold enqueueEvent; split
  · split <;> rfl
  · split
    · rfl
    · simp
@[simp] theorem enqueueEvent_pin (e : Event) (s : State) : (enqueueEvent e s).pin = s.pin := by
  unfold enqueueEvent; split
  · split <;> rfl
  · split
    · rfl
    · simp
@[simp] theorem enqueueEvent_pending (e : Event) (s : State) : (enqueueEvent e s).pending = s.pending := by
  unfold enqueueEvent; split
  · split <;> rfl
  · split
    · rfl
    · simp

@[simp] theorem event_now (c n t : Nat) (d : Bytes) (s : State) : (event c n t d s).now = s.now := by
  simp [event]
@[simp] theorem event_free (c n t : Nat) (d : Bytes) (s : State) : (event c n t d s).free = s.free := by
  simp [event]
@[simp] theorem event_sys (c n t : Nat) (d : Bytes) (s : State) : (event c n t d s).sys = s.sys := by
  simp [event]
@[simp] theorem event_host (c n t : Nat) (d : Bytes) (s : State) : (event c n t d s).host = s.host := by
  simp [event]
@[simp] theorem event_dp (c n t : Nat) (d : Bytes) (s : State) : (event c n t d s).dp = s.dp := by
  simp [event]
@[simp] theorem event_flow (c n t : Nat) (d : Bytes) (s : State) : (event c n t d s).flow = s.flow := by
  simp [event]
@[simp] theorem event_keys (c n t : Nat) (d : Bytes) (s : State) : (event c n t d s).keys = s.keys := by
  simp [event]
@[simp] theorem event_lfs (c n t : Nat) (d : Bytes) (s : State) : (event c n t d s).lfs = s.lfs := by
  simp [event]
@[simp] theorem event_tim (c n t : Nat) (d : Bytes) (s : State) : (event c n t d s).tim = s.tim := by
  simp [event]
@[simp] theorem event_cer (c n t : Nat) (d : Bytes) (s : State) : (event c n t d s).cer = s.cer := by
  simp [event]
@[simp] theorem event_pair (c n t : Nat) (d : Bytes) (s : State) : (event c n t d s).pair = s.pair := by
  simp [event]
@[simp] theorem event_mrs (c n t : Nat) (d : Bytes) (s : State) : (event c n t d s).mrs = s.mrs := by
  simp [event]
@[simp] theorem event_core (c n t : Nat) (d : Bytes) (s : State) : (event c n t d s).core = s.core := by
  simp [event]
@[simp] theorem event_gte (c n t : Nat) (d : Bytes) (s : State) : (event c n t d s).gte = s.gte := by
  simp [event]
@[simp] theorem event_fsh (c n t : Nat) (d : Bytes) (s : State) : (event c n t d s).fsh = s.fsh := by
  simp [event]
@[simp] theorem event_dig (c n t : Nat) (d : Bytes) (s : State) : (event c n t d s).dig = s.dig := by
  simp [event]
@[simp] theorem event_cph (c n t : Nat) (d : Bytes) (s : State) : (event c n t d s).cph = s.cph := by
  simp [event]
@[simp] theorem event_rng (c n t : Nat) (d : Bytes) (s : State) : (event c n t d s).rng = s.rng := by
  simp [event]
@[simp] theorem event_upd (c n t : Nat) (d : Bytes) (s : State) : (event c n t d s).upd = s.upd := by
  simp [event]
@[simp] theorem event_pke (c n t : Nat) (d : Bytes) (s : State) : (event c n t d s).pke = s.pke := by
  simp [event]
@[simp] theorem event_rpr (c n t : Nat) (d : Bytes) (s : State) : (event c n t d s).rpr = s.rpr := by
  simp [event]
@[simp] theorem event_nfr (c n t : Nat) (d : Bytes) (s : State) : (event c n t d s).nfr = s.nfr := by
  simp [event]
@[simp] theorem event_tpr (c n t : Nat) (d : Bytes) (s : State) : (event c n t d s).tpr = s.tpr := by
  simp [event]
@[simp] theorem event_conf (c n t : Nat) (d : Bytes) (s : State) : (event c n t d s).conf = s.conf := by
  simp [event]
@[simp] theorem event_pin (c n t : Nat) (d : Bytes) (s : State) : (event c n t d s).pin = s.pin := by
  simp [event]
@[simp] theorem event_pending (c n t : Nat) (d : Bytes) (s : State) : (event c n t d s).pending = s.pending := by
  simp [event]

/-- An event changes no register but LDG_IRQ_STATUS, LDG_EVQ_DROP and the marks of first records. -/
@[simp] theorem enqueueEvent_rd (e : Event) (s : State) (a : Nat) (h : a ≠ Reg.ALM_FIRST_VALID) (h1 : a ≠ Reg.LDG_IRQ_STATUS)
    (h2 : a ≠ Reg.LDG_EVQ_DROP) : (enqueueEvent e s).rd a = s.rd a := by
  unfold enqueueEvent
  split
  · split <;> rfl
  · split
    · rfl
    · rw [irq_rd _ _ _ _ _ h h1, State.rd_bump_ne _ _ _ h2]; rfl

@[simp] theorem event_rd (c n t : Nat) (d : Bytes) (s : State) (a : Nat) (h : a ≠ Reg.ALM_FIRST_VALID) (h1 : a ≠ Reg.LDG_IRQ_STATUS)
    (h2 : a ≠ Reg.LDG_EVQ_DROP) : (event c n t d s).rd a = s.rd a := by
  simp [event, h, h1, h2]

/-- A protected event enters the queue while an entry is free and none is held. -/
theorem enqueueEvent_protected (e : Event) (s : State) (h : e.isProtected = true) (hl : s.ldg.evq.length < 4096) (hh : s.ldg.evHeld = []) :
    (enqueueEvent e s).ldg.evq = s.ldg.evq ++ [e] := by
  simp [enqueueEvent, h, hl, hh]

/-! #### Replies change the host's side only -/

theorem transfer_eq (fn : Nat) (w : Bool) (a : Nat) (d : Bytes) (s : State) :
    transfer fn w a d s = { s with host := (transfer fn w a d s).host } := rfl

theorem setMsix_eq (fn v : Nat) (m : MsixVec) (s : State) : setMsix fn v m s = { s with host := (setMsix fn v m s).host } := rfl

theorem putQueue_eq (k : Nat) (q : Queue) (s : State) : putQueue k q s = { s with host := (putQueue k q s).host } := by
  unfold putQueue
  dsimp only
  split <;> split <;> rfl

theorem finalReplyTo_eq (r : CmdRef) (st : Nat) (o : Bytes) (a d : Nat) (s : State) :
    finalReplyTo r st o a d s = { s with host := (finalReplyTo r st o a d s).host } := by
  unfold finalReplyTo
  dsimp only
  split
  · rfl
  · split
    · rfl
    · rw [putQueue_eq]
      split <;> rfl

theorem finalReply_eq (r : CmdRef) (st : Nat) (o : Bytes) (d : Nat) (s : State) :
    finalReply r st o d s = { s with host := (finalReply r st o d s).host } := by
  unfold finalReply
  split <;> exact finalReplyTo_eq _ _ _ _ _ _

theorem interimReply_eq (r : CmdRef) (st : Nat) (s : State) : interimReply r st s = { s with host := (interimReply r st s).host } := by
  unfold interimReply
  dsimp only
  split
  · rfl
  · split
    · rfl
    · exact putQueue_eq _ _ _

theorem turnAway_eq (c : HostCmd) (st : Nat) (s : State) : turnAway c st s = { s with host := (turnAway c st s).host } := putQueue_eq _ _ _

@[simp] theorem finalReply_regs (r : CmdRef) (st : Nat) (o : Bytes) (d : Nat) (s : State) : (finalReply r st o d s).regs = s.regs := by
  rw [finalReply_eq]
@[simp] theorem finalReply_now (r : CmdRef) (st : Nat) (o : Bytes) (d : Nat) (s : State) : (finalReply r st o d s).now = s.now := by
  rw [finalReply_eq]
@[simp] theorem finalReply_free (r : CmdRef) (st : Nat) (o : Bytes) (d : Nat) (s : State) : (finalReply r st o d s).free = s.free := by
  rw [finalReply_eq]
@[simp] theorem finalReply_sys (r : CmdRef) (st : Nat) (o : Bytes) (d : Nat) (s : State) : (finalReply r st o d s).sys = s.sys := by
  rw [finalReply_eq]
@[simp] theorem finalReply_dp (r : CmdRef) (st : Nat) (o : Bytes) (d : Nat) (s : State) : (finalReply r st o d s).dp = s.dp := by
  rw [finalReply_eq]
@[simp] theorem finalReply_flow (r : CmdRef) (st : Nat) (o : Bytes) (d : Nat) (s : State) : (finalReply r st o d s).flow = s.flow := by
  rw [finalReply_eq]
@[simp] theorem finalReply_keys (r : CmdRef) (st : Nat) (o : Bytes) (d : Nat) (s : State) : (finalReply r st o d s).keys = s.keys := by
  rw [finalReply_eq]
@[simp] theorem finalReply_ldg (r : CmdRef) (st : Nat) (o : Bytes) (d : Nat) (s : State) : (finalReply r st o d s).ldg = s.ldg := by
  rw [finalReply_eq]
@[simp] theorem finalReply_lfs (r : CmdRef) (st : Nat) (o : Bytes) (d : Nat) (s : State) : (finalReply r st o d s).lfs = s.lfs := by
  rw [finalReply_eq]
@[simp] theorem finalReply_tim (r : CmdRef) (st : Nat) (o : Bytes) (d : Nat) (s : State) : (finalReply r st o d s).tim = s.tim := by
  rw [finalReply_eq]
@[simp] theorem finalReply_cer (r : CmdRef) (st : Nat) (o : Bytes) (d : Nat) (s : State) : (finalReply r st o d s).cer = s.cer := by
  rw [finalReply_eq]
@[simp] theorem finalReply_alm (r : CmdRef) (st : Nat) (o : Bytes) (d : Nat) (s : State) : (finalReply r st o d s).alm = s.alm := by
  rw [finalReply_eq]
@[simp] theorem finalReply_pair (r : CmdRef) (st : Nat) (o : Bytes) (d : Nat) (s : State) : (finalReply r st o d s).pair = s.pair := by
  rw [finalReply_eq]
@[simp] theorem finalReply_mrs (r : CmdRef) (st : Nat) (o : Bytes) (d : Nat) (s : State) : (finalReply r st o d s).mrs = s.mrs := by
  rw [finalReply_eq]
@[simp] theorem finalReply_core (r : CmdRef) (st : Nat) (o : Bytes) (d : Nat) (s : State) : (finalReply r st o d s).core = s.core := by
  rw [finalReply_eq]
@[simp] theorem finalReply_gte (r : CmdRef) (st : Nat) (o : Bytes) (d : Nat) (s : State) : (finalReply r st o d s).gte = s.gte := by
  rw [finalReply_eq]
@[simp] theorem finalReply_fsh (r : CmdRef) (st : Nat) (o : Bytes) (d : Nat) (s : State) : (finalReply r st o d s).fsh = s.fsh := by
  rw [finalReply_eq]
@[simp] theorem finalReply_dig (r : CmdRef) (st : Nat) (o : Bytes) (d : Nat) (s : State) : (finalReply r st o d s).dig = s.dig := by
  rw [finalReply_eq]
@[simp] theorem finalReply_cph (r : CmdRef) (st : Nat) (o : Bytes) (d : Nat) (s : State) : (finalReply r st o d s).cph = s.cph := by
  rw [finalReply_eq]
@[simp] theorem finalReply_rng (r : CmdRef) (st : Nat) (o : Bytes) (d : Nat) (s : State) : (finalReply r st o d s).rng = s.rng := by
  rw [finalReply_eq]
@[simp] theorem finalReply_upd (r : CmdRef) (st : Nat) (o : Bytes) (d : Nat) (s : State) : (finalReply r st o d s).upd = s.upd := by
  rw [finalReply_eq]
@[simp] theorem finalReply_pke (r : CmdRef) (st : Nat) (o : Bytes) (d : Nat) (s : State) : (finalReply r st o d s).pke = s.pke := by
  rw [finalReply_eq]
@[simp] theorem finalReply_rpr (r : CmdRef) (st : Nat) (o : Bytes) (d : Nat) (s : State) : (finalReply r st o d s).rpr = s.rpr := by
  rw [finalReply_eq]
@[simp] theorem finalReply_nfr (r : CmdRef) (st : Nat) (o : Bytes) (d : Nat) (s : State) : (finalReply r st o d s).nfr = s.nfr := by
  rw [finalReply_eq]
@[simp] theorem finalReply_tpr (r : CmdRef) (st : Nat) (o : Bytes) (d : Nat) (s : State) : (finalReply r st o d s).tpr = s.tpr := by
  rw [finalReply_eq]
@[simp] theorem finalReply_conf (r : CmdRef) (st : Nat) (o : Bytes) (d : Nat) (s : State) : (finalReply r st o d s).conf = s.conf := by
  rw [finalReply_eq]
@[simp] theorem finalReply_pin (r : CmdRef) (st : Nat) (o : Bytes) (d : Nat) (s : State) : (finalReply r st o d s).pin = s.pin := by
  rw [finalReply_eq]
@[simp] theorem finalReply_pending (r : CmdRef) (st : Nat) (o : Bytes) (d : Nat) (s : State) : (finalReply r st o d s).pending = s.pending := by
  rw [finalReply_eq]

@[simp] theorem interimReply_regs (r : CmdRef) (st : Nat) (s : State) : (interimReply r st s).regs = s.regs := by
  rw [interimReply_eq]
@[simp] theorem interimReply_now (r : CmdRef) (st : Nat) (s : State) : (interimReply r st s).now = s.now := by
  rw [interimReply_eq]
@[simp] theorem interimReply_free (r : CmdRef) (st : Nat) (s : State) : (interimReply r st s).free = s.free := by
  rw [interimReply_eq]
@[simp] theorem interimReply_sys (r : CmdRef) (st : Nat) (s : State) : (interimReply r st s).sys = s.sys := by
  rw [interimReply_eq]
@[simp] theorem interimReply_dp (r : CmdRef) (st : Nat) (s : State) : (interimReply r st s).dp = s.dp := by
  rw [interimReply_eq]
@[simp] theorem interimReply_flow (r : CmdRef) (st : Nat) (s : State) : (interimReply r st s).flow = s.flow := by
  rw [interimReply_eq]
@[simp] theorem interimReply_keys (r : CmdRef) (st : Nat) (s : State) : (interimReply r st s).keys = s.keys := by
  rw [interimReply_eq]
@[simp] theorem interimReply_ldg (r : CmdRef) (st : Nat) (s : State) : (interimReply r st s).ldg = s.ldg := by
  rw [interimReply_eq]
@[simp] theorem interimReply_lfs (r : CmdRef) (st : Nat) (s : State) : (interimReply r st s).lfs = s.lfs := by
  rw [interimReply_eq]
@[simp] theorem interimReply_tim (r : CmdRef) (st : Nat) (s : State) : (interimReply r st s).tim = s.tim := by
  rw [interimReply_eq]
@[simp] theorem interimReply_cer (r : CmdRef) (st : Nat) (s : State) : (interimReply r st s).cer = s.cer := by
  rw [interimReply_eq]
@[simp] theorem interimReply_alm (r : CmdRef) (st : Nat) (s : State) : (interimReply r st s).alm = s.alm := by
  rw [interimReply_eq]
@[simp] theorem interimReply_pair (r : CmdRef) (st : Nat) (s : State) : (interimReply r st s).pair = s.pair := by
  rw [interimReply_eq]
@[simp] theorem interimReply_mrs (r : CmdRef) (st : Nat) (s : State) : (interimReply r st s).mrs = s.mrs := by
  rw [interimReply_eq]
@[simp] theorem interimReply_core (r : CmdRef) (st : Nat) (s : State) : (interimReply r st s).core = s.core := by
  rw [interimReply_eq]
@[simp] theorem interimReply_gte (r : CmdRef) (st : Nat) (s : State) : (interimReply r st s).gte = s.gte := by
  rw [interimReply_eq]
@[simp] theorem interimReply_fsh (r : CmdRef) (st : Nat) (s : State) : (interimReply r st s).fsh = s.fsh := by
  rw [interimReply_eq]
@[simp] theorem interimReply_dig (r : CmdRef) (st : Nat) (s : State) : (interimReply r st s).dig = s.dig := by
  rw [interimReply_eq]
@[simp] theorem interimReply_cph (r : CmdRef) (st : Nat) (s : State) : (interimReply r st s).cph = s.cph := by
  rw [interimReply_eq]
@[simp] theorem interimReply_rng (r : CmdRef) (st : Nat) (s : State) : (interimReply r st s).rng = s.rng := by
  rw [interimReply_eq]
@[simp] theorem interimReply_upd (r : CmdRef) (st : Nat) (s : State) : (interimReply r st s).upd = s.upd := by
  rw [interimReply_eq]
@[simp] theorem interimReply_pke (r : CmdRef) (st : Nat) (s : State) : (interimReply r st s).pke = s.pke := by
  rw [interimReply_eq]
@[simp] theorem interimReply_rpr (r : CmdRef) (st : Nat) (s : State) : (interimReply r st s).rpr = s.rpr := by
  rw [interimReply_eq]
@[simp] theorem interimReply_nfr (r : CmdRef) (st : Nat) (s : State) : (interimReply r st s).nfr = s.nfr := by
  rw [interimReply_eq]
@[simp] theorem interimReply_tpr (r : CmdRef) (st : Nat) (s : State) : (interimReply r st s).tpr = s.tpr := by
  rw [interimReply_eq]
@[simp] theorem interimReply_conf (r : CmdRef) (st : Nat) (s : State) : (interimReply r st s).conf = s.conf := by
  rw [interimReply_eq]
@[simp] theorem interimReply_pin (r : CmdRef) (st : Nat) (s : State) : (interimReply r st s).pin = s.pin := by
  rw [interimReply_eq]
@[simp] theorem interimReply_pending (r : CmdRef) (st : Nat) (s : State) : (interimReply r st s).pending = s.pending := by
  rw [interimReply_eq]

@[simp] theorem finalReply?_regs (r : Option CmdRef) (st : Nat) (s : State) : (finalReply? r st s).regs = s.regs := by
  cases r <;> simp [finalReply?]
@[simp] theorem finalReply?_now (r : Option CmdRef) (st : Nat) (s : State) : (finalReply? r st s).now = s.now := by
  cases r <;> simp [finalReply?]
@[simp] theorem finalReply?_free (r : Option CmdRef) (st : Nat) (s : State) : (finalReply? r st s).free = s.free := by
  cases r <;> simp [finalReply?]
@[simp] theorem finalReply?_sys (r : Option CmdRef) (st : Nat) (s : State) : (finalReply? r st s).sys = s.sys := by
  cases r <;> simp [finalReply?]
@[simp] theorem finalReply?_dp (r : Option CmdRef) (st : Nat) (s : State) : (finalReply? r st s).dp = s.dp := by
  cases r <;> simp [finalReply?]
@[simp] theorem finalReply?_flow (r : Option CmdRef) (st : Nat) (s : State) : (finalReply? r st s).flow = s.flow := by
  cases r <;> simp [finalReply?]
@[simp] theorem finalReply?_keys (r : Option CmdRef) (st : Nat) (s : State) : (finalReply? r st s).keys = s.keys := by
  cases r <;> simp [finalReply?]
@[simp] theorem finalReply?_ldg (r : Option CmdRef) (st : Nat) (s : State) : (finalReply? r st s).ldg = s.ldg := by
  cases r <;> simp [finalReply?]
@[simp] theorem finalReply?_lfs (r : Option CmdRef) (st : Nat) (s : State) : (finalReply? r st s).lfs = s.lfs := by
  cases r <;> simp [finalReply?]
@[simp] theorem finalReply?_tim (r : Option CmdRef) (st : Nat) (s : State) : (finalReply? r st s).tim = s.tim := by
  cases r <;> simp [finalReply?]
@[simp] theorem finalReply?_cer (r : Option CmdRef) (st : Nat) (s : State) : (finalReply? r st s).cer = s.cer := by
  cases r <;> simp [finalReply?]
@[simp] theorem finalReply?_alm (r : Option CmdRef) (st : Nat) (s : State) : (finalReply? r st s).alm = s.alm := by
  cases r <;> simp [finalReply?]
@[simp] theorem finalReply?_pair (r : Option CmdRef) (st : Nat) (s : State) : (finalReply? r st s).pair = s.pair := by
  cases r <;> simp [finalReply?]
@[simp] theorem finalReply?_mrs (r : Option CmdRef) (st : Nat) (s : State) : (finalReply? r st s).mrs = s.mrs := by
  cases r <;> simp [finalReply?]
@[simp] theorem finalReply?_core (r : Option CmdRef) (st : Nat) (s : State) : (finalReply? r st s).core = s.core := by
  cases r <;> simp [finalReply?]
@[simp] theorem finalReply?_gte (r : Option CmdRef) (st : Nat) (s : State) : (finalReply? r st s).gte = s.gte := by
  cases r <;> simp [finalReply?]
@[simp] theorem finalReply?_fsh (r : Option CmdRef) (st : Nat) (s : State) : (finalReply? r st s).fsh = s.fsh := by
  cases r <;> simp [finalReply?]
@[simp] theorem finalReply?_dig (r : Option CmdRef) (st : Nat) (s : State) : (finalReply? r st s).dig = s.dig := by
  cases r <;> simp [finalReply?]
@[simp] theorem finalReply?_cph (r : Option CmdRef) (st : Nat) (s : State) : (finalReply? r st s).cph = s.cph := by
  cases r <;> simp [finalReply?]
@[simp] theorem finalReply?_rng (r : Option CmdRef) (st : Nat) (s : State) : (finalReply? r st s).rng = s.rng := by
  cases r <;> simp [finalReply?]
@[simp] theorem finalReply?_upd (r : Option CmdRef) (st : Nat) (s : State) : (finalReply? r st s).upd = s.upd := by
  cases r <;> simp [finalReply?]
@[simp] theorem finalReply?_pke (r : Option CmdRef) (st : Nat) (s : State) : (finalReply? r st s).pke = s.pke := by
  cases r <;> simp [finalReply?]
@[simp] theorem finalReply?_rpr (r : Option CmdRef) (st : Nat) (s : State) : (finalReply? r st s).rpr = s.rpr := by
  cases r <;> simp [finalReply?]
@[simp] theorem finalReply?_nfr (r : Option CmdRef) (st : Nat) (s : State) : (finalReply? r st s).nfr = s.nfr := by
  cases r <;> simp [finalReply?]
@[simp] theorem finalReply?_tpr (r : Option CmdRef) (st : Nat) (s : State) : (finalReply? r st s).tpr = s.tpr := by
  cases r <;> simp [finalReply?]
@[simp] theorem finalReply?_conf (r : Option CmdRef) (st : Nat) (s : State) : (finalReply? r st s).conf = s.conf := by
  cases r <;> simp [finalReply?]
@[simp] theorem finalReply?_pin (r : Option CmdRef) (st : Nat) (s : State) : (finalReply? r st s).pin = s.pin := by
  cases r <;> simp [finalReply?]
@[simp] theorem finalReply?_pending (r : Option CmdRef) (st : Nat) (s : State) : (finalReply? r st s).pending = s.pending := by
  cases r <;> simp [finalReply?]

@[simp] theorem turnAway_regs (c : HostCmd) (st : Nat) (s : State) : (turnAway c st s).regs = s.regs := by
  rw [turnAway_eq]
@[simp] theorem turnAway_now (c : HostCmd) (st : Nat) (s : State) : (turnAway c st s).now = s.now := by
  rw [turnAway_eq]
@[simp] theorem turnAway_free (c : HostCmd) (st : Nat) (s : State) : (turnAway c st s).free = s.free := by
  rw [turnAway_eq]
@[simp] theorem turnAway_sys (c : HostCmd) (st : Nat) (s : State) : (turnAway c st s).sys = s.sys := by
  rw [turnAway_eq]
@[simp] theorem turnAway_dp (c : HostCmd) (st : Nat) (s : State) : (turnAway c st s).dp = s.dp := by
  rw [turnAway_eq]
@[simp] theorem turnAway_flow (c : HostCmd) (st : Nat) (s : State) : (turnAway c st s).flow = s.flow := by
  rw [turnAway_eq]
@[simp] theorem turnAway_keys (c : HostCmd) (st : Nat) (s : State) : (turnAway c st s).keys = s.keys := by
  rw [turnAway_eq]
@[simp] theorem turnAway_ldg (c : HostCmd) (st : Nat) (s : State) : (turnAway c st s).ldg = s.ldg := by
  rw [turnAway_eq]
@[simp] theorem turnAway_lfs (c : HostCmd) (st : Nat) (s : State) : (turnAway c st s).lfs = s.lfs := by
  rw [turnAway_eq]
@[simp] theorem turnAway_tim (c : HostCmd) (st : Nat) (s : State) : (turnAway c st s).tim = s.tim := by
  rw [turnAway_eq]
@[simp] theorem turnAway_cer (c : HostCmd) (st : Nat) (s : State) : (turnAway c st s).cer = s.cer := by
  rw [turnAway_eq]
@[simp] theorem turnAway_alm (c : HostCmd) (st : Nat) (s : State) : (turnAway c st s).alm = s.alm := by
  rw [turnAway_eq]
@[simp] theorem turnAway_pair (c : HostCmd) (st : Nat) (s : State) : (turnAway c st s).pair = s.pair := by
  rw [turnAway_eq]
@[simp] theorem turnAway_mrs (c : HostCmd) (st : Nat) (s : State) : (turnAway c st s).mrs = s.mrs := by
  rw [turnAway_eq]
@[simp] theorem turnAway_core (c : HostCmd) (st : Nat) (s : State) : (turnAway c st s).core = s.core := by
  rw [turnAway_eq]
@[simp] theorem turnAway_gte (c : HostCmd) (st : Nat) (s : State) : (turnAway c st s).gte = s.gte := by
  rw [turnAway_eq]
@[simp] theorem turnAway_fsh (c : HostCmd) (st : Nat) (s : State) : (turnAway c st s).fsh = s.fsh := by
  rw [turnAway_eq]
@[simp] theorem turnAway_dig (c : HostCmd) (st : Nat) (s : State) : (turnAway c st s).dig = s.dig := by
  rw [turnAway_eq]
@[simp] theorem turnAway_cph (c : HostCmd) (st : Nat) (s : State) : (turnAway c st s).cph = s.cph := by
  rw [turnAway_eq]
@[simp] theorem turnAway_rng (c : HostCmd) (st : Nat) (s : State) : (turnAway c st s).rng = s.rng := by
  rw [turnAway_eq]
@[simp] theorem turnAway_upd (c : HostCmd) (st : Nat) (s : State) : (turnAway c st s).upd = s.upd := by
  rw [turnAway_eq]
@[simp] theorem turnAway_pke (c : HostCmd) (st : Nat) (s : State) : (turnAway c st s).pke = s.pke := by
  rw [turnAway_eq]
@[simp] theorem turnAway_rpr (c : HostCmd) (st : Nat) (s : State) : (turnAway c st s).rpr = s.rpr := by
  rw [turnAway_eq]
@[simp] theorem turnAway_nfr (c : HostCmd) (st : Nat) (s : State) : (turnAway c st s).nfr = s.nfr := by
  rw [turnAway_eq]
@[simp] theorem turnAway_tpr (c : HostCmd) (st : Nat) (s : State) : (turnAway c st s).tpr = s.tpr := by
  rw [turnAway_eq]
@[simp] theorem turnAway_conf (c : HostCmd) (st : Nat) (s : State) : (turnAway c st s).conf = s.conf := by
  rw [turnAway_eq]
@[simp] theorem turnAway_pin (c : HostCmd) (st : Nat) (s : State) : (turnAway c st s).pin = s.pin := by
  rw [turnAway_eq]
@[simp] theorem turnAway_pending (c : HostCmd) (st : Nat) (s : State) : (turnAway c st s).pending = s.pending := by
  rw [turnAway_eq]

@[simp] theorem enterCmd_regs (c : HostCmd) (op : Nat) (g : CmdStage) (s : State) : (enterCmd c op g s).regs = s.regs := by
  rfl
@[simp] theorem enterCmd_now (c : HostCmd) (op : Nat) (g : CmdStage) (s : State) : (enterCmd c op g s).now = s.now := by
  rfl
@[simp] theorem enterCmd_free (c : HostCmd) (op : Nat) (g : CmdStage) (s : State) : (enterCmd c op g s).free = s.free := by
  rfl
@[simp] theorem enterCmd_sys (c : HostCmd) (op : Nat) (g : CmdStage) (s : State) : (enterCmd c op g s).sys = s.sys := by
  rfl
@[simp] theorem enterCmd_dp (c : HostCmd) (op : Nat) (g : CmdStage) (s : State) : (enterCmd c op g s).dp = s.dp := by
  rfl
@[simp] theorem enterCmd_flow (c : HostCmd) (op : Nat) (g : CmdStage) (s : State) : (enterCmd c op g s).flow = s.flow := by
  rfl
@[simp] theorem enterCmd_keys (c : HostCmd) (op : Nat) (g : CmdStage) (s : State) : (enterCmd c op g s).keys = s.keys := by
  rfl
@[simp] theorem enterCmd_ldg (c : HostCmd) (op : Nat) (g : CmdStage) (s : State) : (enterCmd c op g s).ldg = s.ldg := by
  rfl
@[simp] theorem enterCmd_lfs (c : HostCmd) (op : Nat) (g : CmdStage) (s : State) : (enterCmd c op g s).lfs = s.lfs := by
  rfl
@[simp] theorem enterCmd_tim (c : HostCmd) (op : Nat) (g : CmdStage) (s : State) : (enterCmd c op g s).tim = s.tim := by
  rfl
@[simp] theorem enterCmd_cer (c : HostCmd) (op : Nat) (g : CmdStage) (s : State) : (enterCmd c op g s).cer = s.cer := by
  rfl
@[simp] theorem enterCmd_alm (c : HostCmd) (op : Nat) (g : CmdStage) (s : State) : (enterCmd c op g s).alm = s.alm := by
  rfl
@[simp] theorem enterCmd_pair (c : HostCmd) (op : Nat) (g : CmdStage) (s : State) : (enterCmd c op g s).pair = s.pair := by
  rfl
@[simp] theorem enterCmd_mrs (c : HostCmd) (op : Nat) (g : CmdStage) (s : State) : (enterCmd c op g s).mrs = s.mrs := by
  rfl
@[simp] theorem enterCmd_core (c : HostCmd) (op : Nat) (g : CmdStage) (s : State) : (enterCmd c op g s).core = s.core := by
  rfl
@[simp] theorem enterCmd_gte (c : HostCmd) (op : Nat) (g : CmdStage) (s : State) : (enterCmd c op g s).gte = s.gte := by
  rfl
@[simp] theorem enterCmd_fsh (c : HostCmd) (op : Nat) (g : CmdStage) (s : State) : (enterCmd c op g s).fsh = s.fsh := by
  rfl
@[simp] theorem enterCmd_dig (c : HostCmd) (op : Nat) (g : CmdStage) (s : State) : (enterCmd c op g s).dig = s.dig := by
  rfl
@[simp] theorem enterCmd_cph (c : HostCmd) (op : Nat) (g : CmdStage) (s : State) : (enterCmd c op g s).cph = s.cph := by
  rfl
@[simp] theorem enterCmd_rng (c : HostCmd) (op : Nat) (g : CmdStage) (s : State) : (enterCmd c op g s).rng = s.rng := by
  rfl
@[simp] theorem enterCmd_upd (c : HostCmd) (op : Nat) (g : CmdStage) (s : State) : (enterCmd c op g s).upd = s.upd := by
  rfl
@[simp] theorem enterCmd_pke (c : HostCmd) (op : Nat) (g : CmdStage) (s : State) : (enterCmd c op g s).pke = s.pke := by
  rfl
@[simp] theorem enterCmd_rpr (c : HostCmd) (op : Nat) (g : CmdStage) (s : State) : (enterCmd c op g s).rpr = s.rpr := by
  rfl
@[simp] theorem enterCmd_nfr (c : HostCmd) (op : Nat) (g : CmdStage) (s : State) : (enterCmd c op g s).nfr = s.nfr := by
  rfl
@[simp] theorem enterCmd_tpr (c : HostCmd) (op : Nat) (g : CmdStage) (s : State) : (enterCmd c op g s).tpr = s.tpr := by
  rfl
@[simp] theorem enterCmd_conf (c : HostCmd) (op : Nat) (g : CmdStage) (s : State) : (enterCmd c op g s).conf = s.conf := by
  rfl
@[simp] theorem enterCmd_pin (c : HostCmd) (op : Nat) (g : CmdStage) (s : State) : (enterCmd c op g s).pin = s.pin := by
  rfl
@[simp] theorem enterCmd_pending (c : HostCmd) (op : Nat) (g : CmdStage) (s : State) : (enterCmd c op g s).pending = s.pending := by
  rfl

@[simp] theorem extendMr_regs (n : Nat) (v : Bytes) (s : State) : (extendMr n v s).regs = s.regs := by
  rfl
@[simp] theorem extendMr_now (n : Nat) (v : Bytes) (s : State) : (extendMr n v s).now = s.now := by
  rfl
@[simp] theorem extendMr_free (n : Nat) (v : Bytes) (s : State) : (extendMr n v s).free = s.free := by
  rfl
@[simp] theorem extendMr_sys (n : Nat) (v : Bytes) (s : State) : (extendMr n v s).sys = s.sys := by
  rfl
@[simp] theorem extendMr_host (n : Nat) (v : Bytes) (s : State) : (extendMr n v s).host = s.host := by
  rfl
@[simp] theorem extendMr_dp (n : Nat) (v : Bytes) (s : State) : (extendMr n v s).dp = s.dp := by
  rfl
@[simp] theorem extendMr_flow (n : Nat) (v : Bytes) (s : State) : (extendMr n v s).flow = s.flow := by
  rfl
@[simp] theorem extendMr_keys (n : Nat) (v : Bytes) (s : State) : (extendMr n v s).keys = s.keys := by
  rfl
@[simp] theorem extendMr_ldg (n : Nat) (v : Bytes) (s : State) : (extendMr n v s).ldg = s.ldg := by
  rfl
@[simp] theorem extendMr_lfs (n : Nat) (v : Bytes) (s : State) : (extendMr n v s).lfs = s.lfs := by
  rfl
@[simp] theorem extendMr_tim (n : Nat) (v : Bytes) (s : State) : (extendMr n v s).tim = s.tim := by
  rfl
@[simp] theorem extendMr_cer (n : Nat) (v : Bytes) (s : State) : (extendMr n v s).cer = s.cer := by
  rfl
@[simp] theorem extendMr_alm (n : Nat) (v : Bytes) (s : State) : (extendMr n v s).alm = s.alm := by
  rfl
@[simp] theorem extendMr_pair (n : Nat) (v : Bytes) (s : State) : (extendMr n v s).pair = s.pair := by
  rfl
@[simp] theorem extendMr_core (n : Nat) (v : Bytes) (s : State) : (extendMr n v s).core = s.core := by
  rfl
@[simp] theorem extendMr_gte (n : Nat) (v : Bytes) (s : State) : (extendMr n v s).gte = s.gte := by
  rfl
@[simp] theorem extendMr_fsh (n : Nat) (v : Bytes) (s : State) : (extendMr n v s).fsh = s.fsh := by
  rfl
@[simp] theorem extendMr_dig (n : Nat) (v : Bytes) (s : State) : (extendMr n v s).dig = s.dig := by
  rfl
@[simp] theorem extendMr_cph (n : Nat) (v : Bytes) (s : State) : (extendMr n v s).cph = s.cph := by
  rfl
@[simp] theorem extendMr_rng (n : Nat) (v : Bytes) (s : State) : (extendMr n v s).rng = s.rng := by
  rfl
@[simp] theorem extendMr_upd (n : Nat) (v : Bytes) (s : State) : (extendMr n v s).upd = s.upd := by
  rfl
@[simp] theorem extendMr_pke (n : Nat) (v : Bytes) (s : State) : (extendMr n v s).pke = s.pke := by
  rfl
@[simp] theorem extendMr_rpr (n : Nat) (v : Bytes) (s : State) : (extendMr n v s).rpr = s.rpr := by
  rfl
@[simp] theorem extendMr_nfr (n : Nat) (v : Bytes) (s : State) : (extendMr n v s).nfr = s.nfr := by
  rfl
@[simp] theorem extendMr_tpr (n : Nat) (v : Bytes) (s : State) : (extendMr n v s).tpr = s.tpr := by
  rfl
@[simp] theorem extendMr_conf (n : Nat) (v : Bytes) (s : State) : (extendMr n v s).conf = s.conf := by
  rfl
@[simp] theorem extendMr_pin (n : Nat) (v : Bytes) (s : State) : (extendMr n v s).pin = s.pin := by
  rfl
@[simp] theorem extendMr_pending (n : Nat) (v : Bytes) (s : State) : (extendMr n v s).pending = s.pending := by
  rfl

@[simp] theorem sendPair_now (m : PairMsg) (s : State) : (sendPair m s).now = s.now := by
  unfold sendPair; split
  · rfl
  · split <;> simp
@[simp] theorem sendPair_free (m : PairMsg) (s : State) : (sendPair m s).free = s.free := by
  unfold sendPair; split
  · rfl
  · split <;> simp
@[simp] theorem sendPair_sys (m : PairMsg) (s : State) : (sendPair m s).sys = s.sys := by
  unfold sendPair; split
  · rfl
  · split <;> simp
@[simp] theorem sendPair_host (m : PairMsg) (s : State) : (sendPair m s).host = s.host := by
  unfold sendPair; split
  · rfl
  · split <;> simp
@[simp] theorem sendPair_dp (m : PairMsg) (s : State) : (sendPair m s).dp = s.dp := by
  unfold sendPair; split
  · rfl
  · split <;> simp
@[simp] theorem sendPair_flow (m : PairMsg) (s : State) : (sendPair m s).flow = s.flow := by
  unfold sendPair; split
  · rfl
  · split <;> simp
@[simp] theorem sendPair_keys (m : PairMsg) (s : State) : (sendPair m s).keys = s.keys := by
  unfold sendPair; split
  · rfl
  · split <;> simp
@[simp] theorem sendPair_ldg (m : PairMsg) (s : State) : (sendPair m s).ldg = s.ldg := by
  unfold sendPair; split
  · rfl
  · split <;> simp
@[simp] theorem sendPair_lfs (m : PairMsg) (s : State) : (sendPair m s).lfs = s.lfs := by
  unfold sendPair; split
  · rfl
  · split <;> simp
@[simp] theorem sendPair_tim (m : PairMsg) (s : State) : (sendPair m s).tim = s.tim := by
  unfold sendPair; split
  · rfl
  · split <;> simp
@[simp] theorem sendPair_cer (m : PairMsg) (s : State) : (sendPair m s).cer = s.cer := by
  unfold sendPair; split
  · rfl
  · split <;> simp
@[simp] theorem sendPair_mrs (m : PairMsg) (s : State) : (sendPair m s).mrs = s.mrs := by
  unfold sendPair; split
  · rfl
  · split <;> simp
@[simp] theorem sendPair_core (m : PairMsg) (s : State) : (sendPair m s).core = s.core := by
  unfold sendPair; split
  · rfl
  · split <;> simp
@[simp] theorem sendPair_gte (m : PairMsg) (s : State) : (sendPair m s).gte = s.gte := by
  unfold sendPair; split
  · rfl
  · split <;> simp
@[simp] theorem sendPair_fsh (m : PairMsg) (s : State) : (sendPair m s).fsh = s.fsh := by
  unfold sendPair; split
  · rfl
  · split <;> simp
@[simp] theorem sendPair_dig (m : PairMsg) (s : State) : (sendPair m s).dig = s.dig := by
  unfold sendPair; split
  · rfl
  · split <;> simp
@[simp] theorem sendPair_cph (m : PairMsg) (s : State) : (sendPair m s).cph = s.cph := by
  unfold sendPair; split
  · rfl
  · split <;> simp
@[simp] theorem sendPair_rng (m : PairMsg) (s : State) : (sendPair m s).rng = s.rng := by
  unfold sendPair; split
  · rfl
  · split <;> simp
@[simp] theorem sendPair_upd (m : PairMsg) (s : State) : (sendPair m s).upd = s.upd := by
  unfold sendPair; split
  · rfl
  · split <;> simp
@[simp] theorem sendPair_pke (m : PairMsg) (s : State) : (sendPair m s).pke = s.pke := by
  unfold sendPair; split
  · rfl
  · split <;> simp
@[simp] theorem sendPair_rpr (m : PairMsg) (s : State) : (sendPair m s).rpr = s.rpr := by
  unfold sendPair; split
  · rfl
  · split <;> simp
@[simp] theorem sendPair_nfr (m : PairMsg) (s : State) : (sendPair m s).nfr = s.nfr := by
  unfold sendPair; split
  · rfl
  · split <;> simp
@[simp] theorem sendPair_tpr (m : PairMsg) (s : State) : (sendPair m s).tpr = s.tpr := by
  unfold sendPair; split
  · rfl
  · split <;> simp
@[simp] theorem sendPair_conf (m : PairMsg) (s : State) : (sendPair m s).conf = s.conf := by
  unfold sendPair; split
  · rfl
  · split <;> simp
@[simp] theorem sendPair_pin (m : PairMsg) (s : State) : (sendPair m s).pin = s.pin := by
  unfold sendPair; split
  · rfl
  · split <;> simp
@[simp] theorem sendPair_pending (m : PairMsg) (s : State) : (sendPair m s).pending = s.pending := by
  unfold sendPair; split
  · rfl
  · split <;> simp

@[simp] theorem sendConfig_regs (t : Nat) (b : Bytes) (s : State) : (sendConfig t b s).regs = s.regs := by
  unfold sendConfig; split
  · unfold sendPair; split <;> simp
  · rfl
@[simp] theorem sendConfig_now (t : Nat) (b : Bytes) (s : State) : (sendConfig t b s).now = s.now := by
  unfold sendConfig; split
  · unfold sendPair; split <;> simp
  · rfl
@[simp] theorem sendConfig_free (t : Nat) (b : Bytes) (s : State) : (sendConfig t b s).free = s.free := by
  unfold sendConfig; split
  · unfold sendPair; split <;> simp
  · rfl
@[simp] theorem sendConfig_sys (t : Nat) (b : Bytes) (s : State) : (sendConfig t b s).sys = s.sys := by
  unfold sendConfig; split
  · unfold sendPair; split <;> simp
  · rfl
@[simp] theorem sendConfig_host (t : Nat) (b : Bytes) (s : State) : (sendConfig t b s).host = s.host := by
  unfold sendConfig; split
  · unfold sendPair; split <;> simp
  · rfl
@[simp] theorem sendConfig_dp (t : Nat) (b : Bytes) (s : State) : (sendConfig t b s).dp = s.dp := by
  unfold sendConfig; split
  · unfold sendPair; split <;> simp
  · rfl
@[simp] theorem sendConfig_flow (t : Nat) (b : Bytes) (s : State) : (sendConfig t b s).flow = s.flow := by
  unfold sendConfig; split
  · unfold sendPair; split <;> simp
  · rfl
@[simp] theorem sendConfig_keys (t : Nat) (b : Bytes) (s : State) : (sendConfig t b s).keys = s.keys := by
  unfold sendConfig; split
  · unfold sendPair; split <;> simp
  · rfl
@[simp] theorem sendConfig_ldg (t : Nat) (b : Bytes) (s : State) : (sendConfig t b s).ldg = s.ldg := by
  unfold sendConfig; split
  · unfold sendPair; split <;> simp
  · rfl
@[simp] theorem sendConfig_lfs (t : Nat) (b : Bytes) (s : State) : (sendConfig t b s).lfs = s.lfs := by
  unfold sendConfig; split
  · unfold sendPair; split <;> simp
  · rfl
@[simp] theorem sendConfig_tim (t : Nat) (b : Bytes) (s : State) : (sendConfig t b s).tim = s.tim := by
  unfold sendConfig; split
  · unfold sendPair; split <;> simp
  · rfl
@[simp] theorem sendConfig_cer (t : Nat) (b : Bytes) (s : State) : (sendConfig t b s).cer = s.cer := by
  unfold sendConfig; split
  · unfold sendPair; split <;> simp
  · rfl
@[simp] theorem sendConfig_alm (t : Nat) (b : Bytes) (s : State) : (sendConfig t b s).alm = s.alm := by
  unfold sendConfig; split
  · unfold sendPair; split <;> simp
  · rfl
@[simp] theorem sendConfig_mrs (t : Nat) (b : Bytes) (s : State) : (sendConfig t b s).mrs = s.mrs := by
  unfold sendConfig; split
  · unfold sendPair; split <;> simp
  · rfl
@[simp] theorem sendConfig_core (t : Nat) (b : Bytes) (s : State) : (sendConfig t b s).core = s.core := by
  unfold sendConfig; split
  · unfold sendPair; split <;> simp
  · rfl
@[simp] theorem sendConfig_gte (t : Nat) (b : Bytes) (s : State) : (sendConfig t b s).gte = s.gte := by
  unfold sendConfig; split
  · unfold sendPair; split <;> simp
  · rfl
@[simp] theorem sendConfig_fsh (t : Nat) (b : Bytes) (s : State) : (sendConfig t b s).fsh = s.fsh := by
  unfold sendConfig; split
  · unfold sendPair; split <;> simp
  · rfl
@[simp] theorem sendConfig_dig (t : Nat) (b : Bytes) (s : State) : (sendConfig t b s).dig = s.dig := by
  unfold sendConfig; split
  · unfold sendPair; split <;> simp
  · rfl
@[simp] theorem sendConfig_cph (t : Nat) (b : Bytes) (s : State) : (sendConfig t b s).cph = s.cph := by
  unfold sendConfig; split
  · unfold sendPair; split <;> simp
  · rfl
@[simp] theorem sendConfig_rng (t : Nat) (b : Bytes) (s : State) : (sendConfig t b s).rng = s.rng := by
  unfold sendConfig; split
  · unfold sendPair; split <;> simp
  · rfl
@[simp] theorem sendConfig_upd (t : Nat) (b : Bytes) (s : State) : (sendConfig t b s).upd = s.upd := by
  unfold sendConfig; split
  · unfold sendPair; split <;> simp
  · rfl
@[simp] theorem sendConfig_pke (t : Nat) (b : Bytes) (s : State) : (sendConfig t b s).pke = s.pke := by
  unfold sendConfig; split
  · unfold sendPair; split <;> simp
  · rfl
@[simp] theorem sendConfig_rpr (t : Nat) (b : Bytes) (s : State) : (sendConfig t b s).rpr = s.rpr := by
  unfold sendConfig; split
  · unfold sendPair; split <;> simp
  · rfl
@[simp] theorem sendConfig_nfr (t : Nat) (b : Bytes) (s : State) : (sendConfig t b s).nfr = s.nfr := by
  unfold sendConfig; split
  · unfold sendPair; split <;> simp
  · rfl
@[simp] theorem sendConfig_tpr (t : Nat) (b : Bytes) (s : State) : (sendConfig t b s).tpr = s.tpr := by
  unfold sendConfig; split
  · unfold sendPair; split <;> simp
  · rfl
@[simp] theorem sendConfig_conf (t : Nat) (b : Bytes) (s : State) : (sendConfig t b s).conf = s.conf := by
  unfold sendConfig; split
  · unfold sendPair; split <;> simp
  · rfl
@[simp] theorem sendConfig_pin (t : Nat) (b : Bytes) (s : State) : (sendConfig t b s).pin = s.pin := by
  unfold sendConfig; split
  · unfold sendPair; split <;> simp
  · rfl
@[simp] theorem sendConfig_pending (t : Nat) (b : Bytes) (s : State) : (sendConfig t b s).pending = s.pending := by
  unfold sendConfig; split
  · unfold sendPair; split <;> simp
  · rfl

@[simp] theorem charterEvent_now (a t b e : Nat) (s : State) : (charterEvent a t b e s).now = s.now := by
  simp [charterEvent]
@[simp] theorem charterEvent_free (a t b e : Nat) (s : State) : (charterEvent a t b e s).free = s.free := by
  simp [charterEvent]
@[simp] theorem charterEvent_sys (a t b e : Nat) (s : State) : (charterEvent a t b e s).sys = s.sys := by
  simp [charterEvent]
@[simp] theorem charterEvent_host (a t b e : Nat) (s : State) : (charterEvent a t b e s).host = s.host := by
  simp [charterEvent]
@[simp] theorem charterEvent_dp (a t b e : Nat) (s : State) : (charterEvent a t b e s).dp = s.dp := by
  simp [charterEvent]
@[simp] theorem charterEvent_flow (a t b e : Nat) (s : State) : (charterEvent a t b e s).flow = s.flow := by
  simp [charterEvent]
@[simp] theorem charterEvent_keys (a t b e : Nat) (s : State) : (charterEvent a t b e s).keys = s.keys := by
  simp [charterEvent]
@[simp] theorem charterEvent_lfs (a t b e : Nat) (s : State) : (charterEvent a t b e s).lfs = s.lfs := by
  simp [charterEvent]
@[simp] theorem charterEvent_tim (a t b e : Nat) (s : State) : (charterEvent a t b e s).tim = s.tim := by
  simp [charterEvent]
@[simp] theorem charterEvent_cer (a t b e : Nat) (s : State) : (charterEvent a t b e s).cer = s.cer := by
  simp [charterEvent]
@[simp] theorem charterEvent_pair (a t b e : Nat) (s : State) : (charterEvent a t b e s).pair = s.pair := by
  simp [charterEvent]
@[simp] theorem charterEvent_mrs (a t b e : Nat) (s : State) : (charterEvent a t b e s).mrs = s.mrs := by
  simp [charterEvent]
@[simp] theorem charterEvent_core (a t b e : Nat) (s : State) : (charterEvent a t b e s).core = s.core := by
  simp [charterEvent]
@[simp] theorem charterEvent_gte (a t b e : Nat) (s : State) : (charterEvent a t b e s).gte = s.gte := by
  simp [charterEvent]
@[simp] theorem charterEvent_fsh (a t b e : Nat) (s : State) : (charterEvent a t b e s).fsh = s.fsh := by
  simp [charterEvent]
@[simp] theorem charterEvent_dig (a t b e : Nat) (s : State) : (charterEvent a t b e s).dig = s.dig := by
  simp [charterEvent]
@[simp] theorem charterEvent_cph (a t b e : Nat) (s : State) : (charterEvent a t b e s).cph = s.cph := by
  simp [charterEvent]
@[simp] theorem charterEvent_rng (a t b e : Nat) (s : State) : (charterEvent a t b e s).rng = s.rng := by
  simp [charterEvent]
@[simp] theorem charterEvent_upd (a t b e : Nat) (s : State) : (charterEvent a t b e s).upd = s.upd := by
  simp [charterEvent]
@[simp] theorem charterEvent_pke (a t b e : Nat) (s : State) : (charterEvent a t b e s).pke = s.pke := by
  simp [charterEvent]
@[simp] theorem charterEvent_rpr (a t b e : Nat) (s : State) : (charterEvent a t b e s).rpr = s.rpr := by
  simp [charterEvent]
@[simp] theorem charterEvent_nfr (a t b e : Nat) (s : State) : (charterEvent a t b e s).nfr = s.nfr := by
  simp [charterEvent]
@[simp] theorem charterEvent_tpr (a t b e : Nat) (s : State) : (charterEvent a t b e s).tpr = s.tpr := by
  simp [charterEvent]
@[simp] theorem charterEvent_conf (a t b e : Nat) (s : State) : (charterEvent a t b e s).conf = s.conf := by
  simp [charterEvent]
@[simp] theorem charterEvent_pin (a t b e : Nat) (s : State) : (charterEvent a t b e s).pin = s.pin := by
  simp [charterEvent]
@[simp] theorem charterEvent_pending (a t b e : Nat) (s : State) : (charterEvent a t b e s).pending = s.pending := by
  simp [charterEvent]

@[simp] theorem consumeNonce_regs (fn : Nat) (v : Bytes) (s : State) : (consumeNonce fn v s).regs = s.regs := by
  rfl
@[simp] theorem consumeNonce_now (fn : Nat) (v : Bytes) (s : State) : (consumeNonce fn v s).now = s.now := by
  rfl
@[simp] theorem consumeNonce_free (fn : Nat) (v : Bytes) (s : State) : (consumeNonce fn v s).free = s.free := by
  rfl
@[simp] theorem consumeNonce_sys (fn : Nat) (v : Bytes) (s : State) : (consumeNonce fn v s).sys = s.sys := by
  rfl
@[simp] theorem consumeNonce_host (fn : Nat) (v : Bytes) (s : State) : (consumeNonce fn v s).host = s.host := by
  rfl
@[simp] theorem consumeNonce_dp (fn : Nat) (v : Bytes) (s : State) : (consumeNonce fn v s).dp = s.dp := by
  rfl
@[simp] theorem consumeNonce_flow (fn : Nat) (v : Bytes) (s : State) : (consumeNonce fn v s).flow = s.flow := by
  rfl
@[simp] theorem consumeNonce_keys (fn : Nat) (v : Bytes) (s : State) : (consumeNonce fn v s).keys = s.keys := by
  rfl
@[simp] theorem consumeNonce_ldg (fn : Nat) (v : Bytes) (s : State) : (consumeNonce fn v s).ldg = s.ldg := by
  rfl
@[simp] theorem consumeNonce_lfs (fn : Nat) (v : Bytes) (s : State) : (consumeNonce fn v s).lfs = s.lfs := by
  rfl
@[simp] theorem consumeNonce_tim (fn : Nat) (v : Bytes) (s : State) : (consumeNonce fn v s).tim = s.tim := by
  rfl
@[simp] theorem consumeNonce_alm (fn : Nat) (v : Bytes) (s : State) : (consumeNonce fn v s).alm = s.alm := by
  rfl
@[simp] theorem consumeNonce_pair (fn : Nat) (v : Bytes) (s : State) : (consumeNonce fn v s).pair = s.pair := by
  rfl
@[simp] theorem consumeNonce_mrs (fn : Nat) (v : Bytes) (s : State) : (consumeNonce fn v s).mrs = s.mrs := by
  rfl
@[simp] theorem consumeNonce_core (fn : Nat) (v : Bytes) (s : State) : (consumeNonce fn v s).core = s.core := by
  rfl
@[simp] theorem consumeNonce_gte (fn : Nat) (v : Bytes) (s : State) : (consumeNonce fn v s).gte = s.gte := by
  rfl
@[simp] theorem consumeNonce_fsh (fn : Nat) (v : Bytes) (s : State) : (consumeNonce fn v s).fsh = s.fsh := by
  rfl
@[simp] theorem consumeNonce_dig (fn : Nat) (v : Bytes) (s : State) : (consumeNonce fn v s).dig = s.dig := by
  rfl
@[simp] theorem consumeNonce_cph (fn : Nat) (v : Bytes) (s : State) : (consumeNonce fn v s).cph = s.cph := by
  rfl
@[simp] theorem consumeNonce_rng (fn : Nat) (v : Bytes) (s : State) : (consumeNonce fn v s).rng = s.rng := by
  rfl
@[simp] theorem consumeNonce_upd (fn : Nat) (v : Bytes) (s : State) : (consumeNonce fn v s).upd = s.upd := by
  rfl
@[simp] theorem consumeNonce_pke (fn : Nat) (v : Bytes) (s : State) : (consumeNonce fn v s).pke = s.pke := by
  rfl
@[simp] theorem consumeNonce_rpr (fn : Nat) (v : Bytes) (s : State) : (consumeNonce fn v s).rpr = s.rpr := by
  rfl
@[simp] theorem consumeNonce_nfr (fn : Nat) (v : Bytes) (s : State) : (consumeNonce fn v s).nfr = s.nfr := by
  rfl
@[simp] theorem consumeNonce_tpr (fn : Nat) (v : Bytes) (s : State) : (consumeNonce fn v s).tpr = s.tpr := by
  rfl
@[simp] theorem consumeNonce_conf (fn : Nat) (v : Bytes) (s : State) : (consumeNonce fn v s).conf = s.conf := by
  rfl
@[simp] theorem consumeNonce_pin (fn : Nat) (v : Bytes) (s : State) : (consumeNonce fn v s).pin = s.pin := by
  rfl
@[simp] theorem consumeNonce_pending (fn : Nat) (v : Bytes) (s : State) : (consumeNonce fn v s).pending = s.pending := by
  rfl

@[simp] theorem finalReply_rd (r : CmdRef) (st : Nat) (o : Bytes) (d : Nat) (s : State) (x : Nat) : (finalReply r st o d s).rd x = s.rd x := by
  simp [State.rd]
@[simp] theorem finalReply_fld (r : CmdRef) (st : Nat) (o : Bytes) (d : Nat) (s : State) (x h l : Nat) : (finalReply r st o d s).fld x h l = s.fld x h l := by
  simp [State.fld]
@[simp] theorem finalReply_bitOf (r : CmdRef) (st : Nat) (o : Bytes) (d : Nat) (s : State) (x i : Nat) : (finalReply r st o d s).bitOf x i = s.bitOf x i := by
  simp [State.bitOf]
@[simp] theorem interimReply_rd (r : CmdRef) (st : Nat) (s : State) (x : Nat) : (interimReply r st s).rd x = s.rd x := by
  simp [State.rd]
@[simp] theorem interimReply_fld (r : CmdRef) (st : Nat) (s : State) (x h l : Nat) : (interimReply r st s).fld x h l = s.fld x h l := by
  simp [State.fld]
@[simp] theorem interimReply_bitOf (r : CmdRef) (st : Nat) (s : State) (x i : Nat) : (interimReply r st s).bitOf x i = s.bitOf x i := by
  simp [State.bitOf]
@[simp] theorem finalReply?_rd (r : Option CmdRef) (st : Nat) (s : State) (x : Nat) : (finalReply? r st s).rd x = s.rd x := by
  simp [State.rd]
@[simp] theorem finalReply?_fld (r : Option CmdRef) (st : Nat) (s : State) (x h l : Nat) : (finalReply? r st s).fld x h l = s.fld x h l := by
  simp [State.fld]
@[simp] theorem finalReply?_bitOf (r : Option CmdRef) (st : Nat) (s : State) (x i : Nat) : (finalReply? r st s).bitOf x i = s.bitOf x i := by
  simp [State.bitOf]
@[simp] theorem turnAway_rd (c : HostCmd) (st : Nat) (s : State) (x : Nat) : (turnAway c st s).rd x = s.rd x := by
  simp [State.rd]
@[simp] theorem turnAway_fld (c : HostCmd) (st : Nat) (s : State) (x h l : Nat) : (turnAway c st s).fld x h l = s.fld x h l := by
  simp [State.fld]
@[simp] theorem turnAway_bitOf (c : HostCmd) (st : Nat) (s : State) (x i : Nat) : (turnAway c st s).bitOf x i = s.bitOf x i := by
  simp [State.bitOf]
@[simp] theorem enterCmd_rd (c : HostCmd) (op : Nat) (g : CmdStage) (s : State) (x : Nat) : (enterCmd c op g s).rd x = s.rd x := by
  simp [State.rd]
@[simp] theorem enterCmd_fld (c : HostCmd) (op : Nat) (g : CmdStage) (s : State) (x h l : Nat) : (enterCmd c op g s).fld x h l = s.fld x h l := by
  simp [State.fld]
@[simp] theorem enterCmd_bitOf (c : HostCmd) (op : Nat) (g : CmdStage) (s : State) (x i : Nat) : (enterCmd c op g s).bitOf x i = s.bitOf x i := by
  simp [State.bitOf]
@[simp] theorem extendMr_rd (n : Nat) (v : Bytes) (s : State) (x : Nat) : (extendMr n v s).rd x = s.rd x := by
  simp [State.rd]
@[simp] theorem extendMr_fld (n : Nat) (v : Bytes) (s : State) (x h l : Nat) : (extendMr n v s).fld x h l = s.fld x h l := by
  simp [State.fld]
@[simp] theorem extendMr_bitOf (n : Nat) (v : Bytes) (s : State) (x i : Nat) : (extendMr n v s).bitOf x i = s.bitOf x i := by
  simp [State.bitOf]
@[simp] theorem sendConfig_rd (t : Nat) (v : Bytes) (s : State) (x : Nat) : (sendConfig t v s).rd x = s.rd x := by
  simp [State.rd]
@[simp] theorem sendConfig_fld (t : Nat) (v : Bytes) (s : State) (x h l : Nat) : (sendConfig t v s).fld x h l = s.fld x h l := by
  simp [State.fld]
@[simp] theorem sendConfig_bitOf (t : Nat) (v : Bytes) (s : State) (x i : Nat) : (sendConfig t v s).bitOf x i = s.bitOf x i := by
  simp [State.bitOf]
@[simp] theorem consumeNonce_rd (fn : Nat) (v : Bytes) (s : State) (x : Nat) : (consumeNonce fn v s).rd x = s.rd x := by
  simp [State.rd]
@[simp] theorem consumeNonce_fld (fn : Nat) (v : Bytes) (s : State) (x h l : Nat) : (consumeNonce fn v s).fld x h l = s.fld x h l := by
  simp [State.fld]
@[simp] theorem consumeNonce_bitOf (fn : Nat) (v : Bytes) (s : State) (x i : Nat) : (consumeNonce fn v s).bitOf x i = s.bitOf x i := by
  simp [State.bitOf]

/-- A register read after measurement extension reads the hash of the old value and the new (R395). -/
theorem extendMr_mr (n : Nat) (v : Bytes) (s : State) : (extendMr n v s).mr n = sha384 (s.mr n ++ v) := tget_tput_same _ _ _ _

/-! ### Host commands -/

/-- Without a further held event, the end of a command's work is its final reply. -/
theorem finish_eq (r : CmdRef) (st : Nat) (o : Bytes) (d : Nat) (s s' : State) (h : s'.ldg.evHeld.length ≤ s.ldg.evHeld.length) :
    finish r st o d s s' = finalReply r st o d s' := by
  unfold finish
  rw [if_neg (by omega)]

@[simp] theorem finish_self (r : CmdRef) (st : Nat) (o : Bytes) (d : Nat) (s : State) : finish r st o d s s = finalReply r st o d s :=
  finish_eq r st o d s s (Nat.le_refl _)

@[simp] theorem finish_regs (r : CmdRef) (st : Nat) (o : Bytes) (d : Nat) (s s' : State) : (finish r st o d s s').regs = s'.regs := by
  unfold finish; split <;> simp
@[simp] theorem finish_now (r : CmdRef) (st : Nat) (o : Bytes) (d : Nat) (s s' : State) : (finish r st o d s s').now = s'.now := by
  unfold finish; split <;> simp
@[simp] theorem finish_free (r : CmdRef) (st : Nat) (o : Bytes) (d : Nat) (s s' : State) : (finish r st o d s s').free = s'.free := by
  unfold finish; split <;> simp
@[simp] theorem finish_sys (r : CmdRef) (st : Nat) (o : Bytes) (d : Nat) (s s' : State) : (finish r st o d s s').sys = s'.sys := by
  unfold finish; split <;> simp
@[simp] theorem finish_dp (r : CmdRef) (st : Nat) (o : Bytes) (d : Nat) (s s' : State) : (finish r st o d s s').dp = s'.dp := by
  unfold finish; split <;> simp
@[simp] theorem finish_flow (r : CmdRef) (st : Nat) (o : Bytes) (d : Nat) (s s' : State) : (finish r st o d s s').flow = s'.flow := by
  unfold finish; split <;> simp
@[simp] theorem finish_keys (r : CmdRef) (st : Nat) (o : Bytes) (d : Nat) (s s' : State) : (finish r st o d s s').keys = s'.keys := by
  unfold finish; split <;> simp
@[simp] theorem finish_lfs (r : CmdRef) (st : Nat) (o : Bytes) (d : Nat) (s s' : State) : (finish r st o d s s').lfs = s'.lfs := by
  unfold finish; split <;> simp
@[simp] theorem finish_tim (r : CmdRef) (st : Nat) (o : Bytes) (d : Nat) (s s' : State) : (finish r st o d s s').tim = s'.tim := by
  unfold finish; split <;> simp
@[simp] theorem finish_cer (r : CmdRef) (st : Nat) (o : Bytes) (d : Nat) (s s' : State) : (finish r st o d s s').cer = s'.cer := by
  unfold finish; split <;> simp
@[simp] theorem finish_alm (r : CmdRef) (st : Nat) (o : Bytes) (d : Nat) (s s' : State) : (finish r st o d s s').alm = s'.alm := by
  unfold finish; split <;> simp
@[simp] theorem finish_pair (r : CmdRef) (st : Nat) (o : Bytes) (d : Nat) (s s' : State) : (finish r st o d s s').pair = s'.pair := by
  unfold finish; split <;> simp
@[simp] theorem finish_mrs (r : CmdRef) (st : Nat) (o : Bytes) (d : Nat) (s s' : State) : (finish r st o d s s').mrs = s'.mrs := by
  unfold finish; split <;> simp
@[simp] theorem finish_core (r : CmdRef) (st : Nat) (o : Bytes) (d : Nat) (s s' : State) : (finish r st o d s s').core = s'.core := by
  unfold finish; split <;> simp
@[simp] theorem finish_gte (r : CmdRef) (st : Nat) (o : Bytes) (d : Nat) (s s' : State) : (finish r st o d s s').gte = s'.gte := by
  unfold finish; split <;> simp
@[simp] theorem finish_fsh (r : CmdRef) (st : Nat) (o : Bytes) (d : Nat) (s s' : State) : (finish r st o d s s').fsh = s'.fsh := by
  unfold finish; split <;> simp
@[simp] theorem finish_dig (r : CmdRef) (st : Nat) (o : Bytes) (d : Nat) (s s' : State) : (finish r st o d s s').dig = s'.dig := by
  unfold finish; split <;> simp
@[simp] theorem finish_cph (r : CmdRef) (st : Nat) (o : Bytes) (d : Nat) (s s' : State) : (finish r st o d s s').cph = s'.cph := by
  unfold finish; split <;> simp
@[simp] theorem finish_rng (r : CmdRef) (st : Nat) (o : Bytes) (d : Nat) (s s' : State) : (finish r st o d s s').rng = s'.rng := by
  unfold finish; split <;> simp
@[simp] theorem finish_upd (r : CmdRef) (st : Nat) (o : Bytes) (d : Nat) (s s' : State) : (finish r st o d s s').upd = s'.upd := by
  unfold finish; split <;> simp
@[simp] theorem finish_pke (r : CmdRef) (st : Nat) (o : Bytes) (d : Nat) (s s' : State) : (finish r st o d s s').pke = s'.pke := by
  unfold finish; split <;> simp
@[simp] theorem finish_rpr (r : CmdRef) (st : Nat) (o : Bytes) (d : Nat) (s s' : State) : (finish r st o d s s').rpr = s'.rpr := by
  unfold finish; split <;> simp
@[simp] theorem finish_nfr (r : CmdRef) (st : Nat) (o : Bytes) (d : Nat) (s s' : State) : (finish r st o d s s').nfr = s'.nfr := by
  unfold finish; split <;> simp
@[simp] theorem finish_tpr (r : CmdRef) (st : Nat) (o : Bytes) (d : Nat) (s s' : State) : (finish r st o d s s').tpr = s'.tpr := by
  unfold finish; split <;> simp
@[simp] theorem finish_conf (r : CmdRef) (st : Nat) (o : Bytes) (d : Nat) (s s' : State) : (finish r st o d s s').conf = s'.conf := by
  unfold finish; split <;> simp
@[simp] theorem finish_pin (r : CmdRef) (st : Nat) (o : Bytes) (d : Nat) (s s' : State) : (finish r st o d s s').pin = s'.pin := by
  unfold finish; split <;> simp
@[simp] theorem finish_pending (r : CmdRef) (st : Nat) (o : Bytes) (d : Nat) (s s' : State) : (finish r st o d s s').pending = s'.pending := by
  unfold finish; split <;> simp

@[simp] theorem finish_rd (r : CmdRef) (st : Nat) (o : Bytes) (d : Nat) (s s' : State) (x : Nat) : (finish r st o d s s').rd x = s'.rd x := by
  simp [State.rd]

@[simp] theorem finish_fld (r : CmdRef) (st : Nat) (o : Bytes) (d : Nat) (s s' : State) (x h l : Nat) :
    (finish r st o d s s').fld x h l = s'.fld x h l := by
  simp [State.fld]

@[simp] theorem finish_bitOf (r : CmdRef) (st : Nat) (o : Bytes) (d : Nat) (s s' : State) (x i : Nat) :
    (finish r st o d s s').bitOf x i = s'.bitOf x i := by
  simp [State.bitOf]

/-- A started command does its work, and its answer is carried out. -/
theorem hostRun_running (op : Nat) (c : HostCmd) (named : List Nat) (work : State → Ans) (s : State) (h : s.ready = true)
    (hr : alreadyRunning op c s = true) : hostRun op c named work s = conclude c (work s) s := by
  simp [hostRun, h, hr]

/-- While firmware is not ready a host command changes nothing. -/
theorem hostRun_not_ready (op : Nat) (c : HostCmd) (named : List Nat) (work : State → Ans) (s : State) (h : s.ready = false) :
    hostRun op c named work s = s := by
  simp [hostRun, h]

/-- A command that needs no ticket and carries none goes to its work. -/
@[simp] theorem withTicket_none (op : Nat) (c : HostCmd) (scope m : Nat) (work : Bool → State → Ans) (s : State) (h : c.ticket = none) :
    withTicket op c scope false m work s = work false s := by
  simp [withTicket, h]

/-- A command that needs a ticket and carries none completes with the missing status. -/
@[simp] theorem withTicket_missing (op : Nat) (c : HostCmd) (scope m : Nat) (work : Bool → State → Ans) (s : State) (h : c.ticket = none) :
    withTicket op c scope true m work s = .fail m := by
  simp [withTicket, h]

end Sys2Proof.Machine
end

