-- ==== Sys2Proof/Tests/Slice0.lean ====
section
/-! SUPPORT. Small tests: ill-formed commands that WellFormed refuses, states and operands that meet the hypotheses of each statement (a hypothesis
that rests on an opaque check of Config, such as a signature that verifies, has no concrete witness), and single steps whose results are worked out
from the spec's examples. -/

namespace Sys2Proof.Tests

open Sys2Proof.Machine

set_option Elab.async false

/-! ### The states and commands of the tests -/

/-- A chartered device in SERVICE, its tiles up and its host interface served. -/
def on : State :=
  { State.reset with
    sys := { SysState.reset with mode := .service, prevMode := .notary, shipFuse := true, keeperInit := true, keeperRecord := true, tiles := [] }
    host := { State.reset.host with rrs := false } }

/-- `on` in a mode. -/
def inMode (m : Mode) : State := { on with sys := { on.sys with mode := m } }

/-- `on` with main power absent. -/
def dark : State := { on with sys := { on.sys with mainPower := false } }

/-- A basic command of PF0 with room for its output, and the expert form, a VF's, one with a ticket, one without room. -/
def cmd : HostCmd := ⟨0, 0, 7, false, 0, false, 0x1000, 65536, true, true, [], none⟩
def expert : HostCmd := { cmd with expert := true }
def vf : HostCmd := { cmd with fn := 1 }
def ticketed : HostCmd := { cmd with ticket := some [] }
def narrow : HostCmd := { cmd with outLen := 0 }

/-- The state in which a command of an opcode has been fetched and runs. -/
def running (op : Nat) (c : HostCmd) (s : State) : State :=
  s.setQueue (qkey c.fn c.queue) { Queue.reset with outstanding := [⟨c.ident.toNat, op, c.fence, .running, 0, c.staged⟩] }

/-- Such a command runs whenever firmware is ready. -/
theorem runs_running (op : Nat) (c : HostCmd) (s : State) (h : s.ready = true) (ho : c.outOk = true) : Runs (running op c s) op c := by
  refine ⟨h, ?_, ho⟩
  have hq : (running op c s).queue (qkey c.fn c.queue) = { Queue.reset with outstanding := [⟨c.ident.toNat, op, c.fence, .running, 0, c.staged⟩] } := by
    simp only [running, State.queue, State.setQueue, tget_tput_same]
  simp [alreadyRunning, hq]

/-- Nothing staged. -/
def noStage : HostStaged := ⟨0, false, 0, false, [], 0, 0⟩

/-- The states of the tests have firmware ready. -/
theorem test_ready : on.ready = true ∧ (inMode .maintenance).ready = true ∧ (inMode .zeroized).ready = true := by decide

/-! ### Well-formed commands -/

theorem test_wf_beat : (Instr.frameBeat 0 []).wf = false ∧ (Instr.headerBeat 0 (zeros 17)).wf = false ∧ (Instr.frameTail 0 []).wf = false
    ∧ (Instr.frameBeat 0 (zeros 16)).wf = true := by decide
theorem test_wf_entry : (Instr.commandFetch 0 0 (zeros 63) true (some []) []).wf = false
    ∧ (Instr.hostRegisterAccess 0 true ⟨false, 0⟩ 0 0 none).wf = false := by decide
theorem test_wf_once : (Instr.tileRelease 0 true [3, 3] []).wf = false ∧ (Instr.bootStage4 [] [] [1, 1] true []).wf = false
    ∧ (Instr.generationExchange [(4, 0, 0), (4, 1, 0)]).wf = false ∧ (Instr.tileRelease 0 true [3, 4] []).wf = true := by decide
theorem test_wf_fits : (Instr.getPair { cmd with outLen := 2 ^ 32 }).wf = false ∧ (Instr.getPair cmd).wf = true := by decide

/-- The state after a step that goes on. -/
def after (o : Out) : State := match o with
  | .next t => t
  | _ => State.reset


/-- Whether a result is a value, not a status. -/
def good {α : Type} (e : Except Nat α) : Bool := match e with
  | .ok _ => true
  | .error _ => false
/-! ### Chapter 2 -/

theorem test_PowerAndLockstep : (State.reset.sys.mode = .factory ∧ State.reset.sys.shipFuse = false) ∧ on.sys.mode ≠ .factory
    ∧ (dark.sys.mainPower = false ∧ dark.sys.keeperRecord = true)
    ∧ (let s : State := { dark with sys := { dark.sys with keeperRecord := false } }
       s.sys.mainPower = false ∧ s.sys.keeperRecord = false ∧ s.sys.keeperInit = true)
    ∧ (on.sys.mainPower = true ∧ on.tpr.window = none)
    ∧ (on.sys.cusInReset = false ∧ on.pin.resetLow = false ∧ on.core.stopped = false ∧ (16 : BitVec 5) ≠ 0 ∧ on.zeroizable = true ∧ on.tpr.zero = none
      ∧ on.mismatches.length < 2)
    ∧ (let s : State := { on with sys := { on.sys with lockstep := [0, 0] } }
       2 ≤ s.mismatches.length ∧ s.zeroizable = true)
    ∧ (on.bitOf Reg.CUS_BOOT 0 = true ∧ bits (0x1C5A0004 : Word) 31 16 = 0x1C5A ∧ bits (0x1C5A0004 : Word) 2 0 ≤ 4)
    ∧ (on.wrB Reg.CUS_BOOT 0 false).bitOf Reg.CUS_BOOT 0 = false
    ∧ (let s := dark.setSlot 3 { Slot.empty with state := 1, incarn := 4 }
       s.sys.mainPower = false ∧ (s.slot 3).state ≠ 0 ∧ ((s.slot 3).incarn + 1) % 256 ≠ 0) := by decide

theorem test_ResetsAndTheirEnd : dark.sys.mainPower = false ∧ on.sys.mainPower = true
    ∧ (bits (0x5A170001 : Word) 31 16 = 0x5A17 ∧ bits (0x5A170001 : Word) 1 0 = 1 ∧ bits (0x5A170002 : Word) 1 0 = 2
      ∧ bits (0x5A170033 : Word) 1 0 = 3 ∧ on.tileCond (bits (0x5A170033 : Word) 5 4) ≠ .held ∧ State.reset.tileCond 3 = .held
      ∧ bits (0x5A160001 : Word) 31 16 ≠ 0x5A17 ∧ (3 : Fin 4) ≠ 0)
    ∧ on.tileCond 3 = .up ∧ State.reset.tileCond 0 ≠ .up
    ∧ (let s := running 0x0120 expert on
       s.busy = false ∧ s.cer.phase = .idle ∧ s.tileCond 3 ≠ .held ∧ (1 : BitVec 8).toNat = 1 ∧ (4 : BitVec 8).toNat > 3)
    ∧ (running 0x0120 cmd { on with sys := { on.sys with pend := some ⟨.maintenance, MaintSet.all, none⟩ } }).busy = true
    ∧ (running 0x0120 expert { on with sys := { on.sys with tiles := [(3, .held)] } }).tileCond 3 = .held
    ∧ on.sys.cusInReset = false
    ∧ (let s : State := { on.wrF Reg.SYS_BOOT_STAGE 3 0 2 with sys := { on.sys with cusInReset := true } }
       s.sys.mainPower = true ∧ s.sys.cusInReset = true ∧ s.tpr.zero = none ∧ s.bitOf Reg.TPR_STATUS 1 = false ∧ s.pin.resetLow = false
         ∧ s.fld Reg.SYS_BOOT_STAGE 3 0 < 3)
    ∧ (let s : State := { on.wrF Reg.SYS_BOOT_STAGE 3 0 3 with sys := { on.sys with cusInReset := true } }
       let u : State := { s.wrB Reg.FSH_CTL 0 false with sys := { s.sys with cusInReset := false } }
       3 ≤ s.fld Reg.SYS_BOOT_STAGE 3 0 ∧ s.bitOf Reg.SYS_BOOT_STAGE 4 = false ∧ (lockstepTested 0 u).bitOf Reg.CUS_STATUS 0 = false
         ∧ (lockstepTested 31 u).bitOf Reg.CUS_STATUS 0 = true ∧ ∀ e ∈ s.host.queues, e.2.stalled = [])
    ∧ (let s := State.reset.wrF Reg.SYS_BOOT_STAGE 3 0 5
       s.sys.mainPower = true ∧ s.tileCond 3 = .held ∧ 5 ≤ s.fld Reg.SYS_BOOT_STAGE 3 0 ∧ State.reset.fld Reg.SYS_BOOT_STAGE 3 0 < 5) := by decide
theorem test_runs_reset : Runs (running 0x0120 expert on) 0x0120 expert := runs_running _ _ _ (by decide +kernel) rfl

/-- The state of a device at a start-up stage. -/
def stage (k : Nat) (s : State) : State := s.wrF Reg.SYS_BOOT_STAGE 3 0 k

theorem test_StageZero : (scanFlash (energyTest 0 (lockstepTested 0 (stage 0 on)))).bitOf Reg.CUS_STATUS 0 = false
    ∧ (let u := scanFlash (energyTest 0 (lockstepTested 31 (stage 0 on)))
       u.bitOf Reg.CUS_STATUS 0 = true ∧ ((List.range 3).filter (fun n => (u.noise n).stat == 3)).length < 2 ∧ u.rngReady = false ∧ u.sourcesPassed < 2) := by
  constructor <;> (simp only [scanFlash]; split <;> decide +kernel)
theorem test_StartUpStages : (stage 0 on).atStage 0 = true
    ∧ (stage 1 on).atStage 0 = false ∧ (stage 4 on).bitOf Reg.MNT_STATUS 5 = false
    ∧ (stage 2 on).atStage 2 = true ∧ (stage 3 on).atStage 3 = true ∧ (stage 4 on).atStage 4 = true ∧ (stage 5 on).atStage 5 = true
    ∧ (stage 6 on).atStage 6 = true ∧ (stage 6 on).chartered = false
    ∧ ((stage 7 (inMode .notary)).atStage 7 = true ∧ (inMode .notary).nfr.check = none ∧ (inMode .notary).plane = .notary)
    ∧ (let s := (stage 7 on).setCharter 0 { Charter.none with role := 1 }
       let h := s.wrF Reg.SYS_HOLD 2 0 1
       s.chartered = true ∧ h.chartered = true ∧ h.held = true ∧ h.sys.mode = .service) := by decide

theorem test_ModesAndStatus :
    (let s := running 0x0111 cmd { on with sys := { on.sys with pend := some ⟨.maintenance, MaintSet.all, some cmd.ref⟩ } }
     s.sys.pend = some ⟨.maintenance, MaintSet.all, some cmd.ref⟩ ∧ ((s.queue 0).find 7).isSome = true ∧ s.ldg.evq.length < 4096 ∧ s.ldg.evHeld = [])
    ∧ (on.queue 0).orphan 7 = false ∧ (on.queue 0).backlog.length < 64 ∧ on.ldg.heldReplies = []
    ∧ (bits (4 : Word) 2 0 = Mode.maintenance.code ∧ on.sys.mode = .service ∧ on.busy = false)
    ∧ (bits (3 : Word) 2 0 = Mode.service.code ∧ (inMode .maintenance).sys.mode = .maintenance ∧ (inMode .maintenance).held = false)
    ∧ (bits (2 : Word) 2 0 = Mode.ceremony.code ∧ (inMode .notary).busy = false)
    ∧ (let s : State := { inMode .ceremony with cer := { on.cer with phase := .opened, openedFrom := .maintenance } }
       s.busy = false ∧ s.cer.phase = .opened ∧ s.closeMode.1 = .notary ∧ bits (1 : Word) 2 0 = Mode.notary.code
         ∧ s.cer.openedFrom ≠ s.closeMode.1 ∧ s.cer.openedFrom ≠ .zeroized ∧ bits (4 : Word) 2 0 = s.cer.openedFrom.code)
    ∧ (bits (7 : Word) 2 0 = Mode.zeroized.code ∧ on.zeroizable = true)
    ∧ ({ on with sys := { on.sys with pend := some ⟨.maintenance, MaintSet.all, none⟩ } } : State).busy = true
    ∧ Mode.ofCode (bits (5 : Word) 2 0) = none ∧ (65 : BitVec 8).toNat > 64
    ∧ ((inMode .maintenance).wrF Reg.SYS_HOLD 2 0 1).held = true
    ∧ (maintCheck cmd 0 on = none ∧ maintCheck expert 1 on = some 0x1101)
    ∧ (let s := { inMode .maintenance with sys := { (inMode .maintenance).sys with maint := MaintSet.all } }
       maintCheck vf 0 (inMode .maintenance) = some 0x1101 ∧ maintCheck cmd 0 s = none
         ∧ (s.sys.maint.remove (maintNamed cmd 0) s.tenantMap).isEmpty = true ∧ s.held = false ∧ (s.wrF Reg.SYS_HOLD 2 0 4).held = true)
    ∧ (64 : BitVec 8).toNat ≤ 64 ∧ (zeros 32).length = 32 := by decide +kernel
theorem test_runs_status : Runs (running 0x0101 cmd on) 0x0101 cmd ∧ Runs (running 0x0111 cmd (inMode .maintenance)) 0x0111 cmd :=
  ⟨runs_running _ _ _ (by decide +kernel) rfl, runs_running _ _ _ (by decide +kernel) rfl⟩

/-! ### Chapter 3 -/

/-- `on` with a queue at key 0. -/
def withQueue (q : Queue) : State := on.setQueue 0 q

/-- A live queue of 16 entries with one to fetch. -/
def liveQueue : Queue := { Queue.reset with sqSize := 4, cqSize := 4, ctl := 0x00010101, sqTail := 1 }

/-- The entry of a basic GET_STATUS with identifier 7 and parameters inline. -/
def statusEntry : Bytes := [0x01, 0x01, 0, 7, 0, 0, 0, 0] ++ zeros 56

theorem test_DoorbellEntersMailbox : on.hostUp = true ∧ queueExists 0 7 = true ∧ on.ideOk 0 none = true
    ∧ (let s := (on.wrB Reg.MBX_CTL 0 true).wrB (Reg.MBX_BIND_HI (channelOf 0 7)) 31 true
       s.hostUp = true ∧ s.ideOk 0 none = true ∧ s.bound (channelOf 0 7) = true ∧ s.bitOf Reg.MBX_CTL 0 = true ∧ (s.fifo (channelOf 0 7)).length < 8)
    ∧ (let s := (on.wrB (Reg.MBX_BIND_HI 7) 31 true).setFifo 7 [1, 2, 3, 4, 5, 6, 7, 8]
       ¬ (s.bound 7 = true ∧ s.bitOf Reg.MBX_CTL 0 = true ∧ (s.fifo 7).length < 8)) := by decide
theorem test_doorbell_value :
    (after (execSqTailDoorbell 0 7 5 none ((on.wrB Reg.MBX_CTL 0 true).wrB (Reg.MBX_BIND_HI 7) 31 true))).fifo 7 = [5] := by decide

theorem test_MailboxesAreFifos : boundSender on (on.fld Reg.MBX_SEND_SEL 9 0) 0 = true ∧ on.bound (on.fld Reg.MBX_SEND_SEL 9 0) = false
    ∧ (on.wrB (Reg.MBX_BIND_HI 0) 31 true).bound 0 = true ∧ (on.fifo 0).length < 8 ∧ on.fifo (on.fld Reg.MBX_RECV_SEL 9 0) = []
    ∧ (on.setFifo 0 [9]).fifo (on.fld Reg.MBX_RECV_SEL 9 0) = 9 :: []
    ∧ 8 ≤ ((on.setFifo 0 [1, 2, 3, 4, 5, 6, 7, 8]).fifo 0).length ∧ boundSender on 0 1 = false
    ∧ tget (dflt none) on.gte.stages Reg.MBX_SEND_LO = none
    ∧ (let s : State := { on with gte := { on.gte with stages := tput (dflt none) on.gte.stages Reg.MBX_SEND_LO (some (0, 5)) } }
       tget (dflt none) s.gte.stages Reg.MBX_SEND_LO = some (0, 5)) := by decide

theorem test_QueueControl : ((withQueue Queue.reset).queue 0).live = false ∧ ((withQueue Queue.reset).queue 0).cfgOk = false
    ∧ ((withQueue { liveQueue with ctl := 0 }).queue 0).live = false ∧ ((withQueue { liveQueue with ctl := 0 }).queue 0).cfgOk = true
    ∧ ((withQueue liveQueue).queue 0).live = true ∧ 2 ^ liveQueue.sqSize ≤ 16 ∧ (liveQueue.tailTo 16).error = true ∧ (liveQueue.tailTo 15).error = false
    ∧ ((withQueue { liveQueue with error := true }).queue 0).error = true ∧ (withQueue liveQueue).ready = true
    ∧ (withQueue liveQueue).queueServed 0 = true := by decide

theorem test_HostRegisterWidth : on.hostUp = true ∧ on.ideOk 0 none = true ∧ (on.wrB (Reg.MBX_BIND_HI 0) 10 true).ideOk 0 none = false
    ∧ queueExists 0 3 = true ∧ 63 < vectorsOf 0 ∧ vectorsOf 1 = 4 ∧ bit (0x1 : Word) 0 = true ∧ 0x11C + 0x40 * 3 = 0x1DC := by decide

theorem test_FetchChecks : (withQueue liveQueue).ready = true ∧ (withQueue liveQueue).queueServed 0 = true ∧ statusEntry.length = 64
    ∧ entryWellFormed statusEntry 0 0 = true ∧ entryWellFormed (statusEntry.set 4 8) 0 0 = false
    ∧ (((withQueue liveQueue).queue 0).find 7).isSome = false
    ∧ (({ liveQueue with outstanding := [⟨7, 0x0101, false, .waiting, 0, noStage⟩] } : Queue).find 7).isSome = true
    ∧ checkOp (withQueue liveQueue) 0x0101 0 false false 0 [] true = none ∧ (withQueue liveQueue).outstandingOf 0 < outstandingLimit 0
    ∧ checkOp (withQueue liveQueue) 0x0100 0 false false 0 [] true = some 0x1F01 ∧ checkOp (withQueue liveQueue) 0x0B10 0 false false 0 [] true = some 0x2101
    := by decide

/-- Two commands of one queue that wait, the second with FENCE. -/
def twoWaiting : Queue := { liveQueue with outstanding := [⟨7, 0x0101, false, .waiting, 0, noStage⟩, ⟨8, 0x0101, true, .waiting, 0, noStage⟩] }

theorem test_CommandsStartInRingOrder :
    (((withQueue twoWaiting).queue 0).outstanding.find? (fun o => o.stage == .waiting) = some ⟨7, 0x0101, false, .waiting, 0, noStage⟩)
    ∧ (let q := (withQueue { twoWaiting with outstanding := [⟨6, 0x0101, false, .running, 0, noStage⟩, ⟨8, 0x0101, true, .waiting, 0, noStage⟩] }).queue 0
       q.outstanding.find? (fun o => o.stage == .waiting) = some ⟨8, 0x0101, true, .waiting, 0, noStage⟩ ∧ earliest 8 q.outstanding = false)
    ∧ ((withQueue twoWaiting).queue 0).orphan 7 = false ∧ (withQueue twoWaiting).parked ⟨0, 0, 7⟩ = false
    ∧ (let s := withQueue { liveQueue with outstanding := [] }
       let v := s.advance 2000000000000
       s.ready = true ∧ s.host.lastWatchdog + 100 ≤ v.ms
         ∧ (oldest (v.waitingCmds.filter (fun w => decide (w.fetched + 1000 * s.fld Reg.MBX_WDOG 9 0 < v.ms)))).isSome = false)
    ∧ (let s := { withQueue twoWaiting with now := 0 }
       let v := s.advance 2000000000000
       s.ready = true ∧ s.host.lastWatchdog + 100 ≤ v.ms
         ∧ (oldest (v.waitingCmds.filter (fun w => decide (w.fetched + 1000 * s.fld Reg.MBX_WDOG 9 0 < v.ms)))).isSome = true)
    ∧ (let q : Queue := { liveQueue with backlog := [⟨7, 0, 0, 0, false, 0, 0, [], 0⟩], unsignalled := 1 }
       q.live = true ∧ q.hasRoom = true ∧ q.backlog ≠ [] ∧ q.stalled = [] ∧ 0 < q.unsignalled ∧ bits q.ctl 27 16 ≠ 0) := by decide

theorem test_FunctionResets : on.hostUp = true ∧ on.sys.recovery = false ∧ on.host.rrs = false
    ∧ ({ on with host := { on.host with spdmAuth := true } } : State).host.spdmAuth = true
    ∧ (∀ e ∈ on.host.queues, e.1 = 0 → e.2 = on.queue 0) := by decide

/-! ### Chapters 4 and 5 -/

/-- A port in a state, with a link from state 2 on, and a frame arriving there. -/
def portAt (p st : Nat) (s : State) : State := setPortState p st (decide (2 ≤ st)) s
def arriving (f : InFrame) (s : State) : State := s.setPort f.port { s.port f.port with cur := some f }

/-- A frame that has just started at port 511. -/
def fresh : InFrame := newFrame on 511 .unknown

/-- `on` with the cluster of port 511 enabled. -/
def accepting : State := on.wrB (Reg.DPL_CTL 63) 0 true

theorem test_FramesArriveInBeats :
    (let s := portAt 511 3 accepting
     (s.advance 0).portLink 511 = true ∧ (s.advance 0).member 511 = false ∧ (s.advance 0).live 511 = none
       ∧ startRule (clearFragment 511 (countFec 511 3 2 (s.advance 0))) 511 = none)
    ∧ (let s := portAt 511 2 on
       startRule (clearFragment 511 (countFec 511 3 2 (s.advance 0))) 511 = some 0x118 ∧ (on.advance 0).portLink 511 = false ∧ on.live 511 = none)
    ∧ (let s := arriving fresh (portAt 511 3 on)
       s.live 511 = some fresh ∧ fresh.port = 511 ∧ fresh.kind = .unknown ∧ (fresh.data ++ (zeros 16).take 16).length ≤ 9216 ∧ fresh.egress = none ∧ fresh.idx = none
         ∧ fresh.res = none ∧ fresh.hold = none ∧ fresh.under = false ∧ ({ fresh with under := true } : InFrame).under = true ∧ s.verifyWaits 511 = false
         ∧ (let d : InFrame := { fresh with data := fresh.data ++ (zeros 16).take 16 }
            14 ≤ d.body.length ∧ isControl d.body = false)
         ∧ ({ fresh with hdrDone := true } : InFrame).hdrDone = true ∧ s.sealing = true ∧ (arriving fresh (portAt 511 3 (inMode .zeroized))).sealing = false
         ∧ (inMode .zeroized).plane ≠ .notary) := by decide

theorem test_FrameTailsLeaveOneLeaf :
    (let s := arriving fresh (portAt 511 3 on)
     (s.port 511).cur = some fresh ∧ fresh.verdict = 0 ∧ fresh.hdrDone = false ∧ fresh.waiting = false ∧ fresh.egress = none ∧ fresh.res = none
       ∧ fresh.idx = none ∧ fresh.under = false ∧ macRule ((fresh.data ++ [1].take 16)) = some 0x104 ∧ s.verifyWaits 511 = false ∧ s.sealing = true
       ∧ fresh.bitOf (Reg.PRT_CTL 511) 3 = false)
    ∧ (let s := arriving fresh (portAt 511 3 (setEngine 511 false 0x7FF on))
       (s.port 511).cur = some fresh ∧ s.verifyWaits 511 = true)
    ∧ (on.port 511).cur = none ∧ ({ fresh with kind := .discarded 0x118 } : InFrame).isDiscarded = true ∧ fresh.isDiscarded = false := by decide

/-- Frames of 60 bytes and their FCS: one without IP, and one whose S-tag no C-tag follows. -/
def plainBytes : Bytes := zeros 60
def taggedBytes : Bytes := zeros 12 ++ [0x88, 0xA8, 0, 1, 0x08, 0] ++ zeros 42

theorem test_TailsOfFrames : macRule (plainBytes ++ fcs plainBytes) = none ∧ macRule (taggedBytes ++ fcs taggedBytes) = none
    ∧ (encapWhole plainBytes (fresh.fld (Reg.DPL_SEAL_ENC 63) 15 0) (fresh.fld (Reg.DPL_SEAL_ENC 63) 31 16) = .unsealed 0 14)
    ∧ (encapWhole taggedBytes (fresh.fld (Reg.DPL_SEAL_ENC 63) 15 0) (fresh.fld (Reg.DPL_SEAL_ENC 63) 31 16) = .fault) := by decide +kernel


/-- A frame of 64 bytes that waits whole at port 3, from port 0. -/
def queued : EgFrame := ⟨1, 0, 3, 64, true, zeros 64, false, false, false, false, some ⟨[], 0, 0, 0, 0, 0⟩, none, none⟩
def queueAt (p : Nat) (q : List EgFrame) (s : State) : State := s.setPort p { s.port p with queue := q }

theorem test_EgressQueuesMove :
    (let s := queueAt 3 [queued] on
     ((s.port 3).queue.find? (fun g => clusterOf g.src == 0 && !g.crossed) = some queued) ∧ s.retraining 0 0 = false ∧ s.routeOk 0 3 = true
       ∧ s.egressRoom 3 64 false = true ∧ ((on.wrB (Reg.DPL_FAB_ROUTE 0) 3 true).routeOk 0 511 = false) ∧ s.dp.records.find? (fun r => r.dst == 3) = none)
    ∧ (let r : FabRecord := ⟨1, 511, 3⟩
       let s : State := { on with dp := { on.dp with records := [r] } }
       s.dp.records.find? (fun r => tileOf r.src == 3 && r.dst == 3) = some r)
    ∧ (let g := { queued with src := 511, crossed := true }
       let s := portAt 3 3 (queueAt 3 [g] on)
       (s.port 3).queue.find? (fun g => g.crossed && g.complete && !g.acked && tileOf g.src == 3) = some g ∧ s.member 3 = false
         ∧ s.moving 3 true = false ∧ s.portState 3 = 3 ∧ (s.port 3).pause = 0
         ∧ (s.port 3).queue.any (fun g => g.onWire) = false ∧ s.nextOut 3 = some g ∧ g.complete = true ∧ g.dst = 3 ∧ g.leaf ≠ none)
    ∧ (let g := { queued with onWire := true, complete := false, num := 1 }
       let f : InFrame := { newFrame on 0 .seal with num := 1, egress := some 3 }
       let s := arriving f (queueAt 3 [g] on)
       (s.port 3).queue.find? (fun g => g.onWire) = some g ∧ s.source g = some f ∧ g.src ≠ 3)
    ∧ (portAt 511 3 on).portLink 511 = true ∧ (portAt 511 3 on).portState 511 = 3 ∧ (portAt 511 3 on).bitOf (Reg.PRT_CTL 511) 5 = false
    ∧ ((portAt 511 3 on).wrB (Reg.PRT_CTL 511) 5 true).bitOf (Reg.PRT_CTL 511) 5 = true
    ∧ (portAt 511 3 on).member 511 = false ∧ (portAt 511 3 on).live 511 = none ∧ startRule (clearFragment 511 (portAt 511 3 accepting)) 511 = none
    ∧ startRule (clearFragment 511 (portAt 511 3 on)) 511 = some 0x118
    ∧ (let g := { queued with src := 511, crossed := true, complete := false }
       (portAt 3 3 (queueAt 3 [g] on)).nextOut 3 = some g ∧ g.complete = false) := by decide

theorem test_PortStates : on.fld (Reg.PRT_CTL 511) 7 6 = 0 ∧ on.member 511 = false ∧ on.portState 511 = 0
    ∧ on.bitOf (Reg.PRT_STATUS 511) 4 = false ∧ on.plane ≠ .zeroized ∧ (portAt 511 1 on).portState 511 = 1 ∧ (portAt 511 2 on).portState 511 = 2
    ∧ ((portAt 511 2 on).wrB (Reg.PRT_CTL 511) 1 true).releaseOn 511 = true ∧ (portAt 511 3 on).portState 511 = 3
    ∧ (portAt 511 3 on).portLink 511 = true ∧ bit (0x7C3D0001 : Word) 0 = true ∧ bits (0x7C3D0001 : Word) 31 16 = 0x7C3D
    ∧ (on.port 511).takeover = none ∧ ((on.setPort 511 { on.port 511 with takeover := some 1 }).port 511).takeover ≠ none
    ∧ on.portState (510 + 1) = 0 ∧ 510 % 2 = 0 ∧ on.plane ≠ .notary
    ∧ bits (0x40 : Word) 7 6 ≠ 0 ∧ bit (0x40 : Word) 0 = on.bitOf (Reg.PRT_CTL 511) 0 ∧ bit (0x40 : Word) 1 = on.bitOf (Reg.PRT_CTL 511) 1
    ∧ bit (0x40 : Word) 8 = false := by decide

theorem test_enable_trains : (after (execPortEnable 511 on)).portState 511 = 1 := by decide

/-- A flow of a terminal in cluster 63, at the way its set gives it, once with a successor egress key awaited. -/
def idleSetup : Setup := ⟨5, 9, 0, false, false, none, false, false, false, 0, none, none, none, none, none⟩
def withFlow (f : Flow) (s : State) : State := setFlow (wayKey 63 (flowSet s 63 f.tenant f.terminal f.dir) 3) (some f) s

theorem test_engine_free : on.portOf 1151 = none := by decide +kernel
theorem test_EnginesAndLinks : (on.port 511).takeover = none
    ∧ (let s := on.setPort 511 { on.port 511 with takeover := some 1 }
       (s.port 511).takeover = some 1 ∧ (s.port 511).resetPending = false ∧ s.spareFree (clusterOf 511) false = true ∧ s.member 511 = false
         ∧ s.live 511 = none ∧ (s.port 511).moved = [] ∧ ((arriving fresh s).live 511).isSome = true)
    ∧ on.inQueues (fun g => g.crossed && !g.acked && tileOf g.src == 0 && tileOf g.dst == 3) = []
    ∧ (on.wrB (Reg.DPL_FAB_STATUS 0) 7 true).retraining 0 3 = true := by decide
theorem test_flow_found :
    (let f := { setupFlow idleSetup with egWait := true }
     let k := wayKey 63 (flowSet on 63 5 9 0) 3
     (withFlow f on).findFlow 63 5 9 0 = some k ∧ (withFlow f on).flowAt k = some f ∧ f.egWait = true)
    ∧ (withFlow (setupFlow idleSetup) on).findFlow 63 5 9 0 ≠ none := by decide +kernel

/-! ### Chapter 6 -/

/-- `on` with tenant 5 of domain 2, its range of one unit at unit 7 in each tile, and every image page loaded. -/
def home : State :=
  let s := { on with cer := { on.cer with tenants := [(5, ⟨true, 2⟩)] }, flow := { on.flow with allLoaded := true } }
  [0, 1, 2, 3].foldl (fun (s : State) t => s.wr (Reg.TRM_TNT_LO t 5) (BitVec.ofNat 32 (7 + 2 ^ 16))) s

/-- The slot of the last terminal of tenant 5, an ACTIVE entry, a set-up of its flow and a LIVE flow of it. -/
def slot5 : Nat := 4096 * 7 + 4095
def active : TermEntry := { TermEntry.free with state := 1, region := 4095, ctx := true }
def setup5 : Setup := ⟨5, 4095, 0, false, false, none, false, false, false, 0, none, none, none, none, none⟩
def flow5 : Flow := { setupFlow setup5 with stage := .live }
def withEntry (e : TermEntry) (s : State) : State := { s with flow := { s.flow with terms := [(slot5, e)], image := [(slot5, e)] } }
def way5 : Nat := wayKey 63 (flowSet on 63 5 4095 0) 3

theorem test_FlowSetupRuns :
    (let s := putSetups 63 [setup5] (withEntry active home)
     s.setupOf 63 5 4095 0 = some setup5 ∧ s.termSlot 3 5 4095 = some slot5 ∧ s.termSlot 3 5 4096 = none ∧ s.setupsBusy 63 < 32
       ∧ ({ s with flow := { s.flow with allLoaded := false } } : State).pageLoaded slot5 = false ∧ s.pageLoaded slot5 = true
       ∧ (s.term slot5).state = 1 ∧ (s.term slot5).mode = 0 ∧ (s.term slot5).home 0 = none ∧ s.bitOf (Reg.FLW_CTL 63) 0 = true
       ∧ s.bitOf (Reg.TRM_CTL 3) 0 = true ∧ s.unitOverlap 3 5 7 = false ∧ s.leafRefuses 63 = false ∧ (s.region 5 4095).present = true
       ∧ s.keys.badL2.contains 5 = false ∧ s.waitingIn 63 = [] ∧ s.arriving 63 5 4095 0 = [])
    ∧ (let x := { setup5 with started := true, claimed := true }
       let s := putL3 63 ⟨5, 4095, 0, ⟨zeros 32, zeros 32⟩⟩ (putSetups 63 [x] (withEntry active home))
       s.setupOf 63 5 4095 0 = some x ∧ x.l4 = none ∧ x.needsS (s.term slot5) = true ∧ s.l3Key 63 5 4095 = some (zeros 32))
    ∧ (let x := { setup5 with started := true, claimed := true, l4 := some (zeros 32), skey := some [], ekey := some [], hkey := some [], way := some 0 }
       x.needsS active = false ∧ x.needsE = false ∧ x.needsH active = false ∧ x.successor = false ∧ x.way = some 0 ∧ x.begun + 1000000 < 1000001)
    := by decide
theorem test_a_way_is_free : (let s := putSetups 63 [setup5] (withEntry active home)
    (waysOf s 63 5 4095 0).find? (fun k => s.flowAt k = none)) ≠ none := by decide +kernel

theorem test_FlowsMoveAndAge :
    (let s := setFlow way5 (some flow5) (withEntry active home)
     s.findFlow 63 5 4095 0 = some way5 ∧ s.flowAt way5 = some flow5 ∧ s.claimant 63 5 4095 0 = none ∧ flow5.inflight = 0
       ∧ s.flowSlot way5 flow5 = some slot5 ∧ (s.term slot5).state ≠ 0 ∧ twf (dflt none) s.flow.flows = true ∧ way5 / 16384 = 63
       ∧ flow5.stage ≠ .setup ∧ flow5.idle < s.fld (Reg.FLW_TIMEOUT 63) 11 0
       ∧ s.fld (Reg.FLW_TIMEOUT 63) 11 0 ≤ ({ flow5 with idle := 4095 } : Flow).idle ∧ flow5.stage = .live ∧ flow5.detached = false
       ∧ (putSetups 0 [{ setup5 with migrating := some 63 }] s).claimant 63 5 4095 0 ≠ none)
    ∧ (let f := { flow5 with dir := 1, sctx := zeros 16 }
       let k := wayKey 63 (flowSet on 63 5 4095 1) 3
       let s := setFlow k (some f) (withEntry active home)
       s.findFlow 63 5 4095 1 = some k ∧ s.flowAt k = some f ∧ s.flowSlot k f = some slot5 ∧ (s.term slot5).sgen = f.sgen
         ∧ (s.term slot5).context = f.sctx ∧ (s.term slot5).sgen ≠ ({ f with sgen := 1 } : Flow).sgen) := by decide +kernel

theorem test_RegisterImage :
    (let s := { on with flow := { on.flow with demand := [32767], image := [(slot5, active)] } }
     s.flow.demand = 32767 :: [] ∧ s.flow.setups = [] ∧ s.flow.allLoaded = false ∧ tget (dflt false) s.flow.loaded 32767 = false
       ∧ twf noEntry s.flow.image = true)
    ∧ on.flow.demand = [] ∧ home.bitOf (Reg.TRM_CTL (stackTile 8388607)) 1 = true ∧ home.pageLoaded 8388607 = true ∧ home.writeWaits 4 = false
    ∧ on.pageLoaded 8388607 = false ∧ tget noEntry [(slot5, active)] slot5 ≠ TermEntry.free
    ∧ (let s : State := { on.wrF Reg.SYS_BOOT_STAGE 3 0 6 with flow := { on.flow with nextPage := 32767 } }
       s.flow.nextPage = (32767 : Fin 32768).val ∧ 6 ≤ s.fld Reg.SYS_BOOT_STAGE 3 0 ∧ s.flow.setups = [] ∧ s.flow.nextPage ≠ (0 : Fin 32768).val)
    ∧ (let s : State := { on with flow := { on.flow with flushing := true } }
       s.flow.flushing = true ∧ s.writeWaits 2 = false ∧ s.writeWaits 4 = true ∧ on.flow.flushing = false) := by decide
theorem test_flush_runs : Runs (running 0x031A cmd on) 0x031A cmd := runs_running _ _ _ (by decide +kernel) (by decide +kernel)
theorem test_writeback : tget noEntry (writeLine slot5 { home with flow := { home.flow with terms := [(slot5, active)] } }).flow.image slot5 = active := by
  decide +kernel

theorem test_ExchangesComplete :
    (let x : Exchange := ⟨5, 4095, 1, [], [], 0, 0, 0, false⟩
     let s := setExchQ 3 [x] (withEntry active home)
     s.exchQ 3 = x :: [] ∧ s.unitServes (tileUnitNo 3 15) = true ∧ s.termSlot 3 5 4095 = some slot5 ∧ (s.term slot5).state = 1
       ∧ s.flow0 5 4095 = none ∧ (s.term slot5).state ≠ 0 ∧ (s.term slot5).state ≠ 2 ∧ x.retried = false ∧ ((withEntry TermEntry.free s).term slot5).state ≠ 1) := by decide

theorem test_TerminalsAreManaged :
    (let c := { vf with fn := 6, expert := true }
     let s := running 0x0310 c (withEntry TermEntry.free home)
     Runs s 0x0310 c ∧ s.slotRange c.own 4095 1 = some [slot5] ∧ s.slotRange c.own 4095 2 = none ∧ (s.entryNow slot5).state = 0
       ∧ (s.region c.own 4095).present = true ∧ (running 0x0310 c (withEntry active home)).entryNow slot5 = active)
    ∧ (let c := { vf with fn := 6 }
       let s := running 0x0313 c (withEntry active home)
       Runs s 0x0313 c ∧ s.termSlot 0 (c.target 0) 4095 = some slot5 ∧ (s.entryNow slot5).state = 1)
    ∧ (let c := { vf with fn := 6 }
       let s := running 0x0314 c (withEntry { active with state := 2, qreason := 0xF } home)
       Runs s 0x0314 c ∧ c.ticket = none ∧ (s.entryNow slot5).state = 2 ∧ (s.entryNow slot5).qreason = 0xF)
    ∧ (let c := { vf with fn := 6 }
       let s := running 0x0318 c (withEntry { active with sgen := 254 } home)
       Runs s 0x0318 c ∧ s.pageLoaded slot5 = true ∧ s.flow0 c.own 4095 = none ∧ (s.term slot5).sgen < 255 ∧ (s.entryNow slot5).l4ver < 1) :=
  ⟨⟨runs_running _ _ _ (by decide +kernel) (by decide +kernel), by decide +kernel⟩, ⟨runs_running _ _ _ (by decide +kernel) (by decide +kernel), by decide +kernel⟩,
   ⟨runs_running _ _ _ (by decide +kernel) (by decide +kernel), by decide +kernel⟩, ⟨runs_running _ _ _ (by decide +kernel) (by decide +kernel), by decide +kernel⟩⟩

theorem test_FlowSettingsAndQueries :
    (let s := running 0x0312 vf on
     Runs s 0x0312 vf ∧ (128 ≤ (128 : BitVec 8).toNat) ∧ 512 ≤ (512 : BitVec 16).toNat ∧ (127 : BitVec 8).toNat < 128 ∧ (511 : BitVec 16).toNat < 512
       ∧ [((3 : BitVec 8), (3 : BitVec 8))].any (fun z => z.1 == z.2) = true ∧ [((3 : BitVec 8), (4 : BitVec 8))].all (fun z => z.1 != z.2) = true)
    ∧ (let s := running 0x0317 cmd home
       Runs s 0x0317 cmd ∧ (s.tenant 5).present = true ∧ (s.tenant 6).present = false ∧ (2047 : BitVec 16).toNat + (1 : BitVec 16).toNat = 2048
         ∧ s.tenants.any (fun u => u != 5 && rangesMeet 2047 1 (s.range 0 u).1 (s.range 0 u).2) = false ∧ s.allocatedFrom 5 0 = false
         ∧ 2048 < (2047 : BitVec 16).toNat + (2 : BitVec 16).toNat)
    ∧ (let c := { vf with fn := 6 }
       let s := running 0x0301 c (withEntry { active with home0 := some 63 } (setFlow way5 (some flow5) home))
       Runs s 0x0301 c ∧ s.termSlot 0 (c.target 0) 4095 = some slot5 ∧ s.termSlot 0 (c.target 0) 4096 = none ∧ c.expert = false
         ∧ (s.entryNow slot5).home (0 : Fin 2) = some 63 ∧ (s.entryNow slot5).home (1 : Fin 2) = none) :=
  ⟨⟨runs_running _ _ _ (by decide +kernel) (by decide +kernel), by decide +kernel⟩, ⟨runs_running _ _ _ (by decide +kernel) (by decide +kernel), by decide +kernel⟩,
   ⟨runs_running _ _ _ (by decide +kernel) (by decide +kernel), by decide +kernel⟩⟩

/-! ### Chapter 7 -/

/-- A LIVE slot of a class, owner and attributes, with a limit of 2^20 invocations. -/
def live (cls owner : Nat) (attr : BitVec 8) : Slot := { Slot.empty with shareA := 1, state := 1, cls := cls, len := 3, owner := owner, attr := attr, limitExp := 20 }

/-- `home` with a KEK, an exportable key and a signing key of tenant 5 in the last pool slots, and keys for L0 and the tenant's L2. -/
def keyed : State :=
  ((((home.setSlot 65535 (live 0x09 5 0x06)).setSlot 65534 (live 0x0B 5 0x09)).setSlot 65533 (live 0x0A 5 0x20)).setSlot 0 (live 0 0xFFFF 0)).setSlot
    (l2Slot 5) (live 2 5 0)
def vf5 : HostCmd := { vf with fn := 6 }
def expert5 : HostCmd := { vf5 with expert := true }

theorem test_VaultAndMint :
    (let s := { keyed with keys := { keyed.keys with mintQ := [⟨3, 63, 5, 4095, 0⟩], deliver := [(63, ⟨5, 4095, 0, ⟨zeros 32, zeros 32⟩⟩)] } }
     s.mintUp = true ∧ s.drbgMasks = true ∧ s.keys.mintQ.find? (fun q => q.rank == 3 && !s.purged q.tenant q.region) = some ⟨3, 63, 5, 4095, 0⟩
       ∧ (s.liveKey (l2Slot 5)).isSome = true ∧ s.linkOk 3 = true
       ∧ s.keys.deliver = (63, ⟨5, 4095, 0, ⟨zeros 32, zeros 32⟩⟩) :: [] ∧ (s.liveKey 0).isSome = true)
    ∧ keyed.l3Waits = false ∧ keyed.keys.mintQ = [] ∧ keyed.bitOf Reg.MNT_STATUS 5 = false ∧ (keyed.wrB Reg.MNT_STATUS 5 true).bitOf Reg.MNT_STATUS 5 = true
    ∧ keyed.keys.mintRetest = false 
    ∧ (let s : State := { keyed.wrB Reg.RNG_STATUS 1 true with rng := { keyed.rng with served := 2 ^ 24 } }
       s.drbgMasks = false) := by decide

theorem test_GrantsAndPurges :
    (let s := { keyed with keys := { keyed.keys with mintQ := [⟨4, 63, 5, 0, 65533⟩], purges := [⟨.regionGen 5 4094, [0, 1], none⟩] } }
     s.keys.mintQ.find? (fun q => q.rank == 4 && q.cluster == 63) = some ⟨4, 63, 5, 0, 65533⟩ ∧ s.mintUp = true ∧ s.l3Waits = false ∧ (s.slot 65533).state = 1 ∧ (s.slot 65533).limitExp ≠ 0
       ∧ (s.slot 65533).count < (s.slot 65533).limit ∧ (s.slot 65533).cls ≠ 0x0C ∧ s.linkOk 3 = true ∧ s.tilesAcked ([0, 1] ++ [3]) = false
       ∧ s.tilesAcked ([0, 1, 2] ++ [3]) = true)
    ∧ (let s := (keyed.setSlot 65533 { live 0x0A 5 0x20 with limitExp := 0 }).setSlot (monitorSlot 5) { live 0x0C 5 0 with limitExp := 24 }
       (s.slot 65533).state = 1 ∧ (s.slot 65533).limitExp = 0 ∧ (s.slot (monitorSlot 5)).cls = 0x0C ∧ (s.slot (monitorSlot 5)).limitExp ≠ 0
         ∧ (s.slot (monitorSlot 5)).count + s.margin 63 < (s.slot (monitorSlot 5)).limit
         ∧ (s.slot (monitorSlot 5)).count + min (2 ^ 16) ((s.slot (monitorSlot 5)).limit - (s.slot (monitorSlot 5)).count) + s.margin 63 < (s.slot (monitorSlot 5)).limit
         ∧ l2Slot 5 ≠ monitorSlot 5)
    ∧ (let s := keyed.setSlot (monitorSlot 5) { live 0x0C 5 0 with limitExp := 21, count := 2 ^ 20 - 1 }
       (s.slot (monitorSlot 5)).count + s.margin 63 < (s.slot (monitorSlot 5)).limit
         ∧ (s.slot (monitorSlot 5)).limit ≤ (s.slot (monitorSlot 5)).count + min (2 ^ 16) ((s.slot (monitorSlot 5)).limit - (s.slot (monitorSlot 5)).count) + s.margin 63)
    := by decide

theorem test_KeyQueries :
    (let s := running 0x0201 vf5 keyed
     Runs s 0x0201 vf5 ∧ s.slotOf 0x0000FFFF = some 65535 ∧ s.slotOf 0x0001FFFF = none ∧ (s.slot 65535).owner = vf5.own)
    ∧ (let s := running 0x0203 vf5 keyed
       Runs s 0x0203 vf5 ∧ s.mintUp = true ∧ (s.wrB Reg.MNT_STATUS 5 true).mintUp = false)
    ∧ (Runs (running 0x0204 vf5 keyed) 0x0204 vf5 ∧ 4096 < (4095 : BitVec 16).toNat + (2 : BitVec 16).toNat)
    ∧ (let s := running 0x0205 vf5 keyed
       Runs s 0x0205 vf5 ∧ s.slotOf 0x0000FFFD = some 65533 ∧ (s.slot 65533).owner = vf5.own ∧ (s.slot 65533).cls = 0x0A
         ∧ (s.slot 65533).attr.getLsbD 5 = true ∧ (s.slot 65533).state ≠ 2 ∧ (s.slot 65533).limitExp ≠ 0) :=
  ⟨⟨runs_running _ _ _ (by decide +kernel) (by decide +kernel), by decide +kernel⟩, ⟨runs_running _ _ _ (by decide +kernel) (by decide +kernel), by decide +kernel⟩,
   ⟨runs_running _ _ _ (by decide +kernel) (by decide +kernel), by decide +kernel⟩, ⟨runs_running _ _ _ (by decide +kernel) (by decide +kernel), by decide +kernel⟩⟩

/-- The header of a clear key block of a stream key of tenant 5, 32 bytes long. -/
def block5 : Bytes := [1, 0x0B, 3, 8] ++ be 2 5 ++ zeros 66

theorem test_StoredKeys :
    (let s := running 0x0210 vf5 keyed
     Runs s 0x0210 vf5 ∧ storedClass 0x0B = true ∧ storedClass 0x0C = false ∧ s.bitOf Reg.RNG_STATUS 1 = false)
    ∧ (let s := running 0x0212 vf5 keyed
       Runs s 0x0212 vf5 ∧ s.slotOf 0x0000FFFF = some 65535 ∧ (s.slot 65535).owner = vf5.own ∧ (s.slot 65535).attr.getLsbD 2 = true
         ∧ (s.slot 65535).state = 1 ∧ blockOk block5 = true ∧ blockOk (block5.set 1 7) = false ∧ field block5 4 2 = vf5.own
         ∧ field (block5.set 5 4) 4 2 ≠ vf5.own)
    ∧ (let s := running 0x0213 vf5 (keyed.wrB Reg.VLT_CTL 1 true)
       Runs s 0x0213 vf5 ∧ s.slotOf 0x0000FFFE = some 65534 ∧ s.slotOf 0x0000FFFF = some 65535 ∧ s.bitOf Reg.VLT_CTL 1 = true
         ∧ (s.slot 65534).attr.getLsbD 0 = true ∧ (s.slot 65534).attr.getLsbD 6 = false ∧ (s.slot 65535).attr.getLsbD 1 = true
         ∧ (s.slot 65535).limitExp ≠ 0 ∧ keyed.bitOf Reg.VLT_CTL 1 = keyed.bitOf Reg.VLT_CTL 1)
    ∧ (let s := running 0x0214 vf5 keyed
       Runs s 0x0214 vf5 ∧ s.slotOf 0x0000FFFE = some 65534 ∧ isPool 65534 = true ∧ isPool (l2Slot 5) = false ∧ (s.slotOf 69 = some (l2Slot 5)))
    ∧ (let s := running 0x0215 vf5 (keyed.setSlot 65532 (live 0x08 5 0x10))
       Runs s 0x0215 vf5 ∧ 256 ≤ (256 : BitVec 16).toNat ∧ s.slotOf 0x0000FFFC = some 65532 ∧ (s.slot 65532).cls = 0x08
         ∧ (s.slot 65532).attr.getLsbD 4 = true ∧ isPool 65532 = true) :=
  ⟨⟨runs_running _ _ _ (by decide +kernel) (by decide +kernel), by decide +kernel⟩, ⟨runs_running _ _ _ (by decide +kernel) (by decide +kernel), by decide +kernel⟩,
   ⟨runs_running _ _ _ (by decide +kernel) (by decide +kernel), by decide +kernel⟩, ⟨runs_running _ _ _ (by decide +kernel) (by decide +kernel), by decide +kernel⟩,
   ⟨runs_running _ _ _ (by decide +kernel) (by decide +kernel), by decide +kernel⟩⟩

theorem test_KeySettings :
    (Runs (running 0x0216 expert5 keyed) 0x0216 expert5 ∧ (4095 : BitVec 16).toNat < 4096 ∧ 4096 ≤ (4096 : BitVec 16).toNat)
    ∧ (let s := running 0x0217 expert5 keyed
       Runs s 0x0217 expert5 ∧ s.slotOf 0x0000FFFE = some 65534 ∧ limitOk 32 = true ∧ limitOk 0 = true ∧ limitOk 19 = false)
    ∧ (let s := running 0x0218 vf5 (inMode .maintenance)
       Runs s 0x0218 vf5 ∧ s.sys.maint.has 5 = false ∧ s.mintUp = true ∧ (s.wrB Reg.MNT_STATUS 5 true).mintUp = false
         ∧ ({ s with sys := { s.sys with maint := MaintSet.all } } : State).sys.maint.has 5 = true)
    ∧ (Runs (running 0x0219 vf5 keyed) 0x0219 vf5 ∧ vf5.ticket = none) :=
  ⟨⟨runs_running _ _ _ (by decide +kernel) (by decide +kernel), by decide +kernel⟩, ⟨runs_running _ _ _ (by decide +kernel) (by decide +kernel), by decide +kernel⟩,
   ⟨runs_running _ _ _ (by decide +kernel) (by decide +kernel), by decide +kernel⟩, ⟨runs_running _ _ _ (by decide +kernel) (by decide +kernel), by decide +kernel⟩⟩

/-! ### Chapter 8 -/

/-- A change of the ledger's own state. -/
def ldg (f : LedgerState → LedgerState) (s : State) : State := { s with ldg := f s.ldg }

/-- A journal record of 64 bytes, a leaf of tenant 5 and a stream. -/
def record (seq typ owner epoch : Nat) : JRecord := ⟨seq, typ, owner, epoch, zeros 64⟩
def leaf5 (epoch : Nat) : LeafIn := ⟨zeros 48, 5, epoch, 15, 0, 511⟩
def stream5 (epoch : Nat) : Stream := ⟨5, false, epoch⟩

theorem test_LeavesEnterChunks :
    (let s := ldg (fun l => { l with fifos := [(63, [leaf5 0])], chunks := [(63, [⟨stream5 0, 3, List.replicate 2 (zeros 32)⟩])] }) on
     tget (dflt []) s.ldg.fifos 63 = leaf5 0 :: [] ∧ s.ldg.nextClose ≤ (leaf5 0).epoch
       ∧ (s.chunks 63).find? (fun x => x.stream == ⟨5, s.retained (leaf5 0), 0⟩) = some ⟨stream5 0, 3, List.replicate 2 (zeros 32)⟩
       ∧ (on.chunks 63).find? (fun x => x.stream == ⟨5, s.retained (leaf5 0), 0⟩) = none
       ∧ (leaf5 0).epoch < (ldg (fun l => { l with nextClose := 1 }) on).ldg.nextClose ∧ s.ldg.evq.length < 3840)
    ∧ (List.replicate 255 ([] : Bytes)).length = 255
    ∧ (let r : ChunkRoot := ⟨63, stream5 0, 3, 256, zeros 32⟩
       (ldg (fun l => { l with roots := [r] }) on).ldg.roots.find? (fun r => r.cluster == 63) = some r) := by decide +kernel

/-- A closed epoch whose tile roots are in, but for the given tiles. -/
def closed (formed : List Nat) : CloseInfo := ⟨0, .service, MaintSet.empty, false, zeros 32, false, formed, false⟩
def root5 : FormedRoot := ⟨devOwner, 0, zeros 176, 0, 0, false, [], [], false⟩

theorem test_EpochsClose :
    (let s := ldg (fun l => { l with running := true }) on
     s.ledgerRuns = true ∧ (s.ldg.nextClose + 1) * 1000000000 + 50000000 ≤ ({ s with tim := { s.tim with now := 1050000000 } } : State).epochNs
       ∧ (s.advance 0).epochNs < (s.ldg.nextClose + 1) * 1000000000 + 50000000)
    ∧ (let s := ldg (fun l => { l with closing := [closed [0, 1, 2]] }) on
       s.linkOk 3 = true ∧ s.ldg.closing.find? (fun c => !c.formed.contains 3) = some (closed [0, 1, 2])
         ∧ ∀ r ∈ s.ldg.roots, ¬ (r.cluster / 16 = 3 ∧ r.stream.epoch = 0))
    ∧ ([0, 1, 2, 3].all (closed [3, 2, 1, 0]).formed.contains = true ∧ (closed [3, 2, 1, 0]).idle = false)
    ∧ (let s := ldg (fun l => { l with signQ := [root5] }) on
       (seatSigner s).seqUnits ≠ [] ∧ s.nextToSign = some root5 ∧ s.ldg.started = false ∧ root5.owner = devOwner) := by decide +kernel
theorem test_no_charter_awaits : ∀ n, (on.charter n).await = none := fun _ => rfl

theorem test_JournalAndEvents :
    (let s := ldg (fun l => { l with started := true }) on
     s.ldg.started = true ∧ s.ldg.evq = [] ∧ s.ldg.evHeld = [] ∧ s.ldg.signQ = [] ∧ s.ldg.page = [] ∧ s.ldg.programming = [] ∧ eventProtected 0x0070 = false)
    ∧ (let s := ldg (fun l => { l with programming := [record 9 0x10 devOwner 0] }) on
       s.ldg.programming ≠ [] ∧ s.ldg.evq.length < 3840 ∧ eventProtected 0x0031 = true ∧ s.ldg.programming.getLast? = some (record 9 0x10 devOwner 0))
    ∧ (let s := { ldg (fun l => { l with page := [record 9 0x10 devOwner 0] }) on with lfs := { on.lfs with jblocks := [0], rblocks := [(5, 0, 1)] } }
       s.ldg.page ≠ [] ∧ s.ldg.programming = [] ∧ s.pageHasBlock = true ∧ s.hasGroup 5 (pageGroup 0) = true)
    ∧ on.ldg.started = false := by decide +kernel
theorem test_event_queue_full : 3840 ≤ (List.replicate 3840 (⟨0, [], false⟩ : Event)).length ∧ 4096 ≤ (List.replicate 4096 (⟨0, [], true⟩ : Event)).length :=
  ⟨Nat.le_of_eq List.length_replicate.symm, Nat.le_of_eq List.length_replicate.symm⟩

theorem test_LedgerQueries :
    Runs (running 0x0401 cmd on) 0x0401 cmd
    ∧ (let s := running 0x0402 cmd (ldg (fun l => { l with journal := [[record 9 0x10 devOwner 0]] }) on)
       Runs s 0x0402 cmd ∧ s.oldestSeq = 9 ∧ s.programmedTo = 10 ∧ narrow.outLen < (1 : BitVec 32).toNat)
    ∧ (Runs (running 0x0403 cmd on) 0x0403 cmd ∧ on.sys.mode ≠ .zeroized ∧ on.pagesOf 5 = [])
    ∧ (let s := running 0x0404 vf5 (ldg (fun l => { l with journal := [[record 9 0x20 5 0, record 10 0x20 devOwner 0]] }) on)
       Runs s 0x0404 vf5 ∧ s.rootRecord 5 0 = some (zeros 64) ∧ s.rootRecord 5 1 = none ∧ s.rootRecord devOwner 0 = some (zeros 64) ∧ (5 : Nat) ≠ devOwner)
    ∧ Runs (running 0x0405 vf5 on) 0x0405 vf5 ∧ Runs (running 0x0406 vf5 on) 0x0406 vf5 :=
  ⟨runs_running _ _ _ (by decide +kernel) (by decide +kernel), ⟨runs_running _ _ _ (by decide +kernel) (by decide +kernel), by decide +kernel⟩,
   ⟨runs_running _ _ _ (by decide +kernel) (by decide +kernel), by decide +kernel⟩, ⟨runs_running _ _ _ (by decide +kernel) (by decide +kernel), by decide +kernel⟩,
   runs_running _ _ _ (by decide +kernel) (by decide +kernel), runs_running _ _ _ (by decide +kernel) (by decide +kernel)⟩
theorem test_pages_found :
    (let s := ldg (fun l => { l with pages := [⟨5, 0, 2, 0, [zeros 48], false⟩] }) on
     ((s.pagesOf 5).filter (fun p => decide (2 ≤ p.1) && decide (p.1 < 2 + min 64 1))).length = 1 ∧ ∀ p ∈ s.pagesOf 5, p.1 ≠ 3) := by decide +kernel

theorem test_ledger_waits :
    (let r : RcptPage := ⟨5, 0, 2, 0, [zeros 48], false⟩
     let s := { ldg (fun l => { l with rcptProg := [r] }) on with lfs := { on.lfs with rblocks := [(5, 0, 1)] } }
     s.ldg.rcptProg = r :: [] ∧ s.hasGroup r.tenant (pageGroup r.seq) = true ∧ s.writeWaits 3 = false ∧ s.ldg.evq = [] ∧ s.ldg.page = []
       ∧ (ldg (fun l => { l with programming := [record 9 0x10 devOwner 0] }) s).writeWaits 3 = true ∧ s.writeWaits 5 = true)
    ∧ (let s := ldg (fun l => { l with reads := [⟨cmd.ref, 0, []⟩] }) on
       s.ldg.reads = ⟨cmd.ref, 0, []⟩ :: [] ∧ s.lfs.moves = [] ∧ (s.wrB Reg.LFS_CTL 0 true).bitOf Reg.LFS_CTL 0 = true
         ∧ (s.wrB Reg.LFS_CTL 0 false).bitOf Reg.LFS_CTL 0 = false)
    ∧ (let s := ldg (fun l => { l with journal := [[record 9 0x20 5 0, record 10 0x20 devOwner 0]] }) on
       (s.entriesOf 5 0).find? (fun x => entryKind x == 2 && field x 40 1 % 64 == 63 && field x 41 3 == 0) = none)
    ∧ (expert5.expert = true ∧ (inMode .zeroized).sys.mode = .zeroized ∧ vf5.fn.val ≠ 0 ∧ cmd.fn.val = 0)
    ∧ (seatSigner { on with pke := { on.pke with units := (List.range 8).map (fun n => (n, { PkeUnit.reset with stat := 3 })) } }).seqUnits = []
    := by decide +kernel

theorem test_LedgerChanges :
    (let s := running 0x0410 cmd (ldg (fun l => { l with journal := [[record 9 0x10 devOwner 0]], ackSeq := 9 }) on)
     Runs s 0x0410 cmd ∧ s.programmedTo = 10 ∧ s.ldg.ackSeq ≤ 9)
    ∧ (let s := running 0x0411 vf5 (ldg (fun l => { l with pageSeq := [(5, 4)] }) on)
       Runs s 0x0411 vf5 ∧ s.openSeq 5 = 4 ∧ ∀ p ∈ s.ldg.rcptProg, p.tenant = 5 → p.seq ≠ 3)
    ∧ Runs (running 0x0412 expert5 on) 0x0412 expert5
    ∧ (let s := running 0x0413 cmd home
       Runs s 0x0413 cmd ∧ (s.tenant 5).present = true ∧ (s.tenant 511).present = false ∧ (512 : BitVec 16).toNat = 512)
    ∧ (let s := running 0x0414 vf5 (ldg (fun l => { l with programming := [record 9 0x10 devOwner 0] }) on)
       Runs s 0x0414 vf5 ∧ s.bitOf Reg.LDG_CTL 1 = true ∧ (s.wrB Reg.LDG_CTL 1 false).bitOf Reg.LDG_CTL 1 = false ∧ s.ldg.programming ≠ []) :=
  ⟨⟨runs_running _ _ _ (by decide +kernel) (by decide +kernel), by decide +kernel⟩, ⟨runs_running _ _ _ (by decide +kernel) (by decide +kernel), by decide +kernel⟩,
   runs_running _ _ _ (by decide +kernel) (by decide +kernel), ⟨runs_running _ _ _ (by decide +kernel) (by decide +kernel), by decide +kernel⟩,
   ⟨runs_running _ _ _ (by decide +kernel) (by decide +kernel), by decide +kernel⟩⟩

/-! ### Chapter 9 -/

/-- A change of the timebase's own state, and the timebase in a state with pulses enabled. -/
def tim (f : TimeState → TimeState) (s : State) : State := { s with tim := f s.tim }
def pulsing (st : Nat) (s : State) : State := (s.wrB Reg.TIM_CTL 2 true).wrF Reg.TIM_STATUS 1 0 st

/-- A game of tenant 5 in its set, closing at second 9. -/
def game5 : Game := ⟨true, 77, 5, 3, 9 <<< 30⟩
def withGame (s : State) : State := tim (fun t => { t with games := [(4 * gameSet 5 77, game5)], marks := [(5, 77)] }) s

theorem test_TheTimebase :
    (on.wrB Reg.TIM_CTL 2 false).bitOf Reg.TIM_CTL 2 = false
    ∧ (let s := pulsing 0 on
       s.bitOf Reg.TIM_CTL 2 = true ∧ s.timState = 0 ∧ (s.advance 0).tim.pendSet = none
         ∧ ((tim (fun t => { t with pendSet := some (0, none) }) s).advance 0).tim.pendSet = some (0, none))
    ∧ (let s := tim (fun t => { t with now := 300000000 }) (pulsing 1 on)
       s.timState ≠ 0 ∧ s.inWindow s.phaseError = false ∧ s.tim.realigns = [] ∧ s.phaseError ≥ -100000)
    ∧ (let s := tim (fun t => { t with now := 1000000000 }) (pulsing 2 on)
       s.timState ≠ 0 ∧ s.inWindow s.phaseError = true ∧ s.phaseError = 0)
    ∧ (let s := tim (fun t => { t with now := 999800000, realigns := [(0, none)] }) (pulsing 2 on)
       s.tim.realigns ≠ [] ∧ s.phaseError < -100000)
    ∧ (let s := pulsing 1 on
       let late (u : State) := (u.tim.lastPulse + 1000001000) * 1000000000 + u.uncScaled (u.tim.lastPulse + 1000000000)
       s.timState = 1 ∧ s.tim.now * 1000000000 < late s ∧ late s ≤ (tim (fun t => { t with now := 2000000000 }) s).tim.now * 1000000000)
    ∧ (Runs (running 0x0510 cmd (tim (fun t => { t with now := 3000000000 }) on)) 0x0510 cmd ∧ 2 ^ 34 ≤ (0x400000000 : BitVec 64).toNat
       ∧ (2 : BitVec 64).toNat < (tim (fun t => { t with now := 3000000000 }) on).secs)
    ∧ Runs (running 0x0511 cmd on) 0x0511 cmd ∧ Runs (running 0x0512 cmd on) 0x0512 cmd ∧ Runs (running 0x0501 vf on) 0x0501 vf :=
  ⟨by decide +kernel, by decide +kernel, by decide +kernel, by decide +kernel, by decide +kernel, by decide +kernel,
   ⟨runs_running _ _ _ (by decide +kernel) (by decide +kernel), by decide +kernel⟩, runs_running _ _ _ (by decide +kernel) (by decide +kernel),
   runs_running _ _ _ (by decide +kernel) (by decide +kernel), runs_running _ _ _ (by decide +kernel) (by decide +kernel)⟩

/-- A command without a ticket goes on from the state as it is. -/
theorem test_admitted (op scope : Nat) (s : State) : Admitted op vf5 scope s s := .inl ⟨rfl, rfl⟩

theorem test_pending_second : ((tim (fun t => { t with pendSet := some (0, none) }) (pulsing 1 on)).advance 0).tim.pendSet ≠ none
    ∧ 0 + 2000 ≤ (on.advance 2000000000).ms ∧ (on.advance 1999999999).ms < 0 + 2000 := by decide +kernel

theorem test_GamesAndCloses :
    (let s := running 0x0520 vf5 (withGame on)
     Runs s 0x0520 vf5 ∧ vf5.ticket = none ∧ s.mark vf5.own < 78 ∧ validStamp 0x3B9ACA00 = false ∧ validStamp 0x3B9AC9FF = true
       ∧ (s.findGame vf5.own 77).isSome = true ∧ s.findGame vf5.own 76 = none ∧ 76 ≤ s.mark vf5.own ∧ s.findGame vf5.own 78 = none
       ∧ s.gamesOf vf5.own < 1024 ∧ s.gameCount < 8192 ∧ (s.freeGame vf5.own 78).isSome = true)
    ∧ (let s := running 0x0521 expert5 (withGame on)
       Runs s 0x0521 expert5 ∧ s.findGame expert5.own 77 = some (4 * gameSet 5 77) ∧ (s.gameNext (4 * gameSet 5 77)).close.toNat < (10 <<< 30 : BitVec 64).toNat
         ∧ 2 < (s.gameNext (4 * gameSet 5 77)).margin ∧ (9 <<< 30 : BitVec 64) = (s.gameNext (4 * gameSet 5 77)).close)
    ∧ (let s := running 0x0522 vf5 (withGame on)
       Runs s 0x0522 vf5 ∧ (s.gameNext (4 * gameSet 5 77)).valid = true
         ∧ s.tim.now + 200000 ≤ State.stampNs (s.gameNext (4 * gameSet 5 77)).close)
    ∧ (let s := running 0x0523 vf5 (tim (fun t => { t with now := 9000000000 }) (withGame on))
       Runs s 0x0523 vf5 ∧ State.stampNs (s.gameNext (4 * gameSet 5 77)).close < s.tim.now + 200000)
    ∧ Runs (running 0x0502 vf5 on) 0x0502 vf5 ∧ Runs (running 0x0503 vf5 on) 0x0503 vf5 :=
  ⟨⟨runs_running _ _ _ (by decide +kernel) (by decide +kernel), by decide +kernel⟩, ⟨runs_running _ _ _ (by decide +kernel) (by decide +kernel), by decide +kernel⟩,
   ⟨runs_running _ _ _ (by decide +kernel) (by decide +kernel), by decide +kernel⟩, ⟨runs_running _ _ _ (by decide +kernel) (by decide +kernel), by decide +kernel⟩,
   runs_running _ _ _ (by decide +kernel) (by decide +kernel), runs_running _ _ _ (by decide +kernel) (by decide +kernel)⟩

theorem test_a_change_is_acknowledged :
    (let x : GameChange := ⟨0, Game.none, game5, 1000, true, (List.range 63), none⟩
     let s := tim (fun t => { t with changes := [x] }) on
     s.tim.changes = [x] ∧ x.active = true ∧ s.linkOk 3 = true ∧ 63 ∉ x.acks ∧ s.allAcked (x.acks ++ [63]) = true
       ∧ s.allAcked ([] ++ [63]) = false ∧ x.stampA + 10000000 ≤ (tim (fun t => { t with now := 10001000 }) s).tim.now)
    ∧ (let x : GameChange := ⟨0, Game.none, game5, 1000, false, [], none⟩
       x.active = false ∧ x.stampA ≤ (tim (fun t => { t with now := 1000 }) on).tim.now ∧ on.tim.now < x.stampA) := by decide +kernel

/-! ### Chapters 10 and 11 -/

/-- The custody cores at an address of custody SRAM, in a ring. -/
def at_ (pc : Word) (ring : Nat) : State := { on with core := { on.core with pc := pc, cring := ring } }
def noEnv : BusEnv := ⟨[], 0, 0, 0, Vector.replicate 4 0⟩
/-- The same with g1, g2, g3 and g15. -/
def core (g1 g2 g3 g15 : Word) : State :=
  let s := at_ 0x1FFFFC 0
  { s with core := { s.core with g := (((s.core.g.set 1 g1).set 2 g2).set 3 g3).set 15 g15 } }

theorem test_core_fetches : (at_ 0 0).fetches ∧ (at_ 0x1FFFFC 3).fetches ∧ (core 0 0 0 0).fetches :=
  ⟨⟨by decide +kernel, by decide +kernel, by decide +kernel⟩, ⟨by decide +kernel, by decide +kernel, by decide +kernel⟩,
   ⟨by decide +kernel, by decide +kernel, by decide +kernel⟩⟩
theorem test_IntegerInstructions : (at_ 0 0).fetches ∧ (0x80000000 - 1 : Word) = 0x7FFFFFFF := ⟨test_core_fetches.1, by decide +kernel⟩
theorem test_MultiplyDivideAndFixedPoint : (core 0 0x80000000 0xFFFFFFFF 0).fetches ∧ (core 0 0x80000000 0xFFFFFFFF 0).g 2 = 0x80000000
    ∧ (core 0 0x80000000 0xFFFFFFFF 0).g 3 = 0xFFFFFFFF ∧ (core 0 1 0 0).g 3 = 0 ∧ 0 ≤ ((core 0 1 0 0).g 2).toInt
    ∧ ((core 0 0x80000000 0 0).g 2).toInt < 0 :=
  ⟨⟨by decide +kernel, by decide +kernel, by decide +kernel⟩, by decide +kernel, by decide +kernel, by decide +kernel, by decide +kernel, by decide +kernel⟩

theorem test_LoadsStoresAndStack :
    (let s := core 0 0 0x1FFFFC 0x1000
     (0 : Fin 4) ≠ 3 ∧ bit (s.sr 35) 0 = false ∧ s.core.posted = [] ∧ s.core.refused = [] ∧ (s.g 3 + (1 : BitVec 16).signExtend 32).toNat % 2 ≠ 0
       ∧ (s.g 3).toNat % 4 = 0 ∧ answersAtOnce (gateOf 0x1FFFFC) = true ∧ ((busRead (s.coreAccess 0x1FFFFC 2 false) noEnv s).1).isSome = true
       ∧ (busRead (s.coreAccess 0x1FFFFC 2 false) noEnv s).2.core.escalated = false ∧ s.gateCheck (s.coreAccess 0x10170000 2 false) = .refuse 2 15 none
       ∧ answersAtOnce (gateOf 0x40000000) = false ∧ gateOf 0x1FFFFC = 0 ∧ s.gateCheck (s.coreAccess 0x1FFFFC 2 true) = .pass ∧ gateOf 0x40000000 ≠ 0)
    ∧ (let s := { on with core := { on.core with waiting := some (.load 3 0x04000000 2 false) } }
       s.stillRuns = true ∧ s.core.escalated = false ∧ s.core.posted = [] ∧ s.core.refused = [] ∧ (0x04000000 : Nat) < 2 ^ 32
         ∧ 0x04000000 % sizeBytes 2 = 0 ∧ s.targetReady (gateOf 0x04000000) = true)
    ∧ ({ core 0 0 0 0 with core := { (core 0 0 0 0).core with refused := [(3, 0x40000000)] } } : State).core.refused = (3, 0x40000000) :: []
    ∧ (let s := core 0 0 0 0
       s.cond 0 = true ∧ s.cond 1 = false ∧ s.fetchable (s.core.pc + BitVec.ofInt 32 (4 * (-1 : BitVec 22).toInt)) = true
         ∧ (s.g 3).toNat % 4 = 0 ∧ s.fetchable (s.g 3) = true)
    ∧ (let s := (core 0 0 0 0x1000).wr (Reg.CUS_STK_BOUND 0) 0xFFC
       (s.g 15).toNat % 4 = 0 ∧ (s.rd (Reg.CUS_STK_BOUND 0)).toNat ≤ (s.g 15 - 4).toNat ∧ (s.g 15 - 4).toNat < 0x200000
         ∧ s.gateCheck (s.coreAccess (s.g 15 - 4).toNat 2 true) = .pass ∧ (s.g 15).toNat < 0x200000
         ∧ s.gateCheck (s.coreAccess (s.g 15).toNat 2 false) = .pass
         ∧ (s.g 15 - 4).toNat < ((s.wr (Reg.CUS_STK_BOUND 0) 0x1000).rd (Reg.CUS_STK_BOUND 0)).toNat) := by decide +kernel

/-- The first page of the DRAM window opened. -/
def dramOpen (s : State) : State := s.wr (Reg.GTE_DPAGE 0) 0x80000000
theorem test_store_acknowledged :
    (let p : PostedStore := ⟨0x40000000, 2, 5, 0, 1023⟩
     let s := dramOpen { on with core := { on.core with posted := [p] } }
     s.core.waiting = none ∧ s.core.posted = p :: [] ∧ gateOf p.addr = 3 ∧ s.gateCheck ⟨p.addr, p.size, true, p.ring, 0, p.colour⟩ = .pass
       ∧ (s.dramAddr p.addr).isSome = true) := by decide +kernel

theorem test_BlockInstructions :
    (let s := core 1 0x100 0x1FFFC0 0x1000
     (s.g 1 = 1 ∧ s.core.posted = [] ∧ s.core.refused = [] ∧ 0x1FFFC0 + 64 ≤ 0x200000 ∧ 0x1FFFC0 % 64 = 0
       ∧ s.gateCheck (s.coreAccess 0x1FFFC0 4 true) = .pass ∧ s.gateCheck (s.coreAccess 0x100 0 false) = .pass
       ∧ s.gateCheck (s.coreAccess 0x1FFFC0 2 true) = .pass ∧ s.readBytes 0x100 4 [] = s.readBytes 0x1FFFC0 4 []
       ∧ s.readBytes 0x100 4 [] = le 4 (s.g 0).toNat ∧ s.readBytes 0x100 4 [] ≠ le 4 (s.g 15).toNat))
    ∧ (core 0 0 0 0).g 1 = 0 ∧ (core 2 0 0 0).g 1 = 2
    ∧ (let s := core 1 0x100 0x1FFFC0 0x1000
       let s := { s with gte := { s.gte with sram := [(0x101, 1)] } }
       s.readBytes 0x100 2 [] ≠ s.readBytes 0x1FFFC0 2 []) := by decide +kernel

theorem test_RingsGatesAndInterrupts :
    ((5 : BitVec 12).toNat < 8 ∧ (at_ 0 0).core.cring = 0 ∧ (at_ 0 3).core.cring ≠ 0 ∧ bit ((at_ 0 3).sr 35) 0 = false)
    ∧ ((at_ 0 0).bestSource = none ∧ (at_ 0 0).takeable = none)
    ∧ (let s := setSr 57 0x8 ((on.wr Reg.GTE_IRQ_STATUS 1).wr Reg.GTE_IRQ_EN 1)
       s.bestSource = some 3 ∧ (setSr 52 1 s).takeable = some 3 ∧ s.core.cring ≤ 3 ∧ s.stillRuns = true)
    ∧ (let s := { at_ 0x100 3 with core := { (at_ 0x100 3).core with gates := [(255, 0x00100041)], sr := [(18, 0x2000)] } }
       let e := s.gateEntry 255
       (255 : BitVec 12).toNat < 256 ∧ 1 ≤ s.core.cring ∧ bit e 0 = true ∧ bits e 2 1 < s.core.cring ∧ bit e (3 + s.core.cring) = true
         ∧ bit (s.sr (30 + bits e 2 1)) 0 = false ∧ s.fetchable (s.sr (16 + bits e 2 1) + BitVec.ofNat 32 (4 * bits e 31 16)) = true
         ∧ bit ((setSr 30 1 s).sr 30) 0 = true)
    ∧ (let s := setSr 32 7 (at_ 0x100 2)
       bit (s.sr (30 + 2)) 0 = true ∧ 2 ≤ bits (s.sr (30 + 2)) 2 1 ∧ s.fetchable (s.sr (24 + 2)) = true ∧ bit ((at_ 0x100 2).sr 32) 0 = false)
    ∧ definedWord 0xC0000000 = false ∧ bits (0xC0000000 : Word) 31 26 = 0x30 ∧ definedWord 0xFFFFFFFF = false
    ∧ bit ((setSr 35 1 on).sr 35) 0 = true ∧ (on.wrB Reg.CUS_BOOT 0 false).bitOf Reg.CUS_BOOT 0 = false := by decide +kernel

/-! ### Chapter 12 -/

theorem test_AccessControl :
    (on.sys.mainPower = true ∧ 128 ≤ (128 : BitVec 11).toNat ∧ on.sys.cusInReset = false ∧ on.core.stopped = false
       ∧ gateOf 0x10000000 = 5 ∧ gateOf 0x1016FFFC = 27)
    ∧ on.gateCheck ⟨0x10020000, 0, true, 0, 0, 1023⟩ = .refuse 0x1 15 none
    ∧ (let a : Access := ⟨Reg.DPL_CTL 63, 2, true, 0, 0, 1023⟩
       on.gateCheck a = .pass ∧ gateOf (Reg.DPL_CTL 63) = 31)
    ∧ (let a : Access := ⟨Reg.MBX_IEN 31, 2, true, 0, 0, 1023⟩
       on.gateCheck a = .pass ∧ (findReg (Reg.MBX_IEN 31)).any (fun r => r.2.1.pair == 0
           && decide (r.2.1.name ∉ ["DIG_SNOOP_CTL", "TLY_SEL", "TLY_CL_SEL", "FSH_CTL", "RNG_CTL", "PKE_CTL", "THM_KEEP_VFULL", "NFR_CTL"])
           && on.valueOk r.2.1.name (0xFFFFFFFF &&& (r.2.1.rw ||| r.2.1.rwl)) && (ownWrite r.2.1.name r.2.2 a 0xFFFFFFFF noEnv on).isNone) = true
         ∧ writeRefused a 0xFFFFFFFF on = false)
    ∧ (let a : Access := ⟨Reg.MBX_SEND_LO, 2, true, 0, 0, 1023⟩
       on.gateCheck a = .pass ∧ (findReg (Reg.MBX_SEND_LO)).any (fun r => r.2.1.pair == 1 && (r.2.1.rw ||| r.2.1.rwl ||| r.2.1.wo) != 0) = true
         ∧ writeRefused a 0xFFFFFFFF on = false)
    ∧ (bit (1 : Word) 0 = true ∧ on.fld Reg.GTE_SEL 5 0 = 0 ∧ (on.commitCode 0 1 ⟨0, 0, 0, 0⟩).1 = 0
       ∧ (on.commitCode 0 1 ⟨0x1000, 0xFFF, 0x08000000, 0⟩).1 ≠ 0)
    ∧ (on.gte.retag = none ∧ bit (0x103FF : Word) 16 = true ∧ bits (0x103FF : Word) 9 0 = 1023 ∧ bits (0x10304 : Word) 9 0 = 772
       ∧ ¬ (772 ≤ bits (0x10303 : Word) 9 0 ∧ bits (0x10303 : Word) 9 0 ≤ 1019)) := by decide +kernel
theorem test_retag_ends : (let s := { on with gte := { on.gte with retag := some ⟨false, 0x7FFF, 1, 1023⟩ } }
    s.gte.retag ≠ none ∧ ((after (execTagRetagDone s)).sramTag 0x7FFF) = 1023) := by decide +kernel

/-! ### Chapter 13 -/

def dig (f : DigestState → DigestState) (s : State) : State := { s with dig := f s.dig }
/-- A SHA-256 session of 128 bytes. -/
def session : DigSession := ⟨some 6, 6, 0, false, 0, 128, 64, algInit 0, [], [], 0, 1, 0, [], false⟩
/-- `keyed` with a MAC key of tenant 5 in slot 65531. -/
def macKeyed : State := keyed.setSlot 65531 (live 0x0B 5 0x08)

theorem test_DigestEngine :
    (on.jobCtx = true ∧ (on.ctx on.ctxSel).stat ≠ 1 ∧ (on.wr Reg.DIG_TOTAL_LO 1).rd64 Reg.DIG_TOTAL_LO ≠ 0 ∧ bits (on.rd Reg.DIG_JOB) 1 0 ≠ 3
       ∧ (on.wrB Reg.DIG_JOB 2 true).jobCtx = true ∧ on.core.cring ≤ 1 ∧ (on.wrB Reg.DIG_JOB 2 true).core.cring ≤ 1
       ∧ 1 < ({ on with core := { on.core with cring := 2 } } : State).core.cring)
    ∧ (good (macKeyed.macSlot 0x0000FFFB 6) = true ∧ good (macKeyed.macSlot 0x0000FFFB 5) = false)
    ∧ (let s := (dig (fun d => { d with ctxs := [(0, { session with fn := none })] }) on).wr Reg.DIG_LEN 64
       s.jobCtx = true ∧ (s.ctx 0).stat = 1 ∧ s.sessionLive (s.ctx 0) = true ∧ (s.rd Reg.DIG_LEN).toNat = 64 ∧ (s.ctx 0).absorbed + 64 ≤ (s.ctx 0).total
         ∧ (s.ctx 0).total < (s.ctx 0).absorbed + 65 ∧ s.bitOf Reg.DIG_CTL 1 = true ∧ s.rd64 Reg.DIG_ESC_ADDR_LO < 0x200000
         ∧ s.dmaCheck 256 (s.ctx 0).colour true (s.rd64 Reg.DIG_ESC_ADDR_LO) 312 = none)
    ∧ (let f : DigFeed := ⟨.context 5, 0x1000, 64, 1023, none, none, false⟩
       let s := dig (fun d => { d with ctxs := [(5, { session with stat := 2 })], feeds := [f] }) on
       s.dig.feeds = f :: [] ∧ (dmaRead 256 1023 0x1000 64 [] { s with dig := { s.dig with feeds := [] } }).1.isSome = true
         ∧ ((s.ctx 5).absorbed + 64 = (s.ctx 5).total) ∧ bit (s.ctx 5).job 4 = false)
    ∧ (let f : DigFeed := ⟨.session 8447, 0, 64, 6, some vf5.ref, none, false⟩
       let s := dig (fun d => { d with sessions := [(8447, { session with stat := 2 })], feeds := [f] }) on
       s.dig.feeds = f :: [] ∧ f.oneShot = false ∧ f.expect = none ∧ s.sessionLive (s.session 8447) = true)
    ∧ (on.mrOpen 23 false = true ∧ on.mrOpen 24 false = false ∧ bits (0x4017 : Word) 4 0 = 23 ∧ bits (0x4017 : Word) 14 8 = 64
       ∧ on.dig.extend = none ∧ (dig (fun d => { d with extend := some (23, [1]) }) on).dig.extend ≠ none) := by decide +kernel

theorem test_DigestCommandsAndCipher :
    Runs (running 0x0701 vf5 on) 0x0701 vf5
    ∧ (Runs (running 0x0710 vf5 macKeyed) 0x0710 vf5
       ∧ good (openSession (some vf5.fn) vf5.fn (algOf vf5 0) 128 false 0 0 false macKeyed) = true)
    ∧ (Runs (running 0x0711 vf5 on) 0x0711 vf5 ∧ 2 ^ 48 ≤ (0x1000000000000 : BitVec 64).toNat
       ∧ good (openSession (some vf5.fn) vf5.fn (algOf vf5 0) 0xFFFFFFFFFFFF false 0 0 false on) = true)
    ∧ (let s := running 0x0712 vf5 (dig (fun d => { d with sessions := [(8447, session)] }) on)
       Runs s 0x0712 vf5 ∧ ownSession vf5 8447 s = some session ∧ ownSession vf5 8446 s = none ∧ session.absorbed + 64 ≤ session.total
         ∧ session.total < session.absorbed + 65)
    ∧ (let s := running 0x0713 vf5 (dig (fun d => { d with sessions := [(8447, session)] }) on)
       Runs s 0x0713 vf5 ∧ session.stat ≠ 2 ∧ s.bitOf Reg.DIG_CTL 1 = true ∧ 312 ≤ vf5.outLen ∧ narrow.outLen < 312)
    ∧ (Runs (running 0x0714 vf5 on) 0x0714 vf5 ∧ good (readBlob [] on) = false)
    ∧ Runs (running 0x0715 vf5 on) 0x0715 vf5
    ∧ (Runs (running 0x0716 vf5 macKeyed) 0x0716 vf5 ∧ good (macKeyed.macSlot 0x0000FFFB vf5.fn) = true ∧ good (on.macSlot 0x0000FFFB vf5.fn) = false)
    ∧ (let s := ((on.wr Reg.CPH_JOB 0xE).wrB Reg.CPH_STATUS 3 true)
       s.bitOf Reg.CPH_CTL 0 = true ∧ bit (s.rd Reg.CPH_JOB) 5 = false ∧ s.cph.main = []
         ∧ good (stageJob s) = true ∧ good (stageJob on) = false)
    ∧ (let j : CphJob := ⟨true, zeros 16, none, 1023, 0x1000, 16, false, [], none⟩
       let s := { on with cph := { on.cph with main := [j] } }
       s.cph.urgent = [] ∧ s.cph.main = j :: [] ∧ s.jobLive j = true ∧ j.compare = false ∧ j.cmd = none ∧ j.kcv = true
         ∧ (dmaRead 257 j.colour j.addr j.len [] s).1.isSome = true) :=
  ⟨runs_running _ _ _ (by decide +kernel) (by decide +kernel), ⟨runs_running _ _ _ (by decide +kernel) (by decide +kernel), by decide +kernel⟩,
   ⟨runs_running _ _ _ (by decide +kernel) (by decide +kernel), by decide +kernel⟩, ⟨runs_running _ _ _ (by decide +kernel) (by decide +kernel), by decide +kernel⟩,
   ⟨runs_running _ _ _ (by decide +kernel) (by decide +kernel), by decide +kernel⟩, ⟨runs_running _ _ _ (by decide +kernel) (by decide +kernel), by decide +kernel⟩,
   runs_running _ _ _ (by decide +kernel) (by decide +kernel), ⟨runs_running _ _ _ (by decide +kernel) (by decide +kernel), by decide +kernel⟩, by decide +kernel,
   by decide +kernel⟩
/-- A feed of context 5 and of session 8447, the job of a command and a compared one, and an exported session. -/
def fedCtx : State := dig (fun d => { d with ctxs := [(5, { session with stat := 2, job := 8, total := 128 })], feeds := [⟨.context 5, 0x1000, 64, 1023, none, none, false⟩] }) on
def fedCmd : State := dig (fun d => { d with sessions := [(8447, { session with stat := 2 })], feeds := [⟨.session 8447, 0, 64, 6, some vf5.ref, some [], false⟩] }) on
theorem test_DigestEngine_more :
    (bits ((on.wr Reg.DIG_JOB 3).rd Reg.DIG_JOB) 1 0 = 3 ∧ (on.wr Reg.DIG_JOB 3).jobCtx = true)
    ∧ (let s := (on.wr Reg.DIG_JOB 4).wr Reg.DIG_SLOT 0x0000FFFB
       s.jobCtx = true ∧ s.mintUp = true ∧ bit (s.rd Reg.DIG_JOB) 2 = true ∧ good (s.macSlot (s.rd Reg.DIG_SLOT).toNat 1023) = false)
    ∧ (let s := on.wr Reg.DIG_CTL 3
       s.bitOf Reg.DIG_CTL 1 = true ∧ (dmaRead 256 1023 (s.rd64 Reg.DIG_ESC_ADDR_LO) 312 [] s).1.isSome = true ∧ good (readBlob [] s) = false
         ∧ ((dmaRead 256 1023 0x300000 312 [] s).1 = none))
    ∧ (fedCtx.dig.feeds = ⟨.context 5, 0x1000, 64, 1023, none, none, false⟩ :: [] ∧ fedCtx.readWaits 0x1000 = false ∧ fedCtx.sessionLive (fedCtx.ctx 5) = true
       ∧ (fedCtx.ctx 5).absorbed + 64 = (fedCtx.ctx 5).total ∧ bit (fedCtx.ctx 5).job 4 = false ∧ bit (fedCtx.ctx 5).job 3 = true)
    ∧ (fedCmd.sessionLive (fedCmd.session 8447) = true ∧ (fedCmd.session 8447).absorbed + 64 = (fedCmd.session 8447).total)
    ∧ (dig (fun d => { d with ctxs := [(5, { session with stat := 1, hmac := true, handle := 0x0000FFFB })] }) on).sessionLive
        { session with hmac := true, handle := 0x0000FFFB } = false := by decide +kernel
theorem test_DigestCommands_more :
    (seatSession macKeyed.freeSession macKeyed).isSome = true
    ∧ (let s := running 0x0712 vf5 (dig (fun d => { d with sessions := [(8447, { session with stat := 2 })] }) on)
       Runs s 0x0712 vf5 ∧ ownSession vf5 8447 s = some { session with stat := 2 })
    ∧ (let s := running 0x0713 vf5 ((dig (fun d => { d with sessions := [(8447, session)] }) on).wr Reg.DIG_CTL 1)
       Runs s 0x0713 vf5 ∧ s.bitOf Reg.DIG_CTL 1 = false)
    ∧ (let j : CphJob := ⟨false, zeros 16, none, 6, 0, 16, true, zeros 16, some vf5.ref⟩
       on.jobLive j = true ∧ on.jobLive { j with handle := some 0x0000FFFB } = false ∧ on.readWaits 0x1000 = false
         ∧ (dmaRead 257 1023 0x1000 16 [] on).1.isSome = true) :=
  ⟨by decide +kernel, ⟨runs_running _ _ _ (by decide +kernel) (by decide +kernel), by decide +kernel⟩,
   ⟨runs_running _ _ _ (by decide +kernel) (by decide +kernel), by decide +kernel⟩, by decide +kernel⟩

/-! ### Chapter 14 -/

def rng (f : RngState → RngState) (s : State) : State := { s with rng := f s.rng }
def sourceAt (n : Nat) (x : RngSource) (s : State) : State := rng (fun r => { r with sources := tput (dflt RngSource.reset) r.sources n x }) s
/-- A source past its start-up, in a state. -/
def warmed (st : Nat) : RngSource := { RngSource.reset with stat := st, startLeft := 0 }
/-- Three sources, each with outputs that wait. -/
def entropic : State := [0, 1, 2].foldl (fun s n => sourceAt n { warmed 0 with outs := [1, 2, 3, 4] } s) on
def alternating : BitVec 1024 := BitVec.ofNat 1024 ((2 ^ 1024 - 1) / 3)

theorem test_block_fails : (sourceAt 2 (warmed 0) on).blockFails 2 (warmed 0) (blockBits 0) = true
    ∧ (sourceAt 2 (warmed 0) on).blockFails 2 (warmed 0) (blockBits alternating) = false := by decide +kernel

theorem test_RandomNumbers :
    (((sourceAt 2 (warmed 0) on).noise 2).stat = 0 ∧ ((sourceAt 2 (warmed 0) on).noise 2).startLeft = 0 ∧ (warmed 3).stat = 3 ∧ (warmed 2).stat = 2
       ∧ 8 ≤ (List.replicate 7 0 ++ [5] : List Nat).length)
    ∧ (let s := [0, 1, 2].foldl (fun s n => sourceAt n (warmed 3) s) (on.wrB Reg.RNG_STATUS 2 true)
       s.bitOf Reg.RNG_STATUS 2 = true ∧ s.rng.waitSince + 1000000000 ≤ { s with now := 1000000000 }.now ∧ (s.noise 0).stat = 3 ∧ (s.noise 1).stat = 3
         ∧ (s.noise 2).stat = 3 ∧ s.rngFailed = false)
    ∧ ((takeEntropy entropic).isSome = true ∧ takeEntropy on = none ∧ (instantiateDrbg entropic).isSome = true ∧ on.rngReady = false
       ∧ (on.wrB Reg.RNG_STATUS 0 true).rngReady = true)
    ∧ (2 ^ 20 ≤ (on.rd (Reg.RNG_CL_SINCE 63)).toNat + (0x100000 : BitVec 21).toNat)
    ∧ ((refillPort 1 (rng (fun r => { r with port := [7] }) on)).rng.port = 7 :: [] ∧ (refillPort 64 on).rng.port = [] ∧ bit (1 : Word) 0 = true)
    ∧ (let s := rng (fun r => { r with cals := [⟨cmd.ref, false, false, none⟩] }) (on.wr Reg.THM_INLET 0x0F00)
       s.rng.cals = ⟨cmd.ref, false, false, none⟩ :: [] ∧ 0x0F00 ≤ (s.rd Reg.THM_INLET).toInt ∧ (s.rd Reg.THM_INLET).toInt ≤ 0x2800
         ∧ (0x2800 : Word).toInt ≤ 0x2800 ∧ s.rng.calIdle.isNone = true)
    ∧ (Runs (running 0x0720 cmd (on.wrB Reg.RNG_STATUS 0 true)) 0x0720 cmd ∧ (65536 : BitVec 32).toNat ≤ 65536)
    ∧ Runs (running 0x0721 cmd on) 0x0721 cmd
    ∧ (let s := { inMode .maintenance with sys := { (inMode .maintenance).sys with maint := MaintSet.all },
                                           host := { on.host with perm := [(0, 0x41)] }, pair := { on.pair with charters := [(5, { Charter.none with role := 1 })] } }
       Runs (running 0x0730 cmd s) 0x0730 cmd ∧ bit (s.perms 0) 6 = true ∧ s.sys.mode = .maintenance ∧ s.sys.maint.whole = true) :=
  ⟨by decide +kernel, by decide +kernel, by decide +kernel, by decide +kernel, by decide +kernel, by decide +kernel,
   ⟨runs_running _ _ _ (by decide +kernel) (by decide +kernel), by decide +kernel⟩, runs_running _ _ _ (by decide +kernel) (by decide +kernel),
   ⟨runs_running _ _ _ (by decide +kernel) (by decide +kernel), by decide +kernel⟩⟩
theorem test_RandomNumbers_more :
    (on.rng.served < 2 ^ 20 ∧ (on.advance 1).now < on.rng.reseededAt + 100000000 ∧ on.rng.reseededAt + 100000000 ≤ (on.advance 100000000).now)
    ∧ (on.bitOf Reg.RNG_CTL 0 = true ∧ (on.wrB Reg.RNG_CTL 0 false).bitOf Reg.RNG_CTL 0 = false ∧ on.rng.port.length < 64)
    ∧ (let s := rng (fun r => { r with requests := [⟨cmd.ref, 16, 0, true⟩] }) on
       (∃ q ∈ s.rng.requests, q.since + 1000000 ≤ (s.advance 1000000).now) ∧ (∀ q ∈ s.rng.requests, (s.advance 1).now < q.since + 1000000))
    ∧ (2 ≤ (2 : Fin 4).val ∧ bit (2 : Word) 0 = false)
    ∧ (let s := (on.wrB Reg.RNG_STATUS 0 true).wrB Reg.RNG_CTL 0 false
       s.rngFailed = false ∧ s.rngReady = true ∧ (1 : BitVec 32).toNat ≤ 65536 ∧ (cmd.expert && true) = false)
    := by decide +kernel

/-! ### Chapter 15 -/

def pke (f : PkeState → PkeState) (s : State) : State := { s with pke := f s.pke }
/-- A SHARED of X25519 and a VERIFY of Ed25519, as a unit has copied them. -/
def sharedReq : PkeReq := ⟨4, 2, 0, 0, 0, false, false, 0, 0⟩
def verifyReq : PkeReq := ⟨3, 3, 0, 0, 0, false, false, 0, 0⟩
def busyUnit (n : Nat) (r : PkeReq) : State := setPkeUnit n { on.pkeUnit n with stat := 1, work := some (.reg r [0, 1, 2, 3, 4, 5, 6, 7] 1023 0 64 none) } on

theorem test_PkeUnits :
    ((on.pkeUnit 7).stat = 0 ∧ on.bitOf Reg.PKE_CTL 7 = true ∧ (on.wrB Reg.PKE_CTL 7 false).bitOf Reg.PKE_CTL 7 = false
       ∧ (match on.keySeed 7 (on.stagedReq 7) with | .ok none => true | _ => false) = true
       ∧ on.startError 7 { verifyReq with op := 12 } false = some 10)
    ∧ ((busyUnit 7 verifyReq).pkeUnit 7).stat = 1
    ∧ (let s := setPkeUnit 7 { on.pkeUnit 7 with stat := 2, after := 11 } on
       (s.pkeUnit 7).stat = 2 ∧ s.pke.queue = [] ∧ s.nextToSign = none ∧ (s.pkeUnit 7).after = 11)
    ∧ (bandsOk [(128, 64)] = true ∧ bandsOk [(129, 1)] = false ∧ bandsOk [(128, 65)] = false)
    ∧ ((busyUnit 7 verifyReq).pke.queue = [] ∧ (busyUnit 7 verifyReq).nextToSign = none
       ∧ ((busyUnit 7 verifyReq).pkeUnit 7).work = some (.reg verifyReq [0, 1, 2, 3, 4, 5, 6, 7] 1023 0 64 none)
       ∧ sharedReq.op ∉ [0, 3, 10, 11] ∧ (on.pkeUnit 7).faults = []
       ∧ (dmaRead (384 + 7) 1023 0x1000 64 [] (busyUnit 7 { verifyReq with op := 10 })).1.isSome = true)
    ∧ (let s := (on.setFifo 587 [5]).wrF (Reg.PKE_T_VQ_MIN 3 0) 19 0 1
       s.fifo (584 + 3) = 5 :: [] ∧ (s.exchQ 3).length < s.fld (Reg.PKE_T_VQ_MIN 3 0) 19 0)
    ∧ (let s := pke (fun p => { p with batches := [(3, [(0, 2, 587)])] }) (on.wrB (Reg.MBX_BIND_HI 587) 31 true)
       tget (dflt []) s.pke.batches 3 = (0, 2, 587) :: [] ∧ s.bound 587 = true ∧ (s.fifo 587).length < 8)
    ∧ ((on.tileUnit 67).out = false ∧ (on.pkeUnit 7).stat ≠ 3)
    ∧ (let s := setTileUnit 63 { on.tileUnit 63 with out := true } on
       (s.tileUnit 63).out = true ∧ (s.tileUnit (64 + 63 / 16)).out = false ∧ tget (dflt 0) s.pke.spareFor (63 / 16) = 0) := by decide +kernel

/-- An expert SHARED of X25519 with its two operands. -/
def sharedCmd : HostCmd := { cmd with expert := true, params := [2, 0, 0, 0, 0, 0, 0, 0] ++ List.replicate 32 1 ++ List.replicate 31 0 ++ [9] }
theorem test_PkeCommands :
    (on.pke.queue = [] ∧ on.nextToSign = none ∧ Runs (running 0x0613 sharedCmd on) 0x0613 sharedCmd)
    ∧ (pkeRequest 4 { sharedCmd with params := [] } = none ∧ (pkeRequest 4 sharedCmd).isSome = true
       ∧ (pkeRequest 4 sharedCmd).all (fun x => pkeSupported x.1 && pkeLengthsOk x.1 && decide (resultLen x.1 ≤ sharedCmd.outLen) && !pkeNeedsRng x.1) = true
       ∧ (pkeRequest 4 { sharedCmd with params := 3 :: sharedCmd.params.drop 1 }).all (fun x => !pkeSupported x.1) = true
       ∧ on.freeUnit = some 0 ∧ (on.wrB Reg.RNG_STATUS 1 true).bitOf Reg.RNG_STATUS 1 = true)
    ∧ Runs (running 0x0601 cmd on) 0x0601 cmd :=
  ⟨⟨by decide +kernel, by decide +kernel, runs_running _ _ _ (by decide +kernel) (by decide +kernel)⟩, by decide +kernel,
   runs_running _ _ _ (by decide +kernel) (by decide +kernel)⟩
theorem test_Pke_more :
    ((busyUnit 7 { verifyReq with op := 10 }).readWaits 0x1000 = false)
    ∧ (let s := pke (fun p => { p with batches := [(3, [(0, 2, 587)])] }) (on.wrB (Reg.MBX_BIND_HI 587) 31 true)
       s.unitServes (tileUnitNo 3 15) = true ∧ (tget (dflt []) s.pke.batches 2 = [] ∨ s.unitServes (tileUnitNo 2 0) = false))
    ∧ (let s := (List.range 8).foldl (fun s n => setPkeUnit n { s.pkeUnit n with stat := 3 } s) on
       (∀ n, n < 8 → (s.pkeUnit n).stat = 3) ∧ s.freeUnit = none)
    ∧ (let s := (List.range 8).foldl (fun s n => setPkeUnit n { s.pkeUnit n with stat := 1 } s) on
       s.freeUnit = none ∧ (s.pkeUnit 7).stat ≠ 3 ∧ (s.queue (qkey sharedCmd.fn sharedCmd.queue)).orphan sharedCmd.ident.toNat = false) := by decide +kernel

/-! ### Chapter 16 -/

def fsh (f : FlashState → FlashState) (s : State) : State := { s with fsh := f s.fsh }
def erasing (e : FlashErase) : State := fsh (fun f => { f with erase := some e }) on
def anErase : FlashErase := ⟨0x1FF0000, 0x10000, 0, false, false, false, none⟩

theorem test_CustodyAndLedgerFlash :
    ((on.wr (Reg.FSH_WP 4) 0).programCode 0x1FFFF00 (zeros 4) = 0 ∧ on.programCode 0 (zeros 4) = 1 ∧ on.programCode 2 (zeros 4) = 4 ∧ (erasing anErase).programCode 0 (zeros 4) = 5 ∧ on.fsh.prog = none ∧ on.fsh.erase = none
       ∧ (on.wr (Reg.FSH_WP 4) 0).sectorProtected 143 = false ∧ (on.wr (Reg.FSH_WP 0) 0).sectorProtected 8 = true ∧ on.fsh.bad.contains 0 = false)
    ∧ ((erasing anErase).fsh.erase = some anErase ∧ anErase.suspended = false ∧ (erasing { anErase with suspended := true }).fsh.prog = none)
    ∧ ((on.advance 0).flashIdle = true ∧ ((erasing anErase).advance 0).flashIdle = false)
    ∧ (anErase.since + 2000000 ≤ { erasing { anErase with pendSuspend := true } with now := 2000000 }.now ∧ (erasing anErase).now < anErase.since + 2000000
       ∧ on.fsh.lastRead + 5000 ≤ { on with now := 5000 }.now ∧ on.now < on.fsh.lastRead + 5000)
    ∧ (let s := fsh (fun f => { f with prog := some (0x1FFFFFC, zeros 4) }) on
       s.fsh.reads = [] ∧ s.fsh.eraseQ = [] ∧ s.upd.sess = none ∧ s.fsh.prog = some (0x1FFFFFC, zeros 4))
    ∧ (anErase.first % 4096 = 0 ∧ anErase.size % 4096 = 0 ∧ anErase.cmd = none)
    ∧ (let s := { on with lfs := { on.lfs with erasing := [262143], blocks := [(262143, ⟨1, 2, some 5, false⟩)] } }
       s.lfs.erasing.contains 262143 = true ∧ (s.lblock 262143).area = 2 ∧ on.lfs.erasing.contains 262143 = false
         ∧ (s.wrB Reg.LFS_CTL 1 false).bitOf Reg.LFS_CTL 1 = false)
    ∧ Runs (running 0x0801 cmd on) 0x0801 cmd ∧ Runs (running 0x0802 cmd on) 0x0802 cmd
    ∧ (let s := running 0x0810 cmd (on.wrB (Reg.FSH_INCOMP 4) 15 true)
       Runs s 0x0810 cmd ∧ s.sectorIncomplete 143 = true ∧ s.sectorIncomplete 8 = false ∧ s.fsh.bad.contains 143 = false ∧ s.fsh.prog = none
         ∧ s.fsh.erase = none ∧ s.fsh.eraseQ = []) :=
  ⟨by decide +kernel, by decide +kernel, by decide +kernel, by decide +kernel, by decide +kernel, by decide +kernel, by decide +kernel,
   runs_running _ _ _ (by decide +kernel) (by decide +kernel), runs_running _ _ _ (by decide +kernel) (by decide +kernel),
   ⟨runs_running _ _ _ (by decide +kernel) (by decide +kernel), by decide +kernel⟩⟩
/-- With every spare granule used none is left, whatever the factory left. -/
theorem test_no_spare_left : (fsh (fun f => { f with grown := List.replicate 128 0 }) on).sparesLeft = 0 := by
  simp only [State.sparesLeft, fsh, List.length_replicate]; omega
theorem test_CustodyFlash_more :
    ((on.advance 5).flashIdle = true ∧ ((erasing anErase).advance 5).flashIdle = false ∧ (on.wrB (Reg.FSH_INCOMP 4) 8 true).sectorIncomplete (sectorOf 0x1FF0000) = true)
    ∧ ((erasing { anErase with suspended := true }).fsh.erase = some { anErase with suspended := true } ∧ on.lfs.moves = [] ∧ on.lfs.borrowed = 0)
    ∧ (let s := running 0x0810 sharedCmd (on.wrB (Reg.FSH_INCOMP 4) 8 true)
       Runs s 0x0810 sharedCmd ∧ sharedCmd.expert = true ∧ 0x1FF0 + 2 ≤ 8192 ∧ (∀ i, i < 2 → s.erasable (sectorOf ((0x1FF0 + i) * 4096)) = true
         ∧ s.fsh.bad.contains (sectorOf ((0x1FF0 + i) * 4096)) = false) ∧ s.erasable (sectorOf (8 * 4096)) = false) :=
  ⟨by decide +kernel, by decide +kernel, ⟨runs_running _ _ _ (by decide +kernel) (by decide +kernel), by decide +kernel⟩⟩

/-! ### Chapter 17 -/

def upd (f : UpdateState → UpdateState) (s : State) : State := { s with upd := f s.upd }
/-- On trial in bank 1. -/
def onTrial : State := on.wr Reg.UPD_BANK 0x2F

theorem test_FirmwareUpdate :
    (bits (0x6B1E0007 : Word) 31 16 = 0x6B1E ∧ bits (0x9D420102 : Word) 31 16 = 0x9D42 ∧ bits (0x9D420102 : Word) 1 0 = 2 ∧ onTrial.trial = true
       ∧ onTrial.runningBank = onTrial.prefBank ∧ on.trial = false)
    ∧ (on.upd.jobs = [] ∧ on.bitOf Reg.UPD_CTL 0 = true ∧ (upd (fun u => { u with jobs := [.copy 1 cmd.ref] }) on).upd.jobs ≠ [])
    ∧ (let s := upd (fun u => { u with jobs := [.reg 1 1023 0x1000 0x2000 64] }) on
       s.upd.jobs = [.reg 1 1023 0x1000 0x2000 64] ∧ (dmaRead 262 1023 0x1000 64 [] s).1.isSome = true ∧ 1 % 4 = 1 ∧ 2 % 4 ≠ 1)
    ∧ (let s := upd (fun u => { u with jobs := [.copy 1 cmd.ref], sess := some ⟨[], false⟩ }) on
       s.upd.jobs = [.copy 1 cmd.ref] ∧ s.upd.sess = some ⟨[], false⟩)
    ∧ Runs (running 0x0803 cmd on) 0x0803 cmd
    ∧ (Runs (running 0x0820 cmd on) 0x0820 cmd ∧ on.upd.sess = none ∧ on.fsh.bad = [] ∧ on.fsh.prog = none ∧ on.fsh.erase = none ∧ on.fsh.eraseQ = [])
    ∧ (let s := running 0x0821 cmd (upd (fun u => { u with sess := some ⟨[], false⟩ }) on)
       Runs s 0x0821 cmd ∧ ((⟨[], false⟩ : UpdSession).kind 5).copied = false ∧ ((⟨[], false⟩ : UpdSession).kind 5).stream = [])
    ∧ Runs (running 0x0822 cmd on) 0x0822 cmd ∧ Runs (running 0x0823 cmd on) 0x0823 cmd ∧ Runs (running 0x0824 cmd on) 0x0824 cmd
    ∧ (let s := running 0x0825 cmd { upd (fun u => { u with valid := true }) on with sys := { on.sys with maint := MaintSet.all } }
       Runs s 0x0825 cmd ∧ s.upd.valid = true ∧ s.sys.maint.whole = true ∧ on.upd.valid = false ∧ on.sys.maint.whole = false)
    ∧ Runs (running 0x0826 cmd onTrial) 0x0826 cmd :=
  ⟨by decide +kernel, by decide +kernel, by decide +kernel, by decide +kernel, runs_running _ _ _ (by decide +kernel) (by decide +kernel),
   ⟨runs_running _ _ _ (by decide +kernel) (by decide +kernel), by decide +kernel⟩, ⟨runs_running _ _ _ (by decide +kernel) (by decide +kernel), by decide +kernel⟩,
   runs_running _ _ _ (by decide +kernel) (by decide +kernel), runs_running _ _ _ (by decide +kernel) (by decide +kernel), runs_running _ _ _ (by decide +kernel) (by decide +kernel),
   ⟨runs_running _ _ _ (by decide +kernel) (by decide +kernel), by decide +kernel⟩, runs_running _ _ _ (by decide +kernel) (by decide +kernel)⟩
theorem test_confirm_reads_svn : 64 < hdrSvn (onTrial.imageHeader 1 1)
    ∧ hdrSvn ((fsh (fun f => { f with cells := tputBytes (dflt 0xFF) f.cells (imageBase 1 1 + 12) [0, 64] }) onTrial).imageHeader 1 1) ≤ 64 := by
  decide +kernel
theorem test_FirmwareUpdate_more :
    (bits (0x6B1E0007 : Word) 31 16 = 0x6B1E ∧ bits (0 : Word) 31 16 ≠ 0x6B1E ∧ bits (0 : Word) 31 16 ≠ 0x9D42)
    ∧ (let s := upd (fun u => { u with jobs := [.reg 1 1023 0x1000 0x2000 64] }) on
       (UpdJob.reg 1 1023 0x1000 0x2000 64).waits s = false ∧ (UpdJob.reg 2 1023 0x1000 0x2000 64).waits (upd (fun u => { u with jobs := [] }) (erasing anErase)) = true
         ∧ (∀ j ∈ s.upd.jobs, j.isReg = true))
    ∧ (let s := on.wr (Reg.FSH_WP 4) 0
       s.flashTakes true 0x1FFFF00 4 = true ∧ s.flashTakes true 0 4 = false ∧ s.flashIdle = true)
    ∧ ((⟨[], false⟩ : UpdSession).erasing = false ∧ (⟨[], true⟩ : UpdSession).erasing = true ∧ field (List.replicate 5 0 ++ [1]) 5 1 = 1
       ∧ (on.headerCheck 1 (zeros 4096)).isSome = true ∧ transportLen 1 (zeros 8) < 8 ∨ 8 ≤ transportLen 1 (zeros 8))
    ∧ ((upd (fun u => { u with valid := true }) on).stageStands = false) := by decide +kernel

/-! ### Chapter 18 -/

def cer (f : CeremonyState → CeremonyState) (s : State) : State := { s with cer := f s.cer }
/-- A card in slot 3, in a state of the slot and at a class. -/
def slotAt (st cls : Nat) : State := ((on.wrB Reg.CRD_STATUS 3 true).wrF (Reg.CRD_S_STATUS 3) 2 1 st).wrF (Reg.CRD_S_CTL 3) 3 2 cls
/-- An answer to reset without any interface byte, and one with a specific mode. -/
def bareAtr : Bytes := [0x3B, 0x00]
def specificAtr : Bytes := [0x3B, 0x80, 0x10, 0x00]
/-- An open ceremony of PF0, and a card step of it in slot 3. -/
def opened : State := cer (fun c => { c with phase := .opened, fn := 0 }) (inMode .ceremony)
def enrolment (x : Option Nat) (stage : Nat) : CardStep := ⟨cmd.ref, 0x0913, .enrol 9 3 512 false (zeros 48), x, stage, [], [], [], true, [], none, []⟩

theorem test_CardSlots :
    (on.cer.card = none ∧ (slotAt 2 3).slotState 3 = 2 ∧ on.slotState 3 = 0)
    ∧ (bit (0x0000000C : Word) 1 = false ∧ bits (0x0000000C : Word) 3 2 = 3 ∧ (on.wrB Reg.CRD_CTL 3 true).bitOf Reg.CRD_CTL 3 = true
       ∧ (on.wrB Reg.CRD_STATUS 3 true).bitOf Reg.CRD_STATUS 3 = true)
    ∧ ((slotAt 1 3).slotState 3 = 1 ∧ ((slotAt 1 3).cardSlot 3).plan = none ∧ (slotAt 1 3).fld (Reg.CRD_S_CTL 3) 3 2 = 3)
    ∧ (admitsClass (readAtr bareAtr).1 3 = true ∧ atrProto (readAtr bareAtr).2 = some 0 ∧ (ratesOf 0x11).isSome = true)
    ∧ ((setCardSlot 3 { CardSlot.reset with plan := some ⟨0, false, 372, 1, 100, 9600, 0, 0, [0xFF, 0x10, 0x11, 0xFE]⟩ } (slotAt 1 3)).slotState 3 = 1)
    ∧ (([] : List Byte).length < 32 ∧ 32 ≤ (List.replicate 32 (0 : Byte)).length)
    ∧ (let s := cer (fun c => { c with card := some (enrolment (some 3) 0) }) (slotAt 2 3)
       s.cer.card = some (enrolment (some 3) 0) ∧ (enrolment (some 3) 0).exchange = some 3 ∧ s.slotState 3 = 2) := by decide +kernel

theorem test_CeremonyPhases :
    Runs (running 0x0901 cmd on) 0x0901 cmd ∧ Runs (running 0x0904 cmd on) 0x0904 cmd ∧ (Runs (running 0x0902 cmd on) 0x0902 cmd ∧ on.rngFailed = false)
    ∧ (Runs (running 0x0903 cmd on) 0x0903 cmd ∧ (1535 : BitVec 16).toNat < 1536)
    ∧ (let s := cer (fun c => { c with nonces := [⟨512, zeros 16, 0⟩] }) on
       (∀ n ∈ s.cer.nonces, n.fn ≠ 511) ∧ s.cer.nonces = [] ++ ⟨512, zeros 16, 0⟩ :: [])
    ∧ (Runs (running 0x0910 cmd (inMode .notary)) 0x0910 cmd ∧ (inMode .notary).sys.mode = .notary ∧ (inMode .notary).noDevice = true
       ∧ (inMode .notary).cer.phase = .idle ∧ (inMode .notary).sys.pend = none)
    ∧ (Runs (running 0x0911 cmd opened) 0x0911 cmd ∧ opened.cer.phase = .opened ∧ opened.cer.fn = cmd.fn.val ∧ opened.enrolled devScope < (opened.workPolicy devScope).m)
    ∧ Runs (running 0x0912 cmd opened) 0x0912 cmd
    ∧ ((cer (fun c => { c with phase := .closing }) opened).cer.phase = .closing ∧ on.anyCharter = false
       ∧ (cer (fun c => { c with phase := .restoring }) opened).sys.mode = .ceremony) :=
  ⟨runs_running _ _ _ (by decide +kernel) (by decide +kernel), runs_running _ _ _ (by decide +kernel) (by decide +kernel),
   ⟨runs_running _ _ _ (by decide +kernel) (by decide +kernel), by decide +kernel⟩, ⟨runs_running _ _ _ (by decide +kernel) (by decide +kernel), by decide +kernel⟩,
   by decide +kernel, ⟨runs_running _ _ _ (by decide +kernel) (by decide +kernel), by decide +kernel⟩,
   ⟨runs_running _ _ _ (by decide +kernel) (by decide +kernel), by decide +kernel⟩, runs_running _ _ _ (by decide +kernel) (by decide +kernel), by decide +kernel⟩

/-- `opened` with tenant 5, domain 2's key, and custodian 9 ENROLLED. -/
def working : State :=
  (cer (fun c => { c with tenants := [(5, ⟨true, 2⟩)], work := [(9, ⟨512, 1, false, zeros 8, zeros 97⟩)] }) opened).setSlot 3 (live 1 0xFFFF 0)

theorem test_CeremonySteps :
    (on.cer.phase ≠ .opened ∧ on.cer.phase ≠ .step ∧ working.cer.phase = .opened ∧ working.cer.fn = cmd.fn.val ∧ working.cer.steps.length < 128)
    ∧ (Runs (running 0x0914 cmd working) 0x0914 cmd ∧ (tget (dflt Custodian.empty) working.cer.work 9).state = 1 ∧ 1536 ≤ (1536 : BitVec 16).toNat)
    ∧ (Runs (running 0x0915 cmd working) 0x0915 cmd ∧ (working.tenant 5).present = true ∧ (working.tenant 511).present = false)
    ∧ (Runs (running 0x0919 cmd working) 0x0919 cmd ∧ (0x80 : Word) &&& 0xFFFFFF80 ≠ 0 ∧ (0x7F : Word) &&& 0xFFFFFF80 = 0)
    ∧ (Runs (running 0x0917 cmd working) 0x0917 cmd ∧ (working.slot (1 + 2)).state = 1 ∧ (0x3F : Word) &&& 0xFFFFFFC0 = 0
       ∧ working.stepLimit (createUndo 511 working) = false)
    ∧ Runs (running 0x0918 cmd working) 0x0918 cmd
    ∧ (Runs (running 0x0913 cmd working) 0x0913 cmd ∧ working.freeCustodian.isSome = true ∧ working.enrolled devScope < 16 ∧ working.cardActive 4 = false)
    ∧ (Runs (running 0x0916 { cmd with expert := true } working) 0x0916 { cmd with expert := true } ∧ (working.slot (1 + 15)).state = 0
       ∧ working.stepLimit [.record 16 (tget (dflt noRecord) working.keys.store 16), .slot 16 (working.slot 16)] = false ∧ working.rngFailed = false)
    ∧ (Runs (running 0x0211 vf5 on) 0x0211 vf5 ∧ vf5.fn.val ≠ 0 ∧ vf5.ticket = none)
    ∧ (let s := cer (fun c => { c with card := some (enrolment (some 3) 1), phase := .step }) (slotAt 2 3)
       s.cardActive 3 = true ∧ s.cer.card = some (enrolment (some 3) 1) ∧ s.cardKnown (zeros 8) (zeros 97) = false
         ∧ (cer (fun c => { c with work := [(9, ⟨512, 1, false, zeros 8, zeros 97⟩)] }) s).cardKnown (zeros 8) (zeros 97) = true)
    ∧ ((cer (fun c => { c with card := some (enrolment none 0) }) on).cer.card = some (enrolment none 0) ∧ (enrolment none 0).exchange = none) :=
  ⟨by decide +kernel, ⟨runs_running _ _ _ (by decide +kernel) (by decide +kernel), by decide +kernel⟩,
   ⟨runs_running _ _ _ (by decide +kernel) (by decide +kernel), by decide +kernel⟩, ⟨runs_running _ _ _ (by decide +kernel) (by decide +kernel), by decide +kernel⟩,
   ⟨runs_running _ _ _ (by decide +kernel) (by decide +kernel), by decide +kernel⟩, runs_running _ _ _ (by decide +kernel) (by decide +kernel),
   ⟨runs_running _ _ _ (by decide +kernel) (by decide +kernel), by decide +kernel⟩, ⟨runs_running _ _ _ (by decide +kernel) (by decide +kernel), by decide +kernel⟩,
   ⟨runs_running _ _ _ (by decide +kernel) (by decide +kernel), by decide +kernel⟩, by decide +kernel, by decide +kernel⟩
theorem test_Cards_more :
    ((cer (fun c => { c with phase := .restoring }) on).cer.phase = .restoring ∧ (cer (fun c => { c with phase := .restoring }) on).sys.mode ≠ .ceremony)
    ∧ ((cer (fun c => { c with phase := .step }) opened).cer.phase = .step ∧ opened.mintUp = true ∧ working.mintUp = true)
    ∧ (let s := cer (fun c => { c with card := some { enrolment (some 3) 2 with want := .importKey 2640 (poolMeta 8 3 0 2 5 31) 2 512 (zeros 5) [] [] } }) (slotAt 2 3)
       s.cardActive 3 = true ∧ [0, 1, 2, 3, 4].find? s.cardActive = some 3 ∧ [0, 1, 2, 4].find? s.cardActive = none
         ∧ (CardWant.importKey 2640 (poolMeta 8 3 0 2 5 31) 2 512 (zeros 5) [] []).isEnrol = false)
    ∧ (storedClass 8 = true ∧ limitOk 31 = true ∧ (0 : BitVec 8) &&& ~~~(classAttrs 8) = 0 ∧ storedClass 0xFF = false)
    ∧ (let x : CardStep := { enrolment (some 3) 3 with want := .readDomain 2 2 [0, 1] (zeros 5) [] [] }
       (slotAt 2 3).slotState 3 = 2 ∧ x.stage = 3 ∧ (∀ d l key left cards, x.want ≠ .writeDomain d l key left cards) ∧ openComponent x [] = none) :=
  ⟨by decide +kernel, by decide +kernel, by decide +kernel, by decide +kernel, by decide +kernel, by decide +kernel, nofun, by decide +kernel⟩
/-! ### Chapter 19 -/

def nfr (f : NfrState → NfrState) (s : State) : State := { s with nfr := f s.nfr }
/-- The reader enabled, with tokens and sensing, in a state, with a token or none. -/
def reader (st : Nat) (token : Bool) : State := ((on.wr Reg.NFR_CTL 7).wrF Reg.NFR_STATUS 1 0 st).wrB Reg.NFR_STATUS 2 token
/-- An exchange with the token, of a ceremony step. -/
def onToken : CardStep := { enrolment (some 4) 1 with inCeremony := true }
/-- A check with one round and a count window of 3; seal 2's record, its key in slot 65533, and a tag's state block that says 6 reads, 1 open, 20 to 30 °C. -/
def run : SealRun := ⟨some cmd.ref, false, 0x3101, 0x4600, 0, [], []⟩
def seal2 : Seal := ⟨true, (keyed.handle 65533), 5, 1, 0, 0, 5, 1, 0, 0, true⟩
def checking (k : SealRun) : State := nfr (fun x => { x with check := some k, seals := [(2, seal2)], challenge := zeros 16 }) keyed
def block2 : Bytes := [0, 0, 0, 0, 6, 0, 0, 6, 0, 1, 0, 1, 20, 30, 0, 0]
def mac2 : Bytes := cmac (keyed.slot 65533).keyBytes (zeros 16 ++ zeros 6 ++ block2)
/-- An enrolment of seal 3, before and after RELEASE_KEY. -/
def enrolling (h : Option Nat) : State := nfr (fun x => { x with enrol := some ⟨cmd.ref, 3, some (zeros 6), h⟩, challenge := zeros 16 }) keyed

theorem test_TokensAndSeals_reader :
    ((let s := reader 0 false;
      s.bitOf Reg.NFR_CTL 0 = true ∧ s.bitOf Reg.NFR_CTL 1 = true ∧ s.bitOf Reg.NFR_STATUS 2 = false ∧ s.nfr.check = none ∧ s.nfr.enrol = none)
     ∧ (on.wr Reg.NFR_CTL 6).bitOf Reg.NFR_CTL 0 = false)
    ∧ (let s := cer (fun c => { c with card := some onToken }) (reader 2 true)
       s.tokenBusy = true ∧ (reader 2 true).bitOf Reg.NFR_STATUS 2 = true ∧ (reader 2 true).tokenBusy = false
       ∧ (reader 0 false).bitOf Reg.NFR_STATUS 2 = false ∧ s.bitOf Reg.NFR_STATUS 2 = true ∧ s.cer.card = some onToken ∧ onToken.exchange = some 4)
    ∧ (let s := (reader 0 false).wrF Reg.NFR_CAP_THR 7 0 10
       s.bitOf Reg.NFR_CTL 2 = true ∧ s.fld Reg.NFR_STATUS 1 0 = 0 ∧ s.fld Reg.NFR_CAP_THR 7 0 < (11 : BitVec 8).toNat - s.fld Reg.NFR_CAP_VAL 7 0
       ∧ ¬ s.fld Reg.NFR_CAP_THR 7 0 < (10 : BitVec 8).toNat - s.fld Reg.NFR_CAP_VAL 7 0 ∧ (reader 1 false).fld Reg.NFR_STATUS 1 0 ≠ 0)
    ∧ ((reader 1 false).bitOf Reg.NFR_STATUS 2 = false ∧ (reader 1 false).bitOf Reg.NFR_CTL 0 = true ∧ (reader 1 false).fld Reg.NFR_STATUS 1 0 = 1
       ∧ (reader 3 false).fld Reg.NFR_STATUS 1 0 = 3 ∧ ((reader 0 false).wr Reg.NFR_CTL 1).bitOf Reg.NFR_CTL 2 = false) := by decide +kernel

/-- An enrolment that finds the first pool slot. -/
def enrolOk : State := (enrolling none).wrB Reg.VLT_CTL 0 true

theorem test_poolSlot : poolSlot 0xFFFF enrolOk = .ok 2640 := by
  have h : freePoolFrom enrolOk 2640 (62895 + 1) = some 2640 := by rw [freePoolFrom, if_pos (by decide +kernel)]
  have hb : enrolOk.bitOf Reg.VLT_CTL 0 = true := by decide +kernel
  have h' : freePoolFrom enrolOk 2640 62896 = some 2640 := h
  simp [poolSlot, hb, h']

/-- Seal 2's tag answers under its key. -/
theorem test_tag : (checking run).tagPasses 2 (zeros 6) block2 mac2 = true := by
  have h : (checking run).sealKey 2 = some (keyed.slot 65533).keyBytes := by decide +kernel
  have hc : (checking run).nfr.challenge = zeros 16 := by decide +kernel
  simp only [State.tagPasses, h, hc]
  exact beq_self_eq_true _

theorem test_TokensAndSeals_answers :
    ((checking run).nfr.check = some run ∧ (checking run).nfr.enrol = none ∧ run.rounds < bits run.cfg 10 8 ∧ (checking run).unmatched run = [2]
      ∧ (checking { run with matched := [(2, block2, 0)] }).unmatched { run with matched := [(2, block2, 0)] } = []
      ∧ ((checking run).setSlot 65533 Slot.empty).sealKey 2 = none)
    ∧ (on.nfr.enrol = none ∧ on.nfr.check = none ∧ (enrolling none).nfr.enrol = some ⟨cmd.ref, 3, some (zeros 6), none⟩ ∧ (([] : List Bytes)).length ≠ 1)
    ∧ (enrolOk.nfr.enrol = some ⟨cmd.ref, 3, some (zeros 6), none⟩ ∧ good (poolSlot 0xFFFF ((enrolling none).wrB Reg.VLT_CTL 0 false)) = false)
    ∧ (let s := enrolling (some (keyed.handle 65533))
       s.slotOf (BitVec.ofNat 32 (keyed.handle 65533)) = some 65533 ∧ (s.slot 65533).state = 1 ∧ s.nfr.challenge = zeros 16) := by decide +kernel

theorem test_TokensAndSeals_verdict :
    (let k := { run with matched := [(2, block2, 1)] };
     (checking k).nfr.check = some k ∧ (checking k).sealCause k 2 = 0 ∧ k.matched.find? (fun m => m.1 == 2) = some (2, block2, 1)
       ∧ ((checking k).sealRec 2).enrolled = true ∧ ((checking k).sealRec 3).enrolled = false ∧ (checking run).sealCause run 2 = 1
       ∧ (checking { k with cfg := 0x3102 }).sealCause { k with cfg := 0x3102 } 2 = 0 ∧ bits (0x3102 : Word) 4 0 = 2) := by decide +kernel

theorem test_TokensAndSeals_commands :
    Runs (running 0x0A0C cmd on) 0x0A0C cmd
    ∧ (Runs (running 0x0A33 cmd (reader 0 false)) 0x0A33 cmd ∧ (reader 0 false).nfr.check = none ∧ (reader 0 false).nfr.enrol = none
       ∧ (reader 0 false).tokenBusy = false ∧ (on.wr Reg.NFR_CTL 6).bitOf Reg.NFR_CTL 0 = false ∧ (checking run).nfr.check ≠ none
       ∧ ((checking run).wrB Reg.NFR_CTL 0 true).bitOf Reg.NFR_CTL 0 = true)
    ∧ (Runs (running 0x0A30 cmd on) 0x0A30 cmd ∧ Runs (running 0x0A31 cmd on) 0x0A31 cmd ∧ Runs (running 0x0A32 cmd on) 0x0A32 cmd ∧ cmd.ticket = none
       ∧ Runs (running 0x0A30 ticketed on) 0x0A30 ticketed ∧ Runs (running 0x0A31 ticketed on) 0x0A31 ticketed
       ∧ Runs (running 0x0A32 ticketed on) 0x0A32 ticketed ∧ ticketed.ticket = some []) := 
  ⟨runs_running _ _ _ (by decide +kernel) (by decide +kernel), ⟨runs_running _ _ _ (by decide +kernel) (by decide +kernel), by decide +kernel⟩,
   ⟨runs_running _ _ _ (by decide +kernel) (by decide +kernel), runs_running _ _ _ (by decide +kernel) (by decide +kernel), runs_running _ _ _ (by decide +kernel) (by decide +kernel), by decide +kernel,
    runs_running _ _ _ (by decide +kernel) (by decide +kernel), runs_running _ _ _ (by decide +kernel) (by decide +kernel), runs_running _ _ _ (by decide +kernel) (by decide +kernel), by decide +kernel⟩⟩
theorem test_TokensAndSeals_more :
    ((checking { run with rounds := 1 }).nfr.check = some { run with rounds := 1 } ∧ bits run.cfg 10 8 = 1 ∧ run.handles.contains (zeros 6) = false
       ∧ ({ run with handles := [zeros 6] } : SealRun).handles.contains (fit 6 (zeros 6)) = true)
    ∧ ((enrolling none).nfr.enrol.any (fun e => decide (e.tag ≠ none) && e.handle.isNone) = true)
    ∧ ((reader 0 false).readerOk = true ∧ ((reader 0 false).wrB Reg.NFR_STATUS 5 true).readerOk = false ∧ ((0 : BitVec 8)).toNat < 16 ∧ (checking run).nfr.check ≠ none) := by decide +kernel
/-! ### Chapter 20 -/

def tpr (f : TamperState → TamperState) (s : State) : State := { s with tpr := f s.tpr }
def alm (f : AlarmState → AlarmState) (s : State) : State := { s with alm := f s.alm }
/-- The keeper powers the device. -/
def keeperOn : State := { on with sys := { on.sys with mainPower := false, keeperRecord := true } }
/-- Every switch and loop armed, switch levels 0. -/
def armedAll : State := on.wr Reg.TPR_CFG 0xF00FF
/-- A service window of switches 0 and 7 that ends at 60 ns. -/
def windowed : State := tpr (fun x => { x with window := some ⟨0x81, 60⟩ }) armedAll
/-- A zeroization in progress, a tamper log entry, and an open alarm record. -/
def zeroing : State := tpr (fun x => { x with zero := some ⟨0, 1, 2, 3, 0, 1, []⟩ }) on
def logged (transferred : Bool) : TamperEntry := ⟨0, 1, 2, 1, transferred, false, 1, 3, []⟩
def openAlarm (security : Bool) (cls : Nat) : Alarm := ⟨cls, 1, security, false, false, true, [5], 5, 5, 0xFFFF, 1, 0, 0, 0, 0⟩
/-- 224 or 256 records in the queue. -/
def filled (n : Nat) (a : Alarm) : State := alm (fun x => { x with opened := [a], queue := List.replicate n (openAlarm false 9) }) on

theorem test_TamperAndZeroization_detections :
    (on.watches 4 0 = true ∧ on.armed 4 0 = true ∧ on.tpr.log.length < 64 ∧ on.respondsZ 4 0 = true ∧ on.tpr.zero = none ∧ on.sys.mainPower = true)
    ∧ (keeperOn.watches 6 0 = true ∧ keeperOn.armed 6 0 = true ∧ keeperOn.respondsZ 6 0 = true ∧ keeperOn.sys.mainPower = false ∧ keeperOn.tpr.zero = none)
    ∧ (keeperOn.watches 4 0 = false ∧ on.armed 1 8 = false ∧ on.respondsZ 0xC 0 = false ∧ on.armed 0xC 19 = true ∧ zeroing.tpr.zero ≠ none)
    ∧ (let w (v : Nat) := tget (dflt 0) (tpr (fun x => { x with words := [(19, v)] }) on).tpr.words 19
       w 0 = 0 ∧ w 1 = 1 ∧ w 2 = 2 ∧ w 3 = 3)
    ∧ (tget (dflt 0) (tpr (fun x => { x with bursts := [(19, 1)] }) keeperOn).tpr.bursts 19 = 1 ∧ tget (dflt 0) keeperOn.tpr.bursts 19 ≠ 1
       ∧ keeperOn.armed 0xC 19 = true)
    ∧ (bits (0x7A3C0000 : Word) 31 16 = 0x7A3C ∧ on.zeroizable = true ∧ bits (0x7A3D0000 : Word) 31 16 ≠ 0x7A3C)
    ∧ (let z : ZeroCause := ⟨0, 1, 2, 3, 0, 1, []⟩
       zeroing.tpr.zero = some z ∧ zeroing.sys.mainPower = true ∧ zeroing.bitOf Reg.TPR_STATUS 1 = false) := by decide +kernel

theorem test_TamperAndZeroization_windows :
    (let s := windowed;
     s.tpr.window = some ⟨0x81, 60⟩ ∧ (s.advance 59).now < 60 ∧ 60 ≤ (s.advance 60).now ∧ s.sys.mainPower = true
       ∧ (∀ k, k < 8 → nbit 0x81 k = true → (0 : BitVec 8).getLsbD k = s.bitOf Reg.TPR_CFG (8 + k))
       ∧ (nbit 0x81 7 = true ∧ (0x80 : BitVec 8).getLsbD 7 ≠ s.bitOf Reg.TPR_CFG 15 ∧ s.bitOf Reg.TPR_CFG 7 = true) ∧ s.zeroizable = true
       ∧ s.tpr.zero = none)
    ∧ ((ldg (fun l => { l with started := true }) on).ldg.started = true ∧ on.ldg.evq = [] ∧ on.ldg.evHeld = [] ∧ on.ldg.signQ = [] ∧ on.ldg.page = [])
    ∧ (let s := tpr (fun x => { x with log := [logged true, logged false] }) on
       s.tpr.log = [logged true] ++ logged false :: [] ∧ (logged false).transferred = false ∧ (∀ x ∈ [logged true], x.transferred = true))
    ∧ (let d (v : BitVec 11) := (Vector.replicate 4 v).toList.map (·.toNat)
       bits (0x2E710001 : Word) 31 16 = 0x2E71 ∧ bit (0x2E710001 : Word) 0 = true ∧ loopsArm 0xF0000 0xF (d 2000) = true ∧ loopsArm 0xF0000 0xF (d 2001) = false
       ∧ loopsArm 0xF0000 0x7 (d 2000) = false ∧ bit (0x2E71F002 : Word) 1 = true ∧ bits (0x2E71F002 : Word) 15 8 = 240 ∧ bits (0x2E71F102 : Word) 15 8 = 241
       ∧ bits (0x2E710102 : Word) 15 8 = 1)
    ∧ (((tpr (fun x => { x with log := [logged false] }) on).tpr.log[on.fld Reg.TPR_LOG_SEL 5 0]? = some (logged false)))
    ∧ (let s (l : List Nat) := tpr (fun x => { x with keyFails := l }) on
       ((s [0, 0]).tpr.keyFails.filter (fun x => decide (((s [0, 0]).advance 5).now < x + 1000000000))).length < 3
       ∧ 3 ≤ ((s [0, 0, 0]).tpr.keyFails.filter (fun x => decide (((s [0, 0, 0]).advance 5).now < x + 1000000000))).length) := by decide +kernel

theorem test_TamperAndZeroization_commands :
    (Runs (running 0x0A10 cmd on) 0x0A10 cmd ∧ Runs (running 0x0A11 cmd on) 0x0A11 cmd ∧ Runs (running 0x0A12 cmd on) 0x0A12 cmd ∧ cmd.ticket = none)
    ∧ (Runs (running 0x0A10 ticketed on) 0x0A10 ticketed ∧ Runs (running 0x0A11 ticketed on) 0x0A11 ticketed
       ∧ Runs (running 0x0A12 ticketed on) 0x0A12 ticketed ∧ ticketed.ticket = some [] ∧ bits (0x000FFFFF : Word) 31 20 = 0
       ∧ (240 : BitVec 16).toNat ≤ 240 ∧ (1 : BitVec 16) ≠ 0)
    ∧ (Runs (running 0x0A13 cmd windowed) 0x0A13 cmd ∧ (running 0x0A13 cmd windowed).tpr.window = some ⟨0x81, 60⟩
       ∧ ∀ k, k < 8 → nbit 0x81 k = true → (0 : BitVec 8).getLsbD k = windowed.bitOf Reg.TPR_CFG (8 + k))
    ∧ Runs (running 0x0A01 cmd on) 0x0A01 cmd
    ∧ (Runs (running 0x0A02 cmd on) 0x0A02 cmd ∧ (63 : BitVec 8).toNat + (1 : BitVec 8).toNat ≤ 64
       ∧ (let s := tpr (fun x => { x with log := [logged false] }) on
          0 < (((s.tpr.log.drop 0).take 1).flatMap TamperEntry.bytes).length)) :=
  ⟨⟨runs_running _ _ _ (by decide +kernel) (by decide +kernel), runs_running _ _ _ (by decide +kernel) (by decide +kernel), runs_running _ _ _ (by decide +kernel) (by decide +kernel),
    by decide +kernel⟩,
   ⟨runs_running _ _ _ (by decide +kernel) (by decide +kernel), runs_running _ _ _ (by decide +kernel) (by decide +kernel), runs_running _ _ _ (by decide +kernel) (by decide +kernel),
    by decide +kernel⟩,
   ⟨runs_running _ _ _ (by decide +kernel) (by decide +kernel), by decide +kernel⟩, runs_running _ _ _ (by decide +kernel) (by decide +kernel),
   ⟨runs_running _ _ _ (by decide +kernel) (by decide +kernel), by decide +kernel⟩⟩

theorem test_KeeperCoolantAndAlarms_keeper :
    (let z := on.fld Reg.THM_KEEP_ZTHR 15 0
     50 < z ∧ (let g := tpr (fun x => { x with goodTests := 1 }) on
       g.tpr.goodTests ≠ 0 ∧ on.tpr.goodTests = 0) ∧ on.sys.mainPower = true ∧ z + 50 < 65536)
    ∧ (keeperOn.sys.mainPower = false ∧ keeperOn.sys.keeperRecord = true ∧ 0 < keeperOn.fld Reg.THM_KEEP_ZERO 15 0 ∧ keeperOn.zeroizable = true
       ∧ keeperOn.tpr.zero = none ∧ keeperOn.tpr.log.length < 64 ∧ (inMode .zeroized).zeroizable = false)
    ∧ (let s := on.wrB Reg.THM_CTL 0 true
       s.bitOf Reg.THM_CTL 0 = true ∧ q88 ((0x9FF : BitVec 17).setWidth 32) < 10 * 256 ∧ 10 * 256 ≤ q88 ((0xA00 : BitVec 17).setWidth 32)
       ∧ (s.wrB Reg.THM_STATUS 4 true).bitOf Reg.THM_STATUS 4 = true ∧ (on.wrB Reg.THM_CTL 0 false).bitOf Reg.THM_CTL 0 = false)
    ∧ (on.bitOf Reg.THM_STATUS 3 = false ∧ (on.wrB Reg.THM_STATUS 3 true).bitOf Reg.THM_STATUS 3 = true)
    ∧ (on.bitOf Reg.THM_STATUS 4 = false ∧ on.bitOf Reg.THM_STATUS 5 = false ∧ on.bitOf Reg.THM_STATUS 6 = false
       ∧ 30 ≤ (on.wrF Reg.THM_DUTY 6 0 30).fld Reg.THM_DUTY 6 0 ∧ (on.wrF Reg.THM_DUTY 6 0 29).fld Reg.THM_DUTY 6 0 < 30
       ∧ ((on.wrB Reg.THM_CTL 0 true).wr Reg.THM_TJ_MIN 0xA00).bitOf Reg.THM_CTL 0 = true
       ∧ 10 * 256 ≤ q88 (((on.wrB Reg.THM_CTL 0 true).wr Reg.THM_TJ_MIN 0xA00).rd Reg.THM_TJ_MIN)) := by decide +kernel

theorem test_KeeperCoolantAndAlarms_alarms :
    (on.alm.opened = [] ∧ (filled 0 (openAlarm true 1)).alm.opened = [openAlarm true 1] ∧ (openAlarm true 1).cls = 1
       ∧ (filled 0 (openAlarm true 1)).now ≤ (openAlarm true 1).lastAt + 10000 ∧ (5 : BitVec 16).toNat ∈ (openAlarm true 1).sources
       ∧ (6 : BitVec 16).toNat ∉ (openAlarm true 1).sources)
    ∧ (((filled 0 (openAlarm false 9)).advance 10000).now ≤ 10000 ∧ 10000 < ((filled 0 (openAlarm false 9)).advance 10001).now)
    ∧ ((filled 223 (openAlarm false 9)).alm.queue.length < 224 ∧ 224 ≤ (filled 224 (openAlarm false 9)).alm.queue.length
       ∧ (filled 255 (openAlarm true 2)).alm.queue.length < 256 ∧ 256 ≤ (filled 256 (openAlarm true 2)).alm.queue.length ∧ (openAlarm true 2).cls ≠ 1)
    ∧ ((∀ j, j < 8 → (dropOffsets.map (fun o => on.dropsSince (8 * 63 + j) o)).sum = 0 ∧ tget (dflt 0) on.dp.timeouts (8 * 63 + j) = 0)
       ∧ on.alm.queue.length + 16 ≤ 224)
    ∧ (let s := alm (fun x => { x with held := [openAlarm true 2] }) (filled 256 (openAlarm true 2))
       s.alm.held = openAlarm true 2 :: [] ∧ 1 ≤ s.alm.queue.length ∧ s.alm.queue.length ≤ 256 ∧ on.alm.held = []) := by decide +kernel

theorem test_KeeperCoolantAndAlarms_commands :
    Runs (running 0x0A15 cmd on) 0x0A15 cmd
    ∧ (Runs (running 0x0A03 cmd on) 0x0A03 cmd ∧ Runs (running 0x0A04 cmd on) 0x0A04 cmd ∧ Runs (running 0x0A05 cmd on) 0x0A05 cmd)
    ∧ (Runs (running 0x0A14 expert on) 0x0A14 expert ∧ 40 * 256 ≤ (10240 : BitVec 16).toNat ∧ (25600 : BitVec 16).toNat ≤ 100 * 256 ∧ 20 ≤ (20 : BitVec 8).toNat)
    ∧ (Runs (running 0x0A16 cmd on) 0x0A16 cmd ∧ cmd.ticket = none
       ∧ (let z := on.fld Reg.THM_KEEP_ZTHR 15 0
          let l := on.fld Reg.THM_KEEP_ZERO 15 0
          (z - 1 < z ∧ ¬ (z < z ∨ l < l)) ∧ (2330 ≤ l ∧ l ≤ 2500 ∧ l + 50 ≤ z))) :=
  ⟨runs_running _ _ _ (by decide +kernel) (by decide +kernel),
   ⟨runs_running _ _ _ (by decide +kernel) (by decide +kernel), runs_running _ _ _ (by decide +kernel) (by decide +kernel), runs_running _ _ _ (by decide +kernel) (by decide +kernel)⟩,
   ⟨runs_running _ _ _ (by decide +kernel) (by decide +kernel), by decide +kernel⟩, ⟨runs_running _ _ _ (by decide +kernel) (by decide +kernel), by decide +kernel⟩⟩
/-- A beat of the main data bus, with its code and with another. -/
def aBeat : BusBeat := ⟨0, 0x10000000, 0, 0, 1023⟩
theorem test_Tamper_more :
    (let s := tpr (fun x => { x with lfsr := [(19, 5)] }) on
     (BitVec.ofNat 32 (s.netBits 19 32)).toNat = s.netBits 19 32 ∧ ((0 : Word)).toNat ≠ s.netBits 19 32 ∧ s.armed 0xC 19 = true
       ∧ (BitVec.ofNat 64 (s.netBits 19 64)).toNat = s.netBits 19 64)
    ∧ ((∀ k, k < 4 → bit (0xFFFF : Word) (16 + k) = false) ∨ on.rngFailed = false)
    ∧ (on.rngFailed = false ∧ on.sys.mainPower = true)
    ∧ (let good := busIntegrityCode aBeat.data aBeat.addr aBeat.master aBeat.ring aBeat.colour
       good = good ∧ good ^^^ 1 ≠ good) := by decide +kernel
/-! ### Chapter 21 -/

def pair (f : PairState → PairState) (s : State) : State := { s with pair := f s.pair }
/-- A charter in a role. -/
def role (r : Nat) : Charter := { Charter.none with role := r }
/-- A paired device with its link up, tenant 5's charter as given. -/
def linked (c : Charter) : State := pair (fun p => { p with paired := true, partner := 9, linkUp := true, charters := [(5, c)] }) on
def unlinked (c : Charter) : State := pair (fun p => { p with linkUp := false }) (linked c)
/-- A take of tenant 5 asked for at the start. -/
def take5 (force : Bool) : Take := ⟨5, cmd.ref, force, 0⟩
/-- A pair join that waits for the partner's keys, or for its statement. -/
def joining (keys : Option (Bytes × Bytes)) : State := pair (fun p => { p with joinCmd := some ⟨cmd.ref, 9, sha384 [], zeros 112, keys⟩, paired := false }) (linked (role 0))
/-- An open ceremony on a paired device, with the pair key in slot 65533. -/
def openedPair (c : Charter) : State := pair (fun p => { p with paired := true, linkUp := true, charters := [(5, c)], pairSlot := some 65533 }) (working.setSlot 65533 (live 9 0xFFFF 0x06))

theorem test_PairsAndCharters_link :
    (on.sys.mainPower = true ∧ (on.wrB Reg.PAI_CTL 0 true).bitOf Reg.PAI_CTL 0 = true ∧ on.pair.linkUp = false ∧ 4 ≤ laneCount 0x0F ∧ laneCount 0x07 = 3
      ∧ on.pair.paired = false)
    ∧ ((unlinked (role 2)).pair.paired = true ∧ (unlinked (role 2)).pair.linkUp = false
       ∧ ∀ e ∈ (unlinked (role 2)).pair.charters, ((unlinked (role 2)).charter e.1).role ≠ 3)
    ∧ (let c := { role 4 with cut := some 3 }
       (linked c).pair.charters = [(5, c)] ∧ c.role = 4 ∧ c.cut = some 3 ∧ c.start = none ∧ (role 1).role ≠ 4)
    ∧ (let gens : List (Fin 512 × BitVec 32 × BitVec 64) := [(5, 2, 0)]
       ((gens.find? (fun x => x.1.val == 5)).map (fun x => (x.2.1.toNat, x.2.2.toNat))).getD (0, 0) = (2, 0)
       ∧ { role 1 with gen := 1 }.gen < 2 ∧ ¬ { role 1 with gen := 2 }.gen < 2 ∧ { role 5 with prior := 1 }.prior ≠ 0)
    ∧ (let c := { role 4 with cut := some 3 }
       (linked (role 2)).tim.now < 200000001 ∧ ((linked c).advance 5).tim.now < State.cutNs 3 ∧ (linked c).pair.linkUp = true ∧ (linked c).pair.paired = true)
    ∧ ((2 : BitVec 512).getLsbD 1 = true ∧ (role 3).role = 3) := by decide +kernel

theorem test_PairsAndCharters_takes :
    (((linked (role 3)).charter 5).role = 3 ∧ ((linked (role 3)).charter 5).leaseHeld ≤ ((linked (role 3)).advance 0).tim.now
      ∧ (let s := linked { role 3 with leaseHeld := 2 ^ 40 }
         (s.advance 0).tim.now < (s.charter 5).leaseHeld))
    ∧ ((linked (role 1)).pair.linkUp = true ∧ (linked (role 1)).pair.paired = true ∧ ((linked (role 1)).charter 5).role = 1)
    ∧ (on.ldg.evq = [] ∧ on.ldg.evHeld = [] ∧ on.ldg.signQ = [] ∧ on.ldg.page = [])
    ∧ (let s := pair (fun p => { p with takes := [take5 false] }) (linked (role 2))
       s.pair.linkUp = true ∧ s.pair.takes = [take5 false] ∧ (take5 false).tenant = (5 : Fin 512).val ∧ (s.charter 5).role = 2
         ∧ (take5 false).sent + 100 ≤ (s.advance 100000000).ms ∧ (s.advance 99999999).ms < (take5 false).sent + 100 ∧ (s.charter 5).role ≠ 4)
    ∧ (let c := { role 3 with cut := some 1 }
       (linked c).charter 5 = c ∧ c.final = false ∧ ((linked c).advance 0).epoch < 1 ∧ 1 ≤ ((linked c).advance 1000000000).epoch
         ∧ tget (dflt 0) (linked c).ldg.rooted 5 < 1 ∧ (linked c).ldg.signQ = []
         ∧ 1 ≤ tget (dflt 0) (ldg (fun l => { l with rooted := [(5, 1)] }) (linked c)).ldg.rooted 5)
    ∧ (let c := { role 4 with cut := some 1 }
       (linked c).charter 5 = c ∧ c.cut = some 1 ∧ c.start = none)
    ∧ (let c := { role 4 with cut := some 1, start := some 8 }
       (linked c).charter 5 = c ∧ c.start = some 8 ∧ ((linked c).advance 7).tim.now < 8 ∧ 8 ≤ ((linked c).advance 8).tim.now
         ∧ (pair (fun p => { p with takes := [take5 false] }) (linked c)).pair.takes = [take5 false])
    ∧ (let s := pair (fun p => { p with ackWait := [(5, 1, 0)] }) (linked (role 1))
       (∃ a ∈ s.pair.ackWait, (a.1 == 5 && a.2.1 == 1) = true ∧ a.2.2 + 1000 ≤ (s.advance 1000000000).ms)
       ∧ (∀ a ∈ s.pair.ackWait, (a.1 == 5 && a.2.1 == 1) = true → (s.advance 999999999).ms < a.2.2 + 1000)) := by decide +kernel

theorem test_PairsAndCharters_messages :
    ((linked (role 1)).pair.linkUp = true ∧ (linked (role 1)).pair.paired = true ∧ on.pair.linkUp = false)
    ∧ (((linked (role 2)).charter 5).role ≠ 1 ∧ ((linked (role 1)).charter 5).role = 1 ∧ ((linked (role 1)).charter 5).await = none
       ∧ ((linked { role 1 with await := some 0 }).charter 5).await ≠ none)
    ∧ (let h := pair (fun p => { p with paired := true, linkUp := true }) home
       h.slotTenant 0 = none ∧ h.slotTenant (⟨slot5, by decide +kernel⟩ : Fin 8388608) = some 5 ∧ (h.charter 5).role ≠ 1
         ∧ ((pair (fun p => { p with charters := [(5, role 1)] }) h).charter 5).role = 1)
    ∧ (let s := openedPair (role 1)
       (s.tenant 511).present = false ∧ (s.slot (1 + 2)).state = 1 ∧ s.cer.phase = .opened ∧ s.stepLimit (createUndo 511 s) = false ∧ (s.tenant 5).present = true)
    ∧ (let s := openedPair (role 1)
       s.pairKey.isSome = true ∧ (s.slot (1 + 3)).state = 0 ∧ s.cer.steps.length < 128 ∧ (tget (dflt noRecord) s.keys.store 4).block.length ≤ 1000
         ∧ s.pair.linkUp = true ∧ s.pair.paired = true) := by decide +kernel

theorem test_PairsAndCharters_commands :
    Runs (running 0x0B01 cmd on) 0x0B01 cmd
    ∧ (Runs (running 0x0B02 cmd on) 0x0B02 cmd ∧ (511 : BitVec 16).toNat + (1 : BitVec 16).toNat ≤ 512
       ∧ 0 < ((List.range 1).flatMap (fun i => let x := on.charter (511 + i)
          be 4 (on.paiTnt (511 + i)).toNat ++ be 4 x.gen ++ be 8 (x.cut.getD 0))).length)
    ∧ (Runs (running 0x0B14 cmd (linked (role 1))) 0x0B14 cmd ∧ (linked (role 1)).pair.paired = true ∧ ((linked (role 1)).charter 5).role ≠ 0)
    ∧ (Runs (running 0x0B12 ticketed (linked (role 2))) 0x0B12 ticketed ∧ ticketed.ticket ≠ none ∧ on.pair.paired = false ∧ ((linked (role 2)).charter 6).role = 0
       ∧ Runs (running 0x0B12 cmd on) 0x0B12 cmd)
    ∧ (Runs (running 0x0B13 ticketed (linked { role 5 with prior := 1 })) 0x0B13 ticketed ∧ ticketed.ticket = some []
       ∧ (linked { role 5 with prior := 1 }).pair.charters = [(5, { role 5 with prior := 1 })] ∧ (role 1).role ≠ 5)
    ∧ (Runs (running 0x0B15 cmd (openedPair (role 1))) 0x0B15 cmd ∧ (openedPair (role 1)).cer.phase = .opened ∧ (openedPair (role 1)).cer.fn = cmd.fn.val
       ∧ (openedPair (role 1)).pair.charters = [(5, role 1)] ∧ (openedPair (role 1)).pair.pairSlot = some 65533 ∧ (openedPair (role 1)).cer.steps.length < 128
       ∧ (tget (dflt noRecord) (openedPair (role 1)).keys.store 65533).block.length ≤ 1000 ∧ on.cer.phase ≠ .opened ∧ on.cer.phase ≠ .step)
    ∧ (Runs (running 0x0B10 cmd working) 0x0B10 cmd ∧ working.pair.paired = false ∧ working.pair.linkUp = false
       ∧ (pair (fun p => { p with linkUp := true }) working).pair.linkUp = true)
    ∧ (Runs (running 0x0B11 cmd (openedPair (role 1))) 0x0B11 cmd ∧ ((openedPair (role 1)).setSlot 3 (live 1 0xFFFF 0x40)).pairKey.isSome = true
       ∧ (((openedPair (role 1)).setSlot 3 (live 1 0xFFFF 0x40)).slot (1 + 2)).attr.getLsbD 6 = true ∧ ((openedPair (role 1)).slot (1 + 2)).attr.getLsbD 6 = false
       ∧ (pair (fun p => { p with pairSlot := none }) (openedPair (role 1))).pairKey = none) :=
  ⟨runs_running _ _ _ (by decide +kernel) (by decide +kernel), ⟨runs_running _ _ _ (by decide +kernel) (by decide +kernel), by decide +kernel⟩,
   ⟨runs_running _ _ _ (by decide +kernel) (by decide +kernel), by decide +kernel⟩,
   ⟨runs_running _ _ _ (by decide +kernel) (by decide +kernel), by decide +kernel, by decide +kernel, by decide +kernel, runs_running _ _ _ (by decide +kernel) (by decide +kernel)⟩,
   ⟨runs_running _ _ _ (by decide +kernel) (by decide +kernel), by decide +kernel⟩, ⟨runs_running _ _ _ (by decide +kernel) (by decide +kernel), by decide +kernel⟩,
   ⟨runs_running _ _ _ (by decide +kernel) (by decide +kernel), by decide +kernel⟩, ⟨runs_running _ _ _ (by decide +kernel) (by decide +kernel), by decide +kernel⟩⟩

theorem test_PairsAndCharters_handshake :
    (joining none).pair.joinCmd.isSome = true ∧ (joining none).pair.linkUp = true
    ∧ (joining none).pair.joinCmd.bind (·.keys) = none ∧ (joining (some (zeros 32, zeros 32))).pair.joinCmd.bind (·.keys) = some (zeros 32, zeros 32) := by
  decide +kernel

/-- A statement that names the partner of PAIR_JOIN: serial 9 at offset 4. -/
theorem test_pair_named : sha384 [] = (sha384 [] : Bytes) ∧ field (zeros 11 ++ [9]) 4 8 = 9 ∧ field (zeros 12) 4 8 ≠ 9 := ⟨rfl, by decide +kernel⟩
theorem test_Pairs_more :
    (on.pair.linkUp = false ∧ (linked (role 2)).pair.lastMsg + 100000000 ≤ ((linked (role 2)).advance 100000000).now ∧ (linked (role 2)).now < (linked (role 2)).pair.lastMsg + 100000000
      ∧ laneCount 0x0F = 4
       ∧ (linked { role 5 with prior := 4, cut := some 3 }).pair.charters = [(5, { role 5 with prior := 4, cut := some 3 })])
    ∧ (let c := { role 3 with cut := some 1 }
       let s := linked c
       s.lastRootSent 5 1 = false ∧ s.framesLeft 5 = false ∧ 1 ≤ (s.advance 1000000000).epoch
         ∧ (linked { c with final := true }).charter 5 = { c with final := true })
    ∧ ((linked (role 1)).findGame 5 0 = none ∧ ((linked (role 1)).region (5 : Fin 512) (7 : Fin 4096)).gen = (0 : BitVec 8).toNat)
    ∧ ((openedPair (role 1)).pairKey.isSome = true ∧ (openedPair (role 1)).cer.steps.length < 128 ∧ (linked (role 2)).pair.takes = []) := by decide +kernel
/-! ### Chapter 22 -/

def rpr (f : RepairState → RepairState) (s : State) : State := { s with rpr := f s.rpr }
/-- The seal spare of cluster 38 is asked for port 302, which lacks its SEAL engine (R578). -/
def lending : State := rpr (fun r => { r with lend := some (302, true, 38) }) (on.wrF (Reg.PRT_ENGINES 302) 26 16 0x7FF)
/-- A tile unit and a custody unit out of service, and a failed spare engine. -/
def unitOut : State := { on with pke := { on.pke with tiles := [(67, { TileUnit.reset with out := true })], units := [(7, { PkeUnit.reset with stat := 3 })] } }
def spareFailed : State := on.wrB (Reg.DPL_KAT_STATUS (engineCluster 1151)) (engineBit 1151) true

theorem test_RepairAndTally_lending :
    (bit (0x8026032E : Word) 31 = true ∧ bit (0x0026032E : Word) 31 = false ∧ lending.rpr.lend ≠ none ∧ on.rpr.lend = none
      ∧ bits (0x8026032E : Word) 8 0 = 302 ∧ bit (0x8026032E : Word) 9 = true ∧ bits (0x8026032E : Word) 21 16 = 38)
    ∧ (lending.rpr.lend = some (302, true, 38) ∧ lending.spareFree 38 true = true ∧ lending.routeUp (302 / 128) (38 / 16) = true
       ∧ lending.engineOf 302 true = 0x7FF)
    ∧ ((lending.wrB (Reg.DPL_SPARE 38) 1 true).spareFree 38 true = false ∧ (lending.wrF (Reg.PRT_ENGINES 302) 26 16 605).engineOf 302 true ≠ 0x7FF
       ∧ ((lending.wr (Reg.DPL_FAB_STATUS 0) 0).routeUp 0 3 = false)) := by decide +kernel

theorem test_RepairAndTally_repair :
    (Runs (running 0x0C01 cmd on) 0x0C01 cmd ∧ Runs (running 0x0C10 cmd on) 0x0C10 cmd ∧ Runs (running 0x0C11 cmd on) 0x0C11 cmd)
    ∧ (on.resourceOut 2 67 = false ∧ unitOut.resourceOut 2 67 = true ∧ on.resourceOut 3 7 = false ∧ unitOut.resourceOut 3 7 = true
       ∧ on.resourceOut 1 1151 = false ∧ spareFailed.resourceOut 1 1151 = true)
    ∧ (Runs (running 0x0C12 cmd on) 0x0C12 cmd ∧ (511 : BitVec 16).toNat < 512 ∧ (on.port 511).takeover = none ∧ on.rpr.regained = [] ∧ on.portState 511 = 0)
    ∧ (on.rpr.grown.length < 512 ∧ ∀ g ∈ on.rpr.grown, g.kind ≠ 2 ∨ g.res ≠ 67) :=
  ⟨⟨runs_running _ _ _ (by decide +kernel) (by decide +kernel), runs_running _ _ _ (by decide +kernel) (by decide +kernel), runs_running _ _ _ (by decide +kernel) (by decide +kernel)⟩,
   by decide +kernel, ⟨runs_running _ _ _ (by decide +kernel) (by decide +kernel), by decide +kernel⟩, by decide +kernel⟩

/-- Port 0's VERIFY engine is found as its engine. -/
theorem test_portOf : (on.wrF (Reg.PRT_ENGINES 0) 10 0 6).engineOf 0 false = 6 ∧ isSealEngine 6 = false
    ∧ (on.wrF (Reg.PRT_ENGINES 0) 10 0 6).portOf 6 = some 0 := by decide +kernel

theorem test_RepairAndTally_tally :
    (Runs (running 0x0C02 cmd on) 0x0C02 cmd ∧ Runs (running 0x0C13 expert on) 0x0C13 expert ∧ Runs (running 0x0C14 cmd on) 0x0C14 cmd)
    ∧ ((64 : BitVec 8).toNat ≤ 64 ∧ tallyEvent 64 0x0130 = some 8 ∧ tallyEvent 63 0x0130 = none ∧ tallyEvent 63 0x0010 = some 18)
    ∧ (let s := rpr (fun r => { r with gctl := some (true, 2000) }) on
       s.rpr.gctl = some (true, 2000) ∧ (s.advance 1999).tim.now < 2000 ∧ 2000 ≤ (s.advance 2000).tim.now ∧ on.rpr.gctl = none)
    ∧ (let s := ((on.wrB (tallyStatus 63) 0 true).wr (tallySel 63 2) 0x30).wr (tallyCnt 63 2) 0xFFFFFFFF
       s.tallyCounts 63 2 = true ∧ on.tallyCounts 63 2 = false ∧ 2 ^ 32 ≤ (s.rd (tallyCnt 63 2)).toNat + (1 : Word).toNat
       ∧ (s.wrB (tallySel 63 3) 24 true).bitOf (tallySel 63 3) 24 = true ∧ (s.wrB (tallySel 63 3) 24 true).tallyCounts 63 2 = true
       ∧ s.bitOf (tallySel 63 3) 24 = false) :=
  ⟨⟨runs_running _ _ _ (by decide +kernel) (by decide +kernel), runs_running _ _ _ (by decide +kernel) (by decide +kernel), runs_running _ _ _ (by decide +kernel) (by decide +kernel)⟩,
   by decide +kernel, by decide +kernel, by decide +kernel⟩
/-- A port out of service, whole or without its SEAL engine. -/
def outPort (e : Nat) : State := (((on.wrB (Reg.PRT_STATUS 511) 4 true).wrF (Reg.PRT_STATUS 511) 3 0 0).wrF (Reg.PRT_ENGINES 511) 10 0 1022).wrF (Reg.PRT_ENGINES 511) 26 16 e
theorem test_Repair_more :
    (on.leadOf 511 = 511 ∧ on.takingOver 511 = false ∧ (∀ q ∈ on.lanes 511, q < 512) ∧ on.lanes 511 = [511])
    ∧ ((outPort 1023).portState 511 = 0 ∧ (outPort 1023).bitOf (Reg.PRT_STATUS 511) 4 = true ∧ (outPort 1023).engineOf 511 false ≠ 0x7FF
       ∧ (outPort 1023).engineOf 511 true ≠ 0x7FF ∧ (outPort 0x7FF).engineOf 511 true = 0x7FF ∧ (outPort 1023).rpr.regained = [] ∧ (outPort 1023).plane ≠ .zeroized)
    ∧ (on.portState 0 = 0 ∧ (on.wrF (Reg.PRT_STATUS 0) 3 0 2).portState 0 ≠ 0 ∧ bit (0 : Word) 31 = false) := by decide +kernel
/-! ### Chapters 23 and 24 -/

/-- SYS_RESET_N low, and a code in force at the test port. -/
def held (ir : Nat) : State := { on with pin := { on.pin with resetLow := true, tapIr := ir, boundary := 6 } }

theorem test_PinsAndTestPort :
    (on.sys.mainPower = true ∧ dark.sys.mainPower = false ∧ (2 : BitVec 4).getLsbD 1 = true)
    ∧ (let s := { on with now := 5000000 }
       s.sys.mainPower = true ∧ 5000000 ≤ s.now ∧ ¬ 5000000 ≤ on.now ∧ (s.wr Reg.SYS_HOLD 1).rd Reg.SYS_HOLD ≠ 0
         ∧ ¬ (s.rd Reg.SYS_HOLD ≠ 0 ∨ s.bitOf Reg.SYS_BOOT_STAGE 4 = true ∨ s.bitOf Reg.TPR_STATUS 1 = true ∨ s.sys.mode = .zeroized))
    ∧ ((held 0).pin.resetLow = true ∧ (held 0).pin.tapIr = 0 ∧ (held 0).pin.boundary.getLsbD 2 = true ∧ on.pin.resetLow = false) := by decide +kernel

/-- CRC-8 of "123456789" with the polynomial 0x07 is 0xF4, the check value of SMBus packet error codes. -/
theorem test_crc8 : crc8 [0x31, 0x32, 0x33, 0x34, 0x35, 0x36, 0x37, 0x38, 0x39] = 0xF4 := by decide +kernel

/-- R614: a bring-up rig reads IDCODE, then TESTLOCK of a shipped part with its keeper initialized. -/
theorem test_idcode : (after (exec .idcode on)).pin.tapOut = 0xB512546B := by decide +kernel
/-! ### The invariants -/

theorem test_NoEventReturnsToFactory :
    let s := { on with pending := [.shipFuseBlow], cer := { on.cer with openedFrom := .notary } }
    s.shipped = true ∧ (after (step s)).shipped = true := by decide +kernel

theorem test_TestAccessReachesPinsOnly :
    TestOnly on { on with pending := [.idcode] } ∧ (after (step { on with pending := [.idcode] })).pin ≠ on.pin :=
  ⟨⟨by decide +kernel, rfl⟩, by decide +kernel⟩

theorem test_InvariantsAtTheStart :
    let s := { State.reset with sys := { State.reset.sys with shipFuse := true } }
    s.sys.shipFuse = true ∧ s.sys.keeperInit = false ∧ s.sys.pend = none ∧ s.cer.openedFrom ≠ .factory := by decide +kernel

theorem test_StepRunsFront :
    ({ on with pending := [Instr.idcode] } : State).pending = .idcode :: [] ∧ on.pending = [] := ⟨rfl, rfl⟩
/-! ### The spec's worked examples -/

/-- The example of R219: labels and the first PRF input, tenant 37 of domain 2. -/
theorem test_labels :
    label 2 0x10 0 (some 2) (some 37) none none = [0x12, 0x10, 0, 0, 0, 2, 0, 0x25, 0xFF, 0xFF, 0xFF, 0xFF, 0xFF, 0xFF, 0, 0]
    ∧ label 3 0x20 0 (some 2) (some 37) (some 5) none = [0x13, 0x20, 0, 0, 0, 2, 0, 0x25, 0, 5, 0xFF, 0xFF, 0xFF, 0xFF, 0, 0]
    ∧ label 4 0x30 1 (some 2) (some 37) (some 5) (some 0x12345) = [0x14, 0x30, 0, 1, 0, 2, 0, 0x25, 0, 5, 1, 0x23, 0x45, 0xFF, 0, 0]
    ∧ label 5 0x40 3 (some 2) (some 37) (some 5) (some 0x12345) = [0x15, 0x40, 0, 3, 0, 2, 0, 0x25, 0, 5, 1, 0x23, 0x45, 0xFF, 0, 0] := by decide

/-- The wager of chapter 04: its 28 header bytes, its ingress IV and its egress IV. -/
def wager : Hdr := ⟨1, 1, 3, 37, 0, 0x012345, 3, 6699, 40, 0x2C09, 0, 0⟩
theorem test_wager :
    wager.body = [0x11, 0x03, 0x12, 0x80, 0x01, 0x23, 0x45, 0x03, 0, 0, 0, 0, 0x1A, 0x2B, 0, 0x28, 0, 0, 0x2C, 0x09, 0, 0, 0, 0, 0, 0, 0, 0]
    ∧ ivOf wager 0 = [0x01, 0x89, 0x40, 0x48, 0xD1, 0x40, 0, 0, 0, 0x06, 0x8A, 0xC0]
    ∧ ivOf { wager with gen := 5 } 0 = [0x02, 0x89, 0x40, 0x48, 0xD1, 0x40, 0, 0, 0, 0x06, 0x8A, 0xC0]
    ∧ State.packStamp 1800000000250000000 = 0x1AD274800EE6B280 := by decide +kernel

/-- Port 301 of chapter 01: engines 602 and 603; ports 77 and 200 of chapter 05: their PRT blocks. -/
theorem test_ports : on.engineOf 301 false = 602 ∧ on.engineOf 301 true = 603 ∧ spareOf 37 false = 1098 ∧ spareOf 37 true = 1099
    ∧ Reg.clusterBase 37 = 0x28500000 ∧ Reg.portBase 77 = 0x20960000 ∧ Reg.portBase 200 = 0x24910000 := by decide +kernel

/-- The edges of R319, and the example of SMULQS with f = 16. -/
theorem test_fixed :
    (after (exec (.sadd 4 2 3) (core 0 0x7FFFFFFF 1 0))).g 4 = 0x7FFFFFFF ∧ (after (exec (.ssub 4 2 3) (core 0 0x80000000 1 0))).g 4 = 0x80000000
    ∧ (after (exec (.uadds 4 2 3) (core 0 0xFFFFFFF0 0x20 0))).g 4 = 0xFFFFFFFF ∧ (after (exec (.usubs 4 2 3) (core 0 5 9 0))).g 4 = 0
    ∧ (after (exec (.sneg 4 2) (core 0 0x80000000 0 0))).g 4 = 0x7FFFFFFF ∧ (after (exec (.snarrow 4 2 15) (core 0 0x9000 0 0))).g 4 = 0x7FFF := by
  decide +kernel
theorem test_smulqs :
    (after (exec (.smulqs 4 2 3 31) (core 0 0x80000000 0x80000000 0))).g 4 = 0x7FFFFFFF
    ∧ (after (exec (.smulqs 4 2 3 31) (core 0 0x80000000 0x7FFFFFFF 0))).g 4 = 0x80000001
    ∧ (after (exec (.smulqs 4 2 3 16) (core 0 0x00018000 0xFFFF4000 0))).g 4 = 0xFFFEE000
    ∧ (after (exec (.smulqs 4 2 3 16) (core 0 0x7FFF0000 0x00020000 0))).g 4 = 0x7FFFFFFF := by decide +kernel

/-- The gate call of chapter 11: GATE 0x21 at 0x00081230 in ring 2. -/
def gateCall : State :=
  let s := core 0 0 0 0x0007F000
  let s := { s with core := { s.core with pc := 0x00081230, cring := 2, flags := 0, gates := [(0x21, 0x01200023)] } }
  setSr 17 0x00040000 (setSr 21 0x00060000 s)
theorem test_gate :
    let t := after (exec (.gate 0x21) gateCall)
    t.core.pc = 0x00040480 ∧ t.core.cring = 1 ∧ t.g 15 = 0x00060000 ∧ t.sr 25 = 0x00081234 ∧ t.sr 31 &&& 0xFFFFFFF7 = 0x2105 := by decide +kernel

/-- The violation of chapter 12, once and after 300 loads. -/
theorem test_violation :
    (Violation.words ⟨7, 0, 3, false, 2, 2, 0, 0x00100040, 13, some 38, 1, 0⟩).take 3 = [0x00090C07, 0x00100040, 0x0030980D]
    ∧ (Violation.words ⟨7, 0, 3, false, 2, 2, 0, 0x00100040, 13, some 38, 300, 0⟩).getD 2 0 = 0x2590980D := by decide

/-- The receipt and the chunk record of chapter 08. -/
theorem test_receipt :
    receiptBytes [] 0x6B49D200 16 1233 17 1 0 301 = [0, 0, 0, 0, 0x6B, 0x49, 0xD2, 0, 0x50, 0, 0x04, 0xD1, 0x11, 0x01, 0x01, 0x2D]
    ∧ (chunkRecord ⟨16, ⟨37, true, 0x6B49D200⟩, 1233, 256, []⟩ 3000).drop 8 = [0x90, 0, 0x04, 0xD1, 0, 0x0B, 0xB8, 0xFF] := by decide

/-- The close of chapter 09: U of 102,604 ns admits the wager, 103,100 ns refuses sequence 6,700. -/
def holdover : State :=
  let s := ((on.wrF Reg.TIM_STATUS 1 0 2).wr Reg.TIM_BASE_UNC 100).wr Reg.TIM_DRIFT 10000
  { s with tim := { s.tim with lastPulse := 1799999990000000000, residual := 0 } }
def game37 : Game := ⟨true, 0x2C09, 37, 0, 0x1AD2748011E1A300⟩
theorem test_close :
    holdover.distributedU 1800000000250000000 = 102604 ∧ closedAt game37 102604 1800000000250000000 = false
    ∧ holdover.distributedU 1800000000299950000 = 103100 ∧ closedAt game37 103100 1800000000299950000 = true
    ∧ State.packStamp 1800000000299950000 = 0x1AD2748011E0DFB0 ∧ State.packStamp 1800000000300000000 = 0x1AD2748011E1A300 := by decide +kernel

/-- The escrow blob header of chapter 13. -/
theorem test_blob :
    let x : DigSession := ⟨none, 38, 0, true, 0x00030A50, 200000, 65536, [], [], [], 0, 0, 0, [], false⟩
    slice (blobOf x on) 4 4 = [0, 0x26, 0, 1] ∧ slice (blobOf x on) 16 20 = [0, 0, 0, 0, 0, 3, 0x0D, 0x40, 0, 0, 0, 0, 0, 1, 0, 0, 0, 3, 0x0A, 0x50] := by
  decide +kernel

/-- The repetition cutoffs of chapter 14: 0.48, 0.55 and 0.21 bits. -/
theorem test_cutoffs : rctCutoff 31457 = 85 ∧ rctCutoff 36044 = 74 ∧ rctCutoff 13762 = 192 := by decide

/-- The card of chapter 18: TA1 0x94, T=1, TB3 0x45: DIV 80, CWT 43 etu, BWT 11 + 89,280 etu. -/
theorem test_card :
    ratesOf 0x94 = some (512, 80, 8)
    ∧ (let p := cardPlan (readAtr [0x3B, 0x90, 0x94, 0x81, 0x21, 0x45]).1 1 0x94 512 80 8
       p.cwt = 43 ∧ p.wt = 11 + 89280 ∧ p.pps = [0xFF, 0x11, 0x94, 0x7A]) := by decide +kernel

/-- Seal 2 of chapter 19: it passes with count 307, and fails with OPENED when its open count is 1. -/
def sealRun (opens : Byte) : State :=
  let s := nfr (fun x => { x with seals := [(2, { seal2 with reads := 305, opens := 0 })]
                                  check := some ⟨none, false, 0x3001, 0x78D8, 1, [(2, [0, 0, 0, 1, 0x33, 0, 1, 0x32, 0, opens, 0, opens, 0xE2, 0x3C, 0, 0], 1)], []⟩ }) keyed
  after (exec .sealCheckDone s)
theorem test_seal : (sealRun 0).rd (Reg.NFR_SEAL_STAT 2) = 0x00013310 ∧ ((sealRun 0).sealRec 2).reads = 307
    ∧ (sealRun 1).fld (Reg.NFR_SEAL_STAT 2) 3 0 = 3 ∧ (sealRun 1).rd Reg.SYS_HOLD = 4 := by decide +kernel

/-- The loan of chapter 22: port 302 borrows seal engine 1,101 of cluster 38. -/
theorem test_loan :
    let t := after (exec (.lendDone false) (lending.wrF (Reg.PRT_STATUS 302) 3 0 0xB))
    t.rd (Reg.DPL_SPARE 38) = 0x2500FF20 ∧ t.rd (Reg.PRT_ENGINES 302) = 0x044D025C ∧ t.rd (Reg.PRT_STATUS 302) = 0x0000010B := by decide +kernel

/-- R614: TESTLOCK of a device as shipped, and what Capture-IR returns. -/
theorem test_testlock :
    let t := after (exec .testlock (on.wrB Reg.TPR_STATUS 3 true))
    t.pin.tapOut = 0xA5C3007F ∧ t.pin.tapIrOut = 5 := by decide +kernel
end Sys2Proof.Tests
end

section
/-! PROOFS. Access control (chapter 12): what a write through a gate, a violation, a region commit and the tag engine change, said once each, and
the statement `Obligations.AccessControl` assembled from them. -/

namespace Sys2Proof.Machine

/-! ### Little-endian words -/

/-- The low `n` bytes of a number spell it modulo 256 to the power `n`. -/
theorem ofLe_le (n v : Nat) : ofLe (le n v) = v % 256 ^ n := by
  induction n generalizing v with
  | zero => simp [le, ofLe, Nat.mod_one]
  | succ n ih =>
    have h := Nat.mod_mul (x := v) (a := 256) (b := 256 ^ n)
    rw [Nat.pow_succ', h, ← ih]
    rfl

/-- A word sent as its four bytes arrives as that word. -/
theorem ofNat_ofLe_le_word (w : Word) : BitVec.ofNat 32 (ofLe (le 4 w.toNat)) = w := by
  rw [ofLe_le, Nat.mod_eq_of_lt (show w.toNat < 256 ^ 4 from w.isLt)]
  simp

/-! ### What a violation changes (R381, R384) -/

/-- The state with another violation log. -/
def State.withLog (l : List Violation) (s : State) : State := { s with gte := { s.gte with log := l } }

/-- A refusal changes the log alone, or is counted as lost, or opens a record and is reported. -/
theorem logViolation_cases (code region : Nat) (tag : Option Nat) (g x : Nat) (a : Access) (s : State) :
    (∃ l, logViolation code region tag g x a s = s.withLog l)
    ∨ logViolation code region tag g x a s = irq Reg.GTE_IRQ_STATUS 3 1 (s.bump Reg.GTE_VIO_LOST)
    ∨ ∃ l r, logViolation code region tag g x a s = irq Reg.GTE_IRQ_STATUS 3 0 (report r (s.withLog l)) := by
  unfold logViolation
  dsimp only
  split
  · split
    · exact .inl ⟨_, rfl⟩
    · split
      · exact .inr (.inl rfl)
      · exact .inr (.inr ⟨_, _, rfl⟩)
  · exact .inr (.inr ⟨_, _, rfl⟩)

@[simp] theorem logViolation_sys (code region : Nat) (tag : Option Nat) (g x : Nat) (a : Access) (s : State) :
    (logViolation code region tag g x a s).sys = s.sys := by
  obtain ⟨l, h⟩ | h | ⟨l, r, h⟩ := logViolation_cases code region tag g x a s <;> simp [h, State.withLog]

@[simp] theorem logViolation_regions (code region : Nat) (tag : Option Nat) (g x : Nat) (a : Access) (s : State) :
    (logViolation code region tag g x a s).gte.regions = s.gte.regions := by
  obtain ⟨l, h⟩ | h | ⟨l, r, h⟩ := logViolation_cases code region tag g x a s <;> simp [h, State.withLog]

/-- Logging changes no register but the interrupt flags, the count of lost records and the marks of first alarms. -/
theorem logViolation_rd (code region : Nat) (tag : Option Nat) (g x : Nat) (a : Access) (s : State) (b : Nat)
    (hf : b ≠ Reg.ALM_FIRST_VALID) (hi : b ≠ Reg.GTE_IRQ_STATUS) (hl : b ≠ Reg.GTE_VIO_LOST) :
    (logViolation code region tag g x a s).rd b = s.rd b := by
  obtain ⟨l, h⟩ | h | ⟨l, r, h⟩ := logViolation_cases code region tag g x a s
  · rw [h]; rfl
  · simp [h, hf, hi, hl]
  · rw [h, irq_rd _ _ _ _ _ hf hi, report_rd _ _ _ hf]; rfl

@[simp] theorem violate_sys (code region : Nat) (tag : Option Nat) (a : Access) (s : State) : (violate code region tag a s).sys = s.sys := by
  unfold violate
  dsimp only
  split <;> simp [State.bump, State.bumpBy]

@[simp] theorem violate_regions (code region : Nat) (tag : Option Nat) (a : Access) (s : State) :
    (violate code region tag a s).gte.regions = s.gte.regions := by
  unfold violate
  dsimp only
  split <;> simp [State.bump, State.bumpBy]

/-- No gate's own counter is the count of all violations. -/
theorem GTE_VIO_COUNT_ne_GTE_GATE_VIO (g : Nat) : Reg.GTE_VIO_COUNT ≠ Reg.GTE_GATE_VIO g := by
  unfold Reg.GTE_VIO_COUNT Reg.GTE_GATE_VIO
  omega

/-- Every violation is counted once in GTE_VIO_COUNT (R384). -/
theorem violate_counts (code region : Nat) (tag : Option Nat) (a : Access) (s : State) :
    (violate code region tag a s).rd Reg.GTE_VIO_COUNT = up (s.rd Reg.GTE_VIO_COUNT) 1 := by
  have hl : ∀ x, (logViolation code region tag (gateOf a.addr) x a ((s.bump Reg.GTE_VIO_COUNT).bump (Reg.GTE_GATE_VIO (gateOf a.addr)))).rd
      Reg.GTE_VIO_COUNT = up (s.rd Reg.GTE_VIO_COUNT) 1 := by
    intro x
    rw [logViolation_rd _ _ _ _ _ _ _ _ (by decide) (by decide) (by decide), State.rd_bump_ne _ _ _ (GTE_VIO_COUNT_ne_GTE_GATE_VIO _),
      State.rd_bump_same]
    rfl
  unfold violate
  dsimp only
  split
  · rw [irq_rd _ _ _ _ _ (by decide) (by decide), State.rd_wrB_ne _ _ _ _ _ (by decide), hl]
  · exact hl _

/-! ### A register write on the bus (R377, R378) -/

/-- The access that a REGISTER_WRITE sends: the cores carry their ring and its colour, another master its own colour (R367). -/
def State.writeAccess (s : State) (ring : Fin 4) (master : BitVec 11) (colour : BitVec 10) (size : Fin 5) (addr : Word) : Access :=
  let core := master.toNat / 128 == 0
  ⟨addr.toNat, size, true, if core then ring else 0, master.toNat, if core then s.ringColour ring else colour.toNat⟩

/-- A write to a register block of the custody unit reaches its gate: the device has power, and the cores, when they send it, run. -/
theorem execRegisterWrite_sends (ring : Fin 4) (master : BitVec 11) (colour : BitVec 10) (size : Fin 5) (addr value : Word) (env : BusEnv)
    (s : State) (hp : s.sys.mainPower = true) (hm : 128 ≤ master.toNat ∨ (s.sys.cusInReset = false ∧ s.core.stopped = false))
    (h5 : 5 ≤ gateOf addr.toNat) (h28 : gateOf addr.toNat < 28) :
    exec (.registerWrite ring master colour size addr value env) s
      = .next (busWrite (s.writeAccess ring master colour size addr) (le 4 value.toNat) env s).2 := by
  have hcore : (master.toNat / 128 == 0 && (s.sys.cusInReset || s.core.stopped)) = false := by
    rcases hm with hm | ⟨hr, hs⟩
    · have : ¬ master.toNat / 128 = 0 := by omega
      simp [this]
    · simp [hr, hs]
  have hlo : ¬ gateOf addr.toNat < 5 := by omega
  have hhi : ¬ 31 < gateOf addr.toNat := by omega
  have htile : ¬ 28 ≤ gateOf addr.toNat := by omega
  rw [exec_registerWrite]
  unfold execRegisterWrite
  simp [hp, hcore, hlo, hhi, htile, State.writeAccess]

/-- A refused write is a violation; a missing stage gives way to a fixed rule of the register. -/
theorem busWrite_refused (a : Access) (w : Word) (env : BusEnv) (s : State) (c r : Nat) (tag : Option Nat) (h : s.gateCheck a = .refuse c r tag) :
    (busWrite a (le 4 w.toNat) env s).2 = violate (if c = 0x9 ∧ writeRefused a w s = true then 0x8 else c) r tag a s := by
  simp only [busWrite, h, ofNat_ofLe_le_word]
  split <;> rfl

/-- A write of a register block that passes its gate and the fixed rules is done. -/
theorem busWrite_passed (a : Access) (w : Word) (env : BusEnv) (s : State) (h : s.gateCheck a = .pass) (h5 : 5 ≤ gateOf a.addr)
    (h31 : gateOf a.addr ≤ 31) (hr : writeRefused a w s = false) : (busWrite a (le 4 w.toNat) env s).2 = writePassed a w env s := by
  simp [busWrite, h, ofNat_ofLe_le_word, h5, h31, hr]

/-! ### Plain registers and stages (R8, R9, R383) -/

/-- The registers whose plain write has a further effect. -/
def afterNames : List String := ["DIG_SNOOP_CTL", "TLY_SEL", "TLY_CL_SEL", "FSH_CTL", "RNG_CTL", "PKE_CTL", "THM_KEEP_VFULL", "NFR_CTL"]

/-- A plain write of any other register has no further effect. -/
theorem afterWrite_plain (name : String) (a : Access) (old : Word) (s : State) (h : name ∉ afterNames) : afterWrite name a old s = s := by
  simp only [afterNames, List.mem_cons, List.not_mem_nil, not_or, or_false] at h
  obtain ⟨h1, h2, h3, h4, h5, h6, h7, h8⟩ := h
  unfold afterWrite
  split
  case h_9 => rfl
  all_goals contradiction

/-- A passed write of a register that only stores is the plain write by its access codes. -/
theorem writePassed_plain (a : Access) (w : Word) (env : BusEnv) (s : State) (b : RegBlock) (row : RegRow) (i : Nat)
    (hf : findReg a.addr = some (b, row, i)) (hp : row.pair = 0) (ho : ownWrite row.name i a w env s = none) (hn : row.name ∉ afterNames) :
    writePassed a w env s = plainWrite b row i a.addr w s := by
  simp [writePassed, writeReg, hf, hp, ho, afterWrite_plain _ _ _ _ hn]

/-- A passed write of the low half of a writable pair fills the stage of its address and nothing else. -/
theorem writePassed_stages (a : Access) (w : Word) (env : BusEnv) (s : State) (b : RegBlock) (row : RegRow) (i : Nat)
    (hf : findReg a.addr = some (b, row, i)) (hp : row.pair = 1) (hw : row.rw ||| row.rwl ||| row.wo ≠ 0) :
    writePassed a w env s
      = { s with gte := { s.gte with stages := tput (dflt none) s.gte.stages a.addr (some (a.master, w)) } } := by
  have hpair : ¬ (row.rw ||| row.rwl ||| row.wo = 0 ∨ row.pair = 0) := not_or.2 ⟨hw, by omega⟩
  simp only [writePassed, hf, if_neg hpair, if_pos hp]

/-- A value in range is written by the access codes of the register. -/
theorem plainWrite_ok (b : RegBlock) (row : RegRow) (i a : Nat) (w : Word) (s : State)
    (h : s.valueOk row.name (s.fieldKept row.name a w &&& (row.rw ||| row.rwl)) = true) :
    plainWrite b row i a w s = writeByCode b row i a (s.fieldKept row.name a w) s := by
  simp [plainWrite, h]

/-- A value out of range changes nothing. -/
theorem plainWrite_ignored (b : RegBlock) (row : RegRow) (i a : Nat) (w : Word) (s : State)
    (h : s.valueOk row.name (s.fieldKept row.name a w &&& (row.rw ||| row.rwl)) = false) (hw : row.rw ||| row.rwl ≠ 0) :
    plainWrite b row i a w s = s := by
  have hkept : ¬ (s.valueOk row.name (s.fieldKept row.name a w &&& (row.rw ||| row.rwl)) = true ∨ row.rw ||| row.rwl = 0) :=
    not_or.2 ⟨by rw [h]; exact Bool.false_ne_true, hw⟩
  exact if_neg hkept

/-! ### Region selection and commit (R380) -/

/-- Every code of a commit fits the field GTE_CFG_STAT.CODE. -/
theorem commitCode_lt (s : State) (g r : Nat) (n : Rgn) : (s.commitCode g r n).1 < 16 := by
  unfold State.commitCode
  repeat' split
  all_goals simp

/-- The code reads back from the word that GTE_CFG_STAT takes. -/
theorem bits_commitStatus (c k : Nat) (h : c < 16) : bits (BitVec.ofNat 32 (c + 2 ^ 8 * k)) 3 0 = c := by
  simp only [bits, BitVec.toNat_ofNat]
  omega

/-- The region that the staging registers hold. -/
def State.staged (s : State) : Rgn := ⟨s.rd Reg.GTE_RGN_BASE, s.rd Reg.GTE_RGN_LIMIT, s.rd Reg.GTE_RGN_ATTR, s.rd Reg.GTE_RGN_COLR⟩

/-- The result of committing the staged region to the selected place. -/
def State.stagedCode (s : State) : Nat × Nat := s.commitCode (s.fld Reg.GTE_SEL 5 0) (s.fld Reg.GTE_SEL 11 8) s.staged

/-- GTE_CFG_STAT shows the result of a commit. -/
def State.showCode (s : State) : State := s.wr Reg.GTE_CFG_STAT (BitVec.ofNat 32 (s.stagedCode.1 + 2 ^ 8 * s.stagedCode.2))

theorem showCode_code (s : State) : s.showCode.fld Reg.GTE_CFG_STAT 3 0 = s.stagedCode.1 :=
  (State.fld_wr_same _ _ _ _ _).trans (bits_commitStatus _ _ (commitCode_lt _ _ _ _))

/-- Region `r` of gate `g` replaced by `n`. -/
def State.setRgn (s : State) (g r : Nat) (n : Rgn) : State :=
  { s with gte := { s.gte with regions := tput rgnDefault s.gte.regions (16 * g + r) n } }

@[simp] theorem rgn_setRgn_same (s : State) (g r : Nat) (n : Rgn) : (s.setRgn g r n).rgn g r = n := tget_tput_same _ _ _ _

/-- Places below 16 of two gates are apart, so another region reads as before. -/
theorem rgn_setRgn_ne (s : State) (g r x y : Nat) (n : Rgn) (hr : r < 16) (hy : y < 16) (h : (x, y) ≠ (g, r)) :
    (s.setRgn g r n).rgn x y = s.rgn x y := by
  refine tget_tput_ne _ _ _ _ _ fun he => h ?_
  rw [Prod.mk.injEq]
  omega

theorem gteCommit_without_go (value : Word) (s : State) (h : bit value 0 = false) : exec (.gteCommit value) s = .next s := by
  simp [execGteCommit, h]

/-- A commit whose conditions hold puts the staged region into its place. -/
theorem gteCommit_commits (value : Word) (s : State) (hgo : bit value 0 = true) (hc : s.stagedCode.1 = 0) (hg : s.fld Reg.GTE_SEL 5 0 < 32) :
    exec (.gteCommit value) s = .next (s.showCode.setRgn (s.fld Reg.GTE_SEL 5 0) (s.fld Reg.GTE_SEL 11 8) s.staged) := by
  rw [exec_gteCommit]
  unfold execGteCommit
  rw [if_neg (by simp [hgo])]
  exact if_pos ⟨hc, hg⟩

/-- A commit that fails a condition shows it and keeps the regions. -/
theorem gteCommit_fails (value : Word) (s : State) (hgo : bit value 0 = true) (hc : s.stagedCode.1 ≠ 0) :
    exec (.gteCommit value) s = .next s.showCode := by
  rw [exec_gteCommit]
  unfold execGteCommit
  rw [if_neg (by simp [hgo])]
  exact if_neg fun h => hc h.1

/-! ### The tag engine (R371) -/

/-- The fields of GTE_TAG_CTL that a write sets while no retag runs: ERROR cleared by a 1, DRAM and COLOUR. -/
def retagFields (value : Word) (s : State) : State :=
  ((if bit value 17 then s.wrB Reg.GTE_TAG_CTL 17 false else s).wrB Reg.GTE_TAG_CTL 12 (bit value 12)).wrF Reg.GTE_TAG_CTL 9 0 (bits value 9 0)

@[simp] theorem retagFields_gte (value : Word) (s : State) : (retagFields value s).gte = s.gte := by
  unfold retagFields
  split <;> rfl

theorem retagFields_rd (value : Word) (s : State) (a : Nat) (h : a ≠ Reg.GTE_TAG_CTL) : (retagFields value s).rd a = s.rd a := by
  unfold retagFields
  split <;> simp [h]

/-- The retag that a write of GTE_TAG_CTL asks for. -/
def State.asked (s : State) (value : Word) : Retag :=
  ⟨bit value 12, if bit value 12 then s.rd64 Reg.GTE_TAG_ADDR_LO else s.rd64 Reg.GTE_TAG_ADDR_LO / 64, s.fld Reg.GTE_TAG_LEN 28 0,
    bits value 9 0⟩

/-- A retag to a reserved colour, or of a range that leaves its space. -/
def Retag.Bad (r : Retag) : Prop := (772 ≤ r.colour ∧ r.colour ≤ 1019) ∨ spaceGranules r.dram < r.first + r.count

/-- Range and length come from registers that the write leaves alone. -/
theorem retagFields_asked (value : Word) (s : State) : (retagFields value s).asked value = s.asked value := by
  have hlo := retagFields_rd value s Reg.GTE_TAG_ADDR_LO (by decide)
  have hhi := retagFields_rd value s (Reg.GTE_TAG_ADDR_LO + 4) (by decide)
  have hlen := retagFields_rd value s Reg.GTE_TAG_LEN (by decide)
  simp only [State.asked, State.rd64, State.fld, hlo, hhi, hlen]

/-- A retag that begins: GO and TAG_BUSY show it. -/
def startRetag (r : Retag) (s : State) : State :=
  { (s.wrB Reg.GTE_TAG_CTL 16 true).wrB Reg.GTE_STATUS 1 true with gte := { s.gte with retag := some r } }

theorem retagStart_idle (value : Word) (s : State) (hn : s.gte.retag = none) :
    (if bit value 17 then s.wrB Reg.GTE_TAG_CTL 17 false else s).gte.retag.isSome = false := by
  split <;> simp [hn]

/-- GO with a good range and colour while no retag runs starts the retag asked for. -/
theorem tagRetagStart_starts (value : Word) (s : State) (hn : s.gte.retag = none) (hgo : bit value 16 = true) (hb : ¬ (s.asked value).Bad) :
    exec (.tagRetagStart value) s = .next (startRetag (s.asked value) (retagFields value s)) := by
  rw [← retagFields_asked] at hb ⊢
  rw [exec_tagRetagStart]
  unfold execTagRetagStart
  rw [if_neg (by simp [retagStart_idle value s hn]), if_neg (by simp [hgo])]
  exact if_neg hb

/-- GO with a reserved colour or a range outside the space sets ERROR and starts nothing. -/
theorem tagRetagStart_errs (value : Word) (s : State) (hn : s.gte.retag = none) (hgo : bit value 16 = true) (hb : (s.asked value).Bad) :
    exec (.tagRetagStart value) s = .next ((retagFields value s).wrB Reg.GTE_TAG_CTL 17 true) := by
  rw [← retagFields_asked] at hb
  rw [exec_tagRetagStart]
  unfold execTagRetagStart
  rw [if_neg (by simp [retagStart_idle value s hn]), if_neg (by simp [hgo])]
  exact if_pos hb

/-- Writing the tags of a range: the granules of the range carry the colour, the others their tags. -/
theorem tget_tagRange (n : Nat) : ∀ (t : Tab Nat) (first colour g : Nat),
    tget (dflt 1023) (tagRange t first colour n) g = if first ≤ g ∧ g < first + n then colour else tget (dflt 1023) t g := by
  induction n with
  | zero =>
    intro t first colour g
    rw [if_neg (by omega)]
    rfl
  | succ n ih =>
    intro t first colour g
    simp only [tagRange, ih, tget_tput]
    by_cases hg : g = first
    · rw [if_neg (by omega), if_pos hg, if_pos (by omega)]
    · have hrange : (first + 1 ≤ g ∧ g < first + 1 + n) ↔ (first ≤ g ∧ g < first + (n + 1)) := by omega
      simp only [hrange, if_neg hg]

/-- The granules whose tag changes read zero, the other bytes as before. -/
theorem tget_zeroGranules (mem : Tab Byte) (tags : Tab Nat) (r : Retag) (a : Nat) :
    tget (dflt 0) (zeroGranules mem tags r) a
      = if r.first ≤ a / 64 ∧ a / 64 < r.first + r.count ∧ tget (dflt 1023) tags (a / 64) ≠ r.colour then 0 else tget (dflt 0) mem a := by
  rw [zeroGranules, tget_tclear]
  simp only [Retag.has, Bool.and_eq_true, decide_eq_true_eq, bne_iff_ne, and_assoc]
  rfl

/-- An interrupt changes no bit of a register other than its flags and the marks of first records. -/
theorem irq_bitOf_ne (r n b : Nat) (s : State) (a i : Nat) (h : a ≠ Reg.ALM_FIRST_VALID) (h' : a ≠ r) :
    (irq r n b s).bitOf a i = s.bitOf a i := congrArg (bit · i) (irq_rd r n b s a h h')

/-- The custody SRAM with a range retagged. -/
def State.sramRetagged (s : State) (r : Retag) : GateState :=
  { s.gte with sram := zeroGranules s.gte.sram s.gte.sramTags r, sramTags := tagRange s.gte.sramTags r.first r.colour r.count, retag := none }

/-- The end of a retag of custody SRAM: the tags and bytes of its range change, GO and TAG_BUSY clear, and the interrupt is raised. -/
theorem tagRetagDone_sram (s : State) (r : Retag) (h : s.gte.retag = some r) (hd : r.dram = false) :
    exec .tagRetagDone s = .next (irq Reg.GTE_IRQ_STATUS 3 3
      ((({ s with gte := s.sramRetagged r } : State).wrB Reg.GTE_TAG_CTL 16 false).wrB Reg.GTE_STATUS 1 false)) := by
  simp [execTagRetagDone, h, hd, State.sramRetagged]

/-- Settles O41: a write goes through its gate to a violation, the plain write, or the stage; the commands of the gates and of the tag engine follow
from the lemmas above, one clause each. -/
theorem accessControl : Obligations.AccessControl := by
  unfold Obligations.AccessControl
  refine ⟨?_, ?_, ?_, ?_, ?_, ?_⟩
  · intro ring master colour size addr value env s hp hm h5 h28
    have hsend := execRegisterWrite_sends ring master colour size addr value env s hp hm h5 h28
    have h31 : gateOf addr.toNat ≤ 31 := by omega
    refine ⟨?_, ?_, ?_⟩
    · intro c r tag hg
      exact ⟨_, hsend.trans (congrArg _ (busWrite_refused _ _ _ _ _ _ _ hg)), rfl, violate_counts _ _ _ _ _, violate_sys _ _ _ _ _,
        violate_regions _ _ _ _ _⟩
    · intro b row i hg hf hpair hown hr hn
      have hplain := (busWrite_passed _ _ env _ hg h5 h31 hr).trans (writePassed_plain _ _ _ _ _ _ _ hf hpair hown hn)
      refine ⟨_, hsend.trans (congrArg _ hplain), fun hok => ?_, fun hbad hw => plainWrite_ignored _ _ _ _ _ _ hbad hw⟩
      rw [plainWrite_ok _ _ _ _ _ _ hok]
      exact ⟨State.rd_wr_same _ _ _, fun x hx => State.rd_wr_ne _ _ _ _ hx, rfl⟩
    · intro b row i hg hf hpair hw hr
      have hstage := (busWrite_passed _ _ env _ hg h5 h31 hr).trans (writePassed_stages _ _ _ _ _ _ _ hf hpair hw)
      exact ⟨_, hsend.trans (congrArg _ hstage), tget_tput_same _ s.gte.stages addr.toNat (some (master.toNat, value)), rfl⟩
  · intro value s
    refine ⟨?_, gteCommit_without_go value s, fun hgo => ⟨fun hc hg => ?_, fun hc => ?_⟩⟩
    · refine ⟨_, exec_gteSelLoad value s, ?_, rfl, ?_⟩
      all_goals simp [State.rgn, Reg.GTE_SEL, Reg.GTE_RGN_BASE, Reg.GTE_RGN_LIMIT, Reg.GTE_RGN_ATTR, Reg.GTE_RGN_COLR]
    · exact ⟨_, gteCommit_commits value s hgo hc hg, rgn_setRgn_same _ _ _ _, (showCode_code s).trans hc,
        fun x y hy hxy => rgn_setRgn_ne _ _ _ _ _ _ (bits_lt _ _ _) hy hxy, rfl⟩
    · exact ⟨_, gteCommit_fails value s hgo hc, rfl, showCode_code s⟩
  · intro page value s
    exact ⟨_, exec_gteDpageWrite page value s, State.rd_wr_same _ _ _, fun x hx => State.rd_wr_ne _ _ _ _ hx, rfl⟩
  · intro value s hn hgo
    refine ⟨fun hb => ?_, fun hb => ?_⟩
    · refine ⟨_, tagRetagStart_starts value s hn hgo hb, ?_, ?_, ?_⟩
      · simp [startRetag, State.asked]
      · exact (State.bitOf_wrB_ne _ _ _ _ _ _ (by decide)).trans (State.bitOf_wrB_same _ _ _ _ (by decide))
      · exact State.bitOf_wrB_same _ _ _ _ (by decide)
    · exact ⟨_, tagRetagStart_errs value s hn hgo hb, retagFields_gte value s, State.bitOf_wrB_same _ _ _ _ (by decide)⟩
  · intro s r hr hd
    refine ⟨_, tagRetagDone_sram s r hr hd, ?_, ?_, ?_, irq_bit _ _ _ _ (by decide) (by decide), ?_, fun g => ?_, fun a => ?_⟩
    · simp [State.sramRetagged]
    · rw [irq_bitOf_ne _ _ _ _ _ _ (by decide) (by decide), State.bitOf_wrB_ne _ _ _ _ _ _ (by decide),
        State.bitOf_wrB_same _ _ _ _ (by decide)]
    · rw [irq_bitOf_ne _ _ _ _ _ _ (by decide) (by decide), State.bitOf_wrB_same _ _ _ _ (by decide)]
    · simp [State.sramRetagged]
    · simp only [State.sramTag, irq_gte, State.wrB_gte]
      exact tget_tagRange _ _ _ _ _
    · simp only [State.sramTag, irq_gte, State.wrB_gte]
      exact tget_zeroGranules _ _ _ _
  · intro s
    exact ⟨_, exec_gteVioPop s, rfl⟩

end Sys2Proof.Machine
end

section
/-! PROOFS. The queues of the egress ports and PAUSE (chapter 05): what each operation on a port's queue, wire and hold buffer changes and leaves
alone, said once each, and the statement `Obligations.EgressQueuesMove` assembled from them. -/

namespace Sys2Proof.Machine

/-! ### Addresses of the registers of a port (R12, R28) -/

/-- The blocks of the ports lie above the registers of the custody unit. -/
theorem portReg_ne_custody (p o a : Nat) (h : a < 0x20000000) : Reg.portBase p + o ≠ a := by
  unfold Reg.portBase Reg.clusterBase
  omega

/-- The blocks of the ports of a cluster lie above the cluster's own registers. -/
theorem portReg_ne_clusterIrq (p o : Nat) : Reg.portBase p + o ≠ Reg.DPL_IRQ_STATUS (clusterOf p) := by
  unfold Reg.portBase Reg.DPL_IRQ_STATUS clusterOf
  omega

/-! ### Counters of a port (R176) -/

@[simp] theorem count_dp (p o : Nat) (s : State) : (count p o s).dp = s.dp := State.bump_dp _ _
@[simp] theorem count_ldg (p o : Nat) (s : State) : (count p o s).ldg = s.ldg := State.bump_ldg _ _
@[simp] theorem count_port (p o q : Nat) (s : State) : (count p o s).port q = s.port q := by simp [State.port]

theorem bump64By_port (s : State) (a n q : Nat) : (s.bump64By a n).port q = s.port q := by rw [State.port, State.bump64By_dp, State.port]
theorem bump64_port (s : State) (a q : Nat) : (s.bump64 a).port q = s.port q := bump64By_port _ _ _ _

theorem count_rd_same (p o : Nat) (s : State) : (count p o s).rd (Reg.portBase p + o) = up (s.rd (Reg.portBase p + o)) 1 :=
  State.rd_bump_same _ _

theorem count_rd_ne (p o : Nat) (s : State) (a : Nat) (h : a ≠ Reg.portBase p + o) : (count p o s).rd a = s.rd a := State.rd_bump_ne _ _ _ h

/-! ### Queues, hold buffers and the wire (R134, R145, R151) -/

@[simp] theorem setPort_rd (s : State) (p : Nat) (d : PortDyn) (a : Nat) : (s.setPort p d).rd a = s.rd a := rfl

@[simp] theorem updEgress_regs (p : Nat) (g : List EgFrame → List EgFrame) (s : State) : (updEgress p g s).regs = s.regs := rfl
@[simp] theorem updEgress_ldg (p : Nat) (g : List EgFrame → List EgFrame) (s : State) : (updEgress p g s).ldg = s.ldg := rfl
@[simp] theorem updEgress_queue (p : Nat) (g : List EgFrame → List EgFrame) (s : State) :
    ((updEgress p g s).port p).queue = g (s.port p).queue := by simp [updEgress]

/-- A hold buffer is apart from the queues of every port. -/
theorem setHold_queue (p i : Nat) (v : HoldHalf) (s : State) (q : Nat) : ((setHold p i v s).port q).queue = (s.port q).queue := by
  unfold setHold
  by_cases h : q = p
  · rw [h, State.port_setPort_same]
  · rw [State.port_setPort_ne _ _ _ _ h]

@[simp] theorem passHold_queue (p : Nat) (i : Option Nat) (s : State) (q : Nat) : ((passHold p i s).port q).queue = (s.port q).queue := by
  cases i with
  | none => rfl
  | some n => exact setHold_queue _ _ _ _ _

@[simp] theorem passHold_regs (p : Nat) (i : Option Nat) (s : State) : (passHold p i s).regs = s.regs := by cases i <;> rfl
@[simp] theorem passHold_ldg (p : Nat) (i : Option Nat) (s : State) : (passHold p i s).ldg = s.ldg := by cases i <;> rfl

@[simp] theorem clearHold_queue (p : Nat) (i : Option Nat) (s : State) (q : Nat) : ((clearHold p i s).port q).queue = (s.port q).queue := by
  cases i with
  | none => rfl
  | some n => exact setHold_queue _ _ _ _ _

@[simp] theorem clearHold_regs (p : Nat) (i : Option Nat) (s : State) : (clearHold p i s).regs = s.regs := by cases i <;> rfl
@[simp] theorem clearHold_ldg (p : Nat) (i : Option Nat) (s : State) : (clearHold p i s).ldg = s.ldg := by cases i <;> rfl

@[simp] theorem dropQueued_queue (p num : Nat) (s : State) :
    ((dropQueued p num s).port p).queue = (s.port p).queue.filter (fun g => g.num != num) := by
  unfold dropQueued
  cases s.queued p num <;> simp

@[simp] theorem dropQueued_regs (p num : Nat) (s : State) : (dropQueued p num s).regs = s.regs := by
  unfold dropQueued
  cases s.queued p num <;> simp

@[simp] theorem dropQueued_ldg (p num : Nat) (s : State) : (dropQueued p num s).ldg = s.ldg := by
  unfold dropQueued
  cases s.queued p num <;> simp

@[simp] theorem dropQueued_rd (p num : Nat) (s : State) (a : Nat) : (dropQueued p num s).rd a = s.rd a := by simp [State.rd]

/-- What leaves on the wire is remembered as last sent; the port is otherwise as before. -/
@[simp] theorem wireDone_port (p : Nat) (b : Bytes) (good : Bool) (s : State) :
    (wireDone p b good s).port p = { s.port p with lastSent := b } := by
  unfold wireDone
  rw [State.port_setPort_same]
  cases good with
  | true => rw [if_pos rfl, bump64_port, bump64By_port]
  | false => rw [if_neg Bool.false_ne_true, count_port, bump64By_port]

@[simp] theorem wireDone_ldg (p : Nat) (b : Bytes) (good : Bool) (s : State) : (wireDone p b good s).ldg = s.ldg := by
  unfold wireDone
  rw [State.setPort_ldg]
  cases good with
  | true => rw [if_pos rfl, State.bump64_ldg, State.bump64By_ldg]
  | false => rw [if_neg Bool.false_ne_true, count_ldg, State.bump64By_ldg]

/-- The counters that a frame on the wire moves: PRT_TX_FRAMES, PRT_TX_OCTETS and PRT_TX_POISONED. -/
def wireCounters : List Nat := [0x90, 0x94, 0x98, 0x9C, 0x188]

/-- A frame on the wire moves no counter of the port but its own. -/
theorem wireDone_rd (p : Nat) (b : Bytes) (good : Bool) (s : State) (o : Nat) (h : o ∉ wireCounters) :
    (wireDone p b good s).rd (Reg.portBase p + o) = s.rd (Reg.portBase p + o) := by
  simp only [wireCounters, List.mem_cons, List.not_mem_nil, not_or, or_false] at h
  obtain ⟨h90, h94, h98, h9C, h188⟩ := h
  have hoctets : (s.bump64By (Reg.portBase p + 0x98) b.length).rd (Reg.portBase p + o) = s.rd (Reg.portBase p + o) :=
    State.rd_bump64By_ne _ _ _ _ (by omega) (by omega)
  unfold wireDone
  rw [setPort_rd]
  cases good with
  | true => rw [if_pos rfl, State.rd_bump64_ne _ _ _ (by omega) (by omega), hoctets]
  | false => rw [if_neg Bool.false_ne_true, count_rd_ne _ _ _ _ (by omega), hoctets]

/-! ### The commands of the fabric and of the egress (R145, R151, R154, R155, R160) -/

/-- A frame crosses: its slice's hold is free, and one for the same tile needs no acknowledgement. -/
theorem fabricTransfer_crosses (cluster : Fin 64) (dst : Fin 512) (s : State) (g : EgFrame)
    (hq : (s.port dst).queue.find? (fun g => clusterOf g.src == cluster && !g.crossed) = some g)
    (hl : s.retraining (tileOf g.src) (tileOf dst) = false) (hr : s.routeOk g.src dst = true) (he : s.egressRoom dst g.len g.urgent = true) :
    exec (.fabricTransfer cluster dst) s = .next (passHold g.src g.hold (updEgress dst (fun q => q.map (fun x =>
      if x = g then { x with crossed := true, acked := tileOf g.src == tileOf dst, hold := none } else x)) s)) := by
  simp [execFabricTransfer, hq, hl, hr, he]

/-- A frame whose link, route or egress buffer does not allow it waits. -/
theorem fabricTransfer_waits (cluster : Fin 64) (dst : Fin 512) (s : State) (g : EgFrame)
    (hq : (s.port dst).queue.find? (fun g => clusterOf g.src == cluster && !g.crossed) = some g)
    (h : s.retraining (tileOf g.src) (tileOf dst) = true ∨ s.routeOk g.src dst = false ∨ s.egressRoom dst g.len g.urgent = false) :
    exec (.fabricTransfer cluster dst) s = .next s := by
  have h' : s.retraining (tileOf g.src) (tileOf dst) ∨ !s.routeOk g.src dst ∨ !s.egressRoom dst g.len g.urgent := by simpa using h
  simp only [exec_fabricTransfer, execFabricTransfer, hq]
  exact if_pos h'

/-- A port that may send begins the frame that R145 chooses. -/
theorem egressFrameStart_chosen (port : Fin 512) (s : State) (g : EgFrame) (hst : s.portState port = 3) (hm : s.member port = false)
    (hv : s.moving port true = false) (hp : (s.port port).pause = 0) (hw : (s.port port).queue.any (fun g => g.onWire) = false)
    (hn : s.nextOut port = some g) :
    exec (.egressFrameStart port) s = .next (if g.complete then sendQueued g s
      else updEgress port (fun q => q.map (fun x => if x = g then { x with onWire := true } else x)) s) := by
  have hfree : ¬ (s.portState port ≠ 3 ∨ s.member port ∨ s.moving port true ∨ 0 < (s.port port).pause
      ∨ (s.port port).queue.any (fun g => g.onWire)) := by simp only [hst, hm, hv, hp, hw]; decide
  rw [exec_egressFrameStart]
  unfold execEgressFrameStart
  rw [if_neg hfree, hn]
  exact (apply_ite Host.Outcome.next _ _ _).symm

/-- The ingress keeps its record of a sent frame until it is acknowledged (R160). -/
def keepRecord (g : EgFrame) (s : State) : State :=
  if g.acked then s else { s with dp := { s.dp with records := s.dp.records ++ [⟨g.num, g.src, g.dst⟩] } }

@[simp] theorem keepRecord_port (g : EgFrame) (s : State) (q : Nat) : (keepRecord g s).port q = s.port q := by
  unfold keepRecord; split <;> rfl
@[simp] theorem keepRecord_regs (g : EgFrame) (s : State) : (keepRecord g s).regs = s.regs := by unfold keepRecord; split <;> rfl
@[simp] theorem keepRecord_ldg (g : EgFrame) (s : State) : (keepRecord g s).ldg = s.ldg := by unfold keepRecord; split <;> rfl
@[simp] theorem keepRecord_rd (g : EgFrame) (s : State) (a : Nat) : (keepRecord g s).rd a = s.rd a := by simp [State.rd]

/-- A complete frame leaves its queue, goes on the wire, and its leaf enters the FIFO of the egress cluster. -/
theorem sendQueued_leaf (g : EgFrame) (l : LeafIn) (s : State) (h : g.leaf = some l) :
    sendQueued g s = pushLeaf (clusterOf g.dst) l (keepRecord g (wireDone g.dst g.bytes true (dropQueued g.dst g.num s))) := by
  simp only [sendQueued, keepRecord, h]

@[simp] theorem pushLeaf_port (c : Nat) (l : LeafIn) (s : State) (q : Nat) : (pushLeaf c l s).port q = s.port q := rfl
@[simp] theorem pushLeaf_rd (c : Nat) (l : LeafIn) (s : State) (a : Nat) : (pushLeaf c l s).rd a = s.rd a := rfl
@[simp] theorem pushLeaf_fifos (c : Nat) (l : LeafIn) (s : State) :
    (pushLeaf c l s).ldg.fifos = tput (dflt []) s.ldg.fifos c (tget (dflt []) s.ldg.fifos c ++ [l]) := rfl

/-- The frame on the wire that runs dry ends with the STALL trailer, and its ingress is told. -/
theorem egressUnderrun_ends (port : Fin 512) (sent : Nat) (s : State) (g : EgFrame) (f : InFrame)
    (hw : (s.port port).queue.find? (fun g => g.onWire) = some g) (hs : s.source g = some f) :
    exec (.egressUnderrun port sent) s = .next (setCur g.src (some { f with under := true }) (count port 0x190
      (wireDone port (poisoned ((emittedSoFar f).take sent) 0x30 f.port f.stamp) false (dropQueued port g.num s)))) := by
  simp only [exec_egressUnderrun, execEgressUnderrun, hw, hs]

@[simp] theorem setCur_rd (p : Nat) (f : Option InFrame) (s : State) (a : Nat) : (setCur p f s).rd a = s.rd a := rfl
@[simp] theorem setCur_port_same (p : Nat) (f : Option InFrame) (s : State) : (setCur p f s).port p = { s.port p with cur := f } :=
  State.port_setPort_same _ _ _
@[simp] theorem setCur_port_ne (p q : Nat) (f : Option InFrame) (s : State) (h : q ≠ p) : (setCur p f s).port q = s.port q :=
  State.port_setPort_ne _ _ _ _ h

/-! ### PAUSE (R140, R141) -/

@[simp] theorem clearFragment_rd (p : Nat) (s : State) (a : Nat) : (clearFragment p s).rd a = s.rd a := rfl

@[simp] theorem clearFragment_pause (p : Nat) (s : State) : ((clearFragment p s).port p).pause = (s.port p).pause := by
  simp [clearFragment]

/-- A PAUSE frame that arrives at a port whose link is up meets the start rules first. -/
theorem pauseFrame_arrives (port : Fin 512) (quanta : BitVec 16) (s : State) (hl : s.portLink port = true) (hm : s.member port = false)
    (hc : s.live port = none) :
    exec (.pauseFrame port quanta) s = .next (if (startRule (clearFragment port s) port).isSome
      then setCur port none (beginFrame port .unknown (clearFragment port s))
      else pauseBy port quanta.toNat (count port 0x10C (clearFragment port s))) := by
  have hfree : ¬ (!s.portLink port ∨ s.member port ∨ (s.live port).isSome) := by simp [hl, hm, hc]
  rw [exec_pauseFrame]
  unfold execPauseFrame
  rw [if_neg hfree]
  exact (apply_ite Host.Outcome.next _ _ _).symm

/-- A PAUSE obeyed shows its quanta in the port and PAUSED in PRT_STATUS. -/
theorem pauseBy_on (p quanta : Nat) (s : State) (h : s.bitOf (Reg.PRT_CTL p) 5 = true) :
    pauseBy p quanta s = (s.setPort p { s.port p with pause := quanta }).wrB (Reg.PRT_STATUS p) 10 (quanta != 0) := if_pos h

theorem pauseBy_off (p quanta : Nat) (s : State) (h : s.bitOf (Reg.PRT_CTL p) 5 = false) : pauseBy p quanta s = s :=
  if_neg (by simp [h])

theorem portReg_ne_status (p o : Nat) (h : o ≠ 8) : Reg.portBase p + o ≠ Reg.PRT_STATUS p := by
  unfold Reg.PRT_STATUS
  omega

/-- A PAUSE frame changes no register of a port but PRT_STATUS. -/
theorem pauseBy_rd (p quanta : Nat) (s : State) (a : Nat) (h : a ≠ Reg.PRT_STATUS p) : (pauseBy p quanta s).rd a = s.rd a := by
  unfold pauseBy
  split
  · exact State.rd_wrB_ne _ _ _ _ _ h
  · rfl

/-- A frame that a start rule discards is marked so, and counted under that rule; a full buffer raises an interrupt as well. -/
theorem beginFrame_discards (p : Nat) (k : FrameKind) (s : State) (o : Nat) (h : startRule s p = some o) :
    ∃ u : State, beginFrame p k s = setCur p (some (newFrame u p (.discarded o))) (count p o u)
      ∧ u.dp = s.dp ∧ ∀ x, u.rd (Reg.portBase p + x) = s.rd (Reg.portBase p + x) := by
  refine ⟨if o = 0x114 then irq (Reg.DPL_IRQ_STATUS (clusterOf p)) (32 + tileOf p) 4 s else s, by simp only [beginFrame, h], ?_, fun x => ?_⟩
  · split
    · exact irq_dp _ _ _ _
    · rfl
  · split
    · exact irq_rd _ _ _ _ _ (portReg_ne_custody _ _ _ (by decide)) (portReg_ne_clusterIrq _ _)
    · rfl

/-- No start rule of R140 counts in PRT_RX_MACCTL. -/
theorem startRule_ne_control (s : State) (p o : Nat) (h : startRule s p = some o) : o ≠ 0x10C := by
  unfold startRule at h
  rintro rfl
  split at h
  · simp at h
  · split at h
    · simp at h
    · split at h <;> simp at h

/-! ### The statement -/

/-- Settles O15: each command is brought to the one operation it does, and the rules above say what that operation changes. -/
theorem egressQueuesMove : Obligations.EgressQueuesMove := by
  unfold Obligations.EgressQueuesMove
  refine ⟨?_, ?_, ?_, ?_, ?_, ?_⟩
  · intro cluster dst s g hq
    exact ⟨fun hl hr he => ⟨_, fabricTransfer_crosses cluster dst s g hq hl hr he, by simp, by simp, by simp⟩,
      fabricTransfer_waits cluster dst s g hq⟩
  · intro src dst s
    refine ⟨fun r hr => ?_, fun g hr hq => ?_⟩
    · exact ⟨{ s with dp := { s.dp with records := s.dp.records.filter (· != r) } }, by simp only [exec_fabricAcknowledgement,
        execFabricAcknowledgement, hr], rfl, rfl, rfl⟩
    · exact ⟨updEgress dst (fun q => q.map (fun x => if x = g then { x with acked := true } else x)) s, by simp only [exec_fabricAcknowledgement,
        execFabricAcknowledgement, hr, hq], updEgress_queue _ _ _, rfl⟩
  · intro port s g hst hm hv hp hw hn
    have hstart := egressFrameStart_chosen port s g hst hm hv hp hw hn
    refine ⟨fun l hc hd hl => ?_, fun hc => ?_⟩
    · rw [if_pos hc, sendQueued_leaf g l s hl, hd] at hstart
      have hport : (pushLeaf (clusterOf port) l (keepRecord g (wireDone port g.bytes true (dropQueued port g.num s)))).port port
          = { (dropQueued port g.num s).port port with lastSent := g.bytes } := by rw [pushLeaf_port, keepRecord_port, wireDone_port]
      refine ⟨_, hstart, by rw [hport, dropQueued_queue], by rw [hport],
        by rw [pushLeaf_fifos, keepRecord_ldg, wireDone_ldg, dropQueued_ldg], ?_⟩
      rw [pushLeaf_rd, keepRecord_rd, wireDone_rd _ _ _ _ _ (by decide), dropQueued_rd]
    · rw [if_neg (by simp [hc])] at hstart
      exact ⟨_, hstart, updEgress_queue _ _ _, updEgress_regs _ _ _, updEgress_ldg _ _ _⟩
  · intro port sent s g f hw hs hne
    have hport (b : Bytes) (f : InFrame) : (setCur g.src (some f) (count port 0x190 (wireDone port b false (dropQueued port g.num s)))).port port
        = { (dropQueued port g.num s).port port with lastSent := b } := by
      rw [setCur_port_ne _ _ _ _ (Ne.symm hne), count_port, wireDone_port]
    refine ⟨_, egressUnderrun_ends port sent s g f hw hs, ?_, ?_, ?_, ?_⟩
    · rw [hport, dropQueued_queue]
    · rw [hport]
    · rw [setCur_port_same]
    · rw [setCur_rd, count_rd_same, wireDone_rd _ _ _ _ _ (by decide), dropQueued_rd]
  · intro port quanta s hl hm hc
    have harrive := pauseFrame_arrives port quanta s hl hm hc
    have hctl : (count port 0x10C (clearFragment port s)).bitOf (Reg.PRT_CTL port) 5 = s.bitOf (Reg.PRT_CTL port) 5 := by
      rw [State.bitOf, count_rd_ne _ _ _ _ (by unfold Reg.PRT_CTL; omega), clearFragment_rd, State.bitOf]
    refine ⟨fun hr => ?_, fun o hr => ?_⟩
    · rw [hr, if_neg (by simp)] at harrive
      refine ⟨_, harrive, ?_, fun hon => ?_, fun hoff => ?_⟩
      · rw [pauseBy_rd _ _ _ _ (portReg_ne_status _ _ (by decide)), count_rd_same, clearFragment_rd]
      · rw [pauseBy_on _ _ _ (hctl.trans hon)]
        exact ⟨by rw [State.port_wrB, State.port_setPort_same], State.bitOf_wrB_same _ _ _ _ (by decide)⟩
      · rw [pauseBy_off _ _ _ (hctl.trans hoff), count_dp]
    · obtain ⟨u, hu, hdp, hrd⟩ := beginFrame_discards port .unknown _ o hr
      rw [hr, if_pos (by simp), hu] at harrive
      have hport : u.port port = (clearFragment port s).port port := by rw [State.port, hdp, State.port]
      refine ⟨_, harrive, ?_, ?_, ?_, ?_⟩
      · rw [setCur_rd, setCur_rd, count_rd_same, hrd, clearFragment_rd]
      · rw [setCur_rd, setCur_rd, count_rd_ne _ _ _ _ (by have := startRule_ne_control _ _ _ hr; omega), hrd, clearFragment_rd]
      · rw [setCur_port_same]
      · rw [setCur_port_same, setCur_port_same, count_port, hport, clearFragment_pause]
  · intro port s
    refine ⟨_, exec_pauseExpiry port s, ?_, State.bitOf_wrB_same _ _ _ _ (by decide), ?_⟩
    all_goals rw [State.port_wrB, State.port_setPort_same]

end Sys2Proof.Machine
end

section
/-! PROOFS. The states and groups of the ports (chapter 05): what putting a port into a state, its control register, a port reset and a regrouping
change and leave alone, said once each, and the statement `Obligations.PortStates` assembled from them. -/

namespace Sys2Proof.Machine

/-! ### Fields of one register, apart from the one written -/

theorem State.fld_wrB_apart (s : State) (a i : Nat) (b : Bool) (h l : Nat) (hi : i < 32) (hs : h < i ∨ i < l) (hl : l ≤ h) :
    (s.wrB a i b).fld a h l = s.fld a h l := by
  rw [State.fld, State.rd_wrB_same, setBit, bits_setBits_ne _ _ _ _ _ _ (Nat.le_refl i) hi hs hl, State.fld]

theorem State.bitOf_wrB_apart (s : State) (a i j : Nat) (b : Bool) (hi : i < 32) (hj : j ≠ i) : (s.wrB a i b).bitOf a j = s.bitOf a j := by
  rw [State.bitOf, State.rd_wrB_same, bit_setBit_ne _ _ _ _ hi hj, State.bitOf]

theorem State.fld_wrF_apart (s : State) (a hi lo v h l : Nat) (hlo : lo ≤ hi) (hhi : hi < 32) (hs : h < lo ∨ hi < l) (hl : l ≤ h) :
    (s.wrF a hi lo v).fld a h l = s.fld a h l := by
  rw [State.fld, State.rd_wrF_same, bits_setBits_ne _ _ _ _ _ _ hlo hhi hs hl, State.fld]

theorem State.bitOf_wrF_apart (s : State) (a hi lo v i : Nat) (hlo : lo ≤ hi) (hhi : hi < 32) (hs : i < lo ∨ hi < i) :
    (s.wrF a hi lo v).bitOf a i = s.bitOf a i := by
  have hout : ¬ (lo ≤ i ∧ i ≤ hi) := by omega
  rw [State.bitOf, State.rd_wrF_same, bit, setBits_getLsbD _ _ _ _ _ hlo hhi, if_neg hout]
  rfl

@[simp] theorem plane_wrB (s : State) (a i : Nat) (b : Bool) : (s.wrB a i b).plane = s.plane := rfl
@[simp] theorem plane_wrF (s : State) (a hi lo v : Nat) : (s.wrF a hi lo v).plane = s.plane := rfl
theorem ms_wrB (s : State) (a i : Nat) (b : Bool) : (s.wrB a i b).ms = s.ms := rfl
theorem fld_setPort (s : State) (p : Nat) (d : PortDyn) (a h l : Nat) : (s.setPort p d).fld a h l = s.fld a h l := rfl
theorem bitOf_setPort (s : State) (p : Nat) (d : PortDyn) (a i : Nat) : (s.setPort p d).bitOf a i = s.bitOf a i := rfl
theorem rd_withPlane (s : State) (d : PlaneState) (a : Nat) : ({ s with dp := d } : State).rd a = s.rd a := rfl

/-! ### PRT_CTL, PRT_STATUS and the lanes of a port (R14, R177) -/

theorem portStatus_ne_portCtl (p q : Nat) : Reg.PRT_STATUS q ≠ Reg.PRT_CTL p := by
  unfold Reg.PRT_STATUS Reg.PRT_CTL Reg.portBase Reg.clusterBase
  omega

theorem portStatus_ne_spare (p c : Nat) : Reg.PRT_STATUS p ≠ Reg.DPL_SPARE c := by
  unfold Reg.PRT_STATUS Reg.DPL_SPARE Reg.portBase Reg.clusterBase
  omega

theorem portStatus_ne_engines (p q : Nat) : Reg.PRT_STATUS p ≠ Reg.PRT_ENGINES q := by
  unfold Reg.PRT_STATUS Reg.PRT_ENGINES Reg.portBase Reg.clusterBase
  omega

/-- Writing a control register shows no other state of any port. -/
@[simp] theorem portState_wrB_ctl (s : State) (p i : Nat) (b : Bool) (q : Nat) : (s.wrB (Reg.PRT_CTL p) i b).portState q = s.portState q :=
  State.fld_wrB_ne _ _ _ _ _ _ _ (portStatus_ne_portCtl p q)

@[simp] theorem portState_wrF_ctl (s : State) (p hi lo v q : Nat) : (s.wrF (Reg.PRT_CTL p) hi lo v).portState q = s.portState q :=
  State.fld_wrF_ne _ _ _ _ _ _ _ _ (portStatus_ne_portCtl p q)

@[simp] theorem member_wrB_ctl (s : State) (p i : Nat) (b : Bool) (q : Nat) : (s.wrB (Reg.PRT_CTL p) i b).member q = s.member q :=
  State.bitOf_wrB_ne _ _ _ _ _ _ (portStatus_ne_portCtl p q)

/-- A port whose GROUP is 0 is its one lane. -/
theorem lanes_single (s : State) (p : Nat) (h : s.fld (Reg.PRT_CTL p) 7 6 = 0) : s.lanes p = [p] := by
  simp [State.lanes, groupLanes, h]

/-- A lane that is no member leads its own port. -/
theorem leadOf_self (s : State) (p : Nat) (h : s.member p = false) : s.leadOf p = p := by simp [State.leadOf, h]

/-- RELEASE and ENABLE lie apart from GROUP. -/
theorem group_wrB (s : State) (p i : Nat) (b : Bool) (h : i < 6) : (s.wrB (Reg.PRT_CTL p) i b).fld (Reg.PRT_CTL p) 7 6 = s.fld (Reg.PRT_CTL p) 7 6 :=
  State.fld_wrB_apart _ _ _ _ _ _ (by omega) (by omega) (by decide)

/-! ### A port put into a state (R169) -/

/-- The first port released is shown in SYS_STATUS and SYS_BOOT_TIME. -/
def noteRelease (st : Nat) (s : State) : State :=
  if st = 3 ∧ !s.bitOf Reg.SYS_STATUS 2 then (s.wrB Reg.SYS_STATUS 2 true).wr Reg.SYS_BOOT_TIME (BitVec.ofNat 32 s.ms) else s

@[simp] theorem noteRelease_dp (st : Nat) (s : State) : (noteRelease st s).dp = s.dp := by unfold noteRelease; split <;> rfl

/-- It shows in no register of a port. -/
theorem noteRelease_rd (st : Nat) (s : State) (p o : Nat) : (noteRelease st s).rd (Reg.portBase p + o) = s.rd (Reg.portBase p + o) := by
  unfold noteRelease
  split
  · rw [State.rd_wr_ne _ _ _ _ (portReg_ne_custody _ _ _ (by decide)), State.rd_wrB_ne _ _ _ _ _ (portReg_ne_custody _ _ _ (by decide))]
  · rfl

/-- A port of one lane put into a state shows it in PRT_STATUS. -/
theorem setPortState_single (p st : Nat) (link : Bool) (s : State) (h : s.fld (Reg.PRT_CTL p) 7 6 = 0) :
    setPortState p st link s = ((noteRelease st s).wrF (Reg.PRT_STATUS p) 2 0 st).wrB (Reg.PRT_STATUS p) 3 link := by
  have hl : (noteRelease st s).lanes p = [p] := by
    refine lanes_single _ _ ?_
    rw [State.fld, Reg.PRT_CTL, noteRelease_rd]
    exact h
  have hfold : setPortState p st link s = ((noteRelease st s).lanes p).foldl
      (fun s q => (s.wrF (Reg.PRT_STATUS q) 2 0 st).wrB (Reg.PRT_STATUS q) 3 link) (noteRelease st s) := rfl
  rw [hfold, hl, List.foldl_cons, List.foldl_nil]

section single
variable (p st : Nat) (link : Bool) (s : State) (h : s.fld (Reg.PRT_CTL p) 7 6 = 0)
include h

theorem setPortState_portState (hst : st < 8) : (setPortState p st link s).portState p = st := by
  rw [setPortState_single _ _ _ _ h, State.portState, State.fld_wrB_apart _ _ _ _ _ _ (by decide) (by decide) (by decide),
    State.fld_wrF_same _ _ _ _ _ (by decide) (by decide)]
  exact Nat.mod_eq_of_lt hst

theorem setPortState_portLink : (setPortState p st link s).portLink p = link := by
  rw [setPortState_single _ _ _ _ h]
  exact State.bitOf_wrB_same _ _ _ _ (by decide)

theorem setPortState_ctl (q i : Nat) : (setPortState p st link s).bitOf (Reg.PRT_CTL q) i = s.bitOf (Reg.PRT_CTL q) i := by
  rw [setPortState_single _ _ _ _ h, State.bitOf, State.rd_wrB_ne _ _ _ _ _ (portStatus_ne_portCtl _ _).symm,
    State.rd_wrF_ne _ _ _ _ _ _ (portStatus_ne_portCtl _ _).symm, Reg.PRT_CTL, noteRelease_rd, State.bitOf]

theorem setPortState_dp : (setPortState p st link s).dp = s.dp := by
  rw [setPortState_single _ _ _ _ h, State.wrB_dp, State.wrF_dp, noteRelease_dp]

theorem setPortState_port (q : Nat) : (setPortState p st link s).port q = s.port q := by
  rw [State.port, setPortState_dp _ _ _ _ h, State.port]

end single

/-! ### ENABLE and RELEASE (R169) -/

/-- ENABLE of an OFF port that is not disabled starts its training. -/
theorem setEnable_trains (p : Nat) (s : State) (hg : s.fld (Reg.PRT_CTL p) 7 6 = 0) (hm : s.member p = false) (hs : s.portState p = 0)
    (hd : s.bitOf (Reg.PRT_STATUS p) 4 = false) (hz : s.plane ≠ .zeroized) :
    setEnable p true s = setPortState p 1 false ((s.wrB (Reg.PRT_CTL p) 0 true).setPort p { s.port p with trainStart := s.ms }) := by
  have hlanes : (s.wrB (Reg.PRT_CTL p) 0 true).lanes p = [p] := lanes_single _ _ ((group_wrB _ _ _ _ (by decide)).trans hg)
  have hdis : (s.wrB (Reg.PRT_CTL p) 0 true).bitOf (Reg.PRT_STATUS p) 4 = false :=
    (State.bitOf_wrB_ne _ _ _ _ _ _ (portStatus_ne_portCtl _ _)).trans hd
  have hoff : (s.wrB (Reg.PRT_CTL p) 0 true).portState p = 0 ∧ !((s.wrB (Reg.PRT_CTL p) 0 true).lanes p).any (fun q =>
      (s.wrB (Reg.PRT_CTL p) 0 true).bitOf (Reg.PRT_STATUS q) 4) ∧ (s.wrB (Reg.PRT_CTL p) 0 true).plane ≠ .zeroized :=
    ⟨(portState_wrB_ctl _ _ _ _ _).trans hs, by rw [hlanes]; simp [hdis],
      by rwa [plane_wrB]⟩
  unfold setEnable
  rw [if_neg (by simp [hm]), if_pos rfl, if_pos hoff, State.port_wrB, ms_wrB]

/-- Clearing ENABLE takes a port that is not OFF down. -/
theorem setEnable_off (p : Nat) (s : State) (hm : s.member p = false) (hs : s.portState p ≠ 0) :
    setEnable p false s = portDown p 0 (s.wrB (Reg.PRT_CTL p) 0 false) := by
  unfold setEnable
  rw [if_neg (by simp [hm]), if_neg Bool.false_ne_true, if_neg (by simpa using hs)]

/-- What a write of RELEASE does to a port that is no member: it releases a HELD port, holds a RELEASED one, or changes the bit alone. -/
theorem setRelease_cases (p : Nat) (on : Bool) (s : State) (hm : s.member p = false) :
    (s.portState p = 2 ∧ (s.wrB (Reg.PRT_CTL p) 1 on).releaseOn p = true
      ∧ setRelease p on s = setPortState p 3 true (s.wrB (Reg.PRT_CTL p) 1 on))
    ∨ (s.portState p = 3 ∧ (s.wrB (Reg.PRT_CTL p) 1 on).releaseOn p = false
      ∧ setRelease p on s = setPortState p 2 true (s.wrB (Reg.PRT_CTL p) 1 on))
    ∨ ((s.portState p = 2 → (s.wrB (Reg.PRT_CTL p) 1 on).releaseOn p = false)
      ∧ (s.portState p = 3 → (s.wrB (Reg.PRT_CTL p) 1 on).releaseOn p = true) ∧ setRelease p on s = s.wrB (Reg.PRT_CTL p) 1 on) := by
  unfold setRelease
  dsimp only
  rw [if_neg (by simp [hm]), portState_wrB_ctl]
  generalize s.wrB (Reg.PRT_CTL p) 1 on = u
  split
  · next h => exact .inl ⟨h.1, h.2, rfl⟩
  · next h2 =>
    split
    · next h => exact .inr (.inl ⟨h.1, by simpa using h.2, rfl⟩)
    · next h3 => exact .inr (.inr ⟨by simpa using h2, by simpa using h3, rfl⟩)

/-- A write of RELEASE sets the bit, and leaves frames and queues alone. -/
theorem setRelease_frame (p : Nat) (on : Bool) (s : State) (hg : s.fld (Reg.PRT_CTL p) 7 6 = 0) (hm : s.member p = false) :
    (setRelease p on s).bitOf (Reg.PRT_CTL p) 1 = on ∧ (setRelease p on s).dp = s.dp := by
  have hg' := (group_wrB s p 1 on (by decide)).trans hg
  have hbit : (s.wrB (Reg.PRT_CTL p) 1 on).bitOf (Reg.PRT_CTL p) 1 = on := State.bitOf_wrB_same _ _ _ _ (by decide)
  obtain ⟨_, _, h⟩ | ⟨_, _, h⟩ | ⟨_, _, h⟩ := setRelease_cases p on s hm
  · rw [h, setPortState_ctl _ _ _ _ hg', setPortState_dp _ _ _ _ hg']
    exact ⟨hbit, State.wrB_dp _ _ _ _⟩
  · rw [h, setPortState_ctl _ _ _ _ hg', setPortState_dp _ _ _ _ hg']
    exact ⟨hbit, State.wrB_dp _ _ _ _⟩
  · rw [h]
    exact ⟨hbit, State.wrB_dp _ _ _ _⟩

/-- The state that a write of RELEASE leaves a port in. -/
theorem setRelease_portState (p : Nat) (on : Bool) (s : State) (hg : s.fld (Reg.PRT_CTL p) 7 6 = 0) (hm : s.member p = false) :
    (setRelease p on s).portState p =
      if s.portState p = 2 ∨ s.portState p = 3 then (if (s.wrB (Reg.PRT_CTL p) 1 on).releaseOn p then 3 else 2) else s.portState p := by
  have hg' := (group_wrB s p 1 on (by decide)).trans hg
  obtain ⟨h2, hr, h⟩ | ⟨h3, hr, h⟩ | ⟨h2, h3, h⟩ := setRelease_cases p on s hm
  · rw [h, setPortState_portState _ _ _ _ hg' (by decide), if_pos (.inl h2), hr, if_pos rfl]
  · rw [h, setPortState_portState _ _ _ _ hg' (by decide), if_pos (.inr h3), hr, if_neg Bool.false_ne_true]
  · rw [h, portState_wrB_ctl]
    split
    · next hst =>
      rcases hst with hst | hst
      · rw [h2 hst, hst, if_neg Bool.false_ne_true]
      · rw [h3 hst, hst, if_pos rfl]
    · rfl

/-- A port is not released while RELEASE is clear. -/
theorem releaseOn_clear (s : State) (p : Nat) : (s.wrB (Reg.PRT_CTL p) 1 false).releaseOn p = false := by
  rw [State.releaseOn, State.bitOf_wrB_same _ _ _ _ (by decide)]
  rfl

/-! ### A port reset (R170, R578) -/

/-- A fold of steps that each leave something alone leaves it alone. -/
theorem foldl_keeps {β γ : Type} (g : State → γ) (f : State → β → State) (h : ∀ s x, g (f s x) = g s) (l : List β) (s : State) :
    g (l.foldl f s) = g s :=
  List.foldlRecOn l f (motive := fun t => g t = g s) rfl (fun t ht x _ => (h t x).trans ht)

@[simp] theorem setEngine_portState (p : Nat) (isSeal : Bool) (e : Nat) (s : State) (q : Nat) :
    (setEngine p isSeal e s).portState q = s.portState q := by
  unfold setEngine
  split <;> exact State.fld_wrF_ne _ _ _ _ _ _ _ _ (portStatus_ne_engines _ _)

/-- A bit of PRT_STATUS above STATE shows no other state of any port. -/
theorem portState_wrB_status (s : State) (p i : Nat) (b : Bool) (q : Nat) (h : 2 < i) (hi : i < 32) :
    (s.wrB (Reg.PRT_STATUS p) i b).portState q = s.portState q := by
  by_cases hq : Reg.PRT_STATUS q = Reg.PRT_STATUS p
  · rw [State.portState, hq, State.fld_wrB_apart _ _ _ _ _ _ hi (.inl h) (by decide), State.portState, hq]
  · exact State.fld_wrB_ne _ _ _ _ _ _ _ hq

@[simp] theorem releaseEngine_portState (p : Nat) (isSeal : Bool) (e : Nat) (s : State) (q : Nat) :
    (releaseEngine p isSeal e s).portState q = s.portState q := by
  have hspare (u : State) (i : Nat) : (u.wrB (Reg.DPL_SPARE (engineCluster e)) i false).portState q = u.portState q :=
    State.fld_wrB_ne _ _ _ _ _ _ _ (portStatus_ne_spare _ _)
  have hslice (u : State) (hi lo v : Nat) : (u.wrF (Reg.DPL_SPARE (engineCluster e)) hi lo v).portState q = u.portState q :=
    State.fld_wrF_ne _ _ _ _ _ _ _ _ (portStatus_ne_spare _ _)
  have hk : b2n isSeal < 2 := by cases isSeal <;> decide
  unfold releaseEngine
  dsimp only
  split
  · rw [portState_wrB_status _ _ _ _ _ (by omega) (by omega), portState_wrB_status _ _ _ _ _ (by omega) (by omega)]
  · rw [hslice, hslice, hspare, hspare, portState_wrB_status _ _ _ _ _ (by omega) (by omega),
      portState_wrB_status _ _ _ _ _ (by omega) (by omega)]

theorem regainEngines_portState (p : Nat) (s : State) (q : Nat) : (regainEngines p s).portState q = s.portState q := by
  unfold regainEngines
  dsimp only
  rw [foldl_keeps (fun t => t.portState q) _ (fun t e => by simp)]
  rfl

theorem resetMac_portState (p : Nat) (s : State) (q : Nat) : (resetMac p s).portState q = s.portState q := by
  unfold resetMac
  rw [portState_wrB_status _ _ _ _ _ (by decide) (by decide)]
  rfl

/-- A port reset takes regained engines up and resets the MAC; a port that is not OFF then trains. -/
theorem portReset_now (p : Nat) (s : State) (hg : s.fld (Reg.PRT_CTL p) 7 6 = 0) (hm : s.member p = false) (ht : (s.port p).takeover = none) :
    portReset p s = if s.portState p = 0 then resetMac p (regainEngines p s) else portDown p 1 (resetMac p (regainEngines p s)) := by
  have hidle : ¬ s.takingOver p = true := by simp [State.takingOver, lanes_single s p hg, ht]
  unfold portReset
  dsimp only
  rw [leadOf_self s p hm, if_neg hidle, lanes_single s p hg, List.foldl_cons, List.foldl_nil, resetMac_portState, regainEngines_portState]

/-- A port reset during a takeover waits for its end. -/
theorem portReset_waits (p : Nat) (s : State) (hg : s.fld (Reg.PRT_CTL p) 7 6 = 0) (hm : s.member p = false) (ht : (s.port p).takeover ≠ none) :
    portReset p s = s.setPort p { s.port p with resetPending := true } := by
  have hbusy : s.takingOver p = true := by simpa [State.takingOver, lanes_single s p hg, Option.isSome_iff_ne_none] using ht
  unfold portReset
  dsimp only
  rw [leadOf_self s p hm, if_pos hbusy]

/-! ### Counters cleared (R176) -/

/-- CNT_CLR returns the counters of its port to their reset values and changes no other register. -/
theorem clearPortCounters_rd (p : Nat) (s : State) (a : Nat) :
    (clearPortCounters p s).rd a = if Reg.portBase p + 0x80 ≤ a ∧ a < Reg.portBase p + 0x19C then regDefault a else s.rd a := by
  unfold clearPortCounters
  rw [State.rd_clearRegs]
  simp only [Bool.and_eq_true, decide_eq_true_eq, rd_withPlane]

theorem clearPortCounters_ports (p : Nat) (s : State) : (clearPortCounters p s).dp.ports = s.dp.ports := by
  unfold clearPortCounters
  rw [State.clearRegs_dp]

/-! ### GROUP and the members of a group (R177) -/

/-- A step of the first pass of a regrouping: a member is one no longer. -/
def clearMember (s : State) (p : Nat) : State := if s.member p then s.wrB (Reg.PRT_STATUS p) 9 false else s

/-- A step of the second pass: the lanes of a port above its lowest are members. -/
def markMembers (s : State) (p : Nat) : State := ((s.lanes p).drop 1).foldl (fun s q => s.wrB (Reg.PRT_STATUS q) 9 true) s

theorem regroup_eq (first n : Nat) (s : State) :
    regroup first n s = ((List.range n).map (first + ·)).foldl markMembers (((List.range n).map (first + ·)).foldl clearMember s) := rfl

section keeps
variable {γ : Type} (g : State → γ) (h : ∀ s q b, g (s.wrB (Reg.PRT_STATUS q) 9 b) = g s)
include h

theorem clearMember_keeps (s : State) (p : Nat) : g (clearMember s p) = g s := by
  unfold clearMember
  split
  · exact h _ _ _
  · rfl

theorem markMembers_keeps (s : State) (p : Nat) : g (markMembers s p) = g s := foldl_keeps g _ (fun s q => h s q true) _ _

/-- A regrouping leaves alone whatever does not read MEMBER. -/
theorem regroup_keeps (first n : Nat) (s : State) : g (regroup first n s) = g s := by
  rw [regroup_eq, foldl_keeps g _ (markMembers_keeps g h), foldl_keeps g _ (clearMember_keeps g h)]

end keeps

/-- The lanes of a port do not depend on MEMBER. -/
theorem lanes_wrB_status (s : State) (q i : Nat) (b : Bool) (p : Nat) : (s.wrB (Reg.PRT_STATUS q) i b).lanes p = s.lanes p := by
  rw [State.lanes, State.fld_wrB_ne _ _ _ _ _ _ _ (portStatus_ne_portCtl p q).symm, plane_wrB, State.lanes]

/-- MEMBER set on a lane clears no other. -/
theorem member_wrB_true (s : State) (q x : Nat) (h : s.member q = true) : (s.wrB (Reg.PRT_STATUS x) 9 true).member q = true := by
  by_cases hq : Reg.PRT_STATUS q = Reg.PRT_STATUS x
  · rw [State.member, hq, State.bitOf_wrB_same _ _ _ _ (by decide)]
  · rw [State.member, State.bitOf_wrB_ne _ _ _ _ _ _ hq]
    exact h

theorem member_foldl_marks (q : Nat) (l : List Nat) : ∀ s : State, q ∈ l ∨ s.member q = true →
    (l.foldl (fun s q => s.wrB (Reg.PRT_STATUS q) 9 true) s).member q = true := by
  induction l with
  | nil => exact fun s h => h.resolve_left List.not_mem_nil
  | cons x l ih =>
    intro s h
    refine ih _ ?_
    rcases h with h | h
    · rcases List.mem_cons.1 h with rfl | h
      · exact .inr (State.bitOf_wrB_same _ _ _ _ (by decide))
      · exact .inl h
    · exact .inr (member_wrB_true _ _ _ h)

/-- After the second pass the upper lanes of every port passed are members, and so is every member before. -/
theorem member_foldl_markMembers (q : Nat) (l : List Nat) : ∀ s : State, (∃ p ∈ l, q ∈ (s.lanes p).drop 1) ∨ s.member q = true →
    (l.foldl markMembers s).member q = true := by
  induction l with
  | nil => exact fun s h => h.resolve_left (by simp)
  | cons x l ih =>
    intro s h
    refine ih _ ?_
    rcases h with ⟨p, hp, hq⟩ | h
    · rcases List.mem_cons.1 hp with rfl | hp
      · exact .inr (member_foldl_marks _ _ _ (.inl hq))
      · exact .inl ⟨p, hp, by rwa [markMembers_keeps (fun s => s.lanes p) (fun s q b => lanes_wrB_status s q 9 b p)]⟩
    · exact .inr (member_foldl_marks _ _ _ (.inr h))

/-- After a regrouping the upper lanes of every port in its range are members. -/
theorem regroup_member (first n : Nat) (s : State) (p q : Nat) (hp : first ≤ p ∧ p < first + n) (hq : q ∈ (s.lanes p).drop 1) :
    (regroup first n s).member q = true := by
  rw [regroup_eq]
  refine member_foldl_markMembers _ _ _ (.inl ⟨p, List.mem_map.2 ⟨p - first, List.mem_range.2 (by omega), by omega⟩, ?_⟩)
  rwa [foldl_keeps (fun s => s.lanes p) _ (clearMember_keeps (fun s => s.lanes p) (fun s q b => lanes_wrB_status s q 9 b p))]

/-- GROUP keeps its value while a lane is not OFF. -/
theorem setGroup_keeps (p g : Nat) (s : State) (h : groupOk s p g = false) : setGroup p g s = s := if_pos (.inr (by simp [h]))

theorem groupOk_lane_on (s : State) (p g : Nat) (hg : s.fld (Reg.PRT_CTL p) 7 6 = 0) (hs : s.portState p ≠ 0) : groupOk s p g = false := by
  simp [groupOk, hg, groupLanes, hs]

/-- Two lanes that are OFF are grouped. -/
theorem setGroup_two (p : Nat) (s : State) (hg : s.fld (Reg.PRT_CTL p) 7 6 = 0) (h0 : s.portState p = 0) (h1 : s.portState (p + 1) = 0)
    (he : p % 2 = 0) : setGroup p 1 s = regroup (p / 4 * 4) 4 (s.wrF (Reg.PRT_CTL p) 7 6 1) := by
  have hok : groupOk s p 1 = true := by simp [groupOk, hg, groupLanes, h0, h1, he]
  exact if_neg (by simp [hg, hok])

/-- A change of GROUP keeps ENABLE and RELEASE. -/
theorem setGroup_bit (p g : Nat) (s : State) (i : Nat) (h : i < 6) : (setGroup p g s).bitOf (Reg.PRT_CTL p) i = s.bitOf (Reg.PRT_CTL p) i := by
  unfold setGroup
  split
  · rfl
  · rw [regroup_keeps (fun s => s.bitOf (Reg.PRT_CTL p) i) (fun s q b => State.bitOf_wrB_ne _ _ _ _ _ _ (portStatus_ne_portCtl p q).symm),
      State.bitOf_wrF_apart _ _ _ _ _ _ (by decide) (by decide) (.inl h)]

/-- A write of PRT_CTL that keeps ENABLE and RELEASE and clears no counter writes the plain fields and GROUP. -/
theorem writePortCtl_group (p : Nat) (v : Word) (s : State) (h0 : bit v 0 = s.bitOf (Reg.PRT_CTL p) 0)
    (h1 : bit v 1 = s.bitOf (Reg.PRT_CTL p) 1) (h8 : bit v 8 = false) :
    writePortCtl p v s = setGroup p (bits v 7 6) (s.wrF (Reg.PRT_CTL p) 5 2 (bits v 5 2)) := by
  have hkeep (i : Nat) (hi : i < 2) : (setGroup p (bits v 7 6) (s.wrF (Reg.PRT_CTL p) 5 2 (bits v 5 2))).bitOf (Reg.PRT_CTL p) i
      = s.bitOf (Reg.PRT_CTL p) i := by
    rw [setGroup_bit _ _ _ _ (by omega), State.bitOf_wrF_apart _ _ _ _ _ _ (by decide) (by decide) (.inl hi)]
  unfold writePortCtl
  dsimp only
  rw [if_pos ((hkeep 1 (by decide)).trans h1.symm), if_pos ((hkeep 0 (by decide)).trans h0.symm), if_neg (by simp [h8])]

/-! ### The statement -/

/-- Settles O16: each command is brought to the one operation it does on a port of one lane, and the rules above say what that changes. -/
theorem portStates : Obligations.PortStates := by
  unfold Obligations.PortStates
  intro port s hg hm
  have hplain (v : Word) : (s.wrF (Reg.PRT_CTL port) 5 2 (bits v 5 2)).fld (Reg.PRT_CTL port) 7 6 = 0 :=
    (State.fld_wrF_apart _ _ _ _ _ _ _ (by decide) (by decide) (by decide) (by decide)).trans hg
  refine ⟨?_, ?_, ?_, ?_, ?_, ?_, ?_, ?_, ?_, ?_, ?_⟩
  · intro hs hd hz
    have hg' : ((s.wrB (Reg.PRT_CTL port) 0 true).setPort port { s.port port with trainStart := s.ms }).fld (Reg.PRT_CTL port) 7 6 = 0 := by
      rw [fld_setPort, group_wrB s port 0 true (by decide), hg]
    refine ⟨_, (exec_portEnable port s).trans (congrArg Host.Outcome.next (setEnable_trains port s hg hm hs hd hz)), ?_, ?_, ?_, ?_⟩
    · exact setPortState_portState _ _ _ _ hg' (by decide)
    · exact setPortState_portLink _ _ _ _ hg'
    · rw [setPortState_ctl _ _ _ _ hg', bitOf_setPort, State.bitOf_wrB_same _ _ _ _ (by decide)]
    · rw [setPortState_port _ _ _ _ hg', State.port_setPort_same]
  · intro hs
    refine ⟨setPortState port (if s.releaseOn port then 3 else 2) true s, ?_, setPortState_portLink _ _ _ _ hg, ?_⟩
    · rw [exec_portLinkUp]
      exact if_neg (by simp [hs, hm])
    · exact setPortState_portState _ _ _ _ hg (by split <;> decide)
  · obtain ⟨hbit, hdp⟩ := setRelease_frame port true s hg hm
    have hst := setRelease_portState port true s hg hm
    exact ⟨_, exec_portRelease port s, hbit, fun h2 hr => by rw [hst, if_pos (.inl h2), if_pos hr],
      fun hlt => by rw [hst, if_neg (by omega)], hdp⟩
  · obtain ⟨hbit, hdp⟩ := setRelease_frame port false s hg hm
    have hst := setRelease_portState port false s hg hm
    rw [releaseOn_clear, if_neg Bool.false_ne_true] at hst
    refine ⟨_, exec_portHold port s, hbit, hdp, fun h3 => by rw [hst, if_pos (.inr h3)], fun h3 => ?_⟩
    rw [hst]
    split <;> omega
  · intro hl
    refine ⟨_, ?_, rfl⟩
    rw [exec_portLinkLost]
    exact if_neg (by simp [hl, hm])
  · intro hs
    exact ⟨_, (exec_portDisable port s).trans (congrArg Host.Outcome.next (setEnable_off port s hm hs)), rfl⟩
  · intro value h0 hkey
    have hreset : exec (.portReset port value) s = .next (portReset port s) := by
      rw [exec_portReset]
      exact if_pos ⟨h0, hkey⟩
    refine ⟨fun ht => ⟨_, hreset, fun hs => ?_, fun hs => ?_⟩, fun ht => ⟨_, hreset, portReset_waits port s hg hm ht⟩⟩
    · rw [portReset_now port s hg hm ht, if_pos hs]
    · rw [portReset_now port s hg hm ht, if_neg hs]
  · intro value hbad
    rw [exec_portReset]
    exact if_neg fun h => hbad.elim (fun h0 => by simp [h0] at h) (fun hkey => hkey h.2)
  · refine ⟨_, exec_portCounterClear port s, fun a hlo hhi => ?_, fun a hout => ?_, clearPortCounters_ports port s⟩
    · rw [clearPortCounters_rd, if_pos ⟨hlo, hhi⟩]
    · rw [clearPortCounters_rd, if_neg (by omega)]
  · intro value hs _ h0 h1 h8
    have hkeep := setGroup_keeps port (bits value 7 6) (s.wrF (Reg.PRT_CTL port) 5 2 (bits value 5 2))
      (groupOk_lane_on _ _ _ (hplain value) (by simpa using hs))
    have hwrite := (writePortCtl_group port value s h0 h1 h8).trans hkeep
    refine ⟨_, (exec_portGroupWrite port value s).trans (congrArg Host.Outcome.next hwrite), hplain value, ?_, State.wrF_dp _ _ _ _ _⟩
    rw [State.fld_wrF_same _ _ _ _ _ (by decide) (by decide)]
    exact Nat.mod_eq_of_lt (bits_lt _ _ _)
  · intro value hs hs1 he hv h0 h1 h8
    have htwo := setGroup_two port (s.wrF (Reg.PRT_CTL port) 5 2 (bits value 5 2)) (hplain value) (by simpa using hs) (by simpa using hs1) he
    have hgroup : ((s.wrF (Reg.PRT_CTL port) 5 2 (bits value 5 2)).wrF (Reg.PRT_CTL port) 7 6 1).fld (Reg.PRT_CTL port) 7 6 = 1 :=
      State.fld_wrF_same _ _ _ _ _ (by decide) (by decide)
    have hwrite := writePortCtl_group port value s h0 h1 h8
    rw [hv, htwo] at hwrite
    refine ⟨_, (exec_portGroupWrite port value s).trans (congrArg Host.Outcome.next hwrite), ?_, ?_, fun hn => ?_⟩
    · rw [regroup_keeps (fun s => s.fld (Reg.PRT_CTL port) 7 6) (fun s q b => State.fld_wrB_ne _ _ _ _ _ _ _ (portStatus_ne_portCtl port q).symm),
        hgroup]
    · rw [regroup_keeps (fun s => s.dp) (fun s q b => State.wrB_dp s _ 9 b), State.wrF_dp, State.wrF_dp]
    · have hlanes : ((s.wrF (Reg.PRT_CTL port) 5 2 (bits value 5 2)).wrF (Reg.PRT_CTL port) 7 6 1).lanes port = [port.val, port.val + 1] := by
        rw [State.lanes, hgroup, plane_wrF, plane_wrF, if_neg hn, groupLanes, if_pos rfl]
      exact regroup_member _ _ _ port _ (by omega) (by simp [hlanes])

end Sys2Proof.Machine
end
